-- ==== Sys2Proof/Word.lean ====
section
/-! DEFINITION. The word types of the ZS-4800 and the plainest arithmetic on them (R8: little-endian, bit 0 least significant). -/

namespace Sys2Proof

/-- One byte of memory or of a message. -/
abbrev Byte := BitVec 8

/-- One 32-bit register of the management aperture (R41, R46). -/
abbrev Word := BitVec 32

/-- A 64-bit register or operand (R142). -/
abbrev Word64 := BitVec 64

/-- Ceiling division, as the cost formulas of the manual write it. -/
def cdiv (a b : Nat) : Nat := (a + b - 1) / b

end Sys2Proof
end

