-- ==== Sys2Proof/Syntax.lean ====
section
/-! DEFINITION. The commands of the block: one constructor of `Instr` per row of spec/opcode_table.json, with the row's operands. -/

namespace Sys2Proof

/-- Which half of a 64-bit register an aligned access reaches (R142). -/
inductive Half where
  | lo    -- a 4 B access to the low half
  | hi    -- a 4 B access to the high half
  | both  -- an 8 B access
  deriving DecidableEq, Repr

/-- A ZFL or ZTL message: the header of R455 and the payload. -/
structure Msg where
  /-- `KIND` (R456). -/
  kind : Nat
  cls : Nat := 0
  /-- `EPOCH`: the version bit (R467). -/
  epoch : Bool := false
  mcast : Bool := false
  colour : Nat := 0
  posted : Bool := false
  src : Nat := 0
  /-- The module the message goes to: `DST`, but for a copy of a multicast, whose `DST` is `group`. -/
  dst : Nat := 0
  group : Nat := 0
  sub : Nat := 0
  /-- `CTX_TAG` (R475). -/
  ctx : Nat := 0
  gen : Nat := 0
  seq : Nat := 0
  stream : Nat := 0
  addr : Nat := 0
  label : Nat := 0
  /-- `E2E_CRC` as it was received. -/
  crc : Word := 0
  payload : List Byte := []
  deriving DecidableEq, Repr

/-- An acknowledgement record (R459): `TYPE` 1 is ACK, 2 is NAK. -/
structure AckRec where
  acker : Nat
  sender : Nat
  seq : Nat
  stream : Nat
  type : Nat
  deriving DecidableEq, Repr

/-- The part of a queued request that the switch core can combine (R433). -/
inductive Comb where
  | rdCur (line : Nat)
  | add (addr size operand : Nat)
  /-- A store, write or other atomic to this line: it never combines. -/
  | other (line : Nat)
  deriving DecidableEq, Repr

/-- A message entering a switch core (R290, R300, R302). -/
structure SwMsg where
  /-- Ingress byte of the flow key (R300). -/
  ingress : Nat
  /-- Destination module number (R300). -/
  dest : Nat := 0
  /-- Egress index E (R291). -/
  egress : Nat
  cls : Nat
  ctx : Nat := 0
  label : Nat := 0
  /-- Cells of the message, 1-32. -/
  cells : Nat := 1
  /-- Cells already written when the first is (all of them for a message that is there whole). -/
  arrived : Nat := 1
  /-- Coherence message class 1-5 (R421), or 0 for a message that is no coherence message. -/
  coh : Nat := 0
  /-- Colour carried in the ZFL header (R316). -/
  colour : Nat := 0
  /-- Zenith flow number (R80). -/
  flow : Nat := 0
  /-- Routed to this trunk (R301), if the egress is a trunk member. -/
  trunk : Option Nat := none
  comb : Option Comb := none
  deriving DecidableEq, Repr

/-- An agent of the coherence protocol (R409), or a source of requests. -/
inductive Agent where
  | host (n : Nat)
  | core (n : Nat)
  /-- An engine or unit of die d: uncached requests only. -/
  | unit (d : Nat)
  /-- A requester over the ZFL link port n. -/
  | zfl (n : Nat)
  deriving DecidableEq, Repr

/-- An atomic operation (R429): code, size in bytes, operands, posted form. -/
structure Atomic where
  code : Nat
  size : Nat
  operand : Nat
  swap : Nat := 0
  posted : Bool := false
  deriving DecidableEq, Repr

/-- One request inside a combined ADD (R433, R434). -/
structure AddMember where
  agent : Agent
  operand : Nat
  posted : Bool
  deriving DecidableEq, Repr

/-- What a sample of the power and thermal manager reads (R570, R577, R578). DESIGN CHOICE, safe: notes/assumptions/63.md. -/
structure Sample where
  vinMv : Nat
  iinMa : Nat
  pinW : Nat
  dieC : List Nat
  stackC : List Nat
  railsOk : Bool
  deriving DecidableEq, Repr

/-- What the debug access port does at Intrusive (R510, R513). -/
inductive DebugAct where
  | haltEngine (e : Nat)
  | releaseEngine (e : Nat)
  | haltCore (c : Nat)
  | releaseCore (c : Nat)
  | readReg (off : Nat)
  | writeReg (off : Nat) (v : Word)
  | readScratch (space byte : Nat)
  | writeScratch (space byte : Nat) (v : Byte)
  | readPool (a : Nat)
  | writePool (a : Nat) (v : Byte)
  | stepEngine (e : Nat)
  | stepCore (c : Nat)
  deriving DecidableEq, Repr

/-- What a trained host port negotiated (R441, R473). -/
structure HostLink where
  gen : Nat
  rate : Nat
  width : Nat
  flit256 : Bool
  /-- Capacity of the device below a downstream port, in units of 256 MiB (R449). -/
  capacity : Nat := 0
  deriving DecidableEq, Repr

/-- What a HELLO carries (R469, R495). -/
structure Hello where
  /-- The sender speaks ZTL. -/
  ztl : Bool
  module : Nat := 0
  serial : Word64 := 0
  nonce : List Byte := []
  /-- The link confirmation of R495, once both nonces are exchanged. -/
  confirm : Option (List Byte) := none
  /-- Tray kind: 0 none, 1 DRAM, 2 flash. -/
  kind : Nat := 0
  pages : Nat := 0
  readNs : Nat := 0
  writeNs : Nat := 0
  dies : Nat := 0
  blocks : Nat := 0
  pSlc : Nat := 0
  ratedTlc : Nat := 0
  ratedQlc : Nat := 0
  deriving DecidableEq, Repr

/-- A PTP message (R60): a Sync with the origin time of a one-step master, or the first part of a two-step one; the Follow_Up with the
origin time; the response to a delay request with the time at which the master received it. -/
inductive PtpMsg where
  | sync (twoStep : Bool) (origin : Nat)
  | followUp (origin : Nat)
  | delayResp (received : Nat)
  deriving DecidableEq, Repr

/-- What the storage of an operation's scratch window shows in a step (R165): lines that turn out uncorrectable, corrected errors. -/
structure ScrIn where
  bad : List Nat := []
  ce : Nat := 0
  deriving DecidableEq, Repr

/-- The commands. `port` is a host port number unless stated; `op` is the model's number of an operation in flight
(R154); `ue` lists the 64 B lines of pool memory that read uncorrectable in this step. -/
inductive Instr where
  -- registers, window, time
  | registerWrite (port off : Nat) (v : Word)
  | tenantWindowAccess (port off : Nat) (write : Bool) (half : Half) (v : Word64)
  | frameBoundary
  | slotBoundary
  | ptpMessage (domain transport : Nat) (m : PtpMsg)
  | holdoverTimeout
  | merCtrlWrite (port : Nat) (v : Word)
  | merFrameLoRead (port : Nat)
  -- Ephemeris control
  | loadPool (port : Nat)
  | loadLibrary (port index : Nat)
  | discardStandby (port : Nat)
  | stopActive (port : Nat)
  | imageReadDone (ue : List Nat)
  | admissionCheckDone
  | ephArm (port : Nat) (withComposition : Bool)
  | ephDisarm (port : Nat)
  | ephArmEpochWrite (port : Nat) (v : Word)
  | recheckDone
  /-- `tierFault`: a read of the ring meets a quota or tier fault (R126). -/
  | entryStart (entry : Nat) (ue : List Nat) (tierFault : Bool)
  | frameOverrun (entry : Nat)
  -- queues
  | doorbell (port q : Nat) (v : Word) (cycle : Nat)
  | qCfgWrite (port q : Nat) (v : Word)
  | queueEnable (port q : Nat)
  | queueDisable (port q : Nat)
  | qRingLoWrite (port q : Nat) (v : Word)
  | qLogRdWrite (port q : Nat) (v : Word)
  /-- `tierFault`: a read of the ring meets a quota or tier fault (R126). -/
  | descriptorRead (q cycle : Nat) (ue : List Nat) (tierFault : Bool)
  | nop (op : Nat)
  | copy (op : Nat) (ue : List Nat)
  | fill (op : Nat)
  | counterOp (op : Nat)
  | operationComplete (op : Nat)
  -- counters
  | cValueWrite (port c : Nat) (half : Half) (v : Word64)
  | cAddWrite (port c : Nat) (half : Half) (v : Word64)
  | cBindWrite (port c : Nat) (v : Word)
  | cFailClrWrite (port c : Nat) (v : Word)
  | cNotifyCfgWrite (port c : Nat) (v : Word)
  | cNotifyValueWrite (port c : Nat) (half : Half) (v : Word64)
  -- engines. With `stepwise` the program is decoded only, and the micro-operation rows run it one by one.
  | arrayProgram (op : Nat) (stepwise : Bool) (ue : List Nat) (scr : ScrIn)
  | ld (op : Nat) (ue : List Nat) (scr : ScrIn)
  | st (op : Nat) (scr : ScrIn)
  | mma (op : Nat) (scr : ScrIn)
  | accIn (op : Nat) (scr : ScrIn)
  | accOut (op : Nat) (scr : ScrIn)
  | vop (op : Nat) (scr : ScrIn)
  | transpose (op : Nat) (scr : ScrIn)
  | reduce (op : Nat) (ue : List Nat) (scr : ScrIn)
  /-- `inCost`: the run ends within its `COST` (R222). -/
  | reduceStreamRun (op : Nat) (inCost : Bool) (scr : ScrIn)
  | steeredWrite (ctx addr : Nat) (data : List Byte) (poisoned : Bool)
  /-- `poisoned`: the block's data arrive uncorrectable (R225). -/
  | redPartial (link : Nat) (poisoned : Bool)
  | gather (op : Nat) (ue : List Nat)
  | gatherReduce (op : Nat) (ue : List Nat)
  | rowFilter (op : Nat) (ue : List Nat)
  | scoreFilter (op : Nat) (ue : List Nat)
  | compress (op : Nat) (ue : List Nat)
  | expand (op : Nat) (ue : List Nat)
  | expandBlockDecode (op : Nat) (ue : List Nat) (scr : ScrIn)
  -- switch core and traffic manager
  | messageIngress (die : Nat) (m : SwMsg)
  | creditReturn (link stream cells : Nat)
  /-- `ready`: the next cell of a cut-through message has arrived (R297). -/
  | egressPosition (die e : Nat) (ready : Bool)
  | gateEntryExpiry (die e : Nat)
  | egGateSwitch (port die e : Nat)
  | tmTelemRdWrite (port die : Nat) (v : Word)
  -- pool map and tiers
  | map (port : Nat)
  | unmap (port : Nat)
  | setFlags (port : Nat)
  | query (port : Nat)
  | pmapCommandDone
  /-- `window`: the migration entry used, or none in slack; `ok`: the destination takes the writes; `ue`: lines that the source reads
  uncorrectable. -/
  | migrationChunkCopy (page : Nat) (window : Option Nat) (ok : Bool) (ue : List Nat)
  | sourceFree (page : Nat)
  | wsOpen (op : Nat) (ue : List Nat)
  | wsClose (op : Nat)
  | wsStage (stream : Nat)
  | wsStageDone (stream : Nat)
  | cpOpen (op : Nat)
  | cpAppend (op : Nat) (ue : List Nat)
  | cpSeal (op : Nat)
  | cpStatus (op : Nat)
  | cpReplay (op : Nat)
  | cpClose (op : Nat)
  | mirrorRebuild (handle : Nat) (tray : Nat)
  | pageScrub (page : Nat)
  | pageScrubComplete (page : Nat)
  -- flash
  | writeCacheFill (link page unit : Nat)
  | destage (link : Nat)
  | folding (link : Nat) (verifyOk : Bool)
  | flashDieFailure (link die : Nat)
  | garbageCollection (link group : Nat) (verifyOk : Bool)
  | wearLevelling (link die : Nat) (verifyOk : Bool)
  | readRefresh (link stripe : Nat) (verifyOk : Bool)
  | secureDiscard (link page : Nat) (eraseOk programOk : Bool)
  | secureDiscardComplete (link page : Nat)
  -- coherence
  | rdCur (a : Agent) (ctx line : Nat) (dirUe : Bool)
  | rdS (a : Agent) (ctx line : Nat) (dirUe : Bool)
  | rdOwn (a : Agent) (ctx line : Nat) (dirUe : Bool)
  | upgrade (a : Agent) (ctx line : Nat)
  | wrLine (a : Agent) (ctx line : Nat) (data : List Byte) (dirUe : Bool)
  | wrPart (a : Agent) (ctx addr : Nat) (data : List Byte)
  | homeAtomic (a : Agent) (ctx addr : Nat) (op : Atomic)
  | combinedAdd (ctx addr size : Nat) (members : List AddMember)
  | snpCur (core line : Nat)
  | snpData (core line : Nat)
  | snpInv (core line : Nat)
  | rspI (a : Agent) (line : Nat)
  | rspS (a : Agent) (line : Nat)
  /-- A BIRsp of a host; `some d` when it carries the line's dirty data. -/
  | biRsp (host line : Nat) (data : Option (List Byte))
  | dirtyEvict (a : Agent) (line : Nat) (data : List Byte)
  | cleanEvict (a : Agent) (line : Nat)
  | serviceCoreEviction (core line : Nat)
  | biSnpTimeout (host : Nat)
  | recallDone (domain : Nat)
  -- links and messages
  | linkSlotReceive (link : Nat) (gcmOk aligned : Bool) (credits : List (Nat × Nat)) (acks : List AckRec)
      (msgs : List Msg) (fecCorr fecUncorr : Nat)
  | e2eTimeout (link peer stream : Nat)
  | rd (link : Nat) (ue : List Nat)
  | rdData (link : Nat)
  | wr (link : Nat)
  | wrResp (link : Nat)
  | atomic (link : Nat)
  | atomicResp (link : Nat)
  | mirrorWr (link : Nat)
  | abortNotice (link : Nat)
  | epochNotice (link : Nat)
  | hello (link : Nat) (h : Hello)
  | tRd (link addr bytes ctx : Nat)
  | tRdData (link : Nat)
  | tWr (link addr ctx : Nat) (data : List Byte)
  | tWrResp (link : Nat)
  | tAtomic (link addr ctx : Nat) (op : Atomic)
  | tAtomicResp (link : Nat)
  /-- A flash page command: 0 read, 1 program, 2 erase. -/
  | tFlCmd (link cmd level die block page : Nat)
  | tFlResp (link page unit : Nat) (ok rowOk verifyOk : Bool)
  | linkTrained (link lanes rttNs : Nat) (nonce : List Byte)
  | linkDown (link : Nat) (laneFailed : Bool)
  | rtArm (port : Nat) (v : Word)
  | rtDisarm (port : Nat) (v : Word)
  | rtArmEpochWrite (port : Nat) (v : Word)
  | hpDisable (port n : Nat)
  | hpRetrain (port n : Nat)
  | lpDisable (port n : Nat)
  | lpRetrain (port n : Nat)
  | hostPortTrained (n : Nat) (l : HostLink)
  | hostPortDown (n : Nat)
  | memRead (port dpa : Nat) (ideOk : Bool) (ue : List Nat)
  | memWrite (port dpa : Nat) (data : List Byte) (enable : BitVec 64) (ideOk : Bool)
  | atomicOp (port dpa : Nat) (op : Atomic)
  /-- `mask`: the request masks (true) or unmasks an MSI-X vector of the port's function 0 (R147). -/
  | configRequest (port : Nat) (mask : Option (Nat × Bool))
  | ideKeyProgram (port : Nat) (key : BitVec 256)
  | expanderLoss (n : Nat)
  | hrefLoss (g : Nat)
  | hrefRestore (g : Nat)
  /-- `k`: bit number in MOD_CLK_LOCK [11:0] (R48). -/
  | pllLockLoss (k : Nat)
  | pllRelock (k : Nat)
  -- contexts and security
  | define (port ctx slice : Nat)
  | occult (port ctx : Nat)
  | release (port ctx : Nat)
  | replayStoreRelease (link : Nat) (ctx : Nat)
  | seal (port confirm : Nat)
  | maintEnter (port confirm : Nat)
  | debugLevelRequest (port : Nat) (v : Word)
  | attestationKeyMade (certified : Bool)
  /-- `i3c`: the request comes over I3C, otherwise over owner port `port`. -/
  | getIdentity (i3c : Bool) (port : Nat) (wellFormed : Bool)
  | getAttKey (i3c : Bool) (port : Nat) (wellFormed : Bool)
  | getReport (i3c : Bool) (port : Nat) (nonce : List Byte)
  | dbgTraceRdWrite (port : Nat) (v : Word)
  -- health and recovery
  | replayFinished (engine : Nat)
  | faultCtx (port ctx : Nat)
  | abortCtx (port ctx : Nat)
  | dieReset (port unit confirm : Nat)
  | moduleReset (port confirm : Nat)
  | retrainStack (port unit confirm : Nat)
  | stackRetrainDone (stack : Nat)
  /-- Stack `n` when `isStack`, link port `n` otherwise. -/
  | retrainTimeout (isStack : Bool) (n : Nat)
  | dieResetDone (die : Nat)
  | dieResetTimeout (die : Nat)
  | d2dPathFailure (a b : Nat)
  | admitArm (port k : Nat) (v : Word)
  | mirrorResync (region page : Nat)
  | hmLogRdWrite (port : Nat) (v : Word)
  -- start, power, pins
  | moduleStart (vinMv : Nat) (sysclkOk norPresent sigAlmOk sigFwOk : Bool)
  | modReady (selfTest : Word)
  | startTimeout
  | startImageLoad (locked : Bool)
  | pwrEnLow
  | resetNLow
  | norRequest
  /-- `writes`: what the integrator's programmer has written to the NOR while it was granted (R565): address and byte. -/
  | norRelease (writes : List (Nat × Byte))
  | verify (port confirm : Nat)
  | verifyDone (sigAlmOk sigFwOk : Bool)
  | write (port confirm : Nat)
  | writeDone (readBackOk : Bool)
  | abort (port confirm : Nat)
  | powerSample (x : Sample)
  | full (port : Nat)
  | idle (port : Nat)
  | retain (port : Nat)
  | off (port confirm : Nat)
  | powerTransitionDone
  | sysclkLoss
  | extest (v : Nat)
  | idcode
  | samplePreload (v : Nat)
  | secStatus
  | debugAccess (d : DebugAct)
  | bypass
  | tapReset
  | flashDieRebuild (link page unit : Nat) (verifyOk : Bool)
  | serviceCoreAccess (core ctx line : Nat) (store : Option (List Byte))
  | grant (core line : Nat) (state : Nat) (data : Option (List Byte))
  | standbyPowerLoss
  deriving DecidableEq, Repr

end Sys2Proof
end

