-- ==== Sys2Proof/Config.lean ====
section
/-! DEFINITION. What manufacture fuses, what the manual leaves to cited standards, and the free values: constants without a body,
so nothing can be proved of their values (notes/assumptions/1.md, 2.md, 3.md). -/

namespace Sys2Proof.Config

/-- Fused secrets of the root of trust (R489). DESIGN CHOICE, safe: notes/assumptions/1.md. -/
opaque kMem : List Byte
opaque kLot : List Byte
opaque idSeed : List Byte

/-- Fused identity registers (R46): stepping, serial number. -/
opaque modStepping : Word
opaque modSerialLo : Word
opaque modSerialHi : Word

/-- KMAC256 of NIST SP 800-185 as R491 uses it: K, X, L and S. -/
opaque kmac256 (k x : List Byte) (l : Nat) (s : String) : List Byte

/-- SHAKE256-256 (R498, R503, R555). -/
opaque shake256 (x : List Byte) : List Byte

/-- Byte i of the customer order's Almanac public key and of Gasaros's firmware public key; the fused hashes of both (R555). -/
opaque almKeyByte (i : Nat) : Byte
opaque fwKeyByte (i : Nat) : Byte
def almKeyHash : List Byte := shake256 ((List.range 68).map almKeyByte)
def fwKeyHash : List Byte := shake256 ((List.range 68).map fwKeyByte)

/-- The XMSS public key of a seed, and an XMSS signature at an index (R497, R500). -/
opaque xmssPublic (seed : List Byte) (height : Nat) : List Byte
opaque xmssSign (seed : List Byte) (height index : Nat) (m : List Byte) : List Byte

/-- AES-256-XTS of one 64 B line under a 512-bit key with the line's tweak (R493). -/
opaque xtsLine (key : List Byte) (tweak : Nat) (line : List Byte) : List Byte

/-- AES-256-GCM of cells that leave in a slot, under the link key and the 96-bit IV of the slot: ciphertext and tag (R453).
DESIGN CHOICE, safe: notes/assumptions/1.md. DESIGN CHOICE, safe: notes/assumptions/63.md. -/
opaque gcmRecord (key : List Byte) (iv : Nat) (plain : List Byte) : List Byte

/-- Free value: the n-th value the manual leaves open (an unstated result). Nothing constrains it.
DESIGN CHOICE, safe: notes/assumptions/2.md. -/
opaque freeWord (n : Nat) : Word

/-- Free value: the running time in ACLK of a COPY or FILL on an engine, for which no rule gives a unit cost (R135).
DESIGN CHOICE, safe: notes/assumptions/3.md. -/
opaque genericCost (opcode length : Nat) : Nat

/-- Free value: the set of a directory slice that a line falls into; the manual names no address bits for it (R412). -/
opaque dirSet (line : Nat) : Nat

/-- Free value: boundary-scan cells captured by SAMPLE and EXTEST (R583); the chain's length is not given either. -/
opaque scanCells (n : Nat) : Nat

end Sys2Proof.Config
end

