-- ==== Sys2Proof/Machine/Regs.lean ====
section
/-! DEFINITION. The management aperture (R40, R41) as a table: where each register lies, its reset value, and which of its bits a write
stores under which access code (R11). Registers that act on a write have a meaning of their own besides. -/

namespace Sys2Proof.Machine

/-- Bits of a register by access code: `rw` (RW), `rws` (RW-S), `w1c`; every other bit is RO, WO or reserved. -/
structure RegInfo where
  rw : Word := 0
  rws : Word := 0
  w1c : Word := 0
  reset : Word := 0
  deriving DecidableEq, Repr

/-- Base of die d's block (R40). -/
def dieBase (d : Nat) : Nat := 0x04000000 * (d + 1)

/-- Register at die offset `o` of die d. -/
def dieReg (d o : Nat) : Nat := dieBase d + o

/-- Queue q's block (R41, R29). -/
def queueBlock (q : Nat) : Nat := dieBase (q / 4096) + 0x01000000 + q % 4096 * 0x1000

/-- Counter c's block. -/
def counterBlock (c : Nat) : Nat := dieBase (c / 16384) + 0x02000000 + c % 16384 * 0x40

/-- Engine e's block. -/
def engineBlock (e : Nat) : Nat := dieBase (e / 64) + 0x02200000 + e % 64 * 0x1000

/-- Host port n's block. -/
def hostBlock (n : Nat) : Nat := dieBase (n / 12) + 0x03000000 + n % 12 * 0x10000

/-- Link port n's block. -/
def linkBlock (n : Nat) : Nat := dieBase (n / 16) + 0x03800000 + n % 16 * 0x10000

/-- Ephemeris control block of die d (R112). -/
def ephReg (d o : Nat) : Nat := dieReg d (0x02100000 + o)

/-- Context block (R476), quota block (R342), slice share block (R344), health entry (R517), tray block (R403). -/
def ctxReg (x o : Nat) : Nat := 0x50000 + x * 0x20 + o
def quotaReg (x o : Nat) : Nat := 0x10000 + x * 0x20 + o
def shareReg (s o : Nat) : Nat := 0x20000 + s * 0x20 + o
def healthReg (x o : Nat) : Nat := 0xB0000 + x * 0x10 + o
def trayReg (n o : Nat) : Nat := 0x30000 + n * 0x40 + o
/-- Domain block (R435) of domain d = 1..3, its member words (R438), its atomic ranges (R439). -/
def domReg (d o : Nat) : Nat := 0x400 + (d - 1) * 0x40 + o
def memberReg (d w : Nat) : Nat := 0x40000 + (d - 1) * 0x80 + 4 * w
def rangeReg (d r o : Nat) : Nat := 0x40200 + (d - 1) * 0x80 + r * 0x10 + o
/-- Permission-violation counter of port index i (R487). -/
def pviolReg (i : Nat) : Nat := 0x60000 + i * 4
/-- Composition map word (R481), routing table byte offset (R462), error log word (R546), mirror region (R540). -/
def sliceReg (v s o : Nat) : Nat := 0x70000 + v * 0x1000 + s * 0x40 + o
def routeReg (v o : Nat) : Nat := 0x80000 + v * 0x4000 + o
def logReg (i o : Nat) : Nat := 0x90000 + i * 0x20 + o
def mirrorReg (r o : Nat) : Nat := 0xC0000 + r * 0x10 + o
/-- Directory slice block (R440) of slice h. -/
def dirReg (h o : Nat) : Nat := dieReg (h / 2) (0x700 + h % 2 * 0x40 + o)
/-- Traffic-manager entry of context x (R322), egress block (R323), policer (R325) of die d. -/
def tmReg (d x : Nat) : Nat := dieReg d (0x600000 + x * 8)
def egReg (d e o : Nat) : Nat := dieReg d (0x610000 + e * 0x400 + o)
def polReg (d p o : Nat) : Nat := dieReg d (0x620000 + p * 0x20 + o)
/-- Reduce status block of engine e (R230). -/
def redReg (e o : Nat) : Nat := dieReg (e / 64) (0x1000 + e % 64 * 0x10 + o)
/-- Slot-map entries of host port n (R152). -/
def qmapReg (n k : Nat) : Nat := dieReg (n / 12) (0x400000 + n % 12 * 0x20000 + 4 * k)
def cmapReg (n k : Nat) : Nat := dieReg (n / 12) (0x400000 + n % 12 * 0x20000 + 0x10000 + 4 * k)

/-- Egress indices in use on die d (R291). -/
def validEgress (d e : Nat) : Bool := e < 12 || (0x10 ≤ e && e < 0x20) || (0x20 ≤ e && e < 0x24 && e != 0x20 + d) || e == 0x24

/-- Where an aperture offset lies. -/
inductive Place where
  | glob (o : Nat)
  | dieCtl (d o : Nat)
  | queue (q o : Nat)
  | counter (c o : Nat)
  | eph (d o : Nat)
  | engine (e o : Nat)
  | host (n o : Nat)
  | link (n o : Nat)
  | reserved
  deriving DecidableEq, Repr

/-- Decode of an aperture offset (R40, R41, R44). -/
def place (off : Nat) : Place :=
  let w := off / 4 * 4
  if w < 0x01000000 then .glob w
  else if w < 0x04000000 || 0x14000000 ≤ w then .reserved
  else
    let d := w / 0x04000000 - 1
    let o := w % 0x04000000
    if o < 0x01000000 then .dieCtl d o
    else if o < 0x02000000 then .queue (d * 4096 + (o - 0x01000000) / 0x1000) (o % 0x1000)
    else if o < 0x02100000 then .counter (d * 16384 + (o - 0x02000000) / 0x40) (o % 0x40)
    else if o < 0x02200000 then .eph d (o - 0x02100000)
    else if o < 0x02240000 then .engine (d * 64 + (o - 0x02200000) / 0x1000) (o % 0x1000)
    else if o < 0x03000000 then .reserved
    else if o < 0x03800000 then
      let i := (o - 0x03000000) / 0x10000
      if i < 12 then .host (d * 12 + i) (o % 0x10000) else .reserved
    else
      let j := (o - 0x03800000) / 0x10000
      if j < 16 then .link (d * 16 + j) (o % 0x10000) else .reserved

/-- The registers of the module-global block (R46, R69, R351, R377, R402, R435, R471, R516, R547, R578, R568, R342, R344, R438,
R439, R476, R481, R462, R517). -/
def globInfo (o : Nat) : RegInfo :=
  if o < 0x1000 then
    match o with
    | 0x000 => { reset := 0x4800 }
    | 0x004 => { reset := Config.modStepping &&& 0xFFFF }
    | 0x008 => { reset := Config.modSerialLo }
    | 0x00C => { reset := Config.modSerialHi }
    | 0x018 => { w1c := 0xFFFFFF }
    | 0x020 => { reset := 0x20000000 }
    | 0x100 => { rws := 0x1F01FF }
    | 0x114 => { w1c := 0x1F }
    | 0x118 => { rws := 0x17F }
    | 0x200 => { rws := 0x3F, reset := 0x32 }
    | 0x204 => { rws := 0xFFFF, reset := 0x800 }
    | 0x208 => { rws := 0xFFFF, reset := 0x100 }
    | 0x20C => { rws := 0xFFFFF, reset := 0x4000 }
    | 0x210 => { rws := 0xFFFFF, reset := 0x2000 }
    | 0x22C => { w1c := 0x1F }
    | 0x240 => { rws := 0xFFE00000 }
    | 0x244 => { rws := 0xFFFFF }
    | 0x248 => { rws := 0x1FFFF }
    | 0x24C => { rws := 0x7FFFFF, reset := 0xFF000 }
    | 0x304 => { rws := 0xFFFF, reset := 0x400 }
    | 0x308 => { rws := 0xFFFF, reset := 0x100 }
    | 0x30C => { rws := 0xFFFF, reset := 0x200 }
    | 0x310 => { rws := 0xFFFF, reset := 0x200 }
    | 0x314 => { w1c := 0x3F }
    | 0x400 | 0x440 | 0x480 => { rws := 0xF, reset := 0x8 }
    | 0x404 | 0x444 | 0x484 => { rws := 0xFFFFFFFF }
    | 0x408 | 0x448 | 0x488 => { rws := 0xFFFF }
    | 0x410 | 0x450 | 0x490 => { w1c := 0xF }
    | 0x604 => { rws := 0xFF02, reset := 0x4000 }
    | 0x608 | 0x60C | 0x610 => { rws := 0xFFFFFFFF }
    | 0x614 => { w1c := 0x1F }
    | 0x618 => { rws := 0x1FFFFFF, reset := 0x2014 }
    | 0x718 => { w1c := 0x7F }
    | 0x720 => { rws := 0x3 }
    | 0x724 => { rws := 0xFFFFF000 }
    | 0x728 => { rws := 0xFFFFF }
    | 0x72C => { rws := 0x7FFFFF1 }
    | 0x734 => { rw := 0xFFFFFFFF }
    | 0x800 => { rws := 0x3FFFF, reset := 0x20100 }
    | 0x804 => { w1c := 0x1FFF }
    | 0x81C => { rw := 0xFFFFFFFF }
    | 0x824 => { rws := 0x7FF7F }
    | 0x840 | 0x850 | 0x860 | 0x870 => { rws := 0x1FF }
    | 0x844 | 0x854 | 0x864 | 0x874 | 0x848 | 0x858 | 0x868 | 0x878 => { rws := 0xFFFFFFFF }
    | 0x908 => { w1c := 0x1F }
    | 0x918 => { rw := 0xFFFFFFFF }
    | 0x928 => { rws := 0xFFFF, reset := 0x555F }
    | 0xA0C => { w1c := 0x3F }
    | 0xA10 => { rws := 0xFFFFFFC0 }
    | 0xA14 => { rws := 0xFFFFF }
    | 0xA18 => { rws := 0xFFFFFFFF }
    | _ => {}
  else if 0x10000 ≤ o && o < 0x18000 then
    match o % 0x20 with
    | 0x00 | 0x04 | 0x08 => { rws := 0xFFFFFFFF }
    | 0x18 => { rws := 0xFFFFFF }
    | 0x1C => { w1c := 0x1 }
    | _ => {}
  else if 0x40000 ≤ o && o < 0x40180 then { rws := 0xFFFFFFFF }
  else if 0x40200 ≤ o && o < 0x40380 then
    match o % 0x10 with
    | 0x0 | 0x4 => { rws := 0x7FFFFFFF }
    | 0x8 => { rws := 0x3 }
    | _ => {}
  else if 0x50000 ≤ o && o < 0x58000 then
    match o % 0x20 with
    | 0x0C => { rws := 0x3FFFFF }
    | 0x18 => { w1c := 0xF }
    | _ => {}
  else if 0x70000 ≤ o && o < 0x72000 then
    match o % 0x40 with
    | 0x00 | 0x08 | 0x0C | 0x10 | 0x14 => { rws := 0xFFFFFFFF }
    | 0x04 => { rws := 0xFFFF }
    | 0x18 => { rws := 0x1030FFF }
    | _ => {}
  else if 0x80000 ≤ o && o < 0x88000 then
    let r := o % 0x4000
    if r < 0x400 then { rws := 0x3F }
    else if r < 0x800 then
      match r % 0x10 with
      | 0x0 => { rws := 0xFFFFFFF }
      | 0x4 => { rws := 0xFFFFFFC0 }
      | 0x8 => { rws := 0xFFFFF }
      | _ => { rws := 0xFFFFFFFF }
    else if r < 0x1800 then
      match r % 0x10 with
      | 0x0 | 0x4 => { rws := 0x7FFFFFFF }
      | 0x8 => { rws := 0x3FF }
      | _ => {}
    else if 0x2000 ≤ r && (r % 0x200 < 0x10 || 0x100 ≤ r % 0x200) then { rws := 0xFFFFFFFF }
    else {}
  else if 0xB0000 ≤ o && o < 0xB4000 then
    if o % 0x10 = 0 then { rws := 0x1FFFF } else {}
  else {}

/-- The registers of the die-control block (R50, R156, R229, R266, R289, R321, R440, R548, R153, R322, R323, R325). -/
def dieInfo (d o : Nat) : RegInfo :=
  if o < 0x1000 then
    match o with
    | 0x000 => { reset := BitVec.ofNat 32 d }
    | 0x004 => { reset := if d = 0 then 1 else 0 }
    | 0x00C => { w1c := 0xF &&& ~~~(BitVec.ofNat 32 (2 ^ d)) }
    | 0x104 | 0x504 | 0x540 => { rw := 0xFFFFFFFF }
    | 0x520 => { w1c := 0xF }
    | 0x530 => { rws := 0xFFFFF000 }
    | 0x534 => { rws := 0xFFFFF }
    | 0x538 => { rws := 0xFF01F1 }
    | 0x800 | 0x804 | 0x808 | 0x80C => { w1c := 0xFFFFFFFF }
    | _ => {}
  else if 0x400000 ≤ o && o < 0x580000 then
    -- a queue map has 4,096 entries at +0, a counter map 16,384 entries at +0x1_0000 (R152)
    let r := (o - 0x400000) % 0x20000
    if r < 0x4000 || 0x10000 ≤ r then { rws := 0x8000FFFF } else {}
  else if 0x600000 ≤ o && o < 0x602000 then
    if o % 8 = 0 then { rws := 0x1FFFFFFF, reset := 0x101 } else {}
  else if 0x610000 ≤ o && o < 0x620000 then
    if !validEgress d ((o - 0x610000) / 0x400) then {}
    else
      let r := o % 0x400
      match r with
      | 0x00 => { rws := 0xFFFFFFFF, reset := 0x01010101 }
      | 0x04 => { rws := 0xFF, reset := 1 }
      | 0x08 => { rws := 0xFFFFFF, reset := 0x100000 }
      | 0x0C => { rws := 0x1FFFF, reset := 0x2000 }
      | 0x10 => { rws := 0xFF05, reset := 0x100 }
      | 0x14 => { reset := 0x3F }
      | _ => if 0x100 ≤ r && r < 0x300 then { rws := 0x80FFFF3F, reset := 0x3F } else {}
  else if 0x620000 ≤ o && o < 0x640000 then
    match o % 0x20 with
    | 0x00 => { rws := 0x1F }
    | 0x04 | 0x08 => { rws := 0xFFFFFF }
    | 0x0C | 0x10 => { rws := 0xFFFFFFFF }
    | _ => {}
  else {}

/-- Queue block (R116, R117, R119). -/
def queueInfo (o : Nat) : RegInfo :=
  match o with
  | 0x00 => { rws := 0x3FF }
  | 0x04 => { rws := 0x7F3F1F03, reset := 0x600 }
  | 0x08 => { rws := 0xFFFFF000 }
  | 0x0C => { rws := 0xFFFFF }
  | 0x10 => { rws := 0xFFFFF000 }
  | 0x14 => { rws := 0xFFFFF }
  | 0x1C => { w1c := 0x7F }
  | 0x30 => { rw := 0xFFFFFFFF }
  | _ => {}

/-- Counter block (R141, R146). -/
def counterInfo (o : Nat) : RegInfo :=
  match o with
  | 0x00 | 0x04 | 0x20 | 0x24 => { rw := 0xFFFFFFFF }
  | 0x10 => { rws := 0x80FFFFFF }
  | 0x1C => { rw := 0x07FF0001, rws := 0x3F00, w1c := 0x2 }
  | _ => {}

/-- Ephemeris control (R112): the registers marked die 0 act in die 0's block only. -/
def ephInfo (d o : Nat) : RegInfo :=
  match o with
  | 0x10 => if d = 0 then { rws := 0xFFFFFFC0 } else {}
  | 0x14 => if d = 0 then { rws := 0xFFFFF } else {}
  | 0x20 => if d = 0 then { rws := 0x3 } else {}
  | 0x24 => if d = 0 then { rws := 0xFFFFFFFF } else {}
  | 0x28 => { w1c := 0xFF }
  | _ => {}

/-- Engine control (R195, R197). -/
def engineInfo (e o : Nat) : RegInfo :=
  match o with
  | 0x00 => { reset := BitVec.ofNat 32 e }
  | 0x14 => { rws := 1 }
  | 0x18 => { w1c := 0xF }
  | _ => {}

/-- Host-port block (R472). -/
def hostInfo (o : Nat) : RegInfo :=
  match o with
  | 0x04 => { rws := 0x3 }
  | 0x08 => { rws := 0xFFFF }
  | 0x0C => { w1c := 0x3F }
  | _ =>
    if 0x100 ≤ o && o < 0x200 then
      match o % 0x10 with
      | 0x0 => { rws := 0xFFFFFFFF }
      | 0x4 => { rws := 0xFFE00000 }
      | 0x8 => { rws := 0xFFFFF }
      | _ => { rws := 0x7FFF }
    else {}

/-- Link-port block (R474). -/
def linkInfo (o : Nat) : RegInfo :=
  match o with
  | 0x04 => { rws := 0x3 }
  | 0x08 => { w1c := 0x3F }
  | _ => {}

/-- The table of the whole aperture. -/
def regInfo (off : Nat) : RegInfo :=
  match place off with
  | .glob o => globInfo o
  | .dieCtl d o => dieInfo d o
  | .queue _ o => queueInfo o
  | .counter _ o => counterInfo o
  | .eph d o => ephInfo d o
  | .engine e o => engineInfo e o
  | .host _ o => hostInfo o
  | .link _ o => linkInfo o
  | .reserved => {}

/-- Reset value of the register at an aperture offset. A register the manual gives no reset value reads 0 here until the
start writes it (notes/assumptions/4.md). DESIGN CHOICE, unsafe: notes/assumptions/4.md. -/
def resetVal (off : Nat) : Word := (regInfo off).reset

end Sys2Proof.Machine
end

