-- ==== Sys2Proof/Machine/Sparse.lean ====
section
/-! DEFINITION. Sparse data by key in one canonical form: keys strictly rising, no entry equal to what an unlisted key reads as.
Registers, pool memory, scratch and the NOR are held this way. -/

namespace Sys2Proof.Machine

/-- Value at key `k`; an unlisted key reads `d k`. -/
def sget {α : Type} (d : Nat → α) (m : List (Nat × α)) (k : Nat) : α :=
  match m.find? (fun p => p.1 == k) with
  | some p => p.2
  | none => d k

/-- Insert before the first larger key. -/
def sins {α : Type} (k : Nat) (v : α) : List (Nat × α) → List (Nat × α)
  | [] => [(k, v)]
  | p :: m => if k < p.1 then (k, v) :: p :: m else p :: sins k v m

/-- Write `v` at `k`; the default value removes the entry. -/
def sset {α : Type} [DecidableEq α] (d : Nat → α) (m : List (Nat × α)) (k : Nat) (v : α) : List (Nat × α) :=
  let r := m.filter (fun p => p.1 != k)
  if v = d k then r else sins k v r

/-- The canonical form: keys rise, and no entry holds the default. -/
def swf {α : Type} [DecidableEq α] (d : Nat → α) : List (Nat × α) → Bool
  | [] => true
  | [p] => decide (p.2 ≠ d p.1)
  | p :: q :: m => decide (p.2 ≠ d p.1) && decide (p.1 < q.1) && swf d (q :: m)

/-- Insert into a list in the order of `le`, before its equals. -/
def insertBy {α : Type} (le : α → α → Bool) (a : α) : List α → List α
  | [] => [a]
  | b :: l => if le a b then a :: b :: l else b :: insertBy le a l

/-- A list in the order of `le`; equal elements keep their order. -/
def orderBy {α : Type} (le : α → α → Bool) (l : List α) : List α := l.foldr (insertBy le) []

end Sys2Proof.Machine
end

