-- ==== Sys2Proof/Machine/State.lean ====
section
/-! DEFINITION. The state of the module: every register (by aperture offset), pool memory, scratch, queues, counters, Ephemerides,
reductions, switch core, directory, links, flash translation, contexts, security, recovery and power; plain data. -/

namespace Sys2Proof.Machine

/-- Completion status codes (R15). -/
inductive Status where
  | ok | zeroLenNoop | ctxFenced | addrFault | permission | mediaUncorrectable | capacityExhausted | stateLost
  | expansionOverflow | shortBlock | frameOverrun | abortedFabric | quota | epochStale
  deriving DecidableEq, Repr

/-- One contribution lane of a reduction (R200, R202). -/
structure Lane where
  acc : BitVec 320
  flags : BitVec 20
  weight : Nat
  deriving DecidableEq, Repr

/-- An accumulator tile of the array: 1,024 FP32 or INT32 cells, row by row (R158, R174, R176). -/
structure Tile where
  int : Bool
  cells : List Word
  deriving DecidableEq, Repr

/-- Where an operation in flight stands. -/
inductive Phase where
  /-- Started; its own row has not run yet. -/
  | running
  /-- A decoded program runs instruction by instruction. -/
  | stepping
  /-- Its work ended with this status; the completion add has not been made (R144). -/
  | executed (st : Status)
  /-- Stopped or preempted, waits to start again (R133). -/
  | restart
  /-- A stream reduction between two runs: it waits for the next entry of its queue (R219). -/
  | parked
  /-- Its writes wait for the responses of other modules; the status so far (R468). -/
  | remote (st : Status)
  /-- A cache-pool handoff waits for the frame boundary (R370). -/
  | boundary
  deriving DecidableEq, Repr

/-- What an EXPAND has reached in its stream (R279, R282, R289): next byte and block, blocks yielded, raw bytes they stand for, bytes
decoded, the first short block, short blocks, whether the last block was short. -/
structure ZRun where
  pos : Nat := 0
  block : Nat := 0
  blocks : Nat := 0
  raw : Nat := 0
  yield : Nat := 0
  firstShort : Option Nat := none
  shorts : Nat := 0
  lastShort : Bool := false
  deriving DecidableEq, Repr

/-- What a running program has reached. -/
structure Run where
  prog : List (BitVec 128) := []
  pc : Nat := 0
  acc0 : Option Tile := none
  acc1 : Option Tile := none
  zgc : ZRun := {}
  deriving DecidableEq, Repr

/-- An operation in flight (R154). -/
structure Op where
  id : Nat
  queue : Nat
  index : Nat
  ctx : Nat
  gen : Nat
  desc : BitVec 512
  dynamic : Bool
  engine : Option Nat := none
  entry : Option Nat := none
  /-- Scratch window: first granule of the engine's numbering, granules (R161). -/
  scr : Nat := 0
  gran : Nat := 0
  phase : Phase := .running
  startFrame : Nat := 0
  run : Run := {}
  /-- Register counts that move when the operation completes (R239, R289). -/
  stats : List (Nat × Nat) := []
  failIndex : Nat := 0
  decodeFail : Bool := false
  /-- The engine it was placed on before it was stopped or preempted (R586). -/
  placed : Option Nat := none
  /-- A pairing refused under R136 resets no overrun count. -/
  keepCount : Bool := false
  /-- Its queue's ring base was written since (R127): it holds no ring slot. -/
  old : Bool := false
  /-- Data read from other modules: address, bytes. -/
  got : List (Nat × List Byte) := []
  deriving DecidableEq, Repr

/-- A descriptor read from a ring and not yet started (R123, R126). -/
structure Head where
  queue : Nat
  index : Nat
  desc : BitVec 512
  /-- Its wait condition has held at some instant (R140). -/
  met : Bool
  deriving DecidableEq, Repr

/-- An accepted doorbell: the tail it announced and the instant, in ACLK (R131). -/
structure Bell where
  queue : Nat
  tail : Nat
  time : Nat
  deriving DecidableEq, Repr

/-- Ephemeris entries (R79, R80, R81) and the image (R77). -/
structure EngEntry where
  frame : Nat
  start : Nat
  cost : Nat
  engine : Nat
  unit : Nat
  ctx : Nat
  queue : Nat
  scrBase : Nat
  scrGran : Nat
  targetA : Nat
  classA : Nat
  unitsA : Nat
  targetB : Nat
  classB : Nat
  unitsB : Nat
  deriving DecidableEq, Repr

structure LinkEntry where
  frame : Nat
  slot : Nat
  cells : Nat
  port : Nat
  dir : Nat
  flow : Nat
  ctx : Nat
  deriving DecidableEq, Repr

structure MigEntry where
  frame : Nat
  firstSlot : Nat
  slots : Nat
  source : Nat
  dest : Nat
  chunks : Nat
  deriving DecidableEq, Repr

structure Image where
  id : Nat
  units : Nat
  log2Period : Nat
  eng : List EngEntry
  link : List LinkEntry
  mig : List MigEntry
  deriving DecidableEq, Repr

/-- Frame time (R56-R75). `frameBase` and `cycle` are in ACLK; `net` and `offset` in ns. -/
structure TimeS where
  frame : Nat
  slot : Nat
  cycle : Nat
  frameBase : Nat
  /-- `MER_CTRL` in force. -/
  units : Nat
  epochLog2 : Nat
  net : Nat
  offset : Int
  /-- `MER_FRAME_HI` captured by the last read of `MER_FRAME_LO`, per port (R74). -/
  capture : List (Nat × Word)
  /-- PTP (R60), local instants in ns: arrival of a two-step Sync whose Follow_Up is awaited; origin and arrival of the last Sync; when
  the outstanding delay request left; the mean path delay. -/
  syncAt : Option Nat
  sync : Option (Nat × Nat)
  reqAt : Option Nat
  delay : Nat
  deriving DecidableEq, Repr

/-- Where a standby image is read from (R93). -/
inductive Source where
  | pool (addr : Nat)
  | library (index : Nat)
  deriving DecidableEq, Repr

/-- Ephemeris control (R101-R115). -/
structure EphS where
  active : Option Image
  source : Option Source
  /-- Bytes read for the standby slot, and whether the read met an error (R93). -/
  bytes : List Byte
  readFault : Bool
  standby : Option Image
  /-- Target epoch of an accepted arm (R102). -/
  armed : Option Nat
  /-- Standby state code to return to after a re-check (R115); 0 while none runs. -/
  recheck : Nat
  /-- Frame number of the boundary of a pending stop (R107). -/
  stopAt : Option Nat
  /-- Target epochs of the flip arms through RT_CTRL and through WITH_COMPOSITION (R465). -/
  rtArm : Option Nat
  compArm : Option Nat
  /-- Dies that have not rejoined the active image yet (R109). -/
  outDies : List Nat
  /-- Engines that have not rejoined yet, each with the frame at whose boundary its quarantine ended (R198). -/
  outEngines : List (Nat × Nat)
  /-- The image loaded at start becomes active once accepted (R563). -/
  startImage : Bool
  /-- Frame at which the drain of the last flip ends (R467). -/
  drainEnd : Nat
  deriving DecidableEq, Repr

/-- A message waiting for an open reduction (R222). -/
inductive RedMsg where
  /-- A steered write: (input, line, bytes) of each of its lines. -/
  | raw (lines : List (Nat × Nat × List Byte))
  | part (input group op inFmt status : Nat) (data : List Byte)
  deriving DecidableEq, Repr

/-- An open stream reduction (R217-R225). -/
structure Stream where
  ctx : Nat
  redId : Nat
  queue : Nat
  engine : Nat
  scr : Nat
  gran : Nat
  desc : BitVec 512
  /-- Steering: 0 from the next boundary, 1 active, 2 finished or closed, so that it ends at the next boundary. -/
  steer : Nat
  lanes : List Lane
  /-- Absorbed (input, 64 B group, as a partial block) (R221). -/
  receipt : List (Nat × Nat × Bool)
  waiting : List RedMsg
  /-- How many of these messages waited at the `START` of the run under way (R222). -/
  atStart : Nat := 0
  /-- The window was invalidated (R164): the next run closes with STATE_LOST (R225). -/
  invalid : Bool
  deriving DecidableEq, Repr

/-- A page move (R347-R350). -/
structure Move where
  tier : Nat
  unit : Nat
  group : Nat
  /-- Chunks copied so far, in ascending chunk order. -/
  done : Nat
  deriving DecidableEq, Repr

/-- A mapped page (R334, R340, R346). `unit` 0xFF: striped over `group`. -/
structure Page where
  page : Nat
  entry : Word
  tier : Nat
  unit : Nat
  group : Nat
  heat : Nat
  /-- Frames of this epoch in which it was marked, and the mark of this frame (R345). -/
  frames : Nat
  marked : Bool
  lost : Bool
  move : Option Move
  /-- A pin changed by SET_FLAGS that a coming epoch acts on (R347 item 1). -/
  repin : Bool
  /-- Mapped since the last boundary: it reads as zero from the boundary at which its mapping takes effect (R338, R339). -/
  isNew : Bool
  deriving DecidableEq, Repr

/-- Backing that awaits scrub (R507): the page it backed, the context that released it, where it lies. -/
structure Scrub where
  page : Nat
  ctx : Nat
  tier : Nat
  unit : Nat
  group : Nat
  started : Bool
  deriving DecidableEq, Repr

/-- Source backing of a finished move, freed once its last access ends (R350). -/
structure Freed where
  page : Nat
  ctx : Nat
  tier : Nat
  unit : Nat
  group : Nat
  deriving DecidableEq, Repr

/-- Free space of one unit (stack code, tray code, expander code), in 64 KiB chunks (R332, R336). -/
structure UnitFree where
  tier : Nat
  unit : Nat
  free : Nat
  /-- In service, writable. -/
  up : Bool
  deriving DecidableEq, Repr

/-- An open weight stream (R357-R360). -/
structure WStream where
  id : Nat
  ctx : Nat
  /-- First page and pages of each layer. -/
  layers : List (Nat × Nat)
  window : Nat
  adv : Nat
  ready : Nat
  staged : Nat
  /-- Position being staged, and the chunks copied of its layer; layers whose stage copy is held, each with its stack (R359). -/
  staging : Option Nat
  chunks : Nat
  copies : List (Nat × Nat)
  stopped : Bool
  /-- WS_CLOSE was served; it ends at the next boundary. -/
  closing : Bool
  deriving DecidableEq, Repr

/-- A cache-pool sequence (R361-R375). `phase`: 1 PREFILL, 2 DECODE, 3 LOST. -/
structure Seq where
  slot : Nat
  serial : Nat
  owner : Nat
  phase : Nat
  layersN : Nat
  headsN : Nat
  d : Nat
  kFmt : Nat
  bt : Nat
  vby : Nat
  maxTokens : Nat
  /-- Tokens of each layer. -/
  tokens : List Nat
  dirAddr : Nat
  /-- Table address of each (layer, head), and of each block its key and value address. -/
  tables : List Nat
  blocks : List (Nat × Nat × Nat)
  /-- Pages the sequence holds. -/
  pages : List Nat
  mirrors : List Nat
  replayFrom : Nat
  reason : Nat
  /-- Handoff to this context at the next boundary, for the operation named (R370). -/
  handoff : Option (Nat × Nat)
  deriving DecidableEq, Repr

/-- Pool map, tiers and their services. -/
structure TierS where
  pages : List Page
  /-- Rights in force: page, map entry, lost (R339). -/
  rights : List (Nat × Word)
  /-- A pool-map command between its write and BUSY clearing: the code it will report, first page and pages of its range. -/
  cmd : Option (Status × Nat × Nat)
  /-- Pages that an UNMAP removed since the last boundary: accesses complete under the old map until it (R339). -/
  gone : List Page
  /-- BUSY cleared since the last boundary (R339). -/
  cmdDone : Bool
  scrubs : List Scrub
  freed : List Freed
  units : List UnitFree
  /-- Link ports whose tray failed and did not return, expander ports gone, stacks that lost their contents (R354). -/
  lostUnits : List Nat
  streams : List WStream
  seqs : List Seq
  serial : Nat
  /-- Moves decided this epoch that continue (R348). -/
  carried : Nat
  /-- Chunks moved in each migration window of this frame (R81). -/
  migUsed : List (Nat × Nat)
  deriving DecidableEq, Repr

/-- A queued message at an egress (R303, R306). -/
structure QMsg where
  id : Nat
  die : Nat
  m : SwMsg
  f : Word64
  sent : Nat
  arrived : Nat
  /-- Forwarded by cut-through; in transmission; demoted to Nadir (R296, R298, R318). -/
  cut : Bool
  tx : Bool
  demoted : Bool
  late : Bool
  time : Nat
  members : List SwMsg
  deriving DecidableEq, Repr

/-- Key of a fair-queueing leaf: die, egress, class, context; the coherence leaf has class 8 (R305). -/
structure Leaf where
  die : Nat
  e : Nat
  cls : Nat
  ctx : Nat
  deriving DecidableEq, Repr

/-- Queue sample values since the last sample (R319). -/
structure Samp where
  leaf : Leaf
  depthMax : Nat
  delaySum : Nat
  delayCount : Nat
  delayMax : Nat
  deriving DecidableEq, Repr

/-- Gate position of one egress (R310, R313). -/
structure Gate where
  die : Nat
  e : Nat
  entry : Nat
  left : Nat
  /-- Frame after which a requested list switch may take effect. -/
  switchFrom : Option Nat
  deriving DecidableEq, Repr

/-- A policer's buckets in units of 1/256 B (R315). -/
structure Bucket where
  die : Nat
  pol : Nat
  c : Nat
  p : Nat
  deriving DecidableEq, Repr

/-- Flows of a trunk that select a member leave on another one, since a member failed (R301). -/
structure Remap where
  version : Nat
  trunk : Nat
  member : Nat
  now : Nat
  deriving DecidableEq, Repr

/-- Switch cores and traffic managers. -/
structure SwS where
  items : List QMsg
  nextId : Nat
  vtime : List ((Nat × Nat) × Word64)
  flast : List (Leaf × Word64)
  /-- Context last served round-robin among the Nadir queues, per die and egress. -/
  nadir : List ((Nat × Nat) × Nat)
  buckets : List Bucket
  gates : List Gate
  samples : List Samp
  /-- Messages held back for credit: the die whose queue or share has no room, the message, whether it is demoted (R294, R295). -/
  stalled : List (Nat × SwMsg × Bool)
  /-- Positions of this slot that an egress has filled or left idle, per die and egress (R303). -/
  served : List ((Nat × Nat) × Nat)
  /-- Messages in the buffers of a die-to-die path, oldest first: the die they come from, whether they are demoted; their egress names the
  path (R33, R34). -/
  path : List (Nat × Bool × SwMsg)
  /-- Trunk members that fail: their flows move at the next frame boundary; where flows have moved to (R301). -/
  failing : List Nat
  remapped : List Remap
  deriving DecidableEq, Repr

/-- Home states of a tracked line (R413). A line without an entry is I. -/
inductive HomeSt where
  | s | em | o | h
  deriving DecidableEq, Repr

/-- A directory entry (R412, R413). -/
structure DirEnt where
  line : Nat
  dom : Nat
  st : HomeSt
  /-- The owner (EM or O) first, then the other holders. -/
  holders : List Agent
  alloc : Nat
  deriving DecidableEq, Repr

/-- Line states of a service-core cache (R415). A line without an entry is I. -/
inductive CacheSt where
  | m | o | e | s
  deriving DecidableEq, Repr

structure CacheLine where
  core : Nat
  line : Nat
  st : CacheSt
  data : List Byte
  deriving DecidableEq, Repr

/-- Kind of a request at a home (R416). -/
inductive ReqKind where
  | rdCur | rdS | rdOwn | upgrade
  | wrLine (data : List Byte)
  | wrPart (off : Nat) (data : List Byte)
  /-- The bytes of a line that a host's MemWrPtl enables (R446). -/
  | wrMask (enable : BitVec 64) (data : List Byte)
  | atom (off : Nat) (a : Atomic)
  | cadd (off size : Nat) (ms : List AddMember)
  | recall
  deriving DecidableEq, Repr

/-- How the answer of a request reaches its sender: as a home's reply; as the completion of a host request at a device physical
address through a window; as the response to a message. -/
inductive Via where
  | agent
  | host (dpa window : Nat)
  | msg (q : Msg)
  deriving DecidableEq, Repr

/-- A request at a home: line number, requester, context, kind, way of its answer. -/
structure CReq where
  line : Nat
  agent : Agent
  /-- The context; for a recall, the domain it is done for, or 0. -/
  ctx : Nat
  kind : ReqKind
  via : Via
  /-- The directory entry of the line is read with an uncorrectable error (R427). -/
  dirUe : Bool := false
  deriving DecidableEq, Repr

/-- A transaction in progress at a home: whom it still waits for, the data an owner gave, whether they were dirty, whom it awaits a
write-back from, whether the line was tracked when it began (R416), whether an atomic runs at the home (R430). -/
structure Txn where
  req : CReq
  waits : List Agent
  data : Option (List Byte)
  dirty : Bool
  awaitWb : List Agent
  shared : Bool
  atHome : Bool
  deriving DecidableEq, Repr

/-- A snoop on its way to a service core (0 Cur, 1 Data, 2 Inv), or a core's response (0 RspI, 1 RspS). One that a write-back overtook
is stale: its response is discarded (R424). -/
structure Snoop where
  core : Nat
  line : Nat
  kind : Nat
  stale : Bool
  deriving DecidableEq, Repr

/-- Data or a grant on its way to a service core: state 0 none, 1 S, 2 E, 3 M. -/
structure Flight where
  core : Nat
  line : Nat
  state : Nat
  data : Option (List Byte)
  deriving DecidableEq, Repr

/-- A BISnpInv that a write of the module's own sent a host and that is not answered: the bytes written since stand over what the host
gives back; whether the host owned the line (R144, R416). -/
structure Inval where
  host : Nat
  line : Nat
  owner : Bool
  writes : List (Nat × List Byte)
  deriving DecidableEq, Repr

/-- What reads lines that hosts own: an operation, or the oldest RD of a link port. -/
inductive Reader where
  | op (id : Nat)
  | rd (link : Nat)
  deriving DecidableEq, Repr

/-- A BISnpCur to the host that owns a line, and whether it is answered (R416). -/
structure CurAsk where
  reader : Reader
  host : Nat
  line : Nat
  done : Bool
  deriving DecidableEq, Repr

/-- Directory, caches and homes. -/
structure CohS where
  dir : List DirEnt
  clock : Nat
  caches : List CacheLine
  /-- Evictions sent and not yet acknowledged (R423): core, line, dirty data. -/
  evicting : List (Nat × Nat × Option (List Byte))
  /-- Requests a service core has sent and waits for: core, line, data to store. -/
  pending : List (Nat × Nat × Option (List Byte))
  txns : List Txn
  waitq : List CReq
  snoops : List Snoop
  rsps : List Snoop
  flight : List Flight
  /-- Line updates applied per slice, for `COH_UPDATES` (R440). -/
  updates : List (Nat × Nat)
  invals : List Inval
  curs : List CurAsk
  deriving DecidableEq, Repr

/-- A message held for re-send (R458, R461); `sent` once it has left, else it waits for credit, room or its port. -/
structure Replay where
  link : Nat
  peer : Nat
  msg : Msg
  retries : Nat
  sent : Bool
  /-- It had left on a member that failed since: later messages of its flow wait for it (R301). -/
  moved : Bool := false
  /-- Ingress byte of its flow key (R300). -/
  ingress : Nat := 0x80
  deriving DecidableEq, Repr

/-- Next numbers sent and expected of one (peer, stream) (R458). A tray's peer number is 0x100 plus its link port. -/
structure Lane2 where
  peer : Nat
  stream : Nat
  txNext : Nat
  rxNext : Nat
  /-- Instant of the last NAK, in ACLK. -/
  nakAt : Option Nat
  deriving DecidableEq, Repr

/-- What a link port knows of itself and its peer (R453, R469, R470, R474, R495). -/
structure LinkPort where
  link : Nat
  txSlots : Nat
  rxSlots : Nat
  trainings : Nat
  nonce : List Byte
  peerNonce : List Byte
  key : List Byte
  /-- Peer module number and serial of the last training (R474). -/
  peer : Option (Nat × Word64)
  hello : Option Hello
  helloSent : Bool
  deriving DecidableEq, Repr

/-- For whom a request over a link waits. -/
inductive Who where
  | op (id : Nat)
  /-- A host request: port, device physical address, window; 0 read, 1 write, 2 AtomicOp. -/
  | host (port dpa window kind : Nat)
  /-- A write of this module to a mirror region, or the resync of region r: 0x100 + r. -/
  | mirror (region : Nat)
  | core (core : Nat)
  /-- The module's own request to a tray. -/
  | tray
  deriving DecidableEq, Repr

/-- An outstanding request of this module over a link: destination, kind, tag, address. -/
structure Await where
  peer : Nat
  kind : Nat
  ctx : Nat
  gen : Nat
  addr : Nat
  who : Who
  len : Nat := 0
  /-- The code so far, where one request went to several modules (R468). -/
  st : Status := .ok
  deriving DecidableEq, Repr

structure LinkS where
  ports : List LinkPort
  lanes : List Lane2
  /-- Credits held toward a link port's far end, per (link, stream) (R454). -/
  credit : List ((Nat × Nat) × Nat)
  /-- Credits that the far end of a link port holds, per (link, stream) (R454). -/
  given : List ((Nat × Nat) × Nat)
  replay : List Replay
  /-- Messages accepted under R458 and not yet served, oldest first. -/
  rx : List (Nat × Msg)
  awaits : List Await
  /-- Host ports: IDE key programmed by the host (R442). -/
  ide : List (Nat × BitVec 256)
  /-- Host port trainings: HDM size in force (R445). -/
  hdm : List (Nat × Nat)
  /-- MSI-X of function 0 of each host port (R147): masked vectors, and those pending while masked, as (port, vector). -/
  masked : List (Nat × Nat)
  pend : List (Nat × Nat)
  deriving DecidableEq, Repr

/-- A block of a stripe: its erases, and the reads it served since its last program (R395). -/
structure FBlock where
  erases : Nat
  reads : Nat
  deriving DecidableEq, Repr

/-- A copy of a unit in a stripe: page and unit, its row and the die of the group it lies on, whether the map names it, its bytes. -/
structure FCopy where
  page : Nat
  unit : Nat
  row : Nat
  pos : Nat
  valid : Bool
  data : List Host.Cell
  deriving DecidableEq, Repr

/-- One stripe of a flash tray (R389): group, number, buffer or main, closed; copies in the order they were programmed; parity pages by row;
its block on each die of the group, none where the die is not used (R391, R394). -/
structure FStripe where
  group : Nat
  no : Nat
  buffer : Bool
  closed : Bool
  copies : List FCopy
  parity : List (Nat × List Host.Cell)
  blocks : List (Option FBlock)
  /-- Its units are being copied out, by garbage collection or another activity; the rows that took them, as (stripe, row) (R393). -/
  leaving : Option Bool
  dests : List (Nat × Nat)
  deriving DecidableEq, Repr

/-- A unit in a write cache (R385): page, unit, dirty. -/
structure CUnit where
  page : Nat
  unit : Nat
  dirty : Bool
  deriving DecidableEq, Repr

/-- What the map says of a unit: stripe, row and die of the copy it names, none when it names no copy (R380). -/
structure MapEnt where
  page : Nat
  unit : Nat
  place : Option (Nat × Nat × Nat)
  deriving DecidableEq, Repr

/-- The translation of one flash tray (R378-R404). -/
structure Tray where
  link : Nat
  dies : Nat
  blocks : Nat
  pSlc : Nat
  rated : Nat
  /-- The write cache, the unit that became dirty first in front; units whose write waits for room in it (R385). -/
  cache : List CUnit
  waits : List CUnit
  stripes : List FStripe
  nextStripe : Nat
  /-- Free blocks of each die, as (erase count, blocks), fewest erases first; spare blocks and buffer target of each die; dies failed. -/
  free : List (List (Nat × Nat))
  spares : List Nat
  target : List Nat
  failed : List Nat
  /-- Retired blocks: die, erases (R381). -/
  retired : List (Nat × Nat)
  /-- Units of failed dies not rewritten yet: page, unit. -/
  rebuild : List (Nat × Nat)
  /-- Pages whose secure discard on this tray is done and not yet completed. -/
  discards : List Nat
  /-- The map at the last checkpoint, and its changes journalled since (R380). -/
  checkpoint : List MapEnt
  journal : List MapEnt
  /-- Read levels of the page reads sent and not yet answered, oldest first (R379). -/
  reading : List Nat
  deriving DecidableEq, Repr

structure FlashS where
  trays : List Tray
  /-- Host writes that wait for room in a write cache: link port, page, unit, request (R385). -/
  held : List (Nat × Nat × Nat × Instr)
  deriving DecidableEq, Repr

/-- A context command that awaits its boundary (R478). `op`: 1 DEFINE, 2 OCCULT, 3 RELEASE. No target: the generations are
exhausted (R479). -/
structure CtxCmd where
  ctx : Nat
  op : Nat
  slice : Nat
  target : Option Nat
  deriving DecidableEq, Repr

/-- A fault decided and not yet in effect (R519). -/
structure CtxFault where
  ctx : Nat
  gen : Nat
  reason : Nat
  deriving DecidableEq, Repr

/-- An Occultation between B0 and B1 (R504-R506). -/
structure Occ where
  ctx : Nat
  target : Option Nat
  release : Bool
  deriving DecidableEq, Repr

/-- A fabric abort decided or received (R535-R538): origin, serial, reason, tags, hops, frames it is still sent in. -/
structure Abort where
  origin : Nat
  serial : Nat
  reason : Nat
  frame : Nat
  tags : List (Nat × Nat)
  hops : Nat
  sends : Nat
  /-- Link port it came in on, if it was received. -/
  from? : Option Nat
  acted : Bool
  deriving DecidableEq, Repr

structure CtxS where
  cmds : List CtxCmd
  faults : List CtxFault
  occ : List Occ
  /-- Consecutive overruns per context (R99). -/
  overruns : List (Nat × Nat)
  aborts : List Abort
  abortSerial : Nat
  deriving DecidableEq, Repr

/-- Units judged for hangs (R522). -/
inductive HUnit where
  | stack (n : Nat) | switch (n : Nat) | host (n : Nat) | link (n : Nat) | engine (n : Nat) | queue (n : Nat)
  deriving DecidableEq, Repr

/-- A unit with work: its progress count and the boundaries for which it has stood (R523). -/
structure Watch where
  unit : HUnit
  count : Nat
  stood : Nat
  deriving DecidableEq, Repr

/-- One history entry of an engine (R524). -/
structure Hist where
  engine : Nat
  queue : Nat
  index : Nat
  ctx : Nat
  gen : Nat
  desc : BitVec 512
  frame : Nat
  scr : Nat
  gran : Nat
  deriving DecidableEq, Repr

/-- A guilty-context search on an engine (R525-R528): suspects in replay order, the replay's start, whether one runs. -/
structure Search where
  engine : Nat
  suspects : List Nat
  replaying : Bool
  /-- Operations left in the running replay. -/
  left : Nat
  deriving DecidableEq, Repr

structure HealthS where
  counts : List (HUnit × Nat)
  watch : List Watch
  history : List Hist
  searches : List Search
  /-- Retrains of each stack in this epoch, and stacks, ports being retrained (R529). -/
  stackTries : List (Nat × Nat)
  stackRetraining : List Nat
  stackOut : List Nat
  /-- Dies whose reset, and stacks whose retrain, is decided and takes effect at the next frame boundary (R529, R531). -/
  dieCmds : List Nat
  stackCmds : List Nat
  /-- Dies in reset (R531-R533). -/
  resetting : List Nat
  /-- Pages of a mirror region not copied yet: region, pages; dirty pages; JOINING side waits. -/
  resync : List (Nat × List Nat)
  dirty : List (Nat × Nat)
  /-- Regions whose ADMIT was accepted and that become SYNC at the next boundary (R543). -/
  admitted : List Nat
  /-- A record was written in this frame already (R546). -/
  notified : Bool
  /-- Window of hang detection in force (R523). -/
  window : Nat
  deriving DecidableEq, Repr

/-- Root of trust, attestation, debug (R489-R516). -/
structure SecS where
  bootEpoch : Nat
  idCounter : Nat
  almFloor : Nat
  /-- SEAL has burned its fuse (R509). -/
  fuseSealed : Bool
  /-- Attestation key present; certified (R500). -/
  attReady : Bool
  certMsg : List Byte
  certSig : List Byte
  /-- Intrusive or Maintenance entry under way: requested level, or 4 for Maintenance (R511). -/
  entering : Option Nat
  intrusiveCount : Nat
  haltedEngines : List Nat
  haltedCores : List Nat
  /-- Halted engines, and halted service cores as 256 + core, that may take one step (R513). -/
  steps : List Nat
  almHash : List Byte
  fwHash : List Byte
  deriving DecidableEq, Repr

/-- What the running Almanac gives beyond registers (R552, R553). -/
structure AlmS where
  /-- NOR contents; an erased byte reads 0xFF. -/
  nor : List (Nat × Byte)
  /-- Verified copy of a new image (R566). -/
  copy : List Byte
  library : List (List Byte)
  startImage : Nat
  lockWait : Nat
  hostWords : List Word
  linkWords : List Word
  sliceW : List Nat
  /-- Tray groups: kind, slice, members (R332). -/
  groups : List (Nat × Nat × List Nat)
  deriving DecidableEq, Repr

/-- Run state of the module. -/
inductive ModPhase where
  | dark | starting | ready
  deriving DecidableEq, Repr

/-- Power, pins, test access port (R569-R583). -/
structure PwrS where
  phase : ModPhase
  /-- 0 Full, 1 Idle, 2 Retain in force. -/
  state : Nat
  /-- Pending request: 1 FULL, 2 IDLE, 3 RETAIN. -/
  cmd : Option Nat
  /-- A transition begun at a boundary and not yet complete: the state it ends in (R575). -/
  going : Option Nat
  wake : Bool
  /-- Requests held at their ports until Full is reached, oldest first (R574). -/
  held : List Instr
  vinMv : Nat
  pwrEn : Bool
  resetN : Bool
  norReqN : Bool
  norGrantN : Bool
  /-- Host reference-clock groups whose clock input is missing (R32). -/
  hrefGone : List Nat
  xspiDriven : Bool
  modReady : Bool
  faultN : Bool
  thermN : Bool
  /-- Consecutive samples of R570 that met a condition: input below 57.0 V, current above 72 A, a rail out of regulation, then each die
  and each stack at its shutdown limit. -/
  runs : List Nat
  /-- Consecutive samples of each die and each stack at its warning threshold, and of all of them 3 °C below it (R577). -/
  warnRun : List Nat
  coolRun : Nat
  /-- The last ten input power samples (1 ms). -/
  pins : List Nat
  /-- Latched in the standby domain: cause of the last shutdown, reason of the last refused start, reset cause. -/
  shutdown : Nat
  failReason : Nat
  resetCause : Nat
  /-- The standby domain runs (R569). -/
  standby : Bool
  /-- A refused image, a shutdown or OFF holds the module in Dark until PWR_EN or RESET_N moves (R560, R564). -/
  refused : Bool
  /-- A module reset or shutdown since the last start: the next start writes its record (R546, R570). -/
  wasReset : Bool
  tapIr : Nat
  tapData : Nat
  deriving DecidableEq, Repr

/-- What leaves the module. -/
inductive Out where
  | msix (port vector : Nat)
  /-- Data of a register read, of a port. -/
  | regData (port : Nat) (v : Word64)
  /-- CXL.mem completions (R446): data, poison bit, DevLoad (R448): 0 light, 1 optimal, 2 moderate, 3 severe. -/
  | memData (port : Nat) (data : List Byte) (poison : Bool) (load : Nat)
  | cmp (port load : Nat)
  | atomicCpl (port : Nat) (v : Option Nat)
  | unsupported (port : Nat)
  | retryStatus (port : Nat)
  /-- A message sent on a link port; on ZFL with the slot count and the GCM record in which it leaves (R453). -/
  | msg (link : Nat) (m : Msg) (record : Option (Nat × List Byte))
  /-- Lines written to the expander behind a host port, as ciphertext (R35, R449). -/
  | expander (port addr : Nat) (cipher : List Byte)
  | ack (link : Nat) (r : AckRec)
  | credit (link stream cells : Nat)
  | helloMsg (link : Nat) (h : Hello)
  /-- A snoop or back-invalidate snoop to an agent: 0 Cur, 1 Data, 2 Inv. -/
  | snoop (a : Agent) (kind line : Nat)
  /-- A home's reply to a requester: state granted (0 none, 1 S, 2 E, 3 M), data, status. -/
  | reply (a : Agent) (line state : Nat) (data : Option (List Byte)) (st : Status)
  /-- A value returned by an atomic. -/
  | value (a : Agent) (v : Nat) (st : Status)
  /-- A service core's answer to a snoop: 0 I, 1 S; or an eviction. -/
  | rsp (core line kind : Nat)
  | supply (core line : Nat) (data : List Byte)
  | evict (core line : Nat) (data : Option (List Byte))
  | request (core line kind : Nat)
  /-- A cell sent at an egress: die, E, class, context, cell number, colour; `idle` when the position stays idle. -/
  | cell (die e cls ctx n colour : Nat)
  | idleCell (die e : Nat)
  | stomp (die e : Nat)
  | flashCmd (link cmd level die block page : Nat)
  /-- An MCTP response: status and payload (R501). -/
  | mctp (i3c : Bool) (port status : Nat) (payload : List Byte)
  /-- A PTP delay request on the management port: domain and transport (R60). -/
  | delayReq (domain transport : Nat)
  | tdo (v : Nat)
  deriving DecidableEq, Repr

/-- The state of the module. -/
structure State where
  /-- The commands that wait, first in first out. -/
  pending : List Instr
  /-- Every register of the aperture, as last written (R41). -/
  regs : List (Nat × Word)
  /-- The protection registers in force (R14, R488): what they held at the last frame boundary. -/
  force : List (Nat × Word)
  /-- Pool memory (R330); an unwritten byte reads zero (R494). -/
  mem : List Host.Cell
  /-- Lines of pool memory that are poisoned or uncorrectable. -/
  poison : List Nat
  /-- Scratch bytes by space and byte: engine e at e * 2^22, core c at (256 + c) * 2^22; and poisoned scratch lines (R158, R165). -/
  scr : List (Nat × Byte)
  scrPoison : List Nat
  time : TimeS
  eph : EphS
  ops : List Op
  heads : List Head
  bells : List Bell
  nextOp : Nat
  /-- Queue last granted a dynamic slot, per die (R155). -/
  granted : List (Nat × Nat)
  /-- Queues held back for want of a dynamic slot (R155). -/
  stalled : List Nat
  reds : List Stream
  tier : TierS
  sw : SwS
  coh : CohS
  link : LinkS
  flash : FlashS
  ctx : CtxS
  health : HealthS
  sec : SecS
  alm : AlmS
  pwr : PwrS
  /-- What the module has sent, newest first. -/
  out : List Out
  /-- The model's own: free values used so far (notes/assumptions/2.md). -/
  freeCtr : Nat
  deriving DecidableEq, Repr

/-- No command of this block stops the machine with a fault: a failed request completes with a status code (R15), and a
command whose event cannot happen in the state leaves it unchanged (notes/assumptions/5.md). The type has no constructor, so a
fault cannot be answered. DESIGN CHOICE, unsafe: notes/assumptions/5.md. -/
inductive Fault where
  deriving DecidableEq, Repr

/-- Why a command has no meaning. -/
inductive Refusal where
  /-- Raised by an arm of `exec` whose row has no meaning yet. Safe: the machine stops. -/
  | notModelled (mnemonic : String)
  deriving DecidableEq, Repr

/-- Frame time at reset: frame 0, slot 0; the period is the recommended 4 µs until the Almanac sets it (R56, R68). -/
def TimeS.reset : TimeS :=
  { frame := 0, slot := 0, cycle := 0, frameBase := 0, units := 32, epochLog2 := 12, net := 0, offset := 0, capture := [],
    syncAt := none, sync := none, reqAt := none, delay := 0 }

def EphS.reset : EphS :=
  { active := none, source := none, bytes := [], readFault := false, standby := none, armed := none, recheck := 0,
    stopAt := none, rtArm := none, compArm := none, outDies := [], outEngines := [], startImage := false, drainEnd := 0 }

def TierS.reset : TierS :=
  { pages := [], rights := [], cmd := none, gone := [], cmdDone := false, scrubs := [], freed := [], units := [], lostUnits := [],
    streams := [], seqs := [], serial := 0, carried := 0, migUsed := [] }

def SwS.reset : SwS :=
  { items := [], nextId := 0, vtime := [], flast := [], nadir := [], buckets := [], gates := [], samples := [], stalled := [],
    served := [], path := [], failing := [], remapped := [] }

/-- DESIGN CHOICE, safe: notes/assumptions/65.md. -/
def CohS.reset : CohS :=
  { dir := [], clock := 0, caches := [], evicting := [], pending := [], txns := [], waitq := [],
    snoops := [], rsps := [], flight := [], updates := [], invals := [], curs := [] }

def LinkS.reset : LinkS :=
  { ports := [], lanes := [], credit := [], given := [], replay := [], rx := [], awaits := [], ide := [], hdm := [], masked := [], pend := [] }

def CtxS.reset : CtxS := { cmds := [], faults := [], occ := [], overruns := [], aborts := [], abortSerial := 0 }

def HealthS.reset : HealthS :=
  { counts := [], watch := [], history := [], searches := [], stackTries := [], stackRetraining := [], stackOut := [],
    dieCmds := [], stackCmds := [], resetting := [], resync := [], dirty := [], admitted := [], notified := false, window := 256 }

def SecS.reset : SecS :=
  { bootEpoch := 0, idCounter := 0, almFloor := 0, fuseSealed := false, attReady := false, certMsg := [], certSig := [],
    entering := none, intrusiveCount := 0, haltedEngines := [], haltedCores := [], steps := [], almHash := [], fwHash := [] }

def AlmS.reset : AlmS :=
  { nor := [], copy := [], library := [], startImage := 0xFF, lockWait := 0, hostWords := [], linkWords := [], sliceW := [],
    groups := [] }

def PwrS.reset : PwrS :=
  { phase := .dark, state := 0, cmd := none, going := none, wake := false, held := [], vinMv := 0, pwrEn := false, resetN := true,
    norReqN := true, norGrantN := true, hrefGone := [], xspiDriven := true, modReady := false, faultN := true, thermN := true,
    runs := List.replicate 15 0, warnRun := List.replicate 12 0, coolRun := 0, pins := [], shutdown := 0, failReason := 0, resetCause := 0,
    standby := true, refused := false, wasReset := false, tapIr := 1, tapData := 0 }

/-- The module right after reset: Dark, the standby domain running, every register at its reset value (R514, R545, R560).
DESIGN CHOICE, unsafe: notes/assumptions/4.md. -/
def State.reset : State :=
  { pending := [], regs := [], force := [], mem := [], poison := [], scr := [], scrPoison := [], time := .reset, eph := .reset,
    ops := [], heads := [], bells := [], nextOp := 0, granted := [], stalled := [], reds := [], tier := .reset, sw := .reset, coh := .reset,
    link := .reset, flash := { trays := [], held := [] }, ctx := .reset, health := .reset, sec := .reset, alm := .reset, pwr := .reset,
    out := [], freeCtr := 0 }

end Sys2Proof.Machine
end

