-- ==== Sys2Proof/Machine/Flags.lean ====
section
/-! DEFINITION. Reading and writing registers and their fields, event bits, saturating counts (R9, R11, R12, R142), and the status
codes' numbers and ranks (R15, R16, R18). -/

namespace Sys2Proof.Machine

/-- Field of `w` bits from bit `lo` of a number (R8). -/
def nbits (n lo w : Nat) : Nat := n / 2 ^ lo % 2 ^ w

/-- A number with its field replaced. -/
def nput (n lo w v : Nat) : Nat := n - nbits n lo w * 2 ^ lo + v % 2 ^ w * 2 ^ lo

/-- Field of a bit vector as a number. -/
def bfld {n : Nat} (b : BitVec n) (lo w : Nat) : Nat := (b.extractLsb' lo w).toNat

/-- Little-endian number of a list of bytes (R8). -/
def leNat : List Byte → Nat
  | [] => 0
  | b :: l => b.toNat + 256 * leNat l

/-- The n low bytes of a number, lowest first. -/
def leBytes : Nat → Nat → List Byte
  | 0, _ => []
  | n + 1, v => BitVec.ofNat 8 v :: leBytes n (v / 256)

/-- Register as last written. -/
def State.rd (s : State) (off : Nat) : Word := sget resetVal s.regs off

/-- Register in force since the last frame boundary (R14). DEDUCED, unsafe: notes/assumptions/9.md. -/
def State.frd (s : State) (off : Nat) : Word := sget resetVal s.force off

/-- Store a whole register. -/
def State.wr (s : State) (off : Nat) (v : Word) : State := { s with regs := sset resetVal s.regs off v }

/-- Store a register and its value in force. -/
def State.wrf (s : State) (off : Nat) (v : Word) : State :=
  { s with regs := sset resetVal s.regs off v, force := sset resetVal s.force off v }

def State.fld (s : State) (off lo w : Nat) : Nat := nbits (s.rd off).toNat lo w

def State.ffld (s : State) (off lo w : Nat) : Nat := nbits (s.frd off).toNat lo w

def State.wrn (s : State) (off n : Nat) : State := s.wr off (BitVec.ofNat 32 n)

def State.wrFld (s : State) (off lo w v : Nat) : State := s.wrn off (nput (s.rd off).toNat lo w v)

/-- Set the bits of `m`: an event is latched (R12). -/
def State.set (s : State) (off : Nat) (m : Word) : State := s.wr off (s.rd off ||| m)

/-- Clear the bits of `m`. -/
def State.clr (s : State) (off : Nat) (m : Word) : State := s.wr off (s.rd off &&& ~~~m)

def State.bit (s : State) (off i : Nat) : Bool := (s.rd off).getLsbD i

def State.fbit (s : State) (off i : Nat) : Bool := (s.frd off).getLsbD i

/-- Count up by n, saturating at 0xFFFF_FFFF. -/
def State.sat (s : State) (off n : Nat) : State := s.wrn off (min 0xFFFFFFFF ((s.rd off).toNat + n))

/-- Count up by n, wrapping. -/
def State.wrap (s : State) (off n : Nat) : State := s.wrn off ((s.rd off).toNat + n)

/-- A 64-bit register (R142): two words. -/
def State.rd64 (s : State) (off : Nat) : Nat := (s.rd off).toNat + 2 ^ 32 * (s.rd (off + 4)).toNat

def State.wr64 (s : State) (off n : Nat) : State := (s.wrn off n).wrn (off + 4) (n / 2 ^ 32)

/-- Something leaves the module. -/
def State.emit (s : State) (o : Out) : State := { s with out := o :: s.out }

/-- Apply a function when a condition holds. -/
def State.when (s : State) (c : Bool) (f : State → State) : State := if c then f s else s

/-- Apply `f` for every element in order. -/
def State.each {α : Type} (s : State) (l : List α) (f : α → State → State) : State := l.foldl (fun t a => f a t) s

/-- Numbers of R15. -/
def Status.code : Status → Nat
  | .ok => 0 | .zeroLenNoop => 1 | .ctxFenced => 2 | .addrFault => 3 | .permission => 4 | .mediaUncorrectable => 5
  | .capacityExhausted => 6 | .stateLost => 7 | .expansionOverflow => 8 | .shortBlock => 9 | .frameOverrun => 10
  | .abortedFabric => 11 | .quota => 12 | .epochStale => 13

/-- Status of a code received; a reserved code counts as a failure (R19), here as MEDIA_UNCORRECTABLE: DESIGN CHOICE, unsafe:
notes/assumptions/74.md. -/
def Status.ofCode : Nat → Status
  | 0 => .ok | 1 => .zeroLenNoop | 2 => .ctxFenced | 3 => .addrFault | 4 => .permission | 5 => .mediaUncorrectable
  | 6 => .capacityExhausted | 7 => .stateLost | 8 => .expansionOverflow | 9 => .shortBlock | 10 => .frameOverrun
  | 11 => .abortedFabric | 12 => .quota | 13 => .epochStale | _ => .mediaUncorrectable

/-- R16. -/
def Status.success : Status → Bool
  | .ok => true
  | .zeroLenNoop => true
  | _ => false

/-- Ranks of R18; OK stands below all. -/
def Status.rank : Status → Nat
  | .ctxFenced => 1 | .abortedFabric => 2 | .epochStale => 3 | .permission => 4 | .addrFault => 5 | .zeroLenNoop => 6
  | .quota => 7 | .capacityExhausted => 8 | .mediaUncorrectable => 9 | .stateLost => 10 | .expansionOverflow => 11
  | .shortBlock => 12 | .frameOverrun => 13 | .ok => 14

/-- The code reported of two (R18). -/
def Status.worst (a b : Status) : Status := if a.rank ≤ b.rank then a else b

/-- The code of a list of conditions, each with its code. -/
def Status.all (l : List (Bool × Status)) : Status :=
  l.foldl (fun a p => if p.1 then a.worst p.2 else a) .ok

end Sys2Proof.Machine
end

