-- ==== Sys2Proof/Machine/Ops.lean ====
section
/-! DEFINITION. The shared operations: authority by port (R486), contexts and slices (R477, R481), pool memory and its rights
(R334, R406), counters, waits and notifications (R140-R147), error and trace records (R515, R546), faults (R519). -/

namespace Sys2Proof.Machine

/-- Host port n is an owner port (R486, `HP_STATUS.OWNER`). -/
def State.owner (s : State) (n : Nat) : Bool := n < 48 && s.bit (hostBlock n) 13

/-- Host port n is UP (R473). -/
def State.hostUp (s : State) (n : Nat) : Bool := n < 48 && s.fld (hostBlock n) 0 3 == 2

/-- Count a permission violation of port index i (R487). -/
def State.pviol (s : State) (i : Nat) : State := s.sat (pviolReg i) 1

/-- The module serves commands: it is past its start (R561). -/
def State.ready (s : State) : Bool := s.pwr.phase == .ready

/-- Die d answers accesses to its block: it is not in reset, retraining after it, out of service or Dark (R45, R47, R532). -/
def State.dieUp (s : State) (d : Nat) : Bool := let v := s.fld 0x10 (4 * d) 4; v == 3 || v == 4

/-- Ports of die d may train: it operates, or has come out of reset (R533). -/
def State.dieTrains (s : State) (d : Nat) : Bool := let v := s.fld 0x10 (4 * d) 4; v == 2 || v == 3

/-- The block of an aperture offset answers accesses. -/
def State.reach (s : State) (off : Nat) : Bool :=
  match place off with
  | .glob _ => true
  | .reserved => true
  | .dieCtl d _ => s.dieUp d
  | .eph d _ => s.dieUp d
  | .queue q _ => s.dieUp (q / 4096)
  | .counter c _ => s.dieUp (c / 16384)
  | .engine e _ => s.dieUp (e / 64)
  | .host n _ => s.dieUp (n / 12)
  | .link n _ => s.dieUp (n / 16)

/-- A request of a port: served in Full and Idle; in Retain it wakes the module and is held at its port (R574). A module that is
not past its start serves none (R561). -/
def State.served (s : State) (i : Instr) (f : State → State) : State :=
  if !s.ready then s
  else if s.pwr.state == 2 then { s with pwr := { s.pwr with wake := true, held := s.pwr.held ++ [i] } }
  else f s

/-- A wake event of Idle (R574). DEDUCED, unsafe: notes/assumptions/50.md. -/
def State.wakeIdle (s : State) : State := if s.pwr.state == 1 then { s with pwr := { s.pwr with wake := true } } else s

/-- A write of one register under the access code of each field (R9, R11, R13): `RW` bits take the value, `RW-S` bits take it if `own`,
`W1C` bits written 1 are cleared. A value refused in some RW-S bit that would have changed is counted for a port that is no owner port. -/
def State.codeWrite (s : State) (own : Bool) (port off : Nat) (v : Word) : State :=
  let i := regInfo off
  let cur := s.rd off
  let st := if own then i.rw ||| i.rws else i.rw
  let s1 := s.wr off ((cur &&& ~~~(st ||| (v &&& i.w1c))) ||| (v &&& st))
  s1.when (!own && !s.owner port && ((v ^^^ cur) &&& i.rws) != 0) (·.pviol port)

/-- A write through the management aperture. -/
def State.plainWrite (s : State) (port off : Nat) (v : Word) : State := s.codeWrite (s.owner port) port off v

/-- A command of an owner port to the register at `off`; from any other port it is discarded and counted (R486). -/
def State.reg (s : State) (i : Instr) (port off : Nat) (f : State → State) : State :=
  s.served i (fun t => if !t.reach off then t else if t.owner port then f t else t.pviol port)

/-- A write of an RW-S register that acts: as R13 says on a port that is no owner port, `f` on an owner port. -/
def State.regS (s : State) (i : Instr) (port off : Nat) (v : Word) (f : State → State) : State :=
  s.served i (fun t => if !t.reach off then t else if t.owner port then f t else t.plainWrite port off v)

/-- The current instant in ACLK since frame 0. -/
def State.now (s : State) : Nat := s.time.frameBase + s.time.cycle

/-- The instant of a frame boundary: the new frame has begun, and no time of it has passed (R38). -/
def State.atBoundary (s : State) : Bool := s.time.slot == 0 && s.time.cycle == 0

/-- Frames per epoch and the epoch number (R68). -/
def State.epochLen (s : State) : Nat := 2 ^ s.time.epochLog2
def State.epoch (s : State) : Nat := s.time.frame / s.epochLen

/-- Composition and routing version in force (R464, R482). -/
def State.version (s : State) : Nat := s.fld 0x604 0 1

/-- Slice entry fields of the version in force (R481). -/
def State.sliceW (s : State) (sl i : Nat) : Nat := (s.rd (sliceReg s.version sl (4 * i))).toNat
def State.sliceValid (s : State) (sl : Nat) : Bool := sl < 64 && (s.sliceW sl 6).testBit 24
def State.sliceMode (s : State) (sl : Nat) : Nat := nbits (s.sliceW sl 6) 16 2
def State.sliceHost (s : State) (sl n : Nat) : Bool := (s.sliceW sl (n / 32)).testBit (n % 32)
def State.sliceLink (s : State) (sl n : Nat) : Bool := (s.sliceW sl (2 + n / 32)).testBit (n % 32)
def State.sliceCore (s : State) (sl c : Nat) : Bool := (s.sliceW sl (4 + c / 32)).testBit (c % 32)
def State.sliceStack (s : State) (sl k : Nat) : Bool := (s.sliceW sl 6).testBit k
def State.sliceDie (s : State) (sl d : Nat) : Bool := (s.sliceW sl 6).testBit (8 + d)

/-- Context block fields (R476). -/
def State.ctxState (s : State) (x : Nat) : Nat := s.fld (ctxReg x 0) 0 3
def State.ctxGen (s : State) (x : Nat) : Nat := s.fld (ctxReg x 4) 0 22
def State.ctxSlice (s : State) (x : Nat) : Nat := s.fld (ctxReg x 0) 4 6
/-- LIVE, FAULTED or OCCULTING (R477). -/
def State.defined (s : State) (x : Nat) : Bool := let k := s.ctxState x; k == 1 || k == 2 || k == 3
/-- LIVE or FAULTED. -/
def State.serving (s : State) (x : Nat) : Bool := let k := s.ctxState x; k == 1 || k == 2

/-- Status of an access for context x whatever it touches: FREE and RETIRED give PERMISSION, OCCULTING CTX_FENCED (R477, R504). -/
def State.ctxCheck (s : State) (x : Nat) : Status :=
  match s.ctxState x with
  | 1 => .ok
  | 2 => .ok
  | 3 => .ctxFenced
  | _ => .permission

/-- Membership of context x in domain d, in force (R438). -/
def State.member (s : State) (d x : Nat) : Bool := s.fbit (memberReg d (x / 32)) (x % 32)

/-- Rights in force on a page: its map entry (R334, R339). -/
def State.rights (s : State) (p : Nat) : Option Word := (s.tier.rights.find? (fun r => r.1 == p)).map (·.2)

/-- The page record. -/
def State.page (s : State) (p : Nat) : Option Page := s.tier.pages.find? (fun r => r.page == p)

/-- A page's domain (R405). -/
def entryCtx (e : Word) : Nat := nbits e.toNat 0 10
def entryPin (e : Word) : Nat := nbits e.toNat 10 2
def entryUnit (e : Word) : Nat := nbits e.toNat 12 8
def entryDomain (e : Word) : Nat := nbits e.toNat 20 2

/-- Page p lies in a mirror region that is JOINING: only the partner reaches it (R543 item 3). -/
def State.joining (s : State) (p : Nat) : Bool :=
  (List.range 16).any (fun r => s.bit (mirrorReg r 8) 8 && s.fld (mirrorReg r 8) 9 2 == 3
    && decide ((s.rd (mirrorReg r 0)).toNat ≤ p) && decide (p ≤ (s.rd (mirrorReg r 4)).toNat))

/-- Access right of context x to page p (R138, R334, R405, R406). `svc`: the cache-pool service itself writes. -/
def State.pageCheck (s : State) (x p : Nat) (write svc : Bool) : Status :=
  if s.joining p then .permission
  else match s.rights p with
  | none => .addrFault
  | some e =>
    let dom := entryDomain e
    if dom == 0 then
      if entryCtx e != x then .addrFault
      else if write && !svc && e.getLsbD 22 then .permission else .ok
    else if !s.member dom x || !s.fbit (domReg dom 0) 0 then .permission
    else if write && e.getLsbD 22 then .permission else .ok

/-- A page of a layer whose stage copy is complete: reads find the copy (R359). -/
def State.stageCopy (s : State) (p : Nat) : Bool :=
  s.tier.streams.any (fun w => w.copies.any (fun c =>
    !w.staging.any (fun q => q % max 1 w.layers.length == c.1)
      && (let l := w.layers.getD c.1 (0, 0); l.1 / 2 ^ 21 ≤ p && p < l.1 / 2 ^ 21 + l.2)))

/-- The record by which an access to page p is answered: that of an UNMAP whose boundary has not come, else the current one (R339). -/
def State.pageNow (s : State) (p : Nat) : Option Page := (s.tier.gone.find? (fun g => g.page == p)).orElse (fun _ => s.page p)

/-- A lost page answers no access (R355). -/
def State.lostCheck (s : State) (p : Nat) : Status :=
  match s.pageNow p with
  | some g => if g.lost && !s.stageCopy p then (if g.entry.getLsbD 24 then .stateLost else .mediaUncorrectable) else .ok
  | none => .ok

/-- Lines that a read finds uncorrectable: those of the step, and those marked in pool memory, which a complete stage copy hides (R359). -/
def State.badLines (s : State) (ue : List Nat) : List Nat := s.poison.filter (fun l => !s.stageCopy (l / 2 ^ 15)) ++ ue

/-- The pages that `n` bytes from `a` touch; none for n = 0. -/
def pagesOf (a n : Nat) : List Nat :=
  if n = 0 then [] else (List.range ((a + n - 1) / 2 ^ 21 - a / 2 ^ 21 + 1)).map (· + a / 2 ^ 21)

/-- Rights of context x on [a, a + n): PERMISSION or ADDR_FAULT (ranks 4 and 5 of R18). -/
def State.mapCheck (s : State) (x : Nat) (write : Bool) (a n : Nat) : Status :=
  if 2 ^ 52 < a + n then .addrFault
  else (pagesOf a n).foldl (fun st p => st.worst (s.pageCheck x p write false)) .ok

/-- A read of [a, a + n) meets a lost page or an uncorrectable line (R355, R585). -/
def State.readCheck (s : State) (ue : List Nat) (a n : Nat) : Status :=
  let lost := (pagesOf a n).foldl (fun st p => st.worst (s.lostCheck p)) .ok
  let bad := n != 0 && (s.badLines ue).any (fun l => a / 64 ≤ l && l ≤ (a + n - 1) / 64)
  if bad then lost.worst .mediaUncorrectable else lost

/-- Domain of a line's page, in force; 0 for a private page (R405). -/
def State.lineDom (s : State) (l : Nat) : Nat := (s.rights (l / 2 ^ 15)).elim 0 entryDomain

/-- Where a read of [a, a + n) met its first uncorrectable line (R546); `a` when it met none. -/
def State.badAt (s : State) (ue : List Nat) (a n : Nat) : Nat :=
  match (s.badLines ue).filter (fun l => n != 0 && a / 64 ≤ l && l ≤ (a + n - 1) / 64) with
  | [] => a
  | l :: r => 64 * r.foldl min l

/-- A line of which a service core holds, or is about to receive, or has sent back, data newer than memory (R415, R423). -/
def State.newer (s : State) (l : Nat) : Option (List Byte) :=
  match s.coh.caches.find? (fun c => c.line == l && (c.st == .m || c.st == .o)) with
  | some c => some c.data
  | none =>
    match s.coh.flight.find? (fun f => f.line == l && f.state == 3 && f.data.isSome) with
    | some f => f.data
    | none => (s.coh.evicting.find? (fun e => e.2.1 == l && e.2.2.isSome)).elim none (·.2.2)

/-- One byte of pool memory as its home has it: a service core's dirty copy, else memory (R409, R416).
DESIGN CHOICE, unsafe: notes/assumptions/58.md. -/
def State.byte (s : State) (a : Nat) : Byte :=
  match s.newer (a / 64) with
  | some d => d.getD (a % 64) 0
  | none => sget (fun _ => 0) s.mem a

/-- `n` bytes from `a`. -/
def State.bytes (s : State) (a n : Nat) : List Byte := (List.range n).map (fun i => s.byte (a + i))

/-- Store bytes from `a` on in memory alone. -/
def putBytes (m : List Host.Cell) (a : Nat) : List Byte → List Host.Cell
  | [] => m
  | b :: l => putBytes (sset (fun _ => 0) m a b) (a + 1) l

/-- The lines that a write of n bytes at a covers whole: their poison is cleared (R428). -/
def coveredLine (a n l : Nat) : Bool := a ≤ 64 * l && 64 * l + 64 ≤ a + n

/-- The home slice of a line (R412). -/
def homeSlice (line : Nat) : Nat := (nbits line 0 3 ^^^ nbits line 3 3) ^^^ (nbits line 6 3 ^^^ nbits line 15 3)

/-- `COH_DIR_USED`, `COH_HOME_HELD`, `COH_DOM_LINES` follow the directory (R435, R440). -/
def State.dirSync (s : State) : State :=
  let n (p : DirEnt → Bool) : Nat := (s.coh.dir.filter p).length
  let s1 := s.each (List.range 8) (fun h t =>
    (t.wrn (dirReg h 0) (n (fun e => e.st != .h && homeSlice e.line == h))).wrn (dirReg h 8) (n (fun e => e.st == .h && homeSlice e.line == h)))
  s1.each [1, 2, 3] (fun d t => t.wrn (domReg d 0x14) (n (fun e => e.st != .h && e.dom == d)))

/-- Tracked copies of the lines that a write of `d` at `a` covers end, as a WrLine of a unit ends them: the hosts among the holders are snooped,
the written bytes stand over what they give back, and lines in the home buffer stay there (R144, R409, R416).
DEDUCED, unsafe in part: notes/assumptions/30.md. -/
def State.dropCopies (s : State) (a : Nat) (d : List Byte) : State :=
  let within (l : Nat) : Bool := decide (a / 64 ≤ l) && decide (l * 64 < a + d.length)
  let hit (l : Nat) : Bool := within l && !s.coh.flight.any (fun f => f.line == l)
  if s.coh.dir.any (fun e => hit e.line && e.st != .h) || s.coh.caches.any (fun c => hit c.line) || s.coh.invals.any (fun i => within i.line) then
    let new := (s.coh.dir.filter (fun e => hit e.line && e.st != .h)).flatMap (fun e => e.holders.filterMap (fun g => match g with
      | .host h => some { host := h, line := e.line, owner := (e.st == .em || e.st == .o) && e.holders.head? == some g, writes := [] : Inval }
      | _ => none))
    let s1 : State := { s with
      coh := { s.coh with
        dir := s.coh.dir.filter (fun e => !hit e.line || e.st == .h)
        caches := s.coh.caches.filter (fun c => !hit c.line)
        invals := (s.coh.invals ++ new).map (fun i => if within i.line then { i with writes := i.writes ++ [(a, d)] } else i) }
      out := new.map (fun i => Out.snoop (.host i.host) 2 i.line) ++ s.out }
    s1.dirSync
  else s

/-- Line l with the bytes that a write of `d` at `a` puts into it. -/
def overlay (l a : Nat) (d old : List Byte) : List Byte :=
  (List.range 64).map (fun i => if a ≤ 64 * l + i ∧ 64 * l + i < a + d.length then d.getD (64 * l + i - a) 0 else old.getD i 0)

/-- A write of pool memory: the bytes, poison of whole lines cleared, tracked copies of the lines dropped (R410, R416, R418). Data on
the way to a service core take the written bytes; dirty data on the way back are overtaken. -/
def State.write (s : State) (a : Nat) (d : List Byte) : State :=
  let t := s.dropCopies a d
  let hit (l : Nat) : Bool := decide (a / 64 ≤ l) && decide (l * 64 < a + d.length)
  let put (f : Flight) : Flight := if hit f.line then { f with data := f.data.map (overlay f.line a d) } else f
  let drop (e : Nat × Nat × Option (List Byte)) : Nat × Nat × Option (List Byte) := if hit e.2.1 then (e.1, e.2.1, none) else e
  { t with
    mem := putBytes t.mem a d
    poison := t.poison.filter (fun l => !coveredLine a d.length l)
    coh := { t.coh with flight := t.coh.flight.map put, evicting := t.coh.evicting.map drop } }

/-- Mark the pages of an access for heat (R345). -/
def State.mark (s : State) (a n : Nat) : State :=
  { s with tier := { s.tier with pages := s.tier.pages.map (fun g =>
      if (pagesOf a n).contains g.page then { g with marked := true } else g) } }

/-- Dirty bytes of a line that a service core holds go to memory before the line is written in part.
DEDUCED, unsafe in part: notes/assumptions/30.md. -/
def State.flushLine (s : State) (line : Nat) : State :=
  match s.newer line with
  | some d => { s with mem := putBytes s.mem (line * 64) d }
  | none => s

/-- A write of an operation or host: lines held dirty by a service core are written back first, then the write, then heat.
DEDUCED, unsafe in part: notes/assumptions/30.md. -/
def State.store (s : State) (a : Nat) (d : List Byte) : State :=
  if d.isEmpty then s
  else
    let s1 := s.each (if a % 64 = 0 ∧ d.length % 64 = 0 then [] else [a / 64, (a + d.length - 1) / 64]) (fun l t => t.flushLine l)
    (s1.write a d).mark a d.length

/-- Two byte ranges share a byte. -/
def overlaps (a n b m : Nat) : Bool := n != 0 && m != 0 && a < b + m && b < a + n

/-- The scratch lines of engine e and of its core that are poisoned (R195). -/
def State.engPoison (s : State) (e : Nat) : Nat := (s.scrPoison.filter (fun k => k / 2 ^ 16 == e || k / 2 ^ 16 == 256 + e / 4)).length

/-- The poisoned scratch lines change: `ENG_SCR_POISON` of the engines of engine e's core follows (R165, R195). -/
def State.setPoison (s : State) (e : Nat) (l : List Nat) : State :=
  if l = s.scrPoison then s
  else ({ s with scrPoison := l } : State).each [e / 4 * 4, e / 4 * 4 + 1, e / 4 * 4 + 2, e / 4 * 4 + 3] (fun k t => t.wrn (engineBlock k + 0x24) (t.engPoison k))

-- records -------------------------------------------------------------------------------------------------------------

/-- One MSI-X message, unless the port is not a host port that is UP; a masked vector becomes pending instead (R147, R546).
DESIGN CHOICE, unsafe: notes/assumptions/70.md. -/
def State.msix (s : State) (port vector : Nat) : State :=
  if !s.hostUp port then s
  else if s.link.masked.contains (port, vector) then
    { s with link := { s.link with pend := (port, vector) :: s.link.pend.filter (· != (port, vector)) } }
  else s.emit (.msix port vector)

/-- A 32 B error-log record (R546). -/
def State.errLog (s : State) (kind st source ctx addr detail : Nat) : State :=
  if ((s.rd 0x818) - (s.rd 0x81C)).toNat = 4096 then s.sat 0x820 1
  else
    let slot := (s.rd 0x818).toNat % 4096
    let tag := if ctx < 1024 then ctx + 1024 * s.ctxGen ctx else 0
    let ws := [kind % 256 + 256 * (st % 256) + 65536 * (source % 65536), tag, s.time.frame, s.time.frame / 2 ^ 32, addr,
      addr / 2 ^ 32, detail, 0]
    let s := s.each (ws.zip (List.range 8)) (fun p t => t.wrn (logReg slot (4 * p.2)) p.1)
    let s := s.wrap 0x818 1
    if s.health.notified then s
    else
      let s := { s with health := { s.health with notified := true } }
      s.when (s.bit 0x824 6) (·.msix (s.fld 0x824 0 6) (s.fld 0x824 8 11))

/-- The index a free value was drawn at; the counter advances (notes/assumptions/2.md). DESIGN CHOICE, safe: notes/assumptions/2.md. -/
def State.fresh (s : State) : Word × State := (Config.freeWord s.freeCtr, { s with freeCtr := s.freeCtr + 1 })

/-- A record of a kind for which R546 names no `SOURCE`: that field is open. DESIGN CHOICE, unsafe in part: notes/assumptions/49.md. -/
def State.errLogOpen (s : State) (kind ctx addr detail : Nat) : State := s.fresh.2.errLog kind 0 s.fresh.1.toNat ctx addr detail

/-- No context in an error-log record. -/
def noCtx : Nat := 1024

/-- A 16 B trace record of an enabled kind, while the level is Observe or Intrusive and the ring's context is LIVE (R515). -/
def State.trace (s : State) (kind source ctx st : Nat) : State :=
  let lvl := s.fld 0x700 4 2
  let tc := s.fld 0x72C 9 10
  if (lvl == 1 || lvl == 2) && s.bit 0x72C 0 && s.bit 0x72C (18 + kind) && s.ctxState tc == 1 && s.pwr.state != 2 then
    if ((s.rd 0x730) - (s.rd 0x734)).toNat = 2 ^ s.fld 0x72C 4 5 then s.sat 0x738 1
    else
      let a := (s.rd 0x724).toNat + 2 ^ 32 * (s.rd 0x728).toNat + 16 * ((s.rd 0x730).toNat % 2 ^ s.fld 0x72C 4 5)
      let lo := kind + 2 ^ 8 * (source % 2 ^ 16) + 2 ^ 24 * (ctx % 2 ^ 10) + 2 ^ 34 * (st % 2 ^ 8) + 2 ^ 48 * min 0xFFFF s.time.cycle
      let s1 := if s.mapCheck tc true a 16 = .ok then s.write a (leBytes 8 lo ++ leBytes 8 s.time.frame) else s
      s1.wrap 0x730 1
  else s

/-- A unit's progress count moves (R522). -/
def State.progress (s : State) (u : HUnit) : State :=
  let n := (s.health.counts.find? (fun p => p.1 == u)).elim 0 (·.2)
  let l := (u, n + 1) :: s.health.counts.filter (fun q => q.1 != u)
  { s with health := { s.health with counts := l } }

-- faults --------------------------------------------------------------------------------------------------------------

/-- A rule faults context x: it takes effect at the next frame boundary (R519). Reasons are those of R520.
DEDUCED, unsafe: notes/assumptions/67.md. -/
def State.fault (s : State) (x reason : Nat) : State :=
  { s with ctx := { s.ctx with faults := s.ctx.faults ++ [{ ctx := x, gen := s.ctxGen x, reason := reason }] } }

-- counters ------------------------------------------------------------------------------------------------------------

/-- The word that binds a counter to (x, h) with `VALID` (R141). -/
def bindWord (x h : Nat) : Word := BitVec.ofNat 32 (x + 1024 * h + 2 ^ 31)

/-- The counter an aperture offset's C_BIND belongs to. -/
def bindOf (off : Nat) : Option Nat :=
  match place off with
  | .counter c 0x10 => some c
  | _ => none

/-- Counter of handle h of context x, by the bindings in force (R143). -/
def State.ctr (s : State) (x h : Nat) : Option Nat :=
  s.force.findSome? (fun p => if p.2 == bindWord x h then bindOf p.1 else none)

def State.ctrVal (s : State) (c : Nat) : Nat := s.rd64 (counterBlock c)

/-- A wait condition (R140). -/
def waitHolds (cond v w : Nat) : Bool := if cond = 0 then decide (w ≤ v) else v == w

/-- Pending waits of descriptors read from their rings see counter c's new value (R140). -/
def State.recheck (s : State) (c : Nat) : State :=
  { s with heads := s.heads.map (fun h =>
      if bfld h.desc 9 1 = 1 && s.ctr (s.ffld (queueBlock h.queue) 0 10) (bfld h.desc 32 14) == some c
          && waitHolds (bfld h.desc 46 2) (s.ctrVal c) (bfld h.desc 64 64)
      then { h with met := true } else h) }

/-- The notification check of counter c (R147). -/
def State.notify (s : State) (c : Nat) : State :=
  let b := counterBlock c
  if s.bit (b + 0x1C) 0 && decide (s.rd64 (b + 0x20) ≤ s.ctrVal c) then
    let p := s.fld (b + 0x1C) 8 6
    let v := s.fld (b + 0x1C) 16 11
    let s := s.wr (b + 0x1C) ((s.rd (b + 0x1C) &&& ~~~(1 : Word)) ||| 2)
    (s.msix p v).when (s.pwr.state == 2) (fun t => { t with pwr := { t.pwr with wake := true } })
  else s

/-- A step boundary of context x in this frame (R518). -/
def State.stepMark (s : State) (x : Nat) : State :=
  ((s.wrn (healthReg x 8) s.time.frame).wrn (healthReg x 12) (s.time.frame / 2 ^ 32)).clr (healthReg x 4) 0x40

/-- A rise of counter c by an add marks a step when it is the step counter of its context (R518). -/
def State.stepCheck (s : State) (c : Nat) : State :=
  let b := s.frd (counterBlock c + 0x10)
  let x := nbits b.toNat 0 10
  s.when (b.getLsbD 31 && s.bit (healthReg x 0) 14 && s.fld (healthReg x 0) 0 14 == nbits b.toNat 10 14) (·.stepMark x)

-- queues --------------------------------------------------------------------------------------------------------------

def qState (s : State) (q : Nat) : Nat := s.fld (queueBlock q + 0x18) 0 3
def qSetState (s : State) (q v : Nat) : State := s.wrn (queueBlock q + 0x18) v
def qOps (s : State) (q : Nat) : List Op := s.ops.filter (fun o => o.queue == q)

/-- `Q_HEAD` advances over completed descriptors: to the oldest one in flight, else to `Q_ISSUE` (R125). -/
def qHeadUpdate (s : State) (q : Nat) : State :=
  let b := queueBlock q
  let issue := s.rd (b + 0x24)
  let back := ((qOps s q).filter (fun o => !o.old)).foldl (fun m o => max m (issue - BitVec.ofNat 32 o.index).toNat) 0
  s.wr (b + 0x28) (issue - BitVec.ofNat 32 back)

/-- `ENABLE` written 0 (R121): RUNNING goes to DRAINING, or to STOPPED when nothing is in flight. -/
def qDisable (s : State) (q : Nat) : State :=
  if qState s q = 1 then qSetState (s.clr (queueBlock q + 4) 1) q (if (qOps s q).isEmpty then 0 else 2) else s

/-- Queues of context x, by the bindings in force: those named in the register map, and for context 0 every queue that was never bound
(R118: `Q_CTX` resets to 0). -/
def State.queuesOf (s : State) (x : Nat) : List Nat :=
  if x = 0 then (List.range 16384).filter (fun q => s.ffld (queueBlock q) 0 10 == 0)
  else (s.force ++ s.regs).foldl (fun acc p =>
    match place p.1 with
    | .queue q _ => if s.ffld (queueBlock q) 0 10 == x && !acc.contains q then acc ++ [q] else acc
    | _ => acc) []

/-- Counters bound to context x, in force. -/
def State.ctrsOf (s : State) (x : Nat) : List Nat :=
  s.force.filterMap (fun p =>
    match place p.1 with
    | .counter c 0x10 => if p.2.getLsbD 31 && nbits p.2.toNat 0 10 == x then some c else none
    | _ => none)

/-- The operation with number `id`. DESIGN CHOICE, unsafe: notes/assumptions/5.md. -/
def State.op (s : State) (id : Nat) : Option Op := s.ops.find? (fun o => o.id == id)

/-- Replace an operation by a changed one. -/
def State.setOp (s : State) (o : Op) : State := { s with ops := s.ops.map (fun p => if p.id == o.id then o else p) }

/-- The work of an operation ends with a status (R144 makes the add). -/
def State.done (s : State) (o : Op) (st : Status) : State := s.setOp { o with phase := .executed st }

/-- A poisoned line of a shared page was read (R428). -/
def State.poisonMet (s : State) (a : Nat) : State :=
  let d := s.lineDom (a / 64)
  s.when (d != 0) (fun t => (t.set (domReg d 0x10) 4).sat (dirReg (homeSlice (a / 64)) 0x18) 1)

/-- R585: an operation that meets an uncorrectable error faults its context with reason MEDIA, and the error is logged. -/
def State.media (s : State) (o : Op) (addr : Nat) : State :=
  ((s.errLog 0xC 5 (match o.engine with | some e => e | none => o.queue) o.ctx addr 0).poisonMet addr).fault o.ctx 2

/-- End an operation, with the fault that MEDIA_UNCORRECTABLE carries (R585). -/
def State.finish (s : State) (o : Op) (st : Status) (addr : Nat) : State :=
  (s.done o st).when (st == .mediaUncorrectable) (·.media o addr)

end Sys2Proof.Machine
end

