-- ==== Sys2Proof/Machine/Operands.lean ====
section
/-! DEFINITION. Operand forms: the descriptor header (R134), body bytes of a descriptor (R138), the halves of a 64-bit register
(R142), and pool addresses with low bits that must be zero (R584). -/

namespace Sys2Proof.Machine

/-- Descriptor header fields (R134). -/
def dOpcode (d : BitVec 512) : Nat := bfld d 0 8
def dFence (d : BitVec 512) : Bool := d.getLsbD 8
def dWaitEn (d : BitVec 512) : Bool := d.getLsbD 9
def dEvent (d : BitVec 512) : Bool := d.getLsbD 10
def dDone (d : BitVec 512) : Nat := bfld d 16 14
def dWaitCtr (d : BitVec 512) : Nat := bfld d 32 14
def dCond (d : BitVec 512) : Nat := bfld d 46 2
def dValue (d : BitVec 512) : Nat := bfld d 64 64

/-- `n` bytes of a descriptor from byte `o` on, as a number. -/
def db (d : BitVec 512) (o n : Nat) : Nat := bfld d (8 * o) (8 * n)

/-- A pool address field of 8 bytes: bits [63:52] are reserved (R138). -/
def dAddr (d : BitVec 512) (o : Nat) : Nat := bfld d (8 * o) 52

/-- Some address, offset or stride breaks its alignment (R584). -/
def misaligned (l : List (Nat × Nat)) : Bool := l.any (fun p => p.1 % p.2 != 0)

/-- The value of a 64-bit register after an access of `v` to `h` of it (R142). -/
def halfPut (h : Half) (old : Nat) (v : Word64) : Nat :=
  match h with
  | .lo => old / 2 ^ 32 * 2 ^ 32 + v.toNat % 2 ^ 32
  | .hi => old % 2 ^ 32 + v.toNat % 2 ^ 32 * 2 ^ 32
  | .both => v.toNat

/-- The amount an access of `v` to `h` of `C_ADD` adds (R142). -/
def halfAmount (h : Half) (v : Word64) : Nat :=
  match h with
  | .lo => v.toNat % 2 ^ 32
  | .hi => v.toNat % 2 ^ 32 * 2 ^ 32
  | .both => v.toNat

/-- What a read of `h` of a 64-bit register answers. -/
def halfGet (h : Half) (old : Nat) : Word64 :=
  match h with
  | .lo => BitVec.ofNat 64 (old % 2 ^ 32)
  | .hi => BitVec.ofNat 64 (old / 2 ^ 32)
  | .both => BitVec.ofNat 64 old

/-- The operation's engine is halted by JTAG and has no step left (R513). -/
def State.opHalted (s : State) (o : Op) : Bool := o.engine.any (fun e => s.sec.haltedEngines.contains e && !s.sec.steps.contains e)

/-- A halted engine has used its step. -/
def State.stepped (s : State) (o : Op) : State :=
  match o.engine with
  | some e => if s.sec.steps.contains e then { s with sec := { s.sec with steps := s.sec.steps.erase e } } else s
  | none => s

/-- Lines that a host owns, with the host (R413). -/
def State.hostOwned (s : State) : List (Nat × Nat) :=
  s.coh.dir.filterMap (fun e => if e.st == .em || e.st == .o then (match e.holders.head? with
    | some (.host h) => some (h, e.line)
    | _ => none) else none)

/-- Pages that running f reaches: those that it marks (R345). -/
def State.reaches (s : State) (f : State → State) : List Nat :=
  let clean : State := { s with tier := { s.tier with pages := s.tier.pages.map (fun g => { g with marked := false }) } }
  ((f clean).tier.pages.filter (·.marked)).map (·.page)

/-- BISnpCur to the owners of lines, for a reader (R416). -/
def State.askOwners (s : State) (r : Reader) (l : List (Nat × Nat)) : State :=
  { s with
    coh := { s.coh with curs := s.coh.curs ++ l.map (fun k => { reader := r, host := k.1, line := k.2, done := false }) }
    out := (l.map (fun k => Out.snoop (.host k.1) 0 k.2)).reverse ++ s.out }

/-- Accesses of a unit see current data: the owners among the hosts of lines in the pages it reaches are snooped first, and lines on their way
back are waited for (R409, R416). DEDUCED, unsafe in part: notes/assumptions/30.md. -/
def State.coherent (s : State) (r : Reader) (f : State → State) : State :=
  if s.hostOwned.isEmpty && s.coh.invals.isEmpty && s.coh.curs.isEmpty then f s
  else
    let ps := s.reaches f
    let here (l : Nat) : Bool := ps.contains (l / 2 ^ 15)
    let mine := s.coh.curs.filter (·.reader == r)
    let new := s.hostOwned.filter (fun k => here k.2 && !mine.any (fun c => c.host == k.1 && c.line == k.2))
    if !new.isEmpty then s.askOwners r new
    else if mine.any (!·.done) || s.coh.invals.any (fun i => here i.line) then s
    else f { s with coh := { s.coh with curs := s.coh.curs.filter (·.reader != r) } }

/-- Apply to a running operation of an opcode. -/
def State.onOp (s : State) (id : Nat) (code : Nat → Bool) (f : State → Op → State) : State :=
  match s.op id with
  | some o => if o.phase == .running && code (dOpcode o.desc) && !s.opHalted o then s.coherent (.op id) (fun t => (f t o).stepped o) else s
  | none => s

end Sys2Proof.Machine
end

