-- ==== Sys2Proof/Machine/Formats.lean ====
section
/-! DEFINITION. Number formats: decoding an element to its exact value, exact sums and products, and the single rounding of a
conversion (R166-R172). A finite value is m * 2^e with a sign, so nothing is lost before the one rounding. -/

namespace Sys2Proof.Machine

/-- The exact value of an element. -/
inductive Val where
  | nan
  | inf (neg : Bool)
  | fin (neg : Bool) (m : Nat) (e : Int)
  deriving DecidableEq, Repr

/-- Parameters of a float element format (R167): `ieee` has infinities, `nanTop` only the all-ones NaN (E4M3). -/
structure FFmt where
  ebits : Nat
  mbits : Nat
  bias : Nat
  ieee : Bool
  nanTop : Bool
  deriving DecidableEq, Repr

def fp32 : FFmt := { ebits := 8, mbits := 23, bias := 127, ieee := true, nanTop := false }
def bf16 : FFmt := { ebits := 8, mbits := 7, bias := 127, ieee := true, nanTop := false }
def fp16 : FFmt := { ebits := 5, mbits := 10, bias := 15, ieee := true, nanTop := false }
def e4m3 : FFmt := { ebits := 4, mbits := 3, bias := 7, ieee := false, nanTop := true }
def e5m2 : FFmt := { ebits := 5, mbits := 2, bias := 15, ieee := true, nanTop := false }
def e3m2 : FFmt := { ebits := 3, mbits := 2, bias := 3, ieee := false, nanTop := false }
def e2m3 : FFmt := { ebits := 2, mbits := 3, bias := 1, ieee := false, nanTop := false }
def e2m1 : FFmt := { ebits := 2, mbits := 1, bias := 1, ieee := false, nanTop := false }

/-- Bits of an element. -/
def FFmt.width (f : FFmt) : Nat := 1 + f.ebits + f.mbits

/-- Largest finite magnitude as a code without sign. -/
def FFmt.top (f : FFmt) : Nat :=
  let all := 2 ^ (f.ebits + f.mbits) - 1
  if f.ieee then all - 2 ^ f.mbits else if f.nanTop then all - 1 else all

/-- Canonical NaN, infinity (R167): E4M3 has only 0x7F. -/
def FFmt.nanCode (f : FFmt) : Nat :=
  if f.ieee then (2 ^ f.ebits - 1) * 2 ^ f.mbits + 2 ^ (f.mbits - 1) else 2 ^ (f.ebits + f.mbits) - 1
def FFmt.infCode (f : FFmt) : Nat := (2 ^ f.ebits - 1) * 2 ^ f.mbits

/-- Sign bit of the format when `neg`. -/
def FFmt.sign (f : FFmt) (neg : Bool) : Nat := if neg then 2 ^ (f.ebits + f.mbits) else 0

/-- Value of a code. -/
def FFmt.decode (f : FFmt) (c : Nat) : Val :=
  let neg := nbits c (f.ebits + f.mbits) 1 == 1
  let ex := nbits c f.mbits f.ebits
  let mt := nbits c 0 f.mbits
  if f.ieee && ex == 2 ^ f.ebits - 1 then (if mt == 0 then .inf neg else .nan)
  else if f.nanTop && ex == 2 ^ f.ebits - 1 && mt == 2 ^ f.mbits - 1 then .nan
  else if ex == 0 then .fin neg mt (1 - f.bias - f.mbits)
  else .fin neg (2 ^ f.mbits + mt) ((ex : Int) - f.bias - f.mbits)

/-- Floor of log2 of n * 2^e / d, for n and d above 0. -/
def log2Frac (n d : Nat) (e : Int) : Int :=
  let l : Int := (Nat.log2 n : Int) - Nat.log2 d
  let ge := if 0 ≤ l then d * 2 ^ l.toNat ≤ n else d ≤ n * 2 ^ (-l).toNat
  (if ge then l else l - 1) + e

/-- n * 2^e / d as an integer, rounded to nearest even or, with `rz`, toward zero (R170). -/
def roundFrac (n d : Nat) (e : Int) (rz : Bool) : Nat :=
  let a := if 0 ≤ e then n * 2 ^ e.toNat else n
  let b := if 0 ≤ e then d else d * 2 ^ (-e).toNat
  let k := a / b
  let r := a % b
  if rz then k else if b < 2 * r || (2 * r == b && k % 2 == 1) then k + 1 else k

/-- Round a finite magnitude n * 2^e / d once into a float format (R170). -/
def FFmt.round (f : FFmt) (neg : Bool) (n d : Nat) (e : Int) (rz sat : Bool) : Nat :=
  if n = 0 then f.sign neg
  else
    let q := max (log2Frac n d e - f.mbits) (1 - f.bias - f.mbits)
    let k := roundFrac n d (e - q) rz
    -- biased exponent field times 2^mbits, plus the rest; a carry out of the mantissa adds one to the exponent by itself
    let c := (q - (1 - f.bias - f.mbits)).toNat * 2 ^ f.mbits + k
    if c ≤ f.top then f.sign neg + c
    else if rz || sat then f.sign neg + f.top
    else if f.ieee then f.sign neg + f.infCode
    else if f.nanTop then f.nanCode
    else f.sign neg + f.top

/-- A conversion into a float element format (R170, R171). -/
def FFmt.conv (f : FFmt) (v : Val) (den : Nat) (rz sat : Bool) : Nat :=
  match v with
  | .nan => if f.ieee || f.nanTop then f.nanCode else 0
  | .inf neg => if sat then f.sign neg + f.top else if f.ieee then f.sign neg + f.infCode else if f.nanTop then f.nanCode else f.sign neg + f.top
  | .fin neg m e => f.round neg m den e rz sat

/-- A conversion into a signed integer of w bits: rounded, saturated (R170, R171). -/
def intConv (w : Nat) (v : Val) (den : Nat) (rz : Bool) : Nat :=
  match v with
  | .nan => 0
  | .inf neg => if neg then 2 ^ (w - 1) else 2 ^ (w - 1) - 1
  | .fin neg m e =>
    let k := roundFrac m den e rz
    if neg then (2 ^ w - min k (2 ^ (w - 1))) % 2 ^ w else min k (2 ^ (w - 1) - 1)

/-- Value of a two's complement integer of w bits. -/
def intVal (w c : Nat) : Int := if c < 2 ^ (w - 1) then c else (c : Int) - 2 ^ w

/-- An integer as an exact value. -/
def Val.ofInt (i : Int) : Val := .fin (i < 0) i.natAbs 0

/-- Signed mantissa. -/
def smant (neg : Bool) (m : Nat) : Int := if neg then -m else m

/-- Exact sum; zeros of one sign keep it, an exact zero otherwise is +0. -/
def Val.add (a b : Val) : Val :=
  match a, b with
  | .nan, _ => .nan
  | _, .nan => .nan
  | .inf p, .inf q => if p == q then .inf p else .nan
  | .inf p, _ => .inf p
  | _, .inf q => .inf q
  | .fin p m e, .fin q n f =>
    let l := min e f
    let s := smant p (m * 2 ^ (e - l).toNat) + smant q (n * 2 ^ (f - l).toNat)
    if s = 0 then .fin (p && q) 0 l else .fin (s < 0) s.natAbs l

/-- Exact product. -/
def Val.mul (a b : Val) : Val :=
  match a, b with
  | .nan, _ => .nan
  | _, .nan => .nan
  | .inf p, .inf q => .inf (p != q)
  | .inf p, .fin q m _ => if m = 0 then .nan else .inf (p != q)
  | .fin p m _, .inf q => if m = 0 then .nan else .inf (p != q)
  | .fin p m e, .fin q n f => .fin (p != q) (m * n) (e + f)

def Val.neg (a : Val) : Val :=
  match a with
  | .nan => .nan
  | .inf p => .inf (!p)
  | .fin p m e => .fin (!p) m e

/-- a ≤ b in the total order of maximum and minimum: −0 below +0 (R186); neither is NaN. -/
def Val.le (a b : Val) : Bool :=
  match a, b with
  | .nan, _ => false
  | _, .nan => false
  | .inf p, .inf q => p || !q
  | .inf p, _ => p
  | _, .inf q => !q
  | .fin p m e, .fin q n f =>
    let l := min e f
    let x := smant p (m * 2 ^ (e - l).toNat)
    let y := smant q (n * 2 ^ (f - l).toNat)
    if x = 0 ∧ y = 0 then p || !q else x ≤ y

/-- Maximum and minimum of IEEE 754-2019 (R186): a NaN operand gives NaN. -/
def Val.max (a b : Val) : Val :=
  match a, b with
  | .nan, _ => .nan
  | _, .nan => .nan
  | a, b => if a.le b then b else a

def Val.min (a b : Val) : Val :=
  match a, b with
  | .nan, _ => .nan
  | _, .nan => .nan
  | a, b => if a.le b then a else b

/-- Numerically a ≤ b: both zeros are equal; false with a NaN. -/
def Val.leq (a b : Val) : Bool :=
  match a, b with
  | .fin _ 0 _, .fin _ 0 _ => true
  | a, b => a.le b

/-- The codes of R166. -/
def fmtFloat (c : Nat) : Option FFmt :=
  match c with
  | 0x0 => some fp32
  | 0x1 => some bf16
  | 0x2 => some fp16
  | 0x3 => some e4m3
  | 0x4 => some e5m2
  | _ => none

/-- Element of an MX format and its emax (R168, R172). -/
def fmtMx (c : Nat) : Option (FFmt × Nat) :=
  match c with
  | 0x5 => some (e4m3, 8)
  | 0x6 => some (e5m2, 15)
  | 0x7 => some (e3m2, 4)
  | 0x8 => some (e2m3, 2)
  | 0x9 => some (e2m1, 2)
  | _ => none

/-- Bits of an integer format. -/
def fmtInt (c : Nat) : Option Nat :=
  match c with
  | 0xA => some 8
  | 0xB => some 4
  | 0xC => some 32
  | _ => none

/-- Bits of an element. -/
def fmtBits (c : Nat) : Nat :=
  match c with
  | 0x0 => 32
  | 0x1 => 16
  | 0x2 => 16
  | 0x3 => 8
  | 0x4 => 8
  | 0x5 => 8
  | 0x6 => 8
  | 0x7 => 6
  | 0x8 => 6
  | 0x9 => 4
  | 0xA => 8
  | 0xB => 4
  | 0xC => 32
  | _ => 0

def fmtIsMx (c : Nat) : Bool := 5 ≤ c && c ≤ 9
def fmtIsInt (c : Nat) : Bool := 0xA ≤ c && c ≤ 0xC

/-- Value of an element without a block scale. -/
def elemVal (fmt c : Nat) : Val :=
  match fmtFloat fmt with
  | some f => f.decode c
  | none => match fmtMx fmt with
    | some p => p.1.decode c
    | none => match fmtInt fmt with
      | some w => Val.ofInt (intVal w c)
      | none => .nan

/-- Value of an MX element under its block's scale byte (R168). -/
def mxVal (fmt c scale : Nat) : Val :=
  if scale == 0xFF then .nan else (elemVal fmt c).mul (.fin false 1 ((scale : Int) - 127))

/-- A conversion into a format that is no MX format. -/
def convTo (fmt : Nat) (v : Val) (den : Nat) (rz sat : Bool) : Nat :=
  match fmtFloat fmt with
  | some f => f.conv v den rz sat
  | none => match fmtInt fmt with
    | some w => intConv w v den rz
    | none => 0

/-- Exponent of the largest magnitude of a block; none when all are zero. -/
def blockLog (l : List Val) : Option Int :=
  l.foldl (fun a v => match v with
    | .fin _ m e => if m = 0 then a else (let x := log2Frac m 1 e; some (match a with
      | none => x
      | some y => max x y))
    | _ => a) none

/-- Conversion of a block into an MX format: scale byte and element codes (R171, R172). -/
def mxConv (fmt : Nat) (l : List Val) (rz : Bool) : Nat × List Nat :=
  match fmtMx fmt with
  | none => (0, [])
  | some p =>
    if l.any (fun v => match v with
        | .fin _ _ _ => false
        | _ => true) then (0xFF, l.map (fun _ => 0))
    else match blockLog l with
      | none => (0, l.map (fun v => p.1.conv v 1 rz true))
      | some x =>
        let s := max (-127) (min 127 (x - p.2))
        ((s + 127).toNat, l.map (fun v => p.1.conv (v.mul (.fin false 1 (-s))) 1 rz true))

/-- Element i, of w bits, of a row read as one little-endian number (R169). -/
def elemAt (row w i : Nat) : Nat := nbits row (i * w) w

/-- Codes of w bits packed into one number, the first lowest (R169). -/
def pack (w : Nat) : List Nat → Nat
  | [] => 0
  | c :: l => c % 2 ^ w + 2 ^ w * pack w l

/-- Lines of a row of `n` bits: its pitch (R169). -/
def rowLines (n : Nat) : Nat := cdiv n 512

end Sys2Proof.Machine
end

