-- ==== Sys2Proof/Machine/Steer.lean ====
section
/-! DEFINITION. Steering: writes of a context to the ingest range of a stream reduction go to the reduce unit and not to memory (R217,
R220-R223); with the fields of REDUCE's descriptor. -/

namespace Sys2Proof.Machine

/-- Fields of R211 and R212. -/
def rdSrc (d : BitVec 512) : Nat := dAddr d 16
def rdDst (d : BitVec 512) : Nat := dAddr d 24
def rdStride (d : BitVec 512) : Nat := db d 32 4
def rdElems (d : BitVec 512) : Nat := db d 36 4
def rdCount (d : BitVec 512) : Nat := db d 40 4
def rdCtrl (d : BitVec 512) : Nat := db d 44 4
def rdOp (d : BitVec 512) : Nat := nbits (rdCtrl d) 0 4
def rdIn (d : BitVec 512) : Nat := nbits (rdCtrl d) 4 4
def rdOut (d : BitVec 512) : Nat := nbits (rdCtrl d) 8 4
def rdSat (d : BitVec 512) : Bool := (rdCtrl d).testBit 12
def rdMode (d : BitVec 512) : Nat := nbits (rdCtrl d) 13 2
def rdForward (d : BitVec 512) : Bool := (rdCtrl d).testBit 15
def rdPost (d : BitVec 512) : Int := intVal 8 (nbits (rdCtrl d) 16 8)
def rdGran (d : BitVec 512) : Nat := db d 48 2
def rdId (d : BitVec 512) : Nat := db d 50 2
def rdOpenCtr (d : BitVec 512) : Nat := bfld d (8 * 52) 14
def rdMaxCells (d : BitVec 512) : Nat := db d 54 2
def rdParent (d : BitVec 512) : Nat := db d 56 8
def rdLink (d : BitVec 512) : Nat := nbits (rdParent d) 0 6
def rdLocal (d : BitVec 512) : Bool := (rdParent d).testBit 6
def rdParentId (d : BitVec 512) : Nat := nbits (rdParent d) 8 16
def rdParentInput (d : BitVec 512) : Nat := nbits (rdParent d) 24 12

/-- Size of an element in bytes. -/
def esize (fmt : Nat) : Nat := fmtBits fmt / 8

/-- A REDUCE in stream mode. -/
def isStream (d : BitVec 512) : Bool := dOpcode d == 0x20 && rdMode d == 1

/-- VB of R212: the bytes of one contribution. -/
def rdVB (d : BitVec 512) : Nat := cdiv (rdElems d * esize (rdIn d)) 64 * 64

/-- Ingest range of a stream REDUCE (R217). -/
def ingestLen (d : BitVec 512) : Nat := rdCount d * rdStride d

/-- An open reduction: its steering has not ended. -/
def Stream.isOpen (r : Stream) : Bool := r.steer ≤ 1

/-- Cells of a waiting message (R222). -/
def RedMsg.cells : RedMsg → Nat
  | .raw l => cdiv l.length 4
  | .part _ _ _ _ _ d => cdiv d.length 256

/-- Cells that wait on die d for open reductions (R222). -/
def State.redCells (s : State) (d : Nat) : Nat :=
  (s.reds.filter (fun r => r.engine / 64 == d)).foldl (fun a r => a + (r.waiting.map RedMsg.cells).sum) 0

/-- Cells of a message that cell memory holds: those that have arrived and not left (R293, R319). -/
def QMsg.held (i : QMsg) : Nat := i.arrived - i.sent

/-- `SW_CELLS_USED` and its peak (R321). -/
def State.cellSync (s : State) (d : Nat) : State :=
  let n := (s.sw.items.filter (fun i => i.die == d)).foldl (fun a i => a + i.held) 0 + s.redCells d
  (s.wrn (dieReg d 0x500) n).wrn (dieReg d 0x504) (max n (max (s.rd (dieReg d 0x500)).toNat (s.rd (dieReg d 0x504)).toNat))

/-- An open reduction changes, and with it the cells that wait for it. -/
def State.setRed (s : State) (r : Stream) : State :=
  ({ s with reds := s.reds.map (fun q => if q.ctx == r.ctx && q.redId == r.redId && q.isOpen then r else q) } : State).cellSync (r.engine / 64)

/-- Where a line at `a` falls: input and line of its slot, or outside the range (R220). -/
def slotOf (d : BitVec 512) (a : Nat) : Option (Nat × Nat) :=
  if rdSrc d ≤ a && a < rdSrc d + ingestLen d then some ((a - rdSrc d) / rdStride d, (a - rdSrc d) % rdStride d / 64) else none

/-- The reductions of context x whose steered ranges a write of n bytes at `a` touches. -/
def State.steered (s : State) (x a n : Nat) : List Stream :=
  s.reds.filter (fun r => r.ctx == x && r.steer != 0 && overlaps (rdSrc r.desc) (ingestLen r.desc) a n)

/-- The lines of a write in whole lines. -/
def wholeWrite (a : Nat) (b : List Byte) : List (Nat × List Byte) :=
  (List.range (b.length / 64)).map (fun i => (a + 64 * i, (b.drop (64 * i)).take 64))

/-- The lines of a write that fall into one range: beyond VB of their slot they are dropped, after the finish they are duplicates, else they wait
for a run as one message (R220, R222, R223). `keep`: they are good data. -/
def State.steerTo (s : State) (r : Stream) (lines : List (Nat × List Byte)) (keep : Bool) : State :=
  let here := lines.filterMap (fun p => (slotOf r.desc p.1).map (fun q => (q.1, q.2, p.2)))
  let good := here.filter (fun q => 64 * q.2.1 < rdVB r.desc)
  let die := r.engine / 64
  let s1 := s.sat (dieReg die 0x208) (here.length - good.length)
  if good.isEmpty then s1
  else if r.steer = 2 then s1.sat (dieReg die 0x204) good.length
  else s1.when keep (·.setRed { r with waiting := r.waiting ++ [.raw good] })

/-- A write of context x: what the reduce units take of it, and the parts that are left to store. One that touches a range and is not in whole
lines is discarded and counted once (R220). -/
def State.steerWrite (s : State) (x a : Nat) (b : List Byte) (keep : Bool) : State × List (Nat × List Byte) :=
  match s.steered x a b.length with
  | [] => (s, [(a, b)])
  | r :: rs =>
    if a % 64 != 0 || b.length % 64 != 0 then (s.sat (dieReg (r.engine / 64) 0x208) 1, [])
    else
      let lines := wholeWrite a b
      (s.each (r :: rs) (fun q t => t.steerTo q lines keep), lines.filter (fun p => (r :: rs).all (fun q => (slotOf q.desc p.1).isNone)))

end Sys2Proof.Machine
end

