-- ==== Sys2Proof/Machine/Admission.lean ====
section
/-! DEFINITION. Ephemeris images: their layout (R77-R81), CRC-32C, and the admission check of R82-R92. -/

namespace Sys2Proof.Machine

/-- One step of the reflected CRC-32C register over a bit. -/
def crcBit (c : Word) : Word := if c.getLsbD 0 then (c >>> 1) ^^^ 0x82F63B78 else c >>> 1

/-- One byte into the CRC-32C register. -/
def crcByte (c : Word) (b : Byte) : Word :=
  crcBit (crcBit (crcBit (crcBit (crcBit (crcBit (crcBit (crcBit (c ^^^ b.setWidth 32))))))))

/-- CRC-32C (Castagnoli) of a list of bytes (R77, R455). -/
def crc32c (l : List Byte) : Word := ~~~(l.foldl crcByte 0xFFFFFFFF)

/-- `n` bytes of an image at offset `o`, as a little-endian number. -/
def le (b : List Byte) (o n : Nat) : Nat := leNat ((b.drop o).take n)

/-- `IMAGE_LEN` admits a CRC (R91). -/
def lenOk (n : Nat) : Bool := 64 ≤ n && n ≤ 2 ^ 24

/-- R79. -/
def parseEng (v : Nat) : EngEntry :=
  { frame := nbits v 0 16, start := nbits v 16 16, cost := nbits v 32 16, engine := nbits v 48 8, unit := nbits v 56 4,
    ctx := nbits v 64 10, queue := nbits v 80 14, scrBase := nbits v 96 10, scrGran := nbits v 112 10,
    targetA := nbits v 128 8, classA := nbits v 136 4, unitsA := nbits v 144 16,
    targetB := nbits v 160 8, classB := nbits v 168 4, unitsB := nbits v 176 16 }

/-- R80. -/
def parseLink (v : Nat) : LinkEntry :=
  { frame := nbits v 0 16, slot := nbits v 16 8, cells := nbits v 24 8, port := nbits v 32 8, dir := nbits v 40 1,
    flow := nbits v 48 20, ctx := nbits v 68 10 }

/-- R81. -/
def parseMig (v : Nat) : MigEntry :=
  { frame := nbits v 0 16, firstSlot := nbits v 16 8, slots := nbits v 24 8, source := nbits v 32 8, dest := nbits v 40 8,
    chunks := nbits v 48 16 }

/-- The entries of a table as numbers. -/
def tableOf (b : List Byte) (off count size : Nat) : List Nat := (List.range count).map (fun i => le b (off + i * size) size)

/-- The image that `b` holds (R77); meaningful once the format check has passed. -/
def parseImage (b : List Byte) : Image :=
  { id := le b 0x0C 4, units := le b 6 2, log2Period := le b 8 1,
    eng := (tableOf b (le b 0x14 4) (le b 0x10 4) 32).map parseEng,
    link := (tableOf b (le b 0x1C 4) (le b 0x18 4) 16).map parseLink,
    mig := (tableOf b (le b 0x24 4) (le b 0x20 4) 16).map parseMig }

def Image.period (g : Image) : Nat := 2 ^ g.log2Period

/-- The CRC of R77 matches. -/
def imageCrcOk (b : List Byte) : Bool :=
  let n := le b 0x28 4
  (crc32c (b.take 0x3C ++ [0, 0, 0, 0] ++ ((b.take n).drop 0x40))).toNat == le b 0x3C 4

/-- Stack classes and tray classes of R84. -/
def stackClass (c : Nat) : Bool := 1 ≤ c && c ≤ 5
def trayClass (c : Nat) : Bool := c == 6 || c == 7

/-- A memory demand is within its encoding (R79). -/
def demandOk (target cls units : Nat) : Bool :=
  units == 0 || (stackClass cls && target < 8) || (trayClass cls && target < 64)

/-- Reserved bits of an engine entry are zero, and its fields within their encodings (R79, R91 `BAD_FORMAT`). -/
def engFormatOk (v : Nat) : Bool :=
  let e := parseEng v
  nbits v 60 4 == 0 && nbits v 74 6 == 0 && nbits v 94 2 == 0 && nbits v 106 6 == 0 && nbits v 122 6 == 0
    && nbits v 140 4 == 0 && nbits v 172 4 == 0 && nbits v 192 64 == 0
    && e.unit ≤ 4 && e.scrGran ≤ 576 && e.scrBase < 576 && e.scrBase + e.scrGran ≤ 576
    && demandOk e.targetA e.classA e.unitsA && demandOk e.targetB e.classB e.unitsB

/-- A port code of R80. -/
def portCodeOk (p dir : Nat) : Bool :=
  p < 0x30 || (0x40 ≤ p && p < 0x80) || (0x80 ≤ p && p < 0x90 && nbits p 2 2 != nbits p 0 2 && dir == 0)

/-- As `engFormatOk`, for a link entry (R80). DEDUCED, unsafe: notes/assumptions/28.md. -/
def linkFormatOk (v : Nat) : Bool :=
  let e := parseLink v
  nbits v 41 7 == 0 && nbits v 78 50 == 0 && e.cells != 0 && portCodeOk e.port e.dir

/-- A stack or a link port (R81). -/
def migEndOk (u : Nat) : Bool := u < 8 || (0x40 ≤ u && u < 0x80)

/-- As `engFormatOk`, for a migration entry (R81). -/
def migFormatOk (v : Nat) : Bool :=
  let e := parseMig v
  nbits v 64 64 == 0 && e.slots != 0 && e.chunks != 0 && migEndOk e.source && migEndOk e.dest

/-- A failure names a table (0 header, 1 engine, 2 link, 3 migration) and an entry index. -/
abbrev Found := Option (Nat × Nat)

def firstBad {α : Type} (t : Nat) (l : List α) (p : α → Bool) : Found := (l.findIdx? p).map (fun i => (t, i))

/-- The first entry that is bad together with some entry before it: of two that clash, the later one is reported (R91).
DESIGN CHOICE, unsafe: notes/assumptions/75.md. -/
def firstPair {α : Type} (t : Nat) (l : List α) (p : α → α → Bool) : Found :=
  ((List.range l.length).zip l).findSome? (fun q => if (l.take q.1).any (fun a => p a q.2) then some (t, q.1) else none)

def headerBad (c : Bool) : Found := if c then some (0, 0) else none

/-- Byte ranges of the tables (R78). -/
def tableSpans (b : List Byte) : List (Nat × Nat) :=
  [(0, 64), (le b 0x14 4, 32 * le b 0x10 4), (le b 0x1C 4, 16 * le b 0x18 4), (le b 0x24 4, 16 * le b 0x20 4)]

/-- No two ranges of the list share a byte. -/
def disjoint : List (Nat × Nat) → Bool
  | [] => true
  | p :: l => l.all (fun q => !overlaps p.1 p.2 q.1 q.2) && disjoint l

/-- `BAD_FORMAT` of the header (R77, R78, R91). -/
def headerFormatOk (b : List Byte) : Bool :=
  let n := le b 0x28 4
  le b 0 4 == 0x4D485045 && le b 4 2 == 1 && le b 0x0C 4 != 0 && le b 9 3 == 0 && le b 0x2C 16 == 0 && lenOk n
    && (tableSpans b).all (fun p => p.1 % 64 == 0 && p.1 + p.2 ≤ n) && disjoint (tableSpans b)

/-- `BAD_FORMAT` (R91): the header before the engine, link and migration tables, as in every check of several tables.
DESIGN CHOICE, unsafe: notes/assumptions/75.md. -/
def formatBad (b : List Byte) : Found :=
  (headerBad (!headerFormatOk b)).orElse fun _ =>
  (firstBad 1 (tableOf b (le b 0x14 4) (le b 0x10 4) 32) (fun v => !engFormatOk v)).orElse fun _ =>
  (firstBad 2 (tableOf b (le b 0x1C 4) (le b 0x18 4) 16) (fun v => !linkFormatOk v)).orElse fun _ =>
  firstBad 3 (tableOf b (le b 0x24 4) (le b 0x20 4) 16) (fun v => !migFormatOk v)

/-- `PERIOD_MISMATCH`. -/
def periodBad (g : Image) (units : Nat) : Found := headerBad (g.units != units)

/-- `BAD_LENGTH` (R76). -/
def lengthBad (g : Image) (epochLog2 : Nat) : Found :=
  (headerBad (12 < g.log2Period || epochLog2 < g.log2Period)).orElse fun _ =>
  (firstBad 1 g.eng (fun e => g.period ≤ e.frame)).orElse fun _ =>
  (firstBad 2 g.link (fun e => g.period ≤ e.frame)).orElse fun _ =>
  firstBad 3 g.mig (fun e => g.period ≤ e.frame)

/-- `TOO_LARGE` (R78): a table above its count, or an engine entry above 32,768 of its die. -/
def sizeBad (g : Image) : Found :=
  (headerBad (131072 < g.eng.length || 262144 < g.link.length || 16384 < g.mig.length)).orElse fun _ =>
  ((List.range g.eng.length).zip g.eng).findSome? (fun q =>
    if 32768 ≤ ((g.eng.take q.1).filter (fun e => e.engine / 64 == q.2.engine / 64)).length then some (1, q.1) else none)

/-- Strict lexicographic order on keys of one length. -/
def keyLt : List Nat → List Nat → Bool
  | a :: l, b :: m => a < b || (a == b && keyLt l m)
  | _, _ => false

/-- The first entry not above its predecessor (R82). -/
def unsorted (t : Nat) (keys : List (List Nat)) : Found :=
  (firstBad t (keys.zip keys.tail) (fun p => !keyLt p.1 p.2)).map (fun p => (p.1, p.2 + 1))

/-- `ORDER`. -/
def orderBad (g : Image) : Found :=
  (unsorted 1 (g.eng.map (fun e => [e.frame, e.engine, e.start]))).orElse fun _ =>
  (unsorted 2 (g.link.map (fun e => [e.frame, e.slot, e.port, e.dir, e.flow]))).orElse fun _ =>
  unsorted 3 (g.mig.map (fun e => [e.frame, e.firstSlot, e.source]))

/-- SWITCH of R83 for entry `e` of a table. DESIGN CHOICE, unsafe in part: notes/assumptions/13.md. -/
def switchCost (l : List EngEntry) (e : EngEntry) : Nat :=
  if l.any (fun p => p.frame == e.frame && p.engine == e.engine && p.ctx == e.ctx && p.start + p.cost == e.start
      && decide (p.start < e.start)) then 0 else 96

/-- DISPATCH of R83. -/
def dispatchCost : Nat := 16

/-- `COST_UNDERSTATED`, `CROSS_FRAME`, `ENGINE_OVERLAP`. -/
def understatedBad (g : Image) : Found := firstBad 1 g.eng (fun e => e.cost < dispatchCost + switchCost g.eng e)
def crossBad (g : Image) : Found := firstBad 1 g.eng (fun e => 225 * (g.units - 1) < e.start + e.cost)
def overlapBad (g : Image) : Found :=
  firstPair 1 g.eng (fun p e => p.frame == e.frame && p.engine == e.engine && overlaps p.start p.cost e.start e.cost)

/-- Two windows share scratch (R91 `SCRATCH_OVERLAP`): granules below 64 on one engine, the others on one core. -/
def scratchMeet (e1 b1 n1 e2 b2 n2 : Nat) : Bool :=
  let own (b n : Nat) := min (b + n) 64 - b
  let core (b n : Nat) := b + n - max b 64
  (e1 == e2 && overlaps b1 (own b1 n1) b2 (own b2 n2))
    || (e1 / 4 == e2 / 4 && overlaps (max b1 64) (core b1 n1) (max b2 64) (core b2 n2))

def scratchBad (g : Image) : Found :=
  firstPair 1 g.eng (fun p e => p.ctx != e.ctx && scratchMeet p.engine p.scrBase p.scrGran e.engine e.scrBase e.scrGran)

/-- A memory demand lies in slice `sl`. -/
def State.demandIn (s : State) (sl target cls units : Nat) : Bool :=
  units == 0 || (if stackClass cls then s.sliceStack sl target else s.sliceLink sl target)

/-- The resources of an engine entry lie in its context's slice (R91 `SLICE`, R95). -/
def State.entryInSlice (s : State) (e : EngEntry) : Bool :=
  let sl := s.ctxSlice e.ctx
  s.defined e.ctx && s.sliceValid sl && s.sliceCore sl (e.engine / 4) && s.sliceDie sl (e.queue / 4096)
    && s.demandIn sl e.targetA e.classA e.unitsA && s.demandIn sl e.targetB e.classB e.unitsB

/-- As `entryInSlice`, for a link entry; die-to-die paths belong to no slice (R481). -/
def State.linkInSlice (s : State) (e : LinkEntry) : Bool :=
  let sl := s.ctxSlice e.ctx
  s.defined e.ctx && s.sliceValid sl
    && (if e.port < 0x30 then s.sliceHost sl e.port else if e.port < 0x80 then s.sliceLink sl (e.port - 0x40) else true)

def State.sliceBad (s : State) (g : Image) : Found :=
  (firstBad 1 g.eng (fun e => !s.entryInSlice e)).orElse fun _ => firstBad 2 g.link (fun e => !s.linkInSlice e)

/-- A link port runs a DRAM tray with bounded latency (R86, R470, R474). -/
def State.boundTray (s : State) (l : Nat) : Bool := s.bit (linkBlock l) 3 && s.fld (linkBlock l) 9 2 == 1 && s.bit (linkBlock l) 8

def State.unschedBad (s : State) (g : Image) : Found :=
  let bad (t c u : Nat) := u != 0 && trayClass c && !s.boundTray t
  (firstBad 1 g.eng (fun e => bad e.targetA e.classA e.unitsA || bad e.targetB e.classB e.unitsB)).orElse fun _ =>
  firstBad 3 g.mig (fun e => (0x40 ≤ e.source && !s.boundTray (e.source - 0x40)) || (0x40 ≤ e.dest && !s.boundTray (e.dest - 0x40)))

/-- `GUARD_SLOT`. DEDUCED, unsafe: notes/assumptions/28.md. -/
def guardBad (g : Image) : Found :=
  (firstBad 2 g.link (fun e => g.units - 1 ≤ e.slot)).orElse fun _ =>
  firstBad 3 g.mig (fun e => g.units - 1 < e.firstSlot + e.slots)

/-- Cells charged to (frame, slot, port code, direction) by one entry. -/
structure Charge where
  table : Nat
  index : Nat
  frame : Nat
  slot : Nat
  port : Nat
  dir : Nat
  cells : Nat
  deriving DecidableEq, Repr

/-- Tray demand of an engine entry (R86): spread over the slots it overlaps. -/
def trayCharges (i : Nat) (e : EngEntry) (target cls units : Nat) : List Charge :=
  if units == 0 || !trayClass cls then []
  else
    let a := e.start / 225
    let n := (e.start + e.cost - 1) / 225 - a + 1
    (List.range n).map (fun k =>
      { table := 1, index := i, frame := e.frame, slot := a + k, port := 0x40 + target, dir := if cls == 7 then 1 else 0,
        cells := cdiv units n })

/-- Tray end of a migration window (R92). -/
def migCharges (i : Nat) (e : MigEntry) (u dir : Nat) : List Charge :=
  if u < 0x40 then []
  else (List.range e.slots).map (fun k =>
    { table := 3, index := i, frame := e.frame, slot := e.firstSlot + k, port := u, dir := dir, cells := cdiv (e.chunks * 256) e.slots })

def indexed {α : Type} (l : List α) : List (Nat × α) := (List.range l.length).zip l

/-- Every charge in the order of R91. -/
def charges (g : Image) : List Charge :=
  (indexed g.eng).flatMap (fun p =>
    trayCharges p.1 p.2 p.2.targetA p.2.classA p.2.unitsA ++ trayCharges p.1 p.2 p.2.targetB p.2.classB p.2.unitsB)
  ++ (indexed g.link).map (fun p =>
    { table := 2, index := p.1, frame := p.2.frame, slot := p.2.slot, port := p.2.port, dir := p.2.dir, cells := p.2.cells })
  ++ (indexed g.mig).flatMap (fun p => migCharges p.1 p.2 p.2.source 0 ++ migCharges p.1 p.2 p.2.dest 1)

/-- Scheduled rate of host port n, as the Almanac records it: 1 is 8 GT/s, 4 is 64 GT/s (R553). -/
def State.hostRate (s : State) (n : Nat) : Nat := nbits (s.alm.hostWords.getD n 0).toNat 2 3

/-- Zenith capacity of a slot (R87). -/
def State.slotCells (s : State) (port slot : Nat) : Nat :=
  let full :=
    if 0x80 ≤ port then 3840
    else if 0x40 ≤ port then 100
    else match s.hostRate port with
      | 4 => 56
      | 3 => 28
      | 2 => 14
      | 1 => 7
      | _ => 0
  if slot = 0 then full - 4 else full

/-- `LINK_OVERCOMMIT`: the first charge that takes a total above R87. -/
def State.linkOver (s : State) (g : Image) : Found :=
  let l := charges g
  ((indexed l).find? (fun p =>
    s.slotCells p.2.port p.2.slot
      < ((l.take (p.1 + 1)).filter (fun c => c.frame == p.2.frame && c.slot == p.2.slot && c.port == p.2.port && c.dir == p.2.dir)).foldl
          (fun a c => a + c.cells) 0)).map (fun p => (p.2.table, p.2.index))

/-- Die of a port code below 0x80. -/
def portDie (p : Nat) : Nat := if p < 0x40 then p / 12 else (p - 0x40) / 16

/-- Cells of the entries that `p` selects in frame index f, in slots below n. -/
def cellsBefore (l : List LinkEntry) (f n : Nat) (p : LinkEntry → Bool) : Nat :=
  (l.filter (fun e => e.frame == f && e.slot < n && p e)).foldl (fun a e => a + e.cells) 0

/-- R88 for the entries of one flow. -/
def flowOk (g : Image) (l : List LinkEntry) : Bool :=
  let isIn (e : LinkEntry) := e.port < 0x80 && e.dir == 0
  let isEg (e : LinkEntry) := e.port < 0x80 && e.dir == 1
  let slots := List.range (g.units + 1)
  match l.filter isIn with
  | [] => false
  | i :: _ =>
    l.all (fun e => e.ctx == i.ctx) && (l.filter isIn).all (fun e => e.port == i.port) && l.any isEg
      && (List.range g.period).all (fun f =>
        (l.filter isIn).any (fun e => e.frame == f)
        && (l.filter isEg).all (fun x =>
          let eg (n : Nat) := cellsBefore l f n (fun e => isEg e && e.port == x.port)
          let ing (n : Nat) := cellsBefore l f n isIn
          let same := portDie x.port == portDie i.port
          let pth (n : Nat) := cellsBefore l f n (fun e => e.port == 0x80 + 4 * portDie i.port + portDie x.port)
          eg g.units == ing g.units
            && slots.all (fun n => eg n ≤ ing (n - (if same then 1 else 2)))
            && (same || (pth g.units == ing g.units && slots.all (fun n => pth n ≤ ing (n - 1) && eg n ≤ pth (n - 1))))))

/-- `ZENITH_WINDOW`: the lowest-indexed entry of a flow that breaks R88. -/
def zenithBad (g : Image) : Found :=
  firstBad 2 g.link (fun e => !flowOk g (g.link.filter (fun x => x.flow == e.flow)))

/-- Channel-SCLK of one unit of a stack class (R84). -/
def classOcc (c : Nat) : Nat := if c ≤ 2 then 6 else if c = 5 then 88 else 44

/-- Stack budget per frame (R85). -/
def stackBudget (units : Nat) : Nat := 32 * (96 * (675 * (units - 1) / 4) / 100)

/-- Demand on stacks: table, index, frame, stack, channel-SCLK, of a class 3-5. -/
def stackDemand (g : Image) : List (Nat × Nat × Nat × Nat × Nat × Bool) :=
  let of (i : Nat) (e : EngEntry) (t c u : Nat) : List (Nat × Nat × Nat × Nat × Nat × Bool) := if u != 0 && stackClass c then [(1, i, e.frame, t, u * classOcc c, decide (3 ≤ c))] else []
  (indexed g.eng).flatMap (fun p =>
    of p.1 p.2 p.2.targetA p.2.classA p.2.unitsA ++ of p.1 p.2 p.2.targetB p.2.classB p.2.unitsB)
  ++ (indexed g.mig).flatMap (fun p =>
    ([p.2.source, p.2.dest].filter (· < 8)).map (fun u => (3, p.1, p.2.frame, u, p.2.chunks * 256 * 6, false)))

/-- `CHANNEL_OVERCOMMIT`. -/
def channelOver (g : Image) : Found :=
  let l := stackDemand g
  let b := stackBudget g.units
  ((indexed l).find? (fun p =>
    let m := (l.take (p.1 + 1)).filter (fun c => c.2.2.1 == p.2.2.2.1 && c.2.2.2.1 == p.2.2.2.2.1)
    let all := m.foldl (fun a c => a + c.2.2.2.2.1) 0
    let rand := (m.filter (fun c => c.2.2.2.2.2)).foldl (fun a c => a + c.2.2.2.2.1) 0
    b < all || b < 4 * rand)).map (fun p => (p.2.1, p.2.2.1))

/-- `MIGRATION_BAD`. -/
def migBad (g : Image) : Found := firstBad 3 g.mig (fun e => (8 ≤ e.source && 8 ≤ e.dest) || e.source == e.dest)

/-- The admission check (R91): reason, table and index of the first failure; reason 0 when the image is accepted. -/
def State.admission (s : State) (b : List Byte) (readFault : Bool) : Nat × Nat × Nat :=
  let g := parseImage b
  if readFault then (0x12, 0, 0)
  else if !lenOk (le b 0x28 4) then (2, 0, 0)
  else if !imageCrcOk b then (1, 0, 0)
  else
    let r (code : Nat) (f : Found) : Option (Nat × Nat × Nat) := f.map (fun p => (code, p.1, p.2))
    ((r 2 (formatBad b)).orElse fun _ => (r 3 (periodBad g s.time.units)).orElse fun _ =>
     (r 4 (lengthBad g s.time.epochLog2)).orElse fun _ => (r 5 (sizeBad g)).orElse fun _ =>
     (r 6 (orderBad g)).orElse fun _ => (r 7 (understatedBad g)).orElse fun _ => (r 8 (crossBad g)).orElse fun _ =>
     (r 9 (overlapBad g)).orElse fun _ => (r 0xA (scratchBad g)).orElse fun _ => (r 0xB (s.sliceBad g)).orElse fun _ =>
     (r 0xC (s.unschedBad g)).orElse fun _ => (r 0xD (guardBad g)).orElse fun _ => (r 0xE (s.linkOver g)).orElse fun _ =>
     (r 0xF (zenithBad g)).orElse fun _ => (r 0x10 (channelOver g)).orElse fun _ => r 0x11 (migBad g)).getD (0, 0, 0)

end Sys2Proof.Machine
end

