-- ==== Sys2Proof/Machine/Wire.lean ====
section
/-! DEFINITION. Messages leaving on link ports: format and check code, numbering, credits, the replay store, routes and trunks
(R454-R463, R467, R468), and the start of a fabric abort (R535). -/

namespace Sys2Proof.Machine

-- where pages lie, and how ------------------------------------------------------------------------------------------------

/-- Where a page or its copy lies: tier, unit code (0xFF striped), tray group. -/
structure Loc where
  tier : Nat
  unit : Nat
  group : Nat
  deriving DecidableEq, Repr

def Page.loc (g : Page) : Loc := { tier := g.tier, unit := g.unit, group := g.group }
def Move.loc (m : Move) : Loc := { tier := m.tier, unit := m.unit, group := m.group }

/-- Members of a tray group, in ascending link port (R332). -/
def State.groupMembers (s : State) (g : Nat) : List Nat := orderBy (fun a b => decide (a ≤ b)) (s.alm.groups.getD g (0, 0, [])).2.2
def State.groupKind (s : State) (g : Nat) : Nat := (s.alm.groups.getD g (0, 0, [])).1
def State.groupSlice (s : State) (g : Nat) : Nat := (s.alm.groups.getD g (0, 0, [])).2.1

/-- The channel of its stack on which cell i of 256 B of stack page p lies (R331). -/
def stackChannel (p i : Nat) : Nat := (p + i) % 32

/-- Unit code of chunk c of page p at a location (R332). -/
def State.chunkUnit (s : State) (l : Loc) (p c : Nat) : Nat :=
  if l.unit != 0xFF then l.unit
  else
    let m := s.groupMembers l.group
    0x40 + m.getD ((p + c) % m.length) 0

/-- Units that hold page p at a location, one for each chunk. DEDUCED, unsafe: notes/assumptions/59.md. -/
def State.chunkUnits (s : State) (l : Loc) (p : Nat) : List Nat := (List.range 32).map (s.chunkUnit l p)

/-- Die of a unit of the pool: stacks, trays, expanders (R332). -/
def unitDie (u : Nat) : Nat := if u < 0x40 then u / 2 else if u < 0x80 then (u - 0x40) / 16 else (u - 0x80) / 12

/-- Ingress byte of what the unit sends that holds the line at `a` (R300). DEDUCED, unsafe: notes/assumptions/31.md. -/
def State.unitIngress (s : State) (a : Nat) : Nat :=
  0x80 + (s.page (a / 2 ^ 21)).elim 0 (fun g => unitDie (s.chunkUnit g.loc g.page (a / 2 ^ 16 % 32)))

/-- Key of the backing of a pool page (R491, R492). -/
def State.pageKey (s : State) (p : Nat) : List Byte :=
  let e := (s.rights p).getD 0
  let boot := leBytes 4 s.sec.bootEpoch
  let kg := leBytes 4 (s.rd 0x71C).toNat
  let x := entryCtx e
  let info := if entryDomain e != 0 then boot ++ [1] ++ leBytes 2 (entryDomain e) ++ kg
    else if e.getLsbD 24 then boot ++ [2] ++ leBytes 2 (s.ctxSlice x) ++ kg
    else boot ++ [0] ++ leBytes 2 x ++ leBytes 4 (s.ctxGen x)
  Config.kmac256 Config.kMem info 512 "GS-Z-MEM"

/-- Lines as they lie at rest in a stack, a tray or an expander: AES-256-XTS under the page's key (R35, R493). -/
def State.cipher (s : State) (a : Nat) (d : List Byte) : List Byte :=
  (List.range (d.length / 64)).flatMap (fun i =>
    Config.xtsLine (s.pageKey ((a + 64 * i) / 2 ^ 21)) (a / 64 + i) ((d.drop (64 * i)).take 64))

-- ports ---------------------------------------------------------------------------------------------------------------

/-- `RT_MODULE` (R471). -/
def State.moduleNo (s : State) : Nat := s.fld 0x600 0 8

/-- `LP_STATUS.STATE` (R474): 0 DOWN, 1 TRAINING, 2 UP, 3 RETRAINING, 4 FAILED, 5 UNSUPPORTED. -/
def State.lpState (s : State) (l : Nat) : Nat := s.fld (linkBlock l) 0 3
def State.linkUp (s : State) (l : Nat) : Bool := l < 64 && s.lpState l == 2
/-- The port runs ZTL. -/
def State.ztl (s : State) (l : Nat) : Bool := s.bit (linkBlock l) 3

def State.port (s : State) (l : Nat) : LinkPort :=
  (s.link.ports.find? (fun p => p.link == l)).getD
    { link := l, txSlots := 0, rxSlots := 0, trainings := 0, nonce := [], peerNonce := [], key := [], peer := none, hello := none, helloSent := false }

def State.setPort (s : State) (p : LinkPort) : State :=
  { s with link := { s.link with ports := p :: s.link.ports.filter (fun q => q.link != p.link) } }

/-- Admit entry k is armed and names the peer that said HELLO on link port l (R543 items 3, 4). -/
def State.admitMatch (s : State) (k l : Nat) : Bool :=
  (s.port l).hello.any (fun h => !h.ztl && s.bit (0x840 + 16 * k) 8 && s.fld (0x840 + 16 * k) 0 8 == h.module
    && (s.rd (0x844 + 16 * k)).toNat + 2 ^ 32 * (s.rd (0x848 + 16 * k)).toNat == h.serial.toNat)

def State.admitted (s : State) (l : Nat) : Bool := (List.range 4).any (fun k => s.admitMatch k l)

/-- A link port carries messages of a kind now: it is UP, or holds a peer under readmission (R543 item 4). -/
def State.carries (s : State) (l kind : Nat) : Bool :=
  s.linkUp l || (l < 64 && s.lpState l == 5 && s.admitted l && (kind == 0x08 || kind == 0x04 || (0x10 ≤ kind && kind ≤ 0x12)))

/-- Bytes of a message: the header of R455 and the payload; `crc` stands in the check field. -/
def msgBytes (m : Msg) (crc : Nat) : List Byte :=
  let fl := m.cls + 8 * m.epoch.toNat + 16 * m.mcast.toNat + 32 * m.colour + 128 * m.posted.toNat
  leBytes 1 m.kind ++ leBytes 1 fl ++ leBytes 1 m.src ++ leBytes 1 (if m.mcast then m.group else m.dst) ++ leBytes 2 m.payload.length ++ leBytes 2 m.sub
    ++ leBytes 4 (m.ctx + 2 ^ 10 * m.gen) ++ leBytes 4 (m.seq + 2 ^ 24 * m.stream) ++ leBytes 8 m.addr ++ leBytes 4 m.label
    ++ leBytes 4 crc ++ m.payload

/-- `E2E_CRC` of a message (R455). -/
def msgCrc (m : Msg) : Word := crc32c (msgBytes m 0)

/-- Cells of a message (R455). -/
def msgCells (m : Msg) : Nat := cdiv (32 + m.payload.length) 256

/-- Peer number of the lanes: the module, or 0x100 plus the link port of a tray. -/
def State.peerKey (s : State) (l dst : Nat) : Nat := if s.ztl l then 0x100 + l else dst

/-- DEDUCED, unsafe: notes/assumptions/33.md. -/
def State.lane (s : State) (peer stream : Nat) : Lane2 :=
  (s.link.lanes.find? (fun x => x.peer == peer && x.stream == stream)).getD
    { peer := peer, stream := stream, txNext := 0, rxNext := 0, nakAt := none }

def State.setLane (s : State) (x : Lane2) : State :=
  { s with link := { s.link with lanes := x :: s.link.lanes.filter (fun y => !(y.peer == x.peer && y.stream == x.stream)) } }

def State.creditOf (s : State) (l stream : Nat) : Nat := (s.link.credit.find? (fun p => p.1 == (l, stream))).elim 0 (·.2)

def State.setCredit (s : State) (l stream n : Nat) : State :=
  { s with link := { s.link with credit := ((l, stream), n) :: s.link.credit.filter (fun p => p.1 != (l, stream)) } }

/-- Credits that the far end of link port l holds for a stream (R454). -/
def State.givenOf (s : State) (l stream : Nat) : Nat := (s.link.given.find? (fun p => p.1 == (l, stream))).elim 0 (·.2)

def State.setGiven (s : State) (l stream n : Nat) : State :=
  { s with link := { s.link with given := ((l, stream), n) :: s.link.given.filter (fun p => p.1 != (l, stream)) } }

/-- `LP_CREDIT_MAX`; 0 stands for 1,024 (R471). -/
def State.creditMax (s : State) : Nat := if s.fld 0x618 14 11 = 0 then 1024 else s.fld 0x618 14 11

/-- Cells held in the replay store of a die, for Zenith or for the other streams (R461). -/
def State.replayUsed (s : State) (die : Nat) (zenith : Bool) : Nat :=
  (s.link.replay.filter (fun r => r.sent && r.link / 16 == die && (r.msg.stream == 6) == zenith)).foldl (fun a r => a + msgCells r.msg) 0

/-- `LP_REPLAY_USED` (R474). -/
def State.replaySync (s : State) (l : Nat) : State :=
  s.wrn (linkBlock l + 0x34) ((s.link.replay.filter (fun r => r.sent && r.link == l)).foldl (fun a r => a + msgCells r.msg) 0)

/-- A waiting message may leave: its port carries it, credit and store have room (R454, R461). -/
def State.mayLeave (s : State) (r : Replay) : Bool :=
  let n := msgCells r.msg
  s.carries r.link r.msg.kind
    && !(s.link.replay.takeWhile (· != r)).any (fun q => q.moved && q.peer == r.peer && q.msg.stream == r.msg.stream && q.msg.ctx == r.msg.ctx
      && q.msg.label == r.msg.label)
    && (r.msg.stream == 6 || n ≤ s.creditOf r.link r.msg.stream)
    && (r.msg.stream == 6 || s.replayUsed (r.link / 16) false + n ≤ 49152)

/-- A waiting message has left and is kept until it is acknowledged. -/
def State.keep (s : State) (r : Replay) : State :=
  let sentOf (q : Replay) : Replay := if q == r then { q with sent := true } else q
  { s with link := { s.link with replay := s.link.replay.map sentOf } }

/-- The GCM record in which the cells of a message leave a ZFL port, with the slot count; ZTL carries no link encryption (R453).
DESIGN CHOICE, safe: notes/assumptions/63.md. -/
def State.record (s : State) (l : Nat) (m : Msg) : Option (Nat × List Byte) :=
  let p := s.port l
  if s.ztl l || p.key.isEmpty then none
  else
    let iv := p.txSlots + (if s.moduleNo < s.fld (linkBlock l) 16 8 then 0 else 2 ^ 64)
    let plain := msgBytes m m.crc.toNat
    some (p.txSlots, Config.gcmRecord p.key iv (plain ++ List.replicate (256 * msgCells m - plain.length) 0))

/-- A message leaves on link port l. -/
def State.sendOut (s : State) (l : Nat) (m : Msg) : State := s.emit (.msg l m (s.record l m))

/-- One waiting message leaves. A Zenith message that finds its part of the store full leaves without a copy (R461). -/
def State.leave (s : State) (r : Replay) : State :=
  let n := msgCells r.msg
  let s1 := (s.sendOut r.link r.msg).progress (.link r.link)
  if r.msg.stream != 6 then (s1.setCredit r.link r.msg.stream (s.creditOf r.link r.msg.stream - n)).keep r
  else if s.replayUsed (r.link / 16) true + n ≤ 16384 then s1.keep r
  else
    let s2 : State := { s1 with link := { s1.link with replay := s1.link.replay.erase r } }
    s2.sat (ephReg (r.link / 16) 0x44) n

/-- Messages that wait for link port l leave in order, each stream up to the first that cannot. -/
def State.pump (s : State) (l : Nat) : State :=
  let r := (s.link.replay.filter (fun r => r.link == l && !r.sent)).foldl (fun (q : State × List Nat) r =>
    if q.2.contains r.msg.stream then q
    else if q.1.mayLeave r then (q.1.leave r, q.2) else (q.1, r.msg.stream :: q.2)) (s, [])
  r.1.replaySync l

/-- Stream of a class (R452). -/
def streamOf (cls : Nat) : Nat := cls

/-- The flow key of R300. -/
def flowKey (m : SwMsg) : Nat × Nat × Nat × Nat × Nat := (m.ingress, m.dest, m.ctx, m.cls, m.label)

/-- Colour under which a message leaves: what the last policer gave its message in a switch core, else the colour it carries (R316).
DEDUCED, unsafe: notes/assumptions/31.md. -/
def State.colourOf (s : State) (ingress : Nat) (m : Msg) : Nat :=
  ((s.sw.items.map (·.m) ++ s.sw.path.map (·.2.2)).find? (fun i => i.coh == 0 && flowKey i == (ingress, m.dst, m.ctx, m.cls, m.label))).elim
    m.colour (·.colour)

/-- Send a message on link port l: stream 7 is neither numbered nor kept, and goes to the peer itself (R457); every other takes the next `SEQ` (R458). -/
def State.sendOn (s : State) (l : Nat) (m : Msg) (ingress : Nat := 0x80) : State :=
  let m1 : Msg := { m with src := s.moduleNo, stream := streamOf m.cls, colour := s.colourOf ingress m }
  if m1.stream = 7 then
    let m2 : Msg := { m1 with dst := s.fld (linkBlock l) 16 8 }
    s.when (s.carries l m.kind) (·.sendOut l { m2 with crc := msgCrc m2 })
  else
    let k := s.peerKey l m.dst
    let x := s.lane k m1.stream
    let m2 : Msg := { m1 with seq := x.txNext }
    let m3 : Msg := { m2 with crc := msgCrc m2 }
    let s1 := s.setLane { x with txNext := (x.txNext + 1) % 2 ^ 24 }
    let r : Replay := { link := l, peer := k, msg := m3, retries := 0, sent := false, ingress := ingress }
    let s2 : State := { s1 with link := { s1.link with replay := s1.link.replay ++ [r] } }
    s2.pump l

-- routes ------------------------------------------------------------------------------------------------------------------

/-- Where a pool page is served, by a version of the routing tables (R463). -/
inductive Route where
  | here
  | away (module : Nat)
  | group (k first : Nat)
  | none
  deriving DecidableEq, Repr

/-- Destination entry of a module. -/
def State.destEntry (s : State) (v n : Nat) : Word := s.rd (routeReg v (4 * n))

/-- Route of a module number: `LOCAL`, a trunk, or nothing. -/
def State.destRoute (s : State) (v n : Nat) : Route :=
  let e := s.destEntry v n
  if !e.getLsbD 0 then .none else if e.getLsbD 1 then .here else .away n

def State.routeOf (s : State) (v page : Nat) : Route :=
  let e (k i : Nat) : Nat := (s.rd (routeReg v (0x800 + 16 * k + 4 * i))).toNat
  match (List.range 256).find? (fun k => (e k 2).testBit 9 && e k 0 ≤ page && page ≤ e k 1) with
  | none => if (s.rights page).isSome then .here else .none
  | some k => if (e k 2).testBit 8 then .group (nbits (e k 2) 0 8) (e k 0) else s.destRoute v (nbits (e k 2) 0 8)

/-- Byte i of a table of bytes in the aperture. DEDUCED, unsafe: notes/assumptions/62.md. -/
def State.regByte (s : State) (off i : Nat) : Nat := nbits (s.rd (off + i / 4 * 4)).toNat (8 * (i % 4)) 8

/-- Members of trunk k: link ports by member index (R462). -/
def State.trunkMember (s : State) (v k i : Nat) : Nat := s.regByte (routeReg v (0x2000 + 0x200 * k)) i

/-- The flow key's 16 bytes (R300). -/
def flowBytes (ingress dest ctx cls label : Nat) : List Byte :=
  leBytes 1 ingress ++ leBytes 1 dest ++ leBytes 2 (ctx + 1024 * cls) ++ leBytes 8 label ++ leBytes 4 0

/-- Where the flows that select member p of trunk k leave now (R301). -/
def State.carrier (s : State) (v k p : Nat) : Nat :=
  (s.sw.remapped.find? (fun m => m.version == v && m.trunk == k && m.member == p)).elim p (·.now)

/-- The link port of a flow toward module `dest`: the member its hash selects, or the one its flows have moved to (R301).
DEDUCED, unsafe: notes/assumptions/68.md. -/
def State.linkTo (s : State) (v ingress dest ctx cls label : Nat) : Option Nat :=
  match s.destRoute v dest with
  | .away _ =>
    let k := nbits (s.destEntry v dest).toNat 2 4
    let h := (crc32c (flowBytes ingress dest ctx cls label)).toNat % 256
    let i := s.regByte (routeReg v (0x2000 + 0x200 * k + 0x100)) h % 16
    let ports := ((List.range 16).map (fun j => s.trunkMember v k ((i + j) % 16))).filter (· < 64)
    ports.head?.map (s.carrier v k)
  | _ => none

/-- Send a message to a module under a routing version; nothing happens where there is no route. -/
def State.sendTo (s : State) (v ingress : Nat) (m : Msg) : State :=
  match s.linkTo v ingress m.dst m.ctx m.cls m.label with
  | some l => s.sendOn l { m with epoch := v == 1 } ingress
  | none => s

/-- Ask another module: the request is sent and awaited. -/
def State.ask (s : State) (v ingress : Nat) (m : Msg) (who : Who) : State :=
  let a : Await := { peer := m.dst, kind := m.kind, ctx := m.ctx, gen := m.gen, addr := m.addr, who := who, len := if m.kind == 0x01 then m.sub else m.payload.length }
  let s1 := s.sendTo v ingress m
  { s1 with link := { s1.link with awaits := s1.link.awaits ++ [a] } }

/-- Module numbers of a multicast group (R468): those of its row or column that `MEMBERS` names, but for this one. -/
def State.groupModules (s : State) (v g : Nat) : List Nat :=
  let w := (s.rd (routeReg v (0x400 + 16 * g))).toNat
  let me := s.moduleNo
  if !w.testBit 0 then []
  else
    let all := (List.range 16).filter (fun i => w.testBit (2 + i))
    (all.map (fun i => if w.testBit 1 then 16 * i + me % 16 else me / 16 * 16 + i)).filter (· != me)

/-- Pieces of at most 4,096 B of [a, a + n). -/
def pieces : Nat → Nat → Nat → List (Nat × Nat)
  | 0, _, _ => []
  | f + 1, a, n => if n = 0 then [] else (a, min n 4096) :: pieces f (a + min n 4096) (n - min n 4096)

-- mirrors -----------------------------------------------------------------------------------------------------------------

/-- State of mirror region r (R540): 0 SYNC, 1 DEGRADED, 2 RESYNC, 3 JOINING. -/
def State.mirrorState (s : State) (r : Nat) : Nat := s.fld (mirrorReg r 8) 9 2
def State.mirrorValid (s : State) (r : Nat) : Bool := s.bit (mirrorReg r 8) 8
def State.mirrorPartner (s : State) (r : Nat) : Nat := s.fld (mirrorReg r 8) 0 8
def State.setMirror (s : State) (r v : Nat) : State := s.wrFld (mirrorReg r 8) 9 2 v

/-- The valid region that holds a page. -/
def State.mirrorOf (s : State) (p : Nat) : Option Nat :=
  (List.range 16).find? (fun r => s.mirrorValid r && (s.rd (mirrorReg r 0)).toNat ≤ p && p ≤ (s.rd (mirrorReg r 4)).toNat)

/-- A region becomes DEGRADED (R540, R542). -/
def State.degrade (s : State) (r : Nat) : State :=
  s.when (s.mirrorState r == 0 || s.mirrorState r == 2) (fun t =>
    ((t.setMirror r 1).set 0x804 0x200).errLogOpen 0xE noCtx ((t.rd (mirrorReg r 0)).toNat * 2 ^ 21) 0)

/-- Pages of region r still to be copied while it is in RESYNC. -/
def State.resyncLeft (s : State) (r : Nat) : List Nat := ((s.health.resync.find? (fun p => p.1 == r)).elim [] (·.2))

/-- A page of a DEGRADED region was written (R542). -/
def State.markDirty (s : State) (r p : Nat) : State :=
  if s.health.dirty.contains (r, p) then s
  else
    let s1 : State := { s with health := { s.health with dirty := s.health.dirty ++ [(r, p)] } }
    s1.wrap (mirrorReg r 0xC) 1

/-- The parts of a piece that hold good data: the whole, or its good lines one by one (R6, R428). -/
def State.goodParts (s : State) (p : Nat × Nat) : List (Nat × Nat) :=
  let lines := (List.range (p.2 / 64)).map (· + p.1 / 64)
  if (s.page (p.1 / 2 ^ 21)).any (·.lost) then []
  else if lines.any (s.poison.contains ·) then (lines.filter (fun l => !s.poison.contains l)).map (fun l => (64 * l, 64)) else [p]

/-- Lines of [a, a + n) as one MIRROR_WR for each 4 KiB, with the resulting bytes (R541); poisoned lines are not sent (R6).
DEDUCED, unsafe: notes/assumptions/41.md. -/
def State.mirrorSend (s : State) (r a n : Nat) (who : Who) (sub : Nat) : State :=
  let a0 := a / 64 * 64
  let n0 := cdiv (a + n) 64 * 64 - a0
  let x := (s.rights (a / 2 ^ 21)).elim 0 entryCtx
  s.each ((pieces (n0 / 4096 + 2) a0 n0).flatMap s.goodParts) (fun p t =>
    let m : Msg := { kind := 0x08, dst := t.mirrorPartner r, sub := sub, ctx := x, gen := t.ctxGen x, addr := p.1, label := p.1 / 2 ^ 21,
                     payload := t.bytes p.1 p.2 }
    t.ask t.version (t.unitIngress a) m who)

/-- A write of [a, a + n) has been applied here: it is mirrored, or its pages are recorded (R541-R543).
DEDUCED, unsafe: notes/assumptions/41.md. -/
def State.mirrorWrite (s : State) (a n : Nat) (who : Who) : State :=
  s.each (pagesOf a n) (fun p t =>
    match t.mirrorOf p with
    | none => t
    | some r =>
      let lo := max a (p * 2 ^ 21)
      let hi := min (a + n) ((p + 1) * 2 ^ 21)
      match t.mirrorState r with
      | 0 => t.mirrorSend r lo (hi - lo) who 0
      | 1 => t.markDirty r p
      | 2 => if (t.resyncLeft r).contains p then t else t.mirrorSend r lo (hi - lo) who 0
      | _ => t)

/-- Mirrored writes of context x wait for the partner's answer: its completion adds follow them (R541). -/
def State.mirrorBusy (s : State) (x : Nat) : Bool :=
  s.link.awaits.any (fun a => a.kind == 0x08 && a.ctx == x && (match a.who with
    | .mirror _ => true
    | _ => false))

-- fabric abort --------------------------------------------------------------------------------------------------------------

/-- A fabric abort of context x starts here: it acts at the next frame boundary, and its notice goes out in the next three frames
(R535, R537, R538). -/
def State.abortStart (s : State) (x reason : Nat) : State :=
  let n := s.ctx.abortSerial
  let a : Abort := { origin := s.moduleNo, serial := n, reason := reason, frame := s.time.frame, tags := [(x, s.ctxGen x)], hops := 2,
                     sends := 3, from? := none, acted := false }
  { s with ctx := { s.ctx with aborts := s.ctx.aborts ++ [a], abortSerial := n + 1 } }

/-- Answer a request: the response goes back to its source by the version the request named (R463). -/
def State.respond (s : State) (l : Nat) (q : Msg) (kind : Nat) (st : Status) (data : List Byte) : State :=
  let m : Msg := { kind := kind, cls := q.cls, dst := q.src, sub := st.code, ctx := q.ctx, gen := q.gen, addr := q.addr, label := q.label,
                   epoch := q.epoch, payload := data }
  let v := q.epoch.toNat
  match s.destRoute v q.src with
  | .away _ => s.sendTo v (s.unitIngress q.addr) m
  | _ => s.sendOn l m (s.unitIngress q.addr)

/-- A request still reaches a home or memory by way of this module's own awaits: those of an operation. -/
def State.opAwaits (s : State) (id : Nat) : Bool := s.link.awaits.any (fun a => a.who == .op id)

end Sys2Proof.Machine
end

