-- ==== Sys2Proof/Machine/Tiers.lean ====
section
/-! DEFINITION. Tiers, placement, quotas and shares, the pool-map commands, moves of pages and the scrub of freed backing
(R328-R356, R507). -/

namespace Sys2Proof.Machine

/-- Quota column of a tier code: 0 stack, 1 DRAM and expanders, 2 flash (R333, R342). -/
def quotaOf (tier : Nat) : Nat := if tier = 0 then 0 else if tier = 2 then 2 else 1

/-- Free chunks of a unit; none while it is out of service. -/
def State.unitFree (s : State) (u : Nat) : Nat :=
  (s.tier.units.find? (fun x => x.unit == u)).elim 0 (fun x => if x.up then x.free else 0)

/-- A unit of the pool is in service. -/
def State.unitUp (s : State) (u : Nat) : Bool := (s.tier.units.find? (fun x => x.unit == u)).any (·.up)

/-- A location has room for page p. -/
def State.locRoom (s : State) (l : Loc) (p : Nat) : Bool :=
  let us := s.chunkUnits l p
  us.all (fun u => s.unitUp u && us.count u ≤ s.unitFree u)

/-- Take or give back the chunks of page p at a location. -/
def State.locTake (s : State) (l : Loc) (p : Nat) : State :=
  let us := s.chunkUnits l p
  { s with tier := { s.tier with units := s.tier.units.map (fun x => { x with free := x.free - us.count x.unit }) } }

def State.locGive (s : State) (l : Loc) (p : Nat) : State :=
  let us := s.chunkUnits l p
  { s with tier := { s.tier with units := s.tier.units.map (fun x => { x with free := x.free + us.count x.unit }) } }

/-- Free pages of a tier: `TIER_FREE_STACK`, `TIER_FREE_DRAM` without expanders, `TIER_FREE_FLASH` (R351). -/
def State.tierFree (s : State) (tier : Nat) : Nat :=
  (s.tier.units.filter (fun x => x.tier == tier && x.up)).foldl (fun a x => a + x.free) 0 / 32

/-- Free pages of a location's unit or group. -/
def State.locFree (s : State) (l : Loc) : Nat :=
  if l.unit != 0xFF then s.unitFree l.unit / 32
  else ((s.groupMembers l.group).foldl (fun a m => a + s.unitFree (0x40 + m)) 0) / 32

/-- Locations of a tier that slice sl holds (R336), lowest number first. -/
def State.sliceLocs (s : State) (sl tier : Nat) : List Loc :=
  if tier = 0 then ((List.range 8).filter (s.sliceStack sl)).map (fun u => { tier := 0, unit := u, group := 0 })
  else ((List.range 16).filter (fun g => s.groupKind g == tier && s.groupSlice g == sl)).map
    (fun g => { tier := tier, unit := 0xFF, group := g })

/-- The unit or group with the most free pages; the lowest-numbered on a tie (R336). Only those with room for page p count. -/
def State.bestLoc (s : State) (sl tier p : Nat) : Option Loc :=
  ((s.sliceLocs sl tier).filter (fun l => s.locRoom l p)).foldl
    (fun b l => match b with
      | none => some l
      | some m => if s.locFree m < s.locFree l then some l else some m) none

/-- Metadata bytes of a sequence: directory, block tables with their summary rows (R257, R362, R363). -/
def seqMeta (layers heads d kBytes bt maxTokens : Nat) : Nat :=
  let nb := cdiv maxTokens bt
  layers * heads * (64 + cdiv (16 * nb) 64 * 64 + cdiv (nb * d * kBytes) 64 * 64)

/-- Bytes of one key element (R256): BF16 and FP16 two, the eight-bit formats one. -/
def keyBytes (fmt : Nat) : Nat := if fmt == 1 || fmt == 2 then 2 else 1

def Seq.metaPages (q : Seq) : Nat := cdiv (seqMeta q.layersN q.headsN q.d (keyBytes q.kFmt) q.bt q.maxTokens) (2 ^ 21)

/-- Pages of context x in a quota column (R343): where they lie, moves in both tiers, sources not yet freed, stage copies, metadata
mirrors. -/
def State.use (s : State) (x k : Nat) : Nat :=
  let pg := s.tier.pages.filter (fun g => entryCtx g.entry == x)
  (pg.filter (fun g => quotaOf g.tier == k)).length
    + (pg.filter (fun g => g.move.any (fun m => quotaOf m.tier == k))).length
    + (s.tier.freed.filter (fun f => f.ctx == x && quotaOf f.tier == k)).length
    + (if k = 0 then
        (s.tier.streams.filter (fun w => w.ctx == x)).foldl (fun a w =>
          w.copies.foldl (fun b c => b + (w.layers.getD c.1 (0, 0)).2) a) 0
      else if k = 1 then
        (s.tier.seqs.filter (fun q => q.owner == x)).foldl (fun a q => a + q.mirrors.length * q.metaPages) 0
      else 0)

/-- Contexts that hold anything in the pool. -/
def State.tierCtxs (s : State) : List Nat :=
  (s.tier.pages.map (fun g => entryCtx g.entry) ++ s.tier.freed.map (·.ctx) ++ s.tier.streams.map (·.ctx)
    ++ s.tier.seqs.map (·.owner)).eraseDups

/-- Pages of a slice in a quota column (R344). -/
def State.sliceUse (s : State) (sl k : Nat) : Nat :=
  (s.tierCtxs.filter (fun x => s.ctxSlice x == sl)).foldl (fun a x => a + s.use x k) 0

/-- `CU_…`, `SL_USED_…` of the contexts of a list, `TIER_FREE_…` and the lost count follow the pool (R342, R344, R351). -/
def State.syncUse (s : State) (xs : List Nat) : State :=
  let s1 := s.each xs (fun x t => t.each [0, 1, 2] (fun k u =>
    (u.wrn (quotaReg x (0x0C + 4 * k)) (s.use x k)).wrn (shareReg (s.ctxSlice x) (0x10 + 4 * k)) (s.sliceUse (s.ctxSlice x) k)))
  (((s1.wrn 0x214 (s.tierFree 0)).wrn 0x218 (s.tierFree 1)).wrn 0x21C (s.tierFree 2)).wrn 0x228
    (min 0xFFFFFFFF (s.tier.pages.filter (·.lost)).length)

/-- What stands against a page of context x in a column at a unit: quota, share, room (R337). -/
structure Refuse where
  quota : Bool
  other : Bool
  deriving DecidableEq, Repr

/-- R337 for context x: quota and share in force, and the unit. -/
def State.tierRefuse (s : State) (x k : Nat) (room : Bool) : Refuse :=
  let sl := s.ctxSlice x
  { quota := decide ((s.frd (quotaReg x (4 * k))).toNat ≤ s.use x k)
    other := decide ((s.rd (shareReg sl (4 * k))).toNat ≤ s.sliceUse sl k) || !room }

/-- The location a tier gives page p of context x under pin and unit, if any has room (R335, R336). -/
def State.pinLoc (s : State) (x p tier unit : Nat) : Option Loc :=
  if unit = 0xFF then s.bestLoc (s.ctxSlice x) tier p
  else
    let l : Loc := { tier := if 0x80 ≤ unit then 3 else tier, unit := unit, group := 0 }
    if s.locRoom l p then some l else none

/-- Tiers that a pin permits, in the order of R336. -/
def pinTiers (pin : Nat) : List Nat := if pin = 0 then [0, 1, 2] else [pin - 1]

/-- Try the permitted tiers in order: a location, or whether some tier refused for the quota alone. The stack tier keeps its reserve from
unpinned pages (R336), which is none of the conditions of R337. -/
def State.choose (s : State) (x p pin unit : Nat) : List Nat → Option Loc × Bool
  | [] => (none, false)
  | t :: ts =>
    let reserve := decide (pin = 0 ∧ t = 0 ∧ s.tierFree 0 < (s.frd 0x20C).toNat + 1)
    let l := s.pinLoc x p t unit
    let r := s.tierRefuse x (quotaOf t) l.isSome
    if !r.quota && !r.other && !reserve then (l, false)
    else
      let rest := s.choose x p pin unit ts
      (rest.1, rest.2 || (r.quota && !r.other))

/-- Pages of context x that would be placed, each in turn under its pin and unit: the state, whether some page cannot be placed, and whether
one of those was refused for a quota alone (R337). -/
def State.tryAll (s : State) (x : Nat) (pin : Nat → Nat × Nat) (add : Nat → Loc → State → State) : List Nat → State × Bool × Bool
  | [] => (s, false, false)
  | p :: ps =>
    match s.choose x p (pin p).1 (pin p).2 (pinTiers (pin p).1) with
    | (some l, _) => State.tryAll (add p l (s.locTake l p)) x pin add ps
    | (none, q) =>
      let r := State.tryAll s x pin add ps
      (r.1, true, q || r.2.2)

/-- All the pages, or none with the code (R337). DEDUCED, unsafe: notes/assumptions/59.md. -/
def State.placeAll (s : State) (x : Nat) (pin : Nat → Nat × Nat) (add : Nat → Loc → State → State) (ps : List Nat) : State × Status :=
  let r := s.tryAll x pin add ps
  if r.2.1 then (s, if r.2.2 then .quota else .capacityExhausted) else (r.1, .ok)

/-- A pin and its unit agree, and the unit lies in the context's slice (R335). -/
def State.pinOk (s : State) (x pin unit : Nat) : Bool :=
  let sl := s.ctxSlice x
  unit == 0xFF
    || (pin == 1 && unit < 8 && s.sliceStack sl unit)
    || (pin == 2 && 0x40 ≤ unit && unit < 0x80 && s.sliceLink sl (unit - 0x40) && s.fld (linkBlock (unit - 0x40)) 9 2 == 1)
    || (pin == 2 && 0x80 ≤ unit && unit < 0xB0 && s.sliceHost sl (unit - 0x80))
    || (pin == 3 && 0x40 ≤ unit && unit < 0x80 && s.sliceLink sl (unit - 0x40) && s.fld (linkBlock (unit - 0x40)) 9 2 == 2)

/-- A page record for a new page. -/
def newPage (p : Nat) (e : Word) (l : Loc) : Page :=
  { page := p, entry := e, tier := l.tier, unit := l.unit, group := l.group, heat := 0, frames := 0, marked := false,
    lost := false, move := none, repin := false, isNew := true }

/-- Keep pages by ascending number. -/
def insPage (g : Page) : List Page → List Page
  | [] => [g]
  | h :: t => if g.page < h.page then g :: h :: t else h :: insPage g t

/-- DEDUCED, unsafe: notes/assumptions/66.md. -/
def State.addPage (s : State) (g : Page) : State := { s with tier := { s.tier with pages := insPage g s.tier.pages } }

def State.setPage (s : State) (g : Page) : State :=
  { s with tier := { s.tier with pages := s.tier.pages.map (fun h => if h.page == g.page then g else h) } }

def State.dropPage (s : State) (p : Nat) : State :=
  { s with tier := { s.tier with pages := s.tier.pages.filter (fun h => h.page != p) } }

/-- Pages that await scrub, and `SCRUB_BUSY`, of context x (R476, R507). -/
def State.syncScrub (s : State) (x : Nat) : State :=
  let n := (s.tier.scrubs.filter (fun r => r.ctx == x)).length
  (s.wrn (ctxReg x 0x10) n).wrFld (ctxReg x 0) 3 1 (if n = 0 then 0 else 1)

/-- Backing at a location waits for scrub; flash backing waits for secure discard (R397, R507). -/
def State.toScrub (s : State) (p x : Nat) (l : Loc) : State :=
  let r : Scrub := { page := p, ctx := x, tier := l.tier, unit := l.unit, group := l.group, started := false }
  let s1 := { s with tier := { s.tier with scrubs := s.tier.scrubs ++ [r] } }
  (s1.when (l.tier == 2) (·.wrap 0x318 1)).syncScrub x

/-- A move ends without effect: its destination is given back (R349). -/
def State.abandonMove (s : State) (g : Page) : State :=
  match g.move with
  | none => s
  | some m => ((s.setPage { g with move := none }).locGive m.loc g.page).sat 0x224 1

/-- A page leaves the pool map: its backing waits for scrub; that of a lost page is free at once (R338, R355). -/
def State.freePage (s : State) (g : Page) : State :=
  let s1 := (s.abandonMove g).dropPage g.page
  if g.lost then s1.locGive g.loc g.page else s1.toScrub g.page (entryCtx g.entry) g.loc

/-- Chunks of unit u that are taken: mapped pages, lost ones included, moves, backing that awaits scrub or its last access, stage copies,
metadata mirrors. -/
def State.usedOn (s : State) (u : Nat) : Nat :=
  let at_ (l : Loc) (p : Nat) : Nat := (s.chunkUnits l p).count u
  (s.tier.pages.map (fun g => at_ g.loc g.page + (match g.move with
    | some m => at_ m.loc g.page
    | none => 0))).sum
    + (s.tier.scrubs.map (fun r => at_ { tier := r.tier, unit := r.unit, group := r.group } r.page)).sum
    + (s.tier.freed.map (fun r => at_ { tier := r.tier, unit := r.unit, group := r.group } r.page)).sum
    + (s.tier.streams.map (fun w => ((w.copies.filter (fun c => c.2 == u)).map (fun c => 32 * (w.layers.getD c.1 (0, 0)).2)).sum)).sum
    + (s.tier.seqs.map (fun q => ((q.mirrors.filter (fun l => 0x40 + l == u)).map (fun _ => 32 * q.metaPages)).sum)).sum

/-- A move of page g to a location whose chunks are taken begins. DEDUCED, unsafe: notes/assumptions/66.md. -/
def State.moveTo (s : State) (g : Page) (l : Loc) : State :=
  s.setPage { g with move := some { tier := l.tier, unit := l.unit, group := l.group, done := 0 } }

/-- A move of page g to a location begins. -/
def State.startMove (s : State) (g : Page) (l : Loc) : State := (s.locTake l g.page).moveTo { g with repin := false } l

/-- Pages of the ring of queue q (R116, R117). DEDUCED, unsafe: notes/assumptions/15.md. -/
def State.ringPages (s : State) (q : Nat) : List Nat :=
  let b := queueBlock q
  pagesOf ((s.rd (b + 8)).toNat + 2 ^ 32 * (s.rd (b + 0xC)).toNat) (64 * 2 ^ s.fld (b + 4) 8 5)

/-- Ring pages of the queues in scheduled mode: held in the stack tier as if pinned there (R128). -/
def State.heldPages (s : State) : List Nat :=
  s.regs.flatMap (fun p => match place p.1 with
    | .queue q 4 => if p.2.getLsbD 1 then s.ringPages q else []
    | _ => [])

-- pool-map commands ---------------------------------------------------------------------------------------------------

/-- The command block's fields (R351). -/
def State.pmapFirst (s : State) : Nat := ((s.rd 0x240).toNat + 2 ^ 32 * (s.rd 0x244).toNat) / 2 ^ 21
def State.pmapCount (s : State) : Nat := (s.rd 0x248).toNat
def State.pmapPages (s : State) : List Nat := (List.range s.pmapCount).map (· + s.pmapFirst)
def State.pmapEntry (s : State) : Word := s.rd 0x24C

/-- A command begins: `BUSY` reads 1 until PMAP_COMMAND_DONE; a command written meanwhile is discarded (R339).
DEDUCED, unsafe: notes/assumptions/66.md. -/
def State.pmapStart (s : State) (f : State → State × Status) : State :=
  if s.tier.cmd.isSome then s.set 0x22C 0x8
  else
    let r := f s
    ({ r.1 with tier := { r.1.tier with cmd := some (r.2, s.pmapFirst, s.pmapCount) } }).wrFld 0x254 0 1 1

/-- A placement was refused for a quota (R342). -/
def State.quotaHit (s : State) (x : Nat) (st : Status) : State := s.when (st == .quota) (·.set (quotaReg x 0x1C) 1)

/-- Pin and unit under which a page is placed: a ring page of a queue in scheduled mode goes to the stack tier (R128). -/
def State.pinFor (s : State) (pin unit p : Nat) : Nat × Nat := if s.heldPages.contains p then (1, 0xFF) else (pin, unit)

/-- Page g lies where its pin and unit want it (R333, R335). -/
def pinHolds (pin unit : Nat) (g : Page) : Bool := if unit = 0xFF then (pinTiers pin).contains g.tier else g.unit == unit

/-- MAP (R338): all or nothing. DEDUCED, unsafe: notes/assumptions/66.md. -/
def State.pmapMap (s : State) : State × Status :=
  let e := s.pmapEntry &&& 0x007FFFFF
  let x := entryCtx e
  let st := Status.all [(!s.defined x || !s.pinOk x (entryPin e) (entryUnit e), .permission),
    (2 ^ 31 < s.pmapFirst + s.pmapCount || s.pmapPages.any (fun p => (s.page p).isSome), .addrFault),
    (s.pmapCount == 0, .zeroLenNoop)]
  if st != .ok then (s, st)
  else
    let r := s.placeAll x (s.pinFor (entryPin e) (entryUnit e)) (fun p l t => t.addPage (newPage p e l)) s.pmapPages
    if r.2 != .ok then (s.quotaHit x r.2, r.2) else (r.1.syncUse [x], .ok)

/-- Checks shared by UNMAP and SET_FLAGS (R338). -/
def State.pmapOwned (s : State) : List (Bool × Status) :=
  let x := entryCtx s.pmapEntry
  [(s.pmapPages.any (fun p => (s.page p).any (fun g => entryCtx g.entry != x || g.entry.getLsbD 24 || g.entry.getLsbD 25)), .permission),
   (2 ^ 31 < s.pmapFirst + s.pmapCount || s.pmapPages.any (fun p => (s.page p).isNone), .addrFault),
   (s.pmapCount == 0, .zeroLenNoop)]

/-- UNMAP: until the boundary at which it takes effect, accesses are answered by the page's old record (R339). -/
def State.pmapUnmap (s : State) : State × Status :=
  let st := Status.all s.pmapOwned
  if st != .ok then (s, st)
  else
    let x := entryCtx s.pmapEntry
    ((s.each s.pmapPages (fun p t => match t.page p with
      | some g =>
        let gone := if t.tier.gone.any (fun h => h.page == p) || g.isNew then t.tier.gone else g :: t.tier.gone
        ({ t with tier := { t.tier with gone := gone } }).freePage g
      | none => t)).syncUse [x], .ok)

/-- The entry after SET_FLAGS: `PIN`, `PIN_UNIT`, `DOMAIN` and `RO` are replaced. -/
def flagsOf (old new : Word) : Word := (old &&& ~~~(0x007FFC00 : Word)) ||| (new &&& 0x007FFC00)

/-- SET_FLAGS: a changed pin is admitted under R337, and the tier policy moves the page in the next epoch (R338, R347, R349). -/
def State.pmapSetFlags (s : State) : State × Status :=
  let e := s.pmapEntry
  let st := Status.all ((!s.pinOk (entryCtx e) (entryPin e) (entryUnit e), .permission) :: s.pmapOwned)
  if st != .ok then (s, st)
  else
    let changed := s.pmapPages.filter (fun p => (s.page p).any (fun g =>
      entryPin g.entry != entryPin e || entryUnit g.entry != entryUnit e))
    -- pages that must move to satisfy the new pin
    let movers := changed.filter (fun p => (s.page p).any (fun g =>
      !pinHolds (s.pinFor (entryPin e) (entryUnit e) p).1 (s.pinFor (entryPin e) (entryUnit e) p).2 g))
    let r := s.placeAll (entryCtx e) (s.pinFor (entryPin e) (entryUnit e)) (fun p l t => match t.page p with
      | some g => t.moveTo g l
      | none => t) movers
    if r.2 != .ok then (s.quotaHit (entryCtx e) r.2, r.2)
    else
      (s.each s.pmapPages (fun p t => match t.page p with
        | some g => t.setPage { g with entry := flagsOf g.entry e, repin := g.repin || changed.contains p }
        | none => t), .ok)

/-- `PMAP_LOC` of a page (R340). -/
def locWord (g : Page) : Nat :=
  (if g.lost then 4 else g.tier) + 8 * g.unit + 2 ^ 11 * (if g.move.isSome then 1 else 0)
    + 2 ^ 12 * (if g.unit == 0xFF then g.group else 0) + 2 ^ 16 * g.heat

/-- QUERY: an unmapped page reads as zero in both registers. -/
def State.pmapQuery (s : State) : State × Status :=
  match s.page s.pmapFirst with
  | some g => ((s.wr 0x258 g.entry).wrn 0x25C (locWord g), .ok)
  | none => ((s.wr 0x258 0).wr 0x25C 0, .ok)

def execMap (port : Nat) (s : State) : Host.Outcome State Fault Refusal :=
  .next (s.reg (.map port) port 0x250 (fun t => t.pmapStart State.pmapMap))

def execUnmap (port : Nat) (s : State) : Host.Outcome State Fault Refusal :=
  .next (s.reg (.unmap port) port 0x250 (fun t => t.pmapStart State.pmapUnmap))

def execSetFlags (port : Nat) (s : State) : Host.Outcome State Fault Refusal :=
  .next (s.reg (.setFlags port) port 0x250 (fun t => t.pmapStart State.pmapSetFlags))

def execQuery (port : Nat) (s : State) : Host.Outcome State Fault Refusal :=
  .next (s.reg (.query port) port 0x250 (fun t => t.pmapStart State.pmapQuery))

/-- PMAP_COMMAND_DONE: `BUSY` clears and `CODE` reports; rights follow at the next frame boundary (R338, R339). -/
def execPmapCommandDone (s : State) : Host.Outcome State Fault Refusal :=
  .next (match s.tier.cmd with
    | some c => ({ s with tier := { s.tier with cmd := none, cmdDone := true } }).wrn 0x254 (256 * c.1.code)
    | none => s)

-- moves -----------------------------------------------------------------------------------------------------------------

/-- Window w of the active image is open for a chunk of this place in this frame (R81, R348). -/
def State.windowOk (s : State) (w src dst : Nat) : Bool :=
  match s.eph.active with
  | none => false
  | some g =>
    match g.mig[w]? with
    | none => false
    | some e =>
      e.frame == s.time.frame % g.period && e.source == src && e.dest == dst
        && (s.tier.migUsed.find? (fun p => p.1 == w)).elim 0 (·.2) < e.chunks
        && e.firstSlot ≤ s.time.slot && s.time.slot < e.firstSlot + e.slots

/-- Chunks moved in window w in this frame count against it. -/
def State.windowUse (s : State) (w : Option Nat) : State :=
  match w with
  | none => s
  | some w =>
    let n := (s.tier.migUsed.find? (fun p => p.1 == w)).elim 0 (·.2)
    { s with tier := { s.tier with migUsed := (w, n + 1) :: s.tier.migUsed.filter (fun p => p.1 != w) } }

/-- Lines of a list that lie in chunk c of page p. -/
def chunkLines (p c : Nat) (l : List Nat) : List Nat := l.filter (fun x => x / 1024 == 32 * p + c)

/-- An uncorrectable line that the module's own copy meets is logged, with no unit or operation as its source (R546).
DESIGN CHOICE, unsafe in part: notes/assumptions/49.md. -/
def State.copyUe (s : State) (x : Nat) (l : List Nat) : State :=
  match l with
  | [] => s
  | n :: r => s.fresh.2.errLog 0xC 5 s.fresh.1.toNat x (64 * r.foldl min n) 0

/-- The next chunk of a moving page is copied (R348, R349): an uncorrectable line of the source is poisoned at the destination. A write that
fails at the destination, of a chunk copy or of an access to a chunk already copied, abandons the move. -/
def State.moveChunk (s : State) (g : Page) (m : Move) (window : Option Nat) (ok : Bool) (ue : List Nat) : State :=
  if g.lost then s
  else if !ok then (s.abandonMove g).syncUse [entryCtx g.entry]
  else if 32 ≤ m.done || !(window.all (fun w => s.windowOk w (s.chunkUnit g.loc g.page m.done) (s.chunkUnit m.loc g.page m.done))) then s
  else
    let bad := chunkLines g.page m.done ue
    let s1 := (s.setPage { g with move := some { m with done := m.done + 1 } }).windowUse window
    ({ s1 with poison := bad.filter (fun l => !s1.poison.contains l) ++ s1.poison }).copyUe (entryCtx g.entry) bad

/-- Finished moves change the page's location at a frame boundary (R350). -/
def State.finishMoves (s : State) : State :=
  s.each (s.tier.pages.filter (fun g => g.move.any (fun m => m.done == 32))) (fun g t =>
    match g.move with
    | none => t
    | some m =>
      let f : Freed := { page := g.page, ctx := entryCtx g.entry, tier := g.tier, unit := g.unit, group := g.group }
      let t1 := t.setPage { g with tier := m.tier, unit := m.unit, group := m.group, move := none }
      ({ t1 with tier := { t1.tier with freed := t1.tier.freed ++ [f] } }).sat 0x220 1)

/-- SOURCE_FREE: the source of a finished move is freed once the last access accepted at it completes (R350). -/
def execSourceFree (page : Nat) (s : State) : Host.Outcome State Fault Refusal :=
  .next (match s.tier.freed.find? (fun f => f.page == page) with
    | some f =>
      let s1 := { s with tier := { s.tier with freed := s.tier.freed.erase f } }
      (s1.toScrub page f.ctx { tier := f.tier, unit := f.unit, group := f.group }).syncUse [f.ctx]
    | none => s)

/-- Bytes of a page are zero, and no line of it is poisoned. -/
def State.zeroPage (s : State) (p : Nat) : State :=
  { s with
    mem := s.mem.filter (fun c => c.1 / 2 ^ 21 != p)
    poison := s.poison.filter (fun l => l / 2 ^ 15 != p) }

/-- PAGE_SCRUB: firmware overwrites stack or DRAM backing with zeros (R507), from a frame boundary on (R38), and not while accesses still find
the page under the old map (R339). Backing under secure discard is the tray's matter. -/
def execPageScrub (page : Nat) (s : State) : Host.Outcome State Fault Refusal :=
  .next (match s.tier.scrubs.find? (fun r => r.page == page && r.tier != 2 && !r.started && s.atBoundary
      && !s.tier.gone.any (fun g => g.page == page)) with
    | some r =>
      let s1 := { s with tier := { s.tier with scrubs := s.tier.scrubs.map (fun q => if q == r then { q with started := true } else q) } }
      s1.when ((s.page page).isNone) (·.zeroPage page)
    | none => s)

/-- A scrub ends: the backing returns to its tier's free count; `SCRUB_DONE` at zero (R507). -/
def State.scrubEnd (s : State) (r : Scrub) : State :=
  let s1 := { s with tier := { s.tier with scrubs := s.tier.scrubs.erase r } }
  let s2 := (s1.locGive { tier := r.tier, unit := r.unit, group := r.group } r.page).syncScrub r.ctx
  let s3 := s2.when (s2.rd (ctxReg r.ctx 0x10) == 0) (·.set (ctxReg r.ctx 0x18) 0x2)
  s3.syncUse [r.ctx]

/-- PAGE_SCRUB_COMPLETE. -/
def execPageScrubComplete (page : Nat) (s : State) : Host.Outcome State Fault Refusal :=
  .next (match s.tier.scrubs.find? (fun r => r.page == page && r.started) with
    | some r => s.scrubEnd r
    | none => s)

-- heat and policy ---------------------------------------------------------------------------------------------------

/-- The frame ends: marked pages count it (R345). -/
def State.heatFrame (s : State) : State :=
  { s with tier := { s.tier with pages := s.tier.pages.map (fun g =>
      if g.marked then { g with frames := g.frames + 1, marked := false } else g) } }

/-- R346. -/
def heatNext (shift h f : Nat) : Nat := min 0xFFFF (h - h / 2 ^ shift + f)

/-- Heat of every mapped page at an epoch boundary; unchanged in Retain (R346, R576). -/
def State.heatEpoch (s : State) : State :=
  if s.pwr.state == 2 then s
  else { s with tier := { s.tier with pages := s.tier.pages.map (fun g =>
      { g with heat := heatNext (s.ffld 0x200 0 4) g.heat g.frames, frames := 0 }) } }

/-- Order of promotions: descending heat, then ascending page. Demotions: ascending heat, then descending page (R347). -/
def hotFirst (a b : Page) : Bool := b.heat < a.heat || (a.heat == b.heat && a.page ≤ b.page)
def coldFirst (a b : Page) : Bool := a.heat < b.heat || (a.heat == b.heat && b.page ≤ a.page)

/-- Page g may be chosen in items 2 and 3 of R347; `held` lists the ring pages of R128. -/
def policyPage (held : List Nat) (g : Page) : Bool := entryPin g.entry == 0 && !held.contains g.page && !g.entry.getLsbD 25 && g.tier != 3 && !g.lost && g.move.isNone

/-- A location in a tier for page g under R336 and R337; a refusal for the quota alone latches `QUOTA_HIT` (R342). -/
def State.admitTo (s : State) (g : Page) (tier : Nat) : Option Loc × State :=
  let x := entryCtx g.entry
  let l := s.bestLoc (s.ctxSlice x) tier g.page
  let r := s.tierRefuse x (quotaOf tier) l.isSome
  if r.quota || r.other then (none, s.quotaHit x (if r.other then .ok else .quota)) else (l, s)

/-- From flash to DRAM, when the stack tier refuses the page (R347 item 2). -/
def State.toDram (s : State) (g : Page) (budget : Nat) : State × Nat :=
  if g.tier != 2 then (s, budget)
  else match s.admitTo g 1 with
    | (some l, t) => (t.startMove g l, budget - 1)
    | (none, t) => (t, budget)

/-- One promotion (R347 item 2): the state, and the budget left. DEDUCED, unsafe: notes/assumptions/59.md. -/
def State.promote (held : List Nat) (s : State) (budget : Nat) (p : Nat) : State × Nat :=
  match s.page p with
  | none => (s, budget)
  | some g =>
    if budget = 0 || !policyPage held g then (s, budget)
    else match s.admitTo g 0 with
      | (some l, t) => if t.tierFree 0 < (t.frd 0x20C).toNat + 1 then t.toDram g budget else (t.startMove g l, budget - 1)
      | (none, t) => t.toDram g budget

/-- One demotion (R347 item 3). DEDUCED, unsafe: notes/assumptions/59.md. -/
def State.demote (held : List Nat) (s : State) (budget : Nat) (p : Nat) : State × Nat :=
  match s.page p with
  | none => (s, budget)
  | some g =>
    if budget = 0 || !policyPage held g || (s.frd 0x20C).toNat ≤ s.tierFree 0 + (s.tier.pages.filter (fun h => h.tier == 0 && h.move.isSome)).length
    then (s, budget)
    else match s.admitTo g 1 with
      | (some l, t) => (t.startMove g l, budget - 1)
      | (none, t) =>
        match t.admitTo g 2 with
        | (some l, u) => (u.startMove g l, budget - 1)
        | (none, u) => (u, budget)

/-- One pin move (R347 item 1). A ring page that R128 holds stays in the stack tier while it is held. -/
def State.pinMove (held : List Nat) (s : State) (budget : Nat) (p : Nat) : State × Nat :=
  match s.page p with
  | none => (s, budget)
  | some g =>
    let pin := if held.contains p then 1 else entryPin g.entry
    let unit := if held.contains p then 0xFF else entryUnit g.entry
    if budget = 0 || !g.repin || g.move.isSome || g.lost then (s, budget)
    else if pinHolds pin unit g then (s.setPage { g with repin := held.contains p }, budget)
    else match s.choose (entryCtx g.entry) p pin unit (pinTiers pin) with
      | (some l, _) => ((s.locTake l p).moveTo { g with repin := held.contains p } l, budget - 1)
      | (none, q) => (s.quotaHit (entryCtx g.entry) (if q then .quota else .ok), budget)

/-- The tier policy of an epoch boundary (R347): pin moves, promotions, demotions, within the budget less the moves that continue.
DEDUCED, unsafe: notes/assumptions/59.md. -/
def State.tierPolicy (s : State) : State :=
  let held := s.heldPages
  let carried := (s.tier.pages.filter (fun g => g.move.isSome)).length
  let run (r : State × Nat) (l : List Nat) (f : State → Nat → Nat → State × Nat) : State × Nat := l.foldl (fun q p => f q.1 q.2 p) r
  let r1 := run (s, (s.frd 0x210).toNat - carried) ((s.tier.pages.filter (·.repin)).map (·.page)) (State.pinMove held)
  let r3 :=
    if !s.fbit 0x200 4 then r1
    else
      let hot := (orderBy hotFirst (r1.1.tier.pages.filter (fun g => g.tier != 0 && policyPage held g && (s.frd 0x204).toNat ≤ g.heat))).map (·.page)
      let r2 := run r1 hot (State.promote held)
      let cold := (orderBy coldFirst (r2.1.tier.pages.filter (fun g => g.tier == 0 && policyPage held g && g.heat ≤ (s.frd 0x208).toNat))).map (·.page)
      run r2 cold (State.demote held)
  ({ r3.1 with tier := { r3.1.tier with carried := carried } }).syncUse r3.1.tierCtxs

-- losses and redirection ---------------------------------------------------------------------------------------------

/-- Every page with a chunk on unit u is lost (R354). DEDUCED, unsafe: notes/assumptions/48.md. -/
def State.loseUnit (s : State) (u : Nat) : State :=
  let bad := s.tier.pages.filter (fun g => !g.lost && (s.chunkUnits g.loc g.page).contains u)
  let toU := s.tier.pages.filter (fun g => g.move.any (fun m => (s.chunkUnits m.loc g.page).contains u)
    || (g.move.isSome && !g.lost && (s.chunkUnits g.loc g.page).contains u))
  let s0 := s.each toU (fun g t => t.abandonMove g)
  let s1 := s0.each bad (fun g t => match t.page g.page with
    | some h => t.setPage { h with lost := true }
    | none => t)
  let s2 := (s1.when (!bad.isEmpty) (·.set 0x22C 0x2)).each bad (fun g t =>
    t.errLog 0xD 0 u (entryCtx g.entry) (g.page * 2 ^ 21) 0)
  s2.syncUse (bad.map (fun g => entryCtx g.entry)).eraseDups

/-- `FT_STATE` of the flash tray on link port n (R404). -/
def State.trayState (s : State) (n : Nat) : Nat := s.fld (trayReg n 0) 0 3

/-- Page g has a chunk on a read-only flash tray. -/
def State.onReadOnly (s : State) (g : Page) : Bool :=
  g.tier == 2 && (s.chunkUnits g.loc g.page).any (fun u => 0x40 ≤ u && s.trayState (u - 0x40) == 2)

/-- R356: a page on a read-only tray moves to the DRAM tier before a write of it completes, or the write fails. -/
def State.redirect (s : State) (p : Nat) : State × Status :=
  match s.page p with
  | none => (s, .ok)
  | some g =>
    if !s.onReadOnly g || g.lost then (s, .ok)
    else match s.admitTo g 1 with
      | (none, t) => (t, .capacityExhausted)
      | (some l, t) =>
        let s1 := (t.abandonMove g).locTake l p
        let s2 := s1.setPage { g with tier := l.tier, unit := l.unit, group := l.group, move := none }
        (((s2.toScrub p (entryCtx g.entry) g.loc).set 0x22C 0x4).syncUse [entryCtx g.entry], .ok)

end Sys2Proof.Machine
end

