-- ==== Sys2Proof/Machine/Trays.lean ====
section
/-! DEFINITION. Flash trays: geometry, blocks, stripes and parity, the map with its checkpoint and journal, the write cache (R378-R393,
R403); and writes of pool memory, which pass through it (R356, R385, R541). -/

namespace Sys2Proof.Machine

-- geometry ----------------------------------------------------------------------------------------------------------------

/-- Spares, data blocks of a die, pages per main block (R383, R384). -/
def traySpares (nb : Nat) : Nat := cdiv nb 32
def trayData (nb : Nat) : Nat := nb - traySpares nb - 32
def State.mainPages (s : State) (pSlc : Nat) : Nat := pSlc * (s.fld 0x300 0 2 + 2)

/-- Pool pages offered by a number of dies (R384). -/
def offered (dies data pMain : Nat) : Nat := dies * data * pMain * 225 / (256 * 128)

/-- The limits of R382. PRESUMED, unsafe: notes/assumptions/22.md. -/
def trayOk (h : Hello) : Bool :=
  h.dies % 16 == 0 && 16 ≤ h.dies && h.dies ≤ 512 && decide (h.dies * h.blocks * (4 * h.pSlc) * 2 ^ 14 ≤ 2 ^ 48)

def State.tray (s : State) (l : Nat) : Option Tray := s.flash.trays.find? (fun t => t.link == l)
def State.setTray (s : State) (t : Tray) : State :=
  { s with flash := { s.flash with trays := s.flash.trays.map (fun u => if u.link == t.link then t else u) } }

/-- Apply to the tray on a link port. -/
def State.onTray (s : State) (l : Nat) (f : Tray → State) : State :=
  match s.tray l with
  | some t => f t
  | none => s

/-- The tray takes writes, or is being rebuilt. -/
def State.trayWorks (s : State) (l : Nat) : Bool := s.trayState l == 1 || s.trayState l == 3

-- blocks ------------------------------------------------------------------------------------------------------------------

def blockCount (l : List (Nat × Nat)) : Nat := l.foldl (fun a p => a + p.2) 0

/-- The least-worn free block of a die, and the rest. -/
def takeBlock : List (Nat × Nat) → Option (Nat × List (Nat × Nat))
  | [] => none
  | (w, n) :: l => if n = 0 then takeBlock l else some (w, (w, n - 1) :: l)

/-- A block with an erase count joins the free blocks of its die. -/
def giveBlock (w : Nat) : List (Nat × Nat) → List (Nat × Nat)
  | [] => [(w, 1)]
  | (v, n) :: l => if w = v then (v, n + 1) :: l else if w < v then (w, 1) :: (v, n) :: l else (v, n) :: giveBlock w l

def Tray.freeOf (t : Tray) (d : Nat) : Nat := blockCount (t.free.getD d [])
def Tray.setFree (t : Tray) (d : Nat) (l : List (Nat × Nat)) : Tray := { t with free := t.free.set d l }
def groupDies (g : Nat) : List Nat := (List.range 16).map (· + 16 * g)
def Tray.liveDies (t : Tray) (g : Nat) : List Nat := (groupDies g).filter (fun d => !t.failed.contains d)
def Tray.groups (t : Tray) : Nat := t.dies / 16

/-- The smallest number of free blocks among a group's dies (R392). -/
def Tray.minFree (t : Tray) (g : Nat) : Nat := (t.liveDies g).foldl (fun a d => min a (t.freeOf d)) (2 ^ 32)

/-- Buffer blocks of each die of a group. -/
def Tray.bufferBlocks (t : Tray) (g : Nat) : Nat := (t.stripes.filter (fun s => s.group == g && s.buffer)).length

/-- A block of a die is retired (R381, R394, R398). -/
def Tray.retire (t : Tray) (d : Nat) (b : Option FBlock) : Tray := { t with retired := t.retired ++ [(d, b.elim 0 (·.erases))] }

-- stripes -----------------------------------------------------------------------------------------------------------------

/-- Dies of its group that a stripe uses. -/
def FStripe.used (v : FStripe) : List Nat := (List.range 16).filter (fun p => (v.blocks.getD p none).isSome)

/-- The die of row r's parity page: die (r mod 16) of the group, or the next one that the stripe uses and that holds no unit of the row
(R389, R394). DESIGN CHOICE, unsafe: notes/assumptions/23.md. -/
def FStripe.parityPos (v : FStripe) (r : Nat) : Nat :=
  (((List.range 16).map (fun i => (r + i) % 16)).find? (fun p => v.used.contains p && !v.copies.any (fun c => c.row == r && c.pos == p))).getD (r % 16)

/-- The dies that hold row r's units. -/
def FStripe.dataPos (v : FStripe) (r : Nat) : List Nat := v.used.filter (· != v.parityPos r)

/-- Row and die of the next unit: units that arrive one after another are written to successive dies (R386). -/
def FStripe.next (v : FStripe) : Nat × Nat :=
  match v.copies.getLast? with
  | none => (0, (v.dataPos 0).headD 16)
  | some c =>
    match (v.dataPos c.row).find? (c.pos < ·) with
    | some p => (c.row, p)
    | none => (c.row + 1, (v.dataPos (c.row + 1)).headD 16)

/-- The exclusive or of two pages, each as its bytes that are not zero. -/
def xorCells (a b : List Host.Cell) : List Host.Cell := b.foldl (fun m c => sset (fun _ => 0) m c.1 (sget (fun _ => 0) m c.1 ^^^ c.2)) a

/-- The exclusive or of the pages of row r but the one on die `but` (R389). -/
def FStripe.rowXor (v : FStripe) (r but : Nat) : List Host.Cell :=
  (v.copies.filter (fun c => c.row == r && c.pos != but)).foldl (fun m c => xorCells m c.data) []

def FStripe.parityOf (v : FStripe) (r : Nat) : Option (List Host.Cell) := (v.parity.find? (fun p => p.1 == r)).map (·.2)

/-- A row's parity page is programmed after its units (R389). -/
def FStripe.endRow (v : FStripe) (r : Nat) : FStripe :=
  if (v.parityOf r).isSome || !v.copies.any (fun c => c.row == r) then v else { v with parity := v.parity ++ [(r, v.rowXor r 16)] }

/-- A stripe closes; a row that has begun gets its parity page. DESIGN CHOICE, unsafe: notes/assumptions/23.md. -/
def FStripe.close (v : FStripe) : FStripe :=
  { v.copies.getLast?.elim v (fun c => v.endRow c.row) with closed := true }

/-- The bytes of a unit rebuilt from the other pages of its row (R390); none before its parity page is programmed. -/
def FStripe.rebuilt (v : FStripe) (c : FCopy) : Option (List Host.Cell) := (v.parityOf c.row).map (xorCells (v.rowXor c.row c.pos))

/-- Units of which the map names a copy in the stripe. -/
def FStripe.live (v : FStripe) : List FCopy := v.copies.filter (·.valid)
def FStripe.valid (v : FStripe) : List (Nat × Nat) := v.live.map (fun c => (c.page, c.unit))

/-- Open a stripe on the least-worn free block of each die that works. DESIGN CHOICE, unsafe: notes/assumptions/23.md. -/
def Tray.openNew (t : Tray) (g : Nat) (buffer : Bool) : Option Tray :=
  if (t.liveDies g).length < 2 || (t.liveDies g).any (fun d => t.freeOf d == 0) then none
  else
    let r := (groupDies g).foldl (fun (q : Tray × List (Option FBlock)) d =>
      match takeBlock (q.1.free.getD d []) with
      | some b => if t.failed.contains d then (q.1, q.2 ++ [none]) else (q.1.setFree d b.2, q.2 ++ [some { erases := b.1, reads := 0 }])
      | none => (q.1, q.2 ++ [none])) (t, [])
    let v : FStripe := { group := g, no := t.nextStripe, buffer := buffer, closed := false, copies := [], parity := [], blocks := r.2,
                         leaving := none, dests := [] }
    some { r.1 with stripes := r.1.stripes ++ [v], nextStripe := t.nextStripe + 1 }

/-- The open stripe of a group, opened when there is none. -/
def Tray.withOpen (t : Tray) (g : Nat) (buffer : Bool) : Option (Tray × FStripe) :=
  let find (u : Tray) : Option FStripe := u.stripes.find? (fun s => s.group == g && s.buffer == buffer && !s.closed)
  match find t with
  | some s => some (t, s)
  | none => (t.openNew g buffer).bind (fun u => (find u).map (fun s => (u, s)))

def Tray.stripe (t : Tray) (no : Nat) : Option FStripe := t.stripes.find? (fun q => q.no == no)
def Tray.setStripe (t : Tray) (s : FStripe) : Tray := { t with stripes := t.stripes.map (fun q => if q.no == s.no then s else q) }

-- the map -----------------------------------------------------------------------------------------------------------------

/-- A change of the map, journalled (R380). -/
def Tray.journalled (t : Tray) (e : MapEnt) : Tray := { t with journal := t.journal ++ [e] }

/-- The map names no copy of a unit any more: it is newer in the write cache, discarded or lost (R380, R394). -/
def Tray.unmapUnit (t : Tray) (page unit : Nat) : Tray :=
  let mine (c : FCopy) : Bool := c.page == page && c.unit == unit && c.valid
  if !t.stripes.any (fun v => v.copies.any mine) then t
  else
    let stale (c : FCopy) : FCopy := if mine c then { c with valid := false } else c
    let u : Tray := { t with stripes := t.stripes.map (fun (v : FStripe) => { v with copies := v.copies.map stale }) }
    u.journalled { page := page, unit := unit, place := none }

/-- The map, as the copies have it. -/
def Tray.map (t : Tray) : List MapEnt :=
  t.stripes.flatMap (fun v => v.live.map (fun c => { page := c.page, unit := c.unit, place := some (v.no, c.row, c.pos) }))

/-- The map from the last checkpoint and the journal (R380). -/
def Tray.mapStored (t : Tray) : List MapEnt :=
  t.journal.foldl (fun (m : List MapEnt) e => m.filter (fun f => f.page != e.page || f.unit != e.unit) ++ [e]) t.checkpoint

/-- The working copy of the map is rebuilt (R380). -/
def Tray.mapRebuild (t : Tray) : Tray :=
  let m := t.mapStored
  let f (v : FStripe) (c : FCopy) : FCopy :=
    { c with valid := m.contains { page := c.page, unit := c.unit, place := some (v.no, c.row, c.pos) } }
  { t with stripes := t.stripes.map (fun (v : FStripe) => { v with copies := v.copies.map (f v) }) }

/-- The map's copy of a unit, and its stripe. -/
def Tray.find (t : Tray) (page unit : Nat) : Option (FStripe × FCopy) :=
  t.stripes.findSome? (fun v => (v.live.find? (fun c => c.page == page && c.unit == unit)).map (fun c => (v, c)))

-- programs ----------------------------------------------------------------------------------------------------------------

/-- A unit goes into a stripe: the page that ends a row is followed by its parity page, the last row closes the stripe (R386, R389). -/
def FStripe.put (v : FStripe) (pages page unit : Nat) (data : List Host.Cell) : FStripe :=
  let n := v.next
  let fresh (b : Option FBlock) : Option FBlock := b.map (fun k => { k with reads := 0 })
  let w : FStripe := { v with
    copies := v.copies ++ [{ page := page, unit := unit, row := n.1, pos := n.2, valid := true, data := data }]
    blocks := v.blocks.set n.2 (fresh (v.blocks.getD n.2 none)) }
  let x := if n.1 < w.next.1 then w.endRow n.1 else w
  if pages ≤ x.next.1 || x.next.2 == 16 then x.close else x

/-- A unit is programmed into the open stripe of a group, journalled, and the map switches to it (R386, R393): the tray, and the row that
took it. -/
def Tray.program (t : Tray) (pMain g : Nat) (buffer : Bool) (page unit : Nat) (data : List Host.Cell) : Option (Tray × Nat × Nat) :=
  (t.withOpen g buffer).bind (fun r =>
    let u := r.1.unmapUnit page unit
    (u.stripe r.2.no).map (fun v =>
      let w := v.put (if buffer then t.pSlc else pMain) page unit data
      ((u.setStripe w).journalled { page := page, unit := unit, place := some (v.no, v.next.1, v.next.2) }, v.no, v.next.1)))

/-- Copy units, each into the open main stripe of its group (R393): the tray, the rows that took them, and whether all found a place. -/
def Tray.copyUnits (t : Tray) (pMain g : Nat) : List FCopy → Tray × List (Nat × Nat) × Bool
  | [] => (t, [], true)
  | c :: l =>
    match t.program pMain g false c.page c.unit c.data with
    | none => (t, [], false)
    | some u =>
      let r := Tray.copyUnits u.1 pMain g l
      (r.1, u.2 :: r.2.1, r.2.2)

/-- Erase a stripe: its blocks join the free blocks of their dies (R388, R393). -/
def Tray.eraseStripe (t : Tray) (s : FStripe) : Tray :=
  let u := (indexed s.blocks).foldl (fun (u : Tray) b =>
    match b.2 with
    | some k => u.setFree (16 * s.group + b.1) (giveBlock (k.erases + 1) (u.free.getD (16 * s.group + b.1) []))
    | none => u) t
  { u with stripes := u.stripes.filter (fun q => q.no != s.no) }

/-- A stripe whose units have left may be erased: none is valid, and the rows that took them have their parity pages (R393). -/
def Tray.mayErase (t : Tray) (v : FStripe) : Bool :=
  v.leaving.isSome && v.live.isEmpty && v.dests.all (fun d => (t.stripe d.1).all (fun w => (w.parityOf d.2).isSome))

/-- Erase the stripes that may be: the tray, and how many of them garbage collection reclaimed. -/
def Tray.settle (t : Tray) : Tray × Nat :=
  (t.stripes.filter t.mayErase).foldl (fun q v => (q.1.eraseStripe v, if v.leaving == some true then q.2 + 1 else q.2)) (t, 0)

-- registers ---------------------------------------------------------------------------------------------------------------

/-- Erase counts of a tray's data blocks, with how many have each. -/
def Tray.wears (t : Tray) : List (Nat × Nat) := t.free.flatten ++ t.stripes.flatMap (fun s => s.blocks.filterMap (fun b => b.map (fun k => (k.erases, 1))))

/-- Erase counts of the data blocks of die d. -/
def Tray.dieWears (t : Tray) (d : Nat) : List Nat :=
  ((t.free.getD d []).filter (fun p => p.2 != 0)).map (·.1)
    ++ (t.stripes.filter (fun s => s.group == d / 16)).filterMap (fun s => (s.blocks.getD (d % 16) none).map (·.erases))

/-- Some die has no spare left and fewer than 16 free blocks (R399). -/
def Tray.exhausted (t : Tray) : Bool :=
  (List.range t.dies).any (fun d => !t.failed.contains d && t.spares.getD d 0 == 0 && t.freeOf d < 16)

/-- The tray block follows the tray (R403), after the stripes that may be erased are (R393); a tray that is worn and full turns read-only
(R399). -/
def State.traySync (s : State) (t0 : Tray) : State :=
  let r := t0.settle
  let t := r.1
  let b := trayReg t.link
  let n := blockCount t.wears
  let mean := (t.wears.foldl (fun a p => a + p.1 * p.2) 0) / max 1 n
  let top := t.wears.foldl (fun a p => if p.2 = 0 then a else max a p.1) 0
  let buf := (List.range t.groups).foldl (fun a g => a + t.bufferBlocks g * (t.liveDies g).length) 0
  let life := if t.rated = 0 then 10000 else min 10000 (10000 * mean / t.rated)
  let s1 := ((((((s.setTray t).wrn (b 0x04) (t.dies + 2 ^ 10 * t.failed.length)).wrn (b 0x08)
    (offered (t.dies - t.failed.length) (trayData t.blocks) (s.mainPages t.pSlc))).wrn (b 0x0C) (t.spares.foldl (· + ·) 0)).wrn (b 0x10) mean).wrn
      (b 0x14) top).wrn (b 0x18) t.rated
  let s2 := ((s1.wrn (b 0x1C) life).wrn (b 0x30) buf).sat (b 0x34) r.2
  let low := (List.range t.dies).any (fun d => !t.failed.contains d && t.spares.getD d 0 * 8 < traySpares t.blocks)
  let s3 := s2.when low (·.set 0x314 0x20)
  let st := s3.trayState t.link
  let down (x : UnitFree) : UnitFree := if x.unit == 0x40 + t.link then { x with up := false } else x
  if t.exhausted && (st == 1 || st == 3) then
    let s4 := (s3.wrFld (b 0) 0 3 2).set 0x314 0x1
    { s4 with tier := { s4.tier with units := s4.tier.units.map down } }
  else if st == 3 && t.rebuild.isEmpty then s3.wrFld (b 0) 0 3 1
  else s3

/-- Units programmed, units destaged: 64-bit counters that saturate (R403). -/
def State.sat64 (s : State) (off n : Nat) : State := s.wr64 off (min (2 ^ 64 - 1) (s.rd64 off + n))
def State.programmed (s : State) (l n : Nat) : State := s.sat64 (trayReg l 0x28) n

/-- The bytes of a unit in pool memory, those that are not zero. -/
def State.unitData (s : State) (page unit : Nat) : List Host.Cell :=
  (s.mem.filter (fun c => c.1 / 2 ^ 14 == 128 * page + unit)).map (fun c => (c.1 % 2 ^ 14, c.2))

-- write cache -------------------------------------------------------------------------------------------------------------

/-- Unit u of page p lies on the tray of link port l, or is being moved to it. -/
def State.unitHere (s : State) (l p u : Nat) : Bool :=
  u < 128 && (s.page p).any (fun g => !g.lost
    && (g.tier == 2 && s.chunkUnit g.loc p (u / 4) == 0x40 + l || g.move.any (fun m => m.tier == 2 && s.chunkUnit m.loc p (u / 4) == 0x40 + l)))

/-- The flash units that [a, a + n) reaches: link port, page, unit. -/
def State.flashUnits (s : State) (a n : Nat) : List (Nat × Nat × Nat) :=
  if n = 0 then []
  else ((List.range ((a + n - 1) / 2 ^ 14 - a / 2 ^ 14 + 1)).map (· + a / 2 ^ 14)).filterMap (fun x =>
    (s.page (x / 128)).bind (fun g => if g.tier == 2 && !g.lost then some (s.chunkUnit g.loc g.page (x % 128 / 4) - 0x40, x / 128, x % 128) else none))

/-- The cache has room for a unit: it is there, or fewer than 8,192 units are, or a clean one can make way (R385). -/
def Tray.room (t : Tray) (p u : Nat) : Bool :=
  t.cache.any (fun c => c.page == p && c.unit == u) || decide (t.cache.length < 8192) || t.cache.any (fun c => !c.dirty)

/-- A unit is in the cache; a write makes it dirty, and then the map names no flash copy of it any more (R385, R394). The oldest clean unit
makes way. DESIGN CHOICE, unsafe: notes/assumptions/23.md. -/
def Tray.take (t : Tray) (p u : Nat) (dirty : Bool) : Tray :=
  let mine (c : CUnit) : Bool := c.page == p && c.unit == u
  if t.cache.any (fun c => mine c && (c.dirty || !dirty)) then t
  else
    let others := t.cache.filter (fun c => !mine c)
    let kept := if others.length < 8192 then others else others.eraseP (fun c => !c.dirty)
    let v : Tray := { t with cache := kept ++ [{ page := p, unit := u, dirty := dirty }] }
    if dirty then v.unmapUnit p u else v

/-- A write reaches a flash unit: the cache takes it, or it waits for room (R385). -/
def State.cacheTake (s : State) (k : Nat × Nat × Nat) : State :=
  s.onTray k.1 (fun t =>
    let c : CUnit := { page := k.2.1, unit := k.2.2, dirty := true }
    if t.room k.2.1 k.2.2 then s.setTray (t.take k.2.1 k.2.2 true)
    else if t.waits.contains c then s else s.setTray { t with waits := t.waits ++ [c] })

/-- A unit of [a, a + n) for which its tray's cache has no room. -/
def State.cacheFull (s : State) (a n : Nat) : Option (Nat × Nat × Nat) :=
  (s.flashUnits a n).find? (fun k => s.trayWorks k.1 && (s.tray k.1).any (fun t => !t.room k.2.1 k.2.2))

/-- A host write that finds the cache full waits (R385). -/
def State.cacheHold (s : State) (i : Instr) (a n : Nat) (f : State → State) : State :=
  match s.cacheFull a n with
  | some k => { s with flash := { s.flash with held := s.flash.held ++ [(k.1, k.2.1, k.2.2, i)] } }
  | none => f s

/-- A write for context x waits for room in a cache: what completes it waits too (R385). -/
def State.cacheBusy (s : State) (x : Nat) : Bool :=
  s.flash.trays.any (fun t => t.waits.any (fun c => (s.page c.page).any (fun g => entryCtx g.entry == x || entryDomain g.entry != 0)))

/-- WRITE_CACHE_FILL: a unit is read into the cache while that has room, and the accesses that waited for it proceed (R385). -/
def State.cacheFill (s : State) (l p u : Nat) : State :=
  s.onTray l (fun t =>
    let mine (c : CUnit) : Bool := c.page == p && c.unit == u
    let key (h : Nat × Nat × Nat × Instr) : Bool := h.1 == l && h.2.1 == p && h.2.2.1 == u
    if s.unitHere l p u && !t.room p u then s
    else
      let v : Tray := { t with waits := t.waits.filter (fun c => !mine c) }
      let s1 := s.setTray (if s.unitHere l p u && s.trayWorks l then v.take p u (t.waits.any mine) else v)
      { s1 with
        flash := { s1.flash with held := s1.flash.held.filter (fun h => !key h) }
        pending := (s.flash.held.filter key).map (·.2.2.2) ++ s1.pending })

def execWriteCacheFill (link page unit : Nat) (s : State) : Host.Outcome State Fault Refusal := .next (s.cacheFill link page unit)

-- writes ------------------------------------------------------------------------------------------------------------------

/-- A write of n bytes at `a` is let in: a lost page takes no write (R355); pages on read-only trays are redirected first, and a page that
cannot be makes the write fail (R356); units on flash trays are taken into the write cache (R385). -/
def State.takeWrite (s : State) (a n : Nat) : State × Status :=
  let lost := (pagesOf a n).foldl (fun st p => st.worst (s.lostCheck p)) Status.ok
  let r := (pagesOf a n).foldl (fun q p => if q.2 == Status.ok then q.1.redirect p else q) (s, lost)
  if r.2 == Status.ok then (r.1.each (r.1.flashUnits a n) (fun k u => u.cacheTake k), .ok) else r

/-- Lines of [a, a + n) that lie on an expander leave on its host port as ciphertext (R35, R449, R493). -/
def State.expWrite (s : State) (a n : Nat) : State :=
  s.each (pagesOf a n) (fun p t => match t.page p with
    | some g =>
      let lo := max (a / 64 * 64) (p * 2 ^ 21)
      let hi := min (cdiv (a + n) 64 * 64) ((p + 1) * 2 ^ 21)
      t.when (g.tier == 3) (·.emit (.expander (g.unit - 0x80) lo (t.cipher lo (t.bytes lo (hi - lo)))))
    | none => t)

/-- A write of memory from `a` on; one to a mirror region is mirrored (R541). -/
def State.saveMem (s : State) (a : Nat) (d : List Byte) : State × Status :=
  let r := s.takeWrite a d.length
  if r.2 == Status.ok then (((r.1.store a d).expWrite a d.length).mirrorWrite a d.length (.mirror 0), .ok) else r

/-- A whole line is written back to memory (R415, R423): one that its page cannot take writes nothing (R355, R356).
DEDUCED, unsafe in part: notes/assumptions/35.md. -/
def State.memLine (s : State) (l : Nat) (d : List Byte) : State :=
  let r := s.takeWrite (64 * l) 64
  if r.2 == Status.ok then
    let t : State := { r.1 with mem := putBytes r.1.mem (64 * l) d, poison := r.1.poison.filter (· != l) }
    (t.expWrite (64 * l) 64).mirrorWrite (64 * l) 64 (.mirror 0)
  else r.1

/-- A write of context x: lines in the ingest range of a reduction of x go to its reduce unit, the others to memory (R220). -/
def State.save (s : State) (x a : Nat) (d : List Byte) : State × Status :=
  let w := s.steerWrite x a d true
  w.2.foldl (fun (q : State × Status) p => if q.2 == Status.ok then q.1.saveMem p.1 p.2 else q) (w.1, .ok)

end Sys2Proof.Machine
end

