-- ==== Sys2Proof/Machine/Streams.lean ====
section
/-! DEFINITION. What a change of a counter sets off: waits and notifications (R140-R147) and the release of stage copies (R358); and the
event records of queues (R149, R150), which are written to pool memory like any other data. -/

namespace Sys2Proof.Machine

-- stage copies ------------------------------------------------------------------------------------------------------------

def State.setWs (s : State) (w : WStream) : State :=
  { s with tier := { s.tier with streams := s.tier.streams.map (fun v => if v.id == w.id then w else v) } }

/-- Chunks of a stage copy taken from, or given back to, its stack. -/
def State.copyChunks (s : State) (stack pages : Nat) (take : Bool) : State :=
  { s with tier := { s.tier with units := s.tier.units.map (fun (x : UnitFree) =>
      if x.unit == stack then { x with free := if take then x.free - 32 * pages else x.free + 32 * pages } else x) } }

/-- Value of `ADV_CTR` of a stream. -/
def State.wsAdvance (s : State) (w : WStream) : Nat := (s.ctr w.ctx w.adv).elim 0 s.ctrVal

/-- The copy of layer l still stands for a position that `ADV_CTR` has not passed, or is being made (R358). -/
def State.copyLive (s : State) (w : WStream) (l : Nat) : Bool :=
  let n := max 1 w.layers.length
  let a := s.wsAdvance w
  w.staging.any (fun q => q % n == l) || (List.range (w.staged - a)).any (fun i => (a + i) % n == l)

/-- Copies of layers that `ADV_CTR` has passed for every staged position are released (R358). -/
def State.wsRelease (s : State) (w : WStream) : State :=
  let gone := w.copies.filter (fun c => !s.copyLive w c.1)
  let t := s.each gone (fun c u => u.copyChunks c.2 (w.layers.getD c.1 (0, 0)).2 false)
  (t.setWs { w with copies := w.copies.filter (fun c => s.copyLive w c.1) }).syncUse [w.ctx]

/-- The streams that counter c advances. -/
def State.streamsOf (s : State) (c : Nat) : List WStream := s.tier.streams.filter (fun w => !w.closing && s.ctr w.ctx w.adv == some c)

-- counters ----------------------------------------------------------------------------------------------------------------

/-- A counter took a new value: waits, the notification and the streams that it advances see it (R145, R358). -/
def State.ctrSet (s : State) (c v : Nat) : State :=
  let t := ((s.wr64 (counterBlock c) (v % 2 ^ 64)).recheck c).notify c
  t.each (t.streamsOf c) (fun w u => u.wsRelease w)

/-- An add to counter c (R142, R144). -/
def State.ctrAdd (s : State) (c n : Nat) : State :=
  (s.ctrSet c (s.ctrVal c + n)).when (n % 2 ^ 64 != 0) (·.stepCheck c)

/-- A failed completion on counter c (R141, R144). -/
def State.ctrFail (s : State) (c : Nat) (st : Status) : State :=
  let o := counterBlock c + 0x14
  s.wrn o (st.code + 256 * min 0xFFFFFF (s.fld o 8 24 + 1))

-- event log -----------------------------------------------------------------------------------------------------------

/-- The log slot of the next record of queue q. -/
def logSlot (s : State) (q : Nat) : Nat :=
  let b := queueBlock q
  (s.rd (b + 0x10)).toNat + 2 ^ 32 * (s.rd (b + 0x14)).toNat + 16 * ((s.rd (b + 0x2C)).toNat % 2 ^ s.fld (b + 4) 27 4)

/-- A 16 B event record of queue q, or its loss: the log is full, or the slot cannot be written (R149, R150, R356). -/
def State.evlog (s : State) (q : Nat) (st : Status) (kind entry index : Nat) : State :=
  let b := queueBlock q
  let l2 := s.fld (b + 4) 27 4
  if l2 = 0 then s
  else if ((s.rd (b + 0x2C)) - (s.rd (b + 0x30))).toNat = 2 ^ l2 then ((s.sat (b + 0x34) 1).set (b + 0x1C) 0x20)
  else
    let lo := st.code + 2 ^ 8 * kind + 2 ^ 12 * (entry % 2 ^ 17) + 2 ^ 32 * (index % 2 ^ 32)
    let w := s.save (s.ffld b 0 10) (logSlot s q) (leBytes 8 lo ++ leBytes 8 s.time.frame)
    if s.mapCheck (s.ffld b 0 10) true (logSlot s q) 16 = .ok && w.2 == .ok then w.1.wrap (b + 0x2C) 1
    else (s.sat (b + 0x34) 1).set (b + 0x1C) 0x40

end Sys2Proof.Machine
end

