-- ==== Sys2Proof/Machine/Array.lean ====
section
/-! DEFINITION. ARRAY_PROGRAM: scratch windows, decode and its checks, the timing model, and the micro-operations (R158-R193). -/

namespace Sys2Proof.Machine

-- scratch ---------------------------------------------------------------------------------------------------------------

/-- Key of window byte b of an operation on engine e: its own granules 0-63, the core's 64-575 (R79, R161). -/
def scrKey (e base b : Nat) : Nat :=
  let g := base + b / 4096
  if g < 64 then e * 2 ^ 22 + g * 4096 + b % 4096 else (256 + e / 4) * 2 ^ 22 + (g - 64) * 4096 + b % 4096

/-- Where an operation's window lies: engine, first granule. -/
structure Win where
  engine : Nat
  base : Nat
  deriving DecidableEq, Repr

def Op.win (o : Op) : Win := { engine := o.engine.getD 0, base := o.scr }

def Win.key (w : Win) (b : Nat) : Nat := scrKey w.engine w.base b

/-- Bytes of a window. -/
def State.scrBytes (s : State) (w : Win) (b n : Nat) : List Byte := (List.range n).map (fun i => sget (fun _ => 0) s.scr (w.key (b + i)))

/-- Bytes of `n` lines from a line of the window, as one little-endian number. -/
def State.scrNat (s : State) (w : Win) (line bytes : Nat) : Nat := leNat (s.scrBytes w (64 * line) bytes)

/-- Write bytes into the window; lines written whole are poisoned no longer (R165). -/
def State.scrPut (s : State) (w : Win) (b : Nat) (d : List Byte) : State :=
  let m := ((List.range d.length).zip d).foldl (fun m p => sset (fun _ => (0 : Byte)) m (w.key (b + p.1)) p.2) s.scr
  let whole := (List.range (d.length / 64)).map (fun i => w.key (b + 64 * i) / 64)
  { s with scr := m }.setPoison w.engine (if b % 64 = 0 then s.scrPoison.filter (fun l => !whole.contains l) else s.scrPoison)

/-- Lines written as one little-endian number of `n` lines. -/
def State.scrPutNat (s : State) (w : Win) (line lines v : Nat) : State := s.scrPut w (64 * line) (leBytes (64 * lines) v)

/-- Some of `n` lines from `line` is poisoned. -/
def State.scrBad (s : State) (w : Win) (line n : Nat) : Bool :=
  (List.range n).any (fun i => s.scrPoison.contains (w.key (64 * (line + i)) / 64))

/-- Lines of the window turn out uncorrectable (R165): they are poisoned, `SCR_UE` is set and `ENG_SCR_POISON` follows. -/
def State.scrUe (s : State) (w : Win) (bad : List Nat) : State :=
  if bad.isEmpty then s
  else
    let ks := (bad.map (fun l => w.key (64 * l) / 64)).filter (fun k => !s.scrPoison.contains k)
    (s.setPoison w.engine (s.scrPoison ++ ks)).set (engineBlock w.engine + 0x18) 0x2

/-- Corrected scratch errors (R165, R197). -/
def State.scrCe (s : State) (e n : Nat) : State :=
  s.when (n != 0) (fun t => (t.sat (engineBlock e + 0x1C) n).set (engineBlock e + 0x18) 0x1)

/-- What the storage of a window shows in a step (R165). -/
def State.scrIn (s : State) (w : Win) (x : ScrIn) : State := (s.scrUe w x.bad).scrCe w.engine x.ce

-- instructions ----------------------------------------------------------------------------------------------------------

/-- Fields of ARRAY_PROGRAM's body (R178). -/
def apProg (d : BitVec 512) : Nat := dAddr d 16
def apArg (d : BitVec 512) (k : Nat) : Nat := dAddr d (24 + 8 * k)
def apCount (d : BitVec 512) : Nat := db d 56 2
def apGran (d : BitVec 512) : Nat := db d 58 2
def apCost (d : BitVec 512) : Nat := db d 60 4

/-- `UOP` (R181). -/
def uop (i : Nat) : Nat := nbits i 0 8

/-- LD and ST fields (R182). -/
def ldTier (i : Nat) : Nat := nbits i 10 2
def ldScr (i : Nat) : Nat := nbits i 16 16
def ldOffset (i : Nat) : Nat := nbits i 32 32
def ldRows (i : Nat) : Nat := nbits i 64 16
def ldUnits (i : Nat) : Nat := nbits i 80 16
def ldStride (i : Nat) : Nat := nbits i 96 32
def ldBase (d : BitVec 512) (i : Nat) : Nat := apArg d (nbits i 8 2) + ldOffset i

/-- An LD, ST or VOP that does nothing (R188). DEDUCED, unsafe: notes/assumptions/24.md. -/
def uopEmpty (i : Nat) : Bool :=
  match uop i with
  | 0x01 => ldRows i == 0 || ldUnits i == 0
  | 0x02 => ldRows i == 0 || ldUnits i == 0
  | 0x20 => nbits i 80 16 == 0
  | _ => false

/-- MMA fields (R184). -/
def mmaK (i : Nat) : Nat := 32 * (nbits i 18 5 + 1)
def mmaA (i : Nat) : Nat := nbits i 8 4
def mmaB (i : Nat) : Nat := nbits i 12 4

/-- Row of the pairing table (R177): 0 FP32, 1 16-bit, 2 FP8, 3 MX8, 4 INT8, 5 MX4, 6 INT4; 7 for none. -/
def pairRow (f : Nat) : Nat :=
  match f with
  | 0x0 => 0
  | 0x1 => 1
  | 0x2 => 1
  | 0x3 => 2
  | 0x4 => 2
  | 0x5 => 3
  | 0x6 => 3
  | 0x7 => 3
  | 0x8 => 3
  | 0x9 => 5
  | 0xA => 4
  | 0xB => 6
  | _ => 7

/-- Group size G of a row (R177). -/
def rowGroup (r : Nat) : Nat :=
  match r with
  | 0 => 1
  | 1 => 4
  | 5 => 16
  | 6 => 16
  | _ => 8

/-- Scratch lines: first, count. -/
abbrev Span := Nat × Nat

/-- Lines an instruction reads (R190). -/
def readSpans (i : Nat) : List Span :=
  if uopEmpty i then []
  else match uop i with
    | 0x02 => [(ldScr i, ldRows i * ldUnits i)]
    | 0x10 =>
      let k := mmaK i
      [(nbits i 32 16, 32 * rowLines (k * fmtBits (mmaA i))), (nbits i 48 16, 32 * rowLines (k * fmtBits (mmaB i)))]
        ++ (if fmtIsMx (mmaA i) then [(nbits i 64 16, 32)] else []) ++ (if fmtIsMx (mmaB i) then [(nbits i 80 16, 32)] else [])
    | 0x11 => [(nbits i 32 16, 64)]
    | 0x20 =>
      let n := rowLines (32 * nbits i 80 16 * fmtBits (nbits i 12 4))
      (nbits i 32 16, n) :: (if nbits i 8 4 ≤ 5 then [(nbits i 48 16, n)] else [])
    | 0x21 => [(nbits i 32 16, 32 * rowLines (32 * 2 ^ (3 + nbits i 8 2)))]
    | _ => []

/-- Lines an instruction writes. -/
def writeSpans (i : Nat) : List Span :=
  if uopEmpty i then []
  else match uop i with
    | 0x01 => [(ldScr i, ldRows i * ldUnits i)]
    | 0x12 =>
      (nbits i 32 16, 32 * rowLines (32 * fmtBits (nbits i 8 4))) :: (if fmtIsMx (nbits i 8 4) then [(nbits i 48 16, 32)] else [])
    | 0x20 => [(nbits i 64 16, rowLines (32 * nbits i 80 16 * fmtBits (nbits i 16 4)))]
    | 0x21 => [(nbits i 48 16, 32 * rowLines (32 * 2 ^ (3 + nbits i 8 2)))]
    | _ => []

/-- Pool bytes of an LD or ST: first byte, bytes (R182). -/
def poolSpan (d : BitVec 512) (i : Nat) : List Span :=
  if uopEmpty i then [] else [(ldBase d i, (ldRows i - 1) * ldStride i + 64 * ldUnits i)]

def poolReads (d : BitVec 512) (i : Nat) : List Span := if uop i == 0x01 then poolSpan d i else []
def poolWrites (d : BitVec 512) (i : Nat) : List Span := if uop i == 0x02 then poolSpan d i else []

/-- The tile an instruction names, and whether it reads or writes it (R190). -/
def accOf (i : Nat) : Nat := nbits i 16 1
def accReads (i : Nat) : Bool := (uop i == 0x10 && nbits i 17 1 == 0) || uop i == 0x12
def accWrites (i : Nat) : Bool := uop i == 0x10 || uop i == 0x11

def spansMeet (a b : List Span) : Bool := a.any (fun p => b.any (fun q => overlaps p.1 p.2 q.1 q.2))

/-- Formats of VOP (R186). -/
def vopFmt (f : Nat) : Bool := f ≤ 4 || f == 0xA || f == 0xC

/-- Reserved micro-operations, formats, `OP` or `ESIZE`; pairing; overlap; stride; alignment; window (R179, R584).
DEDUCED, unsafe: notes/assumptions/24.md. -/
def uopBad (gran i : Nat) : Bool :=
  let shape :=
    match uop i with
    | 0x01 => 2 ≤ ldTier i || ldOffset i % 64 != 0 || ldStride i % 64 != 0 || (1 < ldRows i && ldStride i < 64 * ldUnits i)
    | 0x02 => 2 ≤ ldTier i || ldOffset i % 64 != 0 || ldStride i % 64 != 0 || (1 < ldRows i && ldStride i < 64 * ldUnits i)
    | 0x10 => pairRow (mmaA i) == 7 || pairRow (mmaA i) != pairRow (mmaB i)
    | 0x11 => !(nbits i 8 4 == 0 || nbits i 8 4 == 0xC)
    | 0x12 => 0xC < nbits i 8 4
    | 0x20 =>
      8 < nbits i 8 4 || !vopFmt (nbits i 12 4) || !vopFmt (nbits i 16 4)
        || (readSpans i).any (fun r => (writeSpans i).any (fun w => r.1 != w.1 && overlaps r.1 r.2 w.1 w.2))
    | 0x21 => nbits i 8 2 == 3 || spansMeet (readSpans i) (writeSpans i)
    | _ => true
  shape || (readSpans i ++ writeSpans i).any (fun p => 64 * gran < p.1 + p.2)

/-- Class of a tile after the instructions of a list: none, float (false), integer (true). -/
def tileClass (l : List Nat) (acc : Nat) : Option Bool :=
  l.foldl (fun c i =>
    if accWrites i && accOf i == acc then
      some (if uop i == 0x10 then fmtIsInt (mmaA i) else nbits i 8 4 == 0xC)
    else c) none

/-- An accumulator is read unwritten, or in the other class, or written out in a format its class does not allow (R179, R185). -/
def accBad (before : List Nat) (i : Nat) : Bool :=
  accReads i &&
    (match tileClass before (accOf i) with
      | none => true
      | some int =>
        if uop i == 0x10 then int != fmtIsInt (mmaA i)
        else if int then !(fmtIsInt (nbits i 8 4) || nbits i 8 4 == 0) else fmtIsInt (nbits i 8 4))

/-- Lines of a list of spans. -/
def spanLines (l : List Span) : List Nat := l.flatMap (fun p => (List.range p.2).map (· + p.1))

/-- Instruction i reads a line before the first instruction that writes it (R180). -/
def readsFirst (before : List Nat) (i : Nat) (after : List Nat) : Bool :=
  (spanLines (readSpans i)).any (fun l =>
    let hit (j : Nat) := (writeSpans j).any (fun w => w.1 ≤ l && l < w.1 + w.2)
    !before.any hit && (hit i || after.any hit))

/-- The program writes pool bytes that some LD of it reads (R180). -/
def stMeetsLd (d : BitVec 512) (l : List Nat) (i : Nat) : Bool := l.any (fun j => spansMeet (poolWrites d i) (poolReads d j))

-- timing ----------------------------------------------------------------------------------------------------------------

/-- Pipe of an instruction: 0 LD, 1 ST, 2 MX, 3 VX. -/
def pipe (i : Nat) : Nat :=
  match uop i with
  | 0x01 => 0
  | 0x02 => 1
  | 0x20 => 3
  | 0x21 => 3
  | _ => 2

/-- Access kind and units of an LD or ST (R183): kind 0 streaming, 1 random, 2 tray. -/
def accessOf (i : Nat) : Nat × Nat :=
  let b := 64 * ldRows i * ldUnits i
  let contig := ldRows i == 1 || ldStride i == 64 * ldUnits i
  if ldTier i = 1 then (2, if contig then cdiv b 256 else ldRows i * cdiv (ldUnits i) 4)
  else if contig && 2048 ≤ b then (0, cdiv b 256)
  else if !contig && 2048 ≤ 64 * ldUnits i then (0, ldRows i * cdiv (ldUnits i) 4)
  else (1, ldRows i * ldUnits i)

/-- Occupancy and latency (R189). -/
def occLat (i : Nat) : Nat × Nat :=
  match uop i with
  | 0x01 =>
    let a := accessOf i
    if a.1 = 1 then (a.2, 252 + a.2) else (2 * a.2, (if a.1 = 2 then 2160 else 216) + 2 * a.2)
  | 0x02 =>
    let a := accessOf i
    if a.1 = 1 then (a.2, 180 + a.2) else (2 * a.2, (if a.1 = 2 then 1440 else 144) + 2 * a.2)
  | 0x10 =>
    let k := mmaK i
    let o := match pairRow (mmaA i) with
      | 0 => 4 * k
      | 1 => k
      | 5 => k / 4
      | 6 => k / 4
      | _ => k / 2
    (o, o + 24)
  | 0x11 => (32, 40)
  | 0x12 => (32, if fmtIsMx (nbits i 8 4) then 48 else 40)
  | 0x20 => (nbits i 80 16, nbits i 80 16 + 8)
  | 0x21 => (32, 40)
  | _ => (0, 0)

/-- Instruction j conflicts with a later instruction i (R190). -/
def conflicts (d : BitVec 512) (j i : Nat) : Bool :=
  let acc := accOf j == accOf i && ((accWrites j && (accReads i || accWrites i)) || (accReads j && accWrites i))
  acc || spansMeet (writeSpans j) (readSpans i ++ writeSpans i) || spansMeet (readSpans j) (writeSpans i)
    || spansMeet (poolWrites d j) (poolReads d i ++ poolWrites d i) || spansMeet (poolReads d j) (poolWrites d i)

/-- An instruction placed in time: itself, start, end of its occupancy, completion. -/
structure Placed where
  i : Nat
  start : Nat
  free : Nat
  done : Nat
  deriving DecidableEq, Repr

/-- The MMA chain of R190: the nearest earlier MX instruction is an MMA on the same tile. -/
def chainOf (l : List Placed) (i : Nat) : Option Placed :=
  if uop i != 0x10 then none
  else match l.find? (fun p => pipe p.i == 2) with
    | some p => if uop p.i == 0x10 && accOf p.i == accOf i then some p else none
    | none => none

/-- Place one instruction after those of `l` (latest first), ready no earlier than `floor` (R191). An empty one touches no resource and takes no
time, and has its place in issue order (R188). -/
def placeAfter (d : BitVec 512) (floor : Nat) (l : List Placed) (i : Nat) : List Placed :=
  let ch := chainOf l i
  let ready := if uopEmpty i then 0 else
    l.foldl (fun a p => if !uopEmpty p.i && conflicts d p.i i then max a (if ch == some p then p.free else p.done) else a) floor
  let free := l.foldl (fun a p => if pipe p.i == pipe i then max a p.free else a) 0
  let prev := (l.head?).elim 0 (·.start)
  let st := max prev (max free ready)
  let ol := if uopEmpty i then (0, 0) else occLat i
  { i := i, start := st, free := st + ol.1, done := st + ol.2 } :: l

/-- DEDUCED, unsafe: notes/assumptions/24.md. -/
def placeInstr (d : BitVec 512) (l : List Placed) (i : Nat) : List Placed := placeAfter d 0 l i

/-- T_end of a program (R191). -/
def tEnd (d : BitVec 512) (prog : List Nat) : Nat := (prog.foldl (placeInstr d) []).foldl (fun a p => max a p.done) 0

/-- Unit cost of an ARRAY_PROGRAM (R191, R586): it follows from `INSTR_COUNT` and `PROG_COST`. -/
def apUnitCost (d : BitVec 512) : Nat := if apCount d = 0 then 0 else 216 + 2 * cdiv (apCount d) 16 + apCost d

-- decode ----------------------------------------------------------------------------------------------------------------

/-- Checks of the descriptor's own fields (R151, R179). `limit`: the entry's granules of a scheduled run (R162). `PROG_COST` is not checked
when `INSTR_COUNT` is 0: DESIGN CHOICE, unsafe: notes/assumptions/76.md. -/
def State.apCheck (s : State) (x : Nat) (d : BitVec 512) (limit : Nat) : Status :=
  Status.all [(4096 < apCount d || 576 < apGran d || limit < apGran d || apProg d % 64 != 0, .permission),
    (apCount d == 0, .zeroLenNoop)]
  |>.worst (if apCount d = 0 then .ok else s.mapCheck x false (apProg d) (16 * apCount d))

/-- The program, instruction by instruction. -/
def State.apFetch (s : State) (d : BitVec 512) : List Nat :=
  (List.range (apCount d)).map (fun k => leNat (s.bytes (apProg d + 16 * k) 16))

/-- Code of one instruction at decode, in its program (R179). `pre`: what counts as written before the program starts.
DEDUCED, unsafe: notes/assumptions/24.md. -/
def State.instrCheck (s : State) (x : Nat) (d : BitVec 512) (gran : Nat) (pre prog : List Nat) (k : Nat) : Status :=
  let i := prog.getD k 0
  let before := pre ++ prog.take k
  if uopBad gran i || accBad before i || readsFirst before i (prog.drop (k + 1)) || stMeetsLd d prog i then .permission
  else
    let rd := (poolReads d i).foldl (fun a p => a.worst (s.mapCheck x false p.1 p.2)) Status.ok
    (poolWrites d i).foldl (fun a p => a.worst (s.mapCheck x true p.1 p.2)) rd

/-- The whole decode: code, and the first failing instruction (R179, R586). -/
def State.apDecode (s : State) (x : Nat) (d : BitVec 512) (gran : Nat) (prog : List Nat) : Status × Nat :=
  let l := (List.range prog.length).map (s.instrCheck x d gran [] prog)
  let st := l.foldl Status.worst Status.ok
  -- the timing model is checked on a program whose instructions all have a meaning
  let st2 := if prog.any (uopBad gran) then st else if tEnd d prog = apCost d then st else st.worst .permission
  (st2, (l.findIdx? (fun c => c != .ok)).getD 0)

-- execution ---------------------------------------------------------------------------------------------------------------

/-- Row r of a matrix of K elements at a line: the values, with the row's scales for an MX format (R168, R173). -/
def State.rowVals (s : State) (w : Win) (line scales fmt k r : Nat) : List Val :=
  let p := rowLines (k * fmtBits fmt)
  let row := s.scrNat w (line + r * p) (64 * p)
  let sc := if fmtIsMx fmt then s.scrNat w (scales + r) 64 else 0
  (List.range k).map (fun j =>
    let c := elemAt row (fmtBits fmt) j
    if fmtIsMx fmt then mxVal fmt c (nbits sc (8 * (j / 32)) 8) else elemVal fmt c)

/-- One group: the accumulator plus the exact products, rounded once to FP32 (R174, R175). -/
def groupStep (acc : Word) (ps : List (Val × Val)) : Word :=
  BitVec.ofNat 32 (fp32.conv (ps.foldl (fun v p => v.add (p.1.mul p.2)) (fp32.decode acc.toNat)) 1 false false)

/-- Groups of g products in ascending order. -/
def groups (g : Nat) (acc : Word) : Nat → List (Val × Val) → Word
  | 0, _ => acc
  | n + 1, ps => groups g (groupStep acc (ps.take g)) n (ps.drop g)

/-- Row r of integers. -/
def State.rowInts (s : State) (w : Win) (line fmt k r : Nat) : List Int :=
  let p := rowLines (k * fmtBits fmt)
  let row := s.scrNat w (line + r * p) (64 * p)
  (List.range k).map (fun j => intVal (fmtBits fmt) (elemAt row (fmtBits fmt) j))

/-- The tile after an MMA (R173-R176). -/
def State.mmaTile (s : State) (w : Win) (i : Nat) (old : Option Tile) : Tile :=
  let fa := mmaA i
  let fb := mmaB i
  let k := mmaK i
  let int := fmtIsInt fa
  let cells : List Word := if nbits i 17 1 == 1 then [] else (old.elim [] (·.cells))
  if int then
    let as := (List.range 32).map (s.rowInts w (nbits i 32 16) fa k)
    let bs := (List.range 32).map (s.rowInts w (nbits i 48 16) fb k)
    { int := true
      cells := (List.range 1024).map (fun c =>
        let dot := ((as.getD (c / 32) []).zip (bs.getD (c % 32) [])).foldl (fun t p => t + p.1 * p.2) (0 : Int)
        cells.getD c 0 + BitVec.ofInt 32 dot) }
  else
    let as := (List.range 32).map (s.rowVals w (nbits i 32 16) (nbits i 64 16) fa k)
    let bs := (List.range 32).map (s.rowVals w (nbits i 48 16) (nbits i 80 16) fb k)
    let g := rowGroup (pairRow fa)
    { int := false
      cells := (List.range 1024).map (fun c =>
        groups g (cells.getD c 0) (k / g) ((as.getD (c / 32) []).zip (bs.getD (c % 32) []))) }

/-- The tile that an operation holds. -/
def Op.tile (o : Op) (a : Nat) : Option Tile := if a = 0 then o.run.acc0 else o.run.acc1
def Op.setTile (o : Op) (a : Nat) (t : Tile) : Op :=
  if a = 0 then { o with run := { o.run with acc0 := some t } } else { o with run := { o.run with acc1 := some t } }

/-- Value of an accumulator element. -/
def Tile.val (t : Tile) (c : Nat) : Val :=
  let w := t.cells.getD c 0
  if t.int then Val.ofInt w.toInt else fp32.decode w.toNat

/-- ACC_OUT (R185): acc * `SCALE` converted once; an integer tile written as an integer takes no scale. Row by row, the elements before the
scale of an MX row: DESIGN CHOICE, unsafe: notes/assumptions/76.md. -/
def State.accOutTo (s : State) (w : Win) (i : Nat) (t : Tile) : State :=
  let fmt := nbits i 8 4
  let rz := nbits i 17 1 == 1
  let sat := nbits i 18 1 == 1
  let scale := fp32.decode (nbits i 64 32)
  let v (c : Nat) : Val := if fmtIsInt fmt then t.val c else (t.val c).mul scale
  let p := rowLines (32 * fmtBits fmt)
  (List.range 32).foldl (fun u r =>
    let vs := (List.range 32).map (fun j => v (32 * r + j))
    if fmtIsMx fmt then
      let m := mxConv fmt vs rz
      (u.scrPutNat w (nbits i 32 16 + r * p) p (pack (fmtBits fmt) m.2)).scrPutNat w (nbits i 48 16 + r) 1 m.1
    else u.scrPutNat w (nbits i 32 16 + r * p) p (pack (fmtBits fmt) (vs.map (fun x => convTo fmt x 1 rz sat)))) s

/-- One element of VOP (R186), exact; a zero is negative where IEEE 754 has it so. DESIGN CHOICE, unsafe: notes/assumptions/76.md. -/
def vopVal (op : Nat) (x y sc : Val) : Val :=
  match op with
  | 0 => x.add y
  | 1 => x.add y.neg
  | 2 => x.mul y
  | 3 => x.max y
  | 4 => x.min y
  | 5 => (x.mul sc).add y
  | 6 => x.mul sc
  | 7 => x
  | _ => x.max (.fin false 0 0)

/-- VOP. -/
def State.vopRun (s : State) (w : Win) (i : Nat) : State :=
  let fi := nbits i 12 4
  let fo := nbits i 16 4
  let n := 32 * nbits i 80 16
  let pi := rowLines (n * fmtBits fi)
  let po := rowLines (n * fmtBits fo)
  let xs := s.scrNat w (nbits i 32 16) (64 * pi)
  let ys := s.scrNat w (nbits i 48 16) (64 * pi)
  let sc := fp32.decode (nbits i 96 32)
  let r := (List.range n).map (fun k =>
    convTo fo (vopVal (nbits i 8 4) (elemVal fi (elemAt xs (fmtBits fi) k)) (elemVal fi (elemAt ys (fmtBits fi) k)) sc) 1
      (nbits i 20 1 == 1) (nbits i 21 1 == 1))
  s.scrPutNat w (nbits i 64 16) po (pack (fmtBits fo) r)

/-- TRANSPOSE (R187). -/
def State.transposeRun (s : State) (w : Win) (i : Nat) : State :=
  let eb := 2 ^ (3 + nbits i 8 2)
  let p := rowLines (32 * eb)
  let rows := (List.range 32).map (fun r => s.scrNat w (nbits i 32 16 + r * p) (64 * p))
  (List.range 32).foldl (fun u c =>
    u.scrPutNat w (nbits i 48 16 + c * p) p (pack eb (rows.map (fun row => elemAt row eb c)))) s

/-- LD (R182): rows from pool memory to consecutive scratch lines. -/
def State.ldRun (s : State) (w : Win) (d : BitVec 512) (i : Nat) : State :=
  (List.range (ldRows i)).foldl (fun u r =>
    (u.mark (ldBase d i + r * ldStride i) (64 * ldUnits i)).scrPut w (64 * (ldScr i + r * ldUnits i))
      (s.bytes (ldBase d i + r * ldStride i) (64 * ldUnits i))) s

/-- An LD meets an uncorrectable line or a lost page. -/
def State.ldRead (s : State) (d : BitVec 512) (i : Nat) (ue : List Nat) : Status :=
  (List.range (ldRows i)).foldl (fun a r => a.worst (s.readCheck ue (ldBase d i + r * ldStride i) (64 * ldUnits i))) Status.ok

/-- Where the program's current instruction met pool memory that it could not read or write; 0 for an error in scratch. -/
def State.faultAt (s : State) (o : Op) (ue : List Nat) : Nat :=
  match o.run.prog[o.run.pc]? with
  | none => 0
  | some b =>
    let i := b.toNat
    if uop i = 1 then
      (((List.range (ldRows i)).find? (fun r => s.readCheck ue (ldBase o.desc i + r * ldStride i) (64 * ldUnits i) != .ok)).map
        (fun r => s.badAt ue (ldBase o.desc i + r * ldStride i) (64 * ldUnits i))).getD 0
    else if uop i = 2 then ldBase o.desc i else 0

/-- ST (R182): consecutive scratch lines to rows of pool memory; it stops at a write that fails (R356). -/
def State.stRun (s : State) (x : Nat) (w : Win) (d : BitVec 512) (i : Nat) : State × Status :=
  (List.range (ldRows i)).foldl (fun q r =>
    if q.2 != Status.ok then q
    else q.1.save x (ldBase d i + r * ldStride i) (s.scrBytes w (64 * (ldScr i + r * ldUnits i)) (64 * ldUnits i))) (s, Status.ok)

/-- One instruction retires: `ENG_PROGRESS` rises (R195). -/
def State.retire (s : State) (o : Op) : State :=
  match o.engine with
  | some e => (s.wrap (engineBlock e + 8) 1).progress (.engine e)
  | none => s

/-- Run one instruction: the state, the operation's accumulators, and the code (R182-R188, R193). -/
def State.instrRun (s : State) (o : Op) (i : Nat) (ue : List Nat) : State × Op × Status :=
  let w := o.win
  if uopEmpty i then (s.retire o, o, .ok)
  else if (readSpans i).any (fun p => s.scrBad w p.1 p.2) then (s, o, .mediaUncorrectable)
  else match uop i with
    | 0x01 =>
      let st := s.ldRead o.desc i ue
      if st != .ok then (s, o, st) else ((s.ldRun w o.desc i).retire o, o, .ok)
    | 0x02 =>
      let r := s.stRun o.ctx w o.desc i
      if r.2 != .ok then (r.1, o, r.2) else (r.1.retire o, o, .ok)
    | 0x10 => (s.retire o, o.setTile (accOf i) (s.mmaTile w i (o.tile (accOf i))), .ok)
    | 0x11 =>
      let n := s.scrNat w (nbits i 32 16) 4096
      let t : Tile := { int := nbits i 8 4 == 0xC, cells := (List.range 1024).map (fun c => BitVec.ofNat 32 (nbits n (32 * c) 32)) }
      (s.retire o, o.setTile (accOf i) t, .ok)
    | 0x12 => ((s.accOutTo w i ((o.tile (accOf i)).getD { int := false, cells := [] })).retire o, o, .ok)
    | 0x20 => ((s.vopRun w i).retire o, o, .ok)
    | _ => ((s.transposeRun w i).retire o, o, .ok)

/-- Run instructions from the program counter on, at most `fuel`. -/
def State.progRun (s : State) (o : Op) (ue : List Nat) : Nat → State × Op × Status
  | 0 => (s, o, .ok)
  | n + 1 =>
    match o.run.prog[o.run.pc]? with
    | none => (s, o, .ok)
    | some i =>
      let r := s.instrRun o i.toNat ue
      if r.2.2 != .ok then r
      else r.1.progRun { r.2.1 with run := { r.2.1.run with pc := o.run.pc + 1 } } ue n

/-- The program ended with a code: OK after its last instruction, or a failure at the current one (R193). -/
def State.progEnd (r : State × Op × Status) (ue : List Nat) : State :=
  let o := r.2.1
  if r.2.2 != .ok then r.1.finish { o with failIndex := o.run.pc } r.2.2 (r.1.faultAt o ue)
  else if o.run.prog.length ≤ o.run.pc then r.1.done o .ok
  else r.1.setOp o

/-- ARRAY_PROGRAM: fetch, decode, and the whole program; with `stepwise` only the decode (R179, R193). -/
def State.apRun (s : State) (o : Op) (stepwise : Bool) (ue : List Nat) : State :=
  let st0 := s.apCheck o.ctx o.desc (if o.dynamic then 576 else o.gran)
  if st0 != .ok then s.done { o with decodeFail := st0 != .zeroLenNoop } st0
  else
    let t := s.mark (apProg o.desc) (16 * apCount o.desc)
    let rd := s.readCheck ue (apProg o.desc) (16 * apCount o.desc)
    if rd != .ok then t.finish { o with decodeFail := true } rd (s.badAt ue (apProg o.desc) (16 * apCount o.desc))
    else
      let prog := s.apFetch o.desc
      let dc := s.apDecode o.ctx o.desc (apGran o.desc) prog
      if dc.1 != .ok then t.done { o with decodeFail := true, failIndex := dc.2 } dc.1
      else
        let o1 := { o with phase := .stepping, run := { o.run with prog := prog.map (BitVec.ofNat 128), pc := 0, acc0 := none, acc1 := none } }
        if stepwise then t.setOp o1 else State.progEnd (t.progRun o1 ue prog.length) ue

def execArrayProgram (op : Nat) (stepwise : Bool) (ue : List Nat) (scr : ScrIn) (s : State) : Host.Outcome State Fault Refusal :=
  .next (s.onOp op (· == 0x10) (fun t o => (t.scrIn o.win scr).apRun o stepwise ue))

/-- The next instruction of a program that runs one by one, when it is one of this kind. -/
def State.onInstr (s : State) (id code : Nat) (ue : List Nat) (scr : ScrIn) : State :=
  match s.op id with
  | some o =>
    if o.phase == .stepping && !s.opHalted o then
      match o.run.prog[o.run.pc]? with
      | some i =>
        if uop i.toNat == code then s.coherent (.op id) (fun t => (State.progEnd ((t.scrIn o.win scr).progRun o ue 1) ue).stepped o) else s
      | none => s
    else s
  | none => s

/-- LD: pool memory to scratch. -/
def execLd (op : Nat) (ue : List Nat) (scr : ScrIn) (s : State) : Host.Outcome State Fault Refusal := .next (s.onInstr op 0x01 ue scr)

/-- ST: scratch to pool memory. -/
def execSt (op : Nat) (scr : ScrIn) (s : State) : Host.Outcome State Fault Refusal := .next (s.onInstr op 0x02 [] scr)

/-- MMA: C ← C + A × B. -/
def execMma (op : Nat) (scr : ScrIn) (s : State) : Host.Outcome State Fault Refusal := .next (s.onInstr op 0x10 [] scr)

/-- ACC_IN: scratch to accumulator tile. -/
def execAccIn (op : Nat) (scr : ScrIn) (s : State) : Host.Outcome State Fault Refusal := .next (s.onInstr op 0x11 [] scr)

/-- ACC_OUT: accumulator tile to scratch, with conversion. -/
def execAccOut (op : Nat) (scr : ScrIn) (s : State) : Host.Outcome State Fault Refusal := .next (s.onInstr op 0x12 [] scr)

/-- VOP: an element-wise operation. -/
def execVop (op : Nat) (scr : ScrIn) (s : State) : Host.Outcome State Fault Refusal := .next (s.onInstr op 0x20 [] scr)

/-- TRANSPOSE: a 32×32 tile. -/
def execTranspose (op : Nat) (scr : ScrIn) (s : State) : Host.Outcome State Fault Refusal := .next (s.onInstr op 0x21 [] scr)

end Sys2Proof.Machine
end

