-- ==== Sys2Proof/Machine/Queues.lean ====
section
/-! DEFINITION. Queue registers written by a port: doorbells, `Q_CFG`, the ring base, the log's read index (R116-R128, R150). The tenant
window uses the same functions. -/

namespace Sys2Proof.Machine

/-- Bits of `Q_ERR` (R119). -/
def qErr (s : State) (q : Nat) (m : Word) : State := s.set (queueBlock q + 0x1C) m

/-- The doorbell range of R122, modulo 2^32. -/
def bellOk (head tail v : Word) (ring : Nat) : Bool := (tail - head) ≤ (v - head) && (v - head).toNat ≤ 2 ^ ring

/-- Doorbells that still cover a descriptor not started. -/
def liveBells (issue : Word) (tail : Word) (q : Nat) (l : List Bell) : List Bell :=
  l.filter (fun r => r.queue != q || ((BitVec.ofNat 32 r.tail - issue) ≤ (tail - issue) && BitVec.ofNat 32 r.tail != issue))

/-- A queue may start something: RUNNING with a descriptor between `Q_ISSUE` and `Q_TAIL`. -/
def qReady (s : State) (q : Nat) : Bool :=
  qState s q == 1 && (s.rd (queueBlock q + 0x20) != s.rd (queueBlock q + 0x24) || (qOps s q).any (fun o => o.phase == .restart))

/-- Work that is ready while the module is Idle wakes it (R574). -/
def qWake (s : State) (q : Nat) : State :=
  s.when (qReady s q) State.wakeIdle

/-- DOORBELL of queue q (R122). -/
def qDoorbell (s : State) (q : Nat) (v : Word) : State :=
  let b := queueBlock q
  let st := qState s q
  if st == 3 || st == 4 then s.sat (b + 0x38) 1
  else if bellOk (s.rd (b + 0x28)) (s.rd (b + 0x20)) v (s.fld (b + 4) 8 5) then
    if v == s.rd (b + 0x20) then s
    else
      let l := liveBells (s.rd (b + 0x24)) v q (s.bells ++ [{ queue := q, tail := v.toNat, time := s.now }])
      qWake ({ s with bells := l }.wr (b + 0x20) v) q
  else qErr (s.sat (b + 0x38) 1) q 0x1

/-- The die of an ingress byte (R300). -/
def ingressDie (k : Nat) : Nat := if k < 0x40 then k / 12 else if k < 0x80 then (k - 0x40) / 16 else k - 0x80

/-- Dynamic operations in flight of the queues of die d fill its slots (R154). -/
def State.dynFull (s : State) (d : Nat) : Bool := 65472 ≤ (s.ops.filter (fun o => o.queue / 4096 == d && o.dynamic)).length

/-- Transactions at home slice h. -/
def State.sliceTxns (s : State) (h : Nat) : Nat := (s.coh.txns.filter (fun t => homeSlice t.req.line == h)).length

/-- n ACLK pass: stalls are counted in SCLK cycles, three for every four of ACLK (R31, R155, R294, R420).
DEDUCED, unsafe: notes/assumptions/17.md. -/
def State.elapse (s : State) (n : Nat) : State :=
  let k := (s.now + n) * 3 / 4 - s.now * 3 / 4
  let s1 := s.each (List.range 4) (fun d t =>
    (t.when (t.dynFull d && t.stalled.any (fun q => q / 4096 == d && qReady t q)) (·.sat (dieReg d 0x108) k)).when
      (t.sw.stalled.any (fun p => p.1 == d)) (·.sat (dieReg d 0x508) k))
  s1.each (List.range 8) (fun h t => t.when (4096 ≤ t.sliceTxns h) (·.sat (dirReg h 0xC) k))

/-- The instant within the frame moves to a later cycle. -/
def State.atCycle (s : State) (c : Nat) : State :=
  let t := s.elapse (c - s.time.cycle)
  { t with time := { t.time with cycle := max t.time.cycle c } }

def execDoorbell (port q : Nat) (v : Word) (cycle : Nat) (s : State) : Host.Outcome State Fault Refusal :=
  .next (s.reg (.doorbell port q v cycle) port (queueBlock q + 0x40) (fun t => qDoorbell (t.atCycle cycle) q v))

/-- `Q_CFG` fields that are reserved or out of range (R117, R119). -/
def qCfgBad (v : Word) : Bool :=
  let r := nbits v.toNat 8 5
  let l := nbits v.toNat 27 4
  r < 6 || 16 < r || 5 < nbits v.toNat 24 3 || !(l == 0 || (4 ≤ l && l ≤ 12))

/-- Every stored field of `Q_CFG` but `ENABLE`. -/
def qCfgMask : Word := 0x7F3F1F02

/-- Ring pages of a queue about to become scheduled that are not in the stack tier yet (R128). -/
def qRingMoves (s : State) (q : Nat) (v : Word) : List Nat :=
  if v.getLsbD 1 then
    ((s.wr (queueBlock q + 4) v).ringPages q).filter (fun p => (s.page p).any (fun g =>
      g.tier != 0 && !g.move.any (fun m => m.tier == 0)))
  else []

/-- The quota of the queue's context holds the ring pages (R128, R343). -/
def qRingFits (s : State) (q : Nat) (v : Word) : Bool :=
  let x := s.ffld (queueBlock q) 0 10
  (qRingMoves s q v).isEmpty || decide (s.use x 0 + (qRingMoves s q v).length ≤ (s.frd (quotaReg x 0)).toNat)

/-- The ring pages start towards the stack tier, where it has room for them; those that find none, or no quota, move by the tier policy once
they are admitted. -/
def qRingHold (s : State) (q : Nat) (v : Word) : State :=
  let x := s.ffld (queueBlock q) 0 10
  let fits := qRingFits s q v
  (s.each (qRingMoves s q v) (fun p t => match t.page p with
    | some g => (match if fits then t.bestLoc (t.ctxSlice x) 0 p else none with
      | some l => (t.abandonMove g).startMove { g with move := none } l
      | none => t.setPage { g with repin := true })
    | none => t)).syncUse [x]

/-- A new ring base or size of a queue whose mode is scheduled: its pages are held in turn (R128). DESIGN CHOICE, unsafe: notes/assumptions/72.md. -/
def qRingFollow (s : State) (q : Nat) : State :=
  let v := s.rd (queueBlock q + 4)
  s.when (!(qRingMoves s q v).isEmpty) (qRingHold · q v)

/-- ENABLE written 1 (R121). -/
def qEnable (s : State) (q : Nat) : State :=
  if qState s q = 3 then qErr s q 0x2
  else qWake (qSetState (s.set (queueBlock q + 4) 1) q 1) q

/-- Q_CFG_WRITE of a whole word (R117-R121, R128): a write discarded for the queue's state latches `CFG_LOCKED`, one with a reserved or
out-of-range value `BAD_CFG`, and one that is both latches both. -/
def qCfg (s : State) (q : Nat) (v : Word) : State :=
  let b := queueBlock q
  let st := qState s q
  let changes := ((v ^^^ s.rd (b + 4)) &&& qCfgMask) != 0
  let locked := st == 3 || (changes && st != 0 && st != 4)
  if locked || qCfgBad v then qErr s q ((if locked then 0x2 else 0) ||| (if qCfgBad v then 0x4 else 0))
  else if changes && !qRingFits s q v then qErr s q 0x4
  else
    let s1 := if changes then (qRingHold s q v).wr (b + 4) ((v &&& qCfgMask) ||| (s.rd (b + 4) &&& 1)) else s
    if v.getLsbD 0 then qEnable s1 q else qDisable s1 q

def execQCfgWrite (port q : Nat) (v : Word) (s : State) : Host.Outcome State Fault Refusal :=
  .next (s.regS (.qCfgWrite port q v) port (queueBlock q + 4) v (fun t => qCfg t q v))

/-- QUEUE_ENABLE: a `Q_CFG` write that sets `ENABLE` and changes nothing else. -/
def execQueueEnable (port q : Nat) (s : State) : Host.Outcome State Fault Refusal :=
  .next (s.regS (.queueEnable port q) port (queueBlock q + 4) (s.rd (queueBlock q + 4) ||| 1) (fun t => qEnable t q))

/-- QUEUE_DISABLE: a `Q_CFG` write that clears `ENABLE` and changes nothing else; discarded in FENCED (R120). -/
def execQueueDisable (port q : Nat) (s : State) : Host.Outcome State Fault Refusal :=
  .next (s.regS (.queueDisable port q) port (queueBlock q + 4) (s.rd (queueBlock q + 4) &&& ~~~(1 : Word)) (fun t =>
    if qState t q = 3 then qErr t q 0x2 else qDisable t q))

/-- A write of a register that R120 locks: stored while STOPPED or ERROR. -/
def qLocked (s : State) (q : Nat) (f : State → State) : State :=
  if qState s q = 0 ∨ qState s q = 4 then f s else qErr s q 0x2

/-- The indices of a queue are zero, and nothing read from its ring counts any more (R127). -/
def qRebase (s : State) (q : Nat) : State :=
  let b := queueBlock q
  let t : State := { s with
    heads := s.heads.filter (fun h => h.queue != q)
    bells := s.bells.filter (fun r => r.queue != q)
    ops := s.ops.map (fun (o : Op) => if o.queue == q then { o with old := true } else o) }
  ((t.wr (b + 0x20) 0).wr (b + 0x24) 0).wr (b + 0x28) 0

/-- Q_RING_LO_WRITE (R120, R127). -/
def qRingLo (s : State) (port q : Nat) (v : Word) : State :=
  qLocked s q (fun t => qRingFollow (qRebase (t.plainWrite port (queueBlock q + 8) v) q) q)

def execQRingLoWrite (port q : Nat) (v : Word) (s : State) : Host.Outcome State Fault Refusal :=
  .next (s.regS (.qRingLoWrite port q v) port (queueBlock q + 8) v (fun t => qRingLo t port q v))

/-- A read index written by software moves only within [old, write index] (R150, R321, R516, R547). -/
def readIndex (s : State) (rdOff wrOff : Nat) (v : Word) : State :=
  s.when (decide ((v - s.rd rdOff) ≤ (s.rd wrOff - s.rd rdOff))) (·.wr rdOff v)

/-- Q_LOG_RD_WRITE (R150). -/
def qLogRd (s : State) (q : Nat) (v : Word) : State := readIndex s (queueBlock q + 0x30) (queueBlock q + 0x2C) v

def execQLogRdWrite (port q : Nat) (v : Word) (s : State) : Host.Outcome State Fault Refusal :=
  .next (s.reg (.qLogRdWrite port q v) port (queueBlock q + 0x30) (fun t => qLogRd t q v))

end Sys2Proof.Machine
end

