-- ==== Sys2Proof/Machine/Generic.lean ====
section
/-! DEFINITION. The generic operations NOP, COPY, FILL and COUNTER_OP (R138, R139, R151, R585). Each has a check of its own fields,
decided before any data moves (R18), and the work itself. -/

namespace Sys2Proof.Machine

/-- Rights and loss of the bytes an operation writes (R138, R355). -/
def State.lostSpan (s : State) (a n : Nat) : Status := (pagesOf a n).foldl (fun st p => st.worst (s.lostCheck p)) .ok

/-- COPY's fields (R138). -/
def copySrc (d : BitVec 512) : Nat := dAddr d 16
def copyDst (d : BitVec 512) : Nat := dAddr d 24
def copyLen (d : BitVec 512) : Nat := db d 32 4

-- pages of other modules --------------------------------------------------------------------------------------------------

/-- [a, a + n) page by page, with the route of each under the version in force (R463). -/
def State.parts (s : State) (a n : Nat) : List (Nat × Nat × Route) :=
  (pagesOf a n).map (fun p =>
    let lo := max a (p * 2 ^ 21)
    (lo, min (a + n) ((p + 1) * 2 ^ 21) - lo, s.routeOf s.version p))

/-- A page that this module serves or none does. -/
def Route.isHere : Route → Bool
  | .here => true
  | .none => true
  | _ => false

/-- Some page of [a, a + n) is served elsewhere. -/
def State.isAway (s : State) (a n : Nat) : Bool := (s.parts a n).any (fun p => !p.2.2.isHere)

/-- Rights on a range of which parts may lie elsewhere: those parts are checked where they lie (R463, R480). Only writes use a group;
messages carry whole lines (R456). DEDUCED, unsafe: notes/assumptions/37.md. -/
def State.reachCheck (s : State) (x : Nat) (write : Bool) (a n : Nat) : Status :=
  if 2 ^ 52 < a + n then .addrFault
  else (s.parts a n).foldl (fun st p => st.worst (match p.2.2 with
    | .here => s.pageCheck x (p.1 / 2 ^ 21) write false
    | .none => s.pageCheck x (p.1 / 2 ^ 21) write false
    | .away _ => if write && (p.1 % 64 != 0 || p.2.1 % 64 != 0) then .addrFault else .ok
    | .group _ _ => if write && p.1 % 64 == 0 && p.2.1 % 64 == 0 then .ok else .addrFault)) .ok

/-- Modules that a part is sent to, the number it is sent under, and whether it is a copy of a group (R463, R468). -/
def State.targets (s : State) : Route → List (Nat × Bool × Nat)
  | .away m => [(m, false, m)]
  | .group k _ => (s.groupModules s.version k).map (fun m => (m, true, k))
  | _ => []

/-- Source byte at `a`: from the answers of other modules where it came from there. -/
def Op.gotByte (o : Op) (a : Nat) : Option Byte := o.got.findSome? (fun p => if p.1 ≤ a && a < p.1 + p.2.length then p.2[a - p.1]? else none)

/-- Requests for the parts of [a, a + n) that lie elsewhere: whole lines, at most 4,096 B each. -/
def State.askReads (s : State) (o : Op) (a n : Nat) : State :=
  s.each ((s.parts a n).filter (fun p => !p.2.2.isHere)) (fun p t =>
    let a0 := p.1 / 64 * 64
    let n0 := cdiv (p.1 + p.2.1) 64 * 64 - a0
    t.each (s.targets p.2.2) (fun m u => u.each (pieces (n0 / 4096 + 2) a0 n0) (fun q v =>
      let msg : Msg := { kind := 0x01, cls := v.fld (queueBlock o.queue + 4) 24 3, dst := m.1, sub := q.2, ctx := o.ctx, gen := o.gen,
                         addr := q.1, label := q.1 / 2 ^ 21 }
      v.ask v.version (0x80 + (o.engine.getD 0) / 64) msg (.op o.id))))

/-- The data at `a` on are written: here at once, elsewhere by messages. -/
def State.putAway (s : State) (o : Op) (a : Nat) (d : List Byte) : State × Status :=
  (s.parts a d.length).foldl (fun (q : State × Status) p =>
    let b := (d.drop (p.1 - a)).take p.2.1
    if q.2 != .ok then q
    else if p.2.2.isHere then q.1.save o.ctx p.1 b
    else
      (q.1.each (s.targets p.2.2) (fun m u => u.each (pieces (p.2.1 / 4096 + 2) p.1 p.2.1) (fun w v =>
        let msg : Msg := { kind := 0x03, cls := v.fld (queueBlock o.queue + 4) 24 3, mcast := m.2.1, dst := m.1, group := if m.2.1 then m.2.2 else 0, ctx := o.ctx, gen := o.gen,
                           addr := w.1, label := w.1 / 2 ^ 21, payload := (b.drop (w.1 - p.1)).take w.2 }
        v.ask v.version (0x80 + (o.engine.getD 0) / 64) msg (.op o.id))), .ok)) (s, .ok)

/-- Mark of `Op.got`: the writes of the operation are out. -/
def wroteMark : Nat × List Byte := (2 ^ 64, [])

/-- The writes of an operation that reaches other modules: it ends once every answer is there (R468). -/
def State.remoteWrite (s : State) (o : Op) (dst : Nat) (d : List Byte) : State :=
  let r := s.putAway o dst d
  if r.1.opAwaits o.id then
    let w : Op := { o with phase := .remote r.2, got := [wroteMark] }
    r.1.setOp w
  else r.1.finish o r.2 dst

/-- COPY: rights of both ranges, overlap, zero length (R139, R151). -/
def State.copyCheck (s : State) (x : Nat) (d : BitVec 512) : Status :=
  let n := max 1 (copyLen d)
  let ranges := if copyLen d = 0 then (s.mapCheck x false (copySrc d) n).worst (s.mapCheck x true (copyDst d) n)
                else (s.reachCheck x false (copySrc d) n).worst (s.reachCheck x true (copyDst d) n)
  ranges.worst (Status.all [(overlaps (copySrc d) (copyLen d) (copyDst d) (copyLen d), .addrFault), (copyLen d == 0, .zeroLenNoop)])

/-- Bytes from `a` on before the first line that reads uncorrectable or is poisoned, or page that is lost. -/
def State.goodBytes (s : State) (ue : List Nat) (a n : Nat) : Nat :=
  ((List.range n).find? (fun i => s.readCheck ue (a + i) 1 != .ok)).getD n

/-- Code of reading the parts of [a, a + n) that lie here. -/
def State.hereCheck (s : State) (ue : List Nat) (a n : Nat) : Status :=
  (s.parts a n).foldl (fun st p => if p.2.2.isHere then st.worst (s.readCheck ue p.1 p.2.1) else st) Status.ok

/-- A COPY whose source answers are all there writes its data. DESIGN CHOICE, unsafe in part: notes/assumptions/16.md. -/
def State.copyAway (s : State) (o : Op) (ue : List Nat) : State :=
  let src := copySrc o.desc
  let n := copyLen o.desc
  let here := s.hereCheck ue src n
  if here != .ok then s.finish o here (s.badAt ue src n)
  else s.remoteWrite o (copyDst o.desc) ((List.range n).map (fun i => (o.gotByte (src + i)).getD (s.byte (src + i))))

/-- A COPY or FILL over pages of other modules (R463, R468). DEDUCED, unsafe: notes/assumptions/37.md. -/
def State.copyRemote (s : State) (o : Op) (ue : List Nat) : State :=
  let here := s.hereCheck ue (copySrc o.desc) (copyLen o.desc)
  let t := s.askReads o (copySrc o.desc) (copyLen o.desc)
  if here != .ok then s.finish o here (s.badAt ue (copySrc o.desc) (copyLen o.desc))
  else if t.opAwaits o.id then
    let w : Op := { o with phase := .remote .ok }
    t.setOp w
  else t.copyAway o ue

/-- COPY. After a read error nothing further is written; how much was written before it is open (R585).
DESIGN CHOICE, unsafe in part: notes/assumptions/16.md. -/
def State.copyRun (s : State) (o : Op) (ue : List Nat) : State :=
  let src := copySrc o.desc
  let n := copyLen o.desc
  let st := s.copyCheck o.ctx o.desc
  let rd := s.readCheck ue src n
  let s0 := s.mark src n
  if st != .ok then s.done o st
  else if s.isAway src n || s.isAway (copyDst o.desc) n then s0.copyRemote o ue
  else if s.lostSpan (copyDst o.desc) n != .ok then s0.finish o (rd.worst (s.lostSpan (copyDst o.desc) n)) (copyDst o.desc)
  else if rd != .ok then
    let f := s0.fresh
    let k := f.1.toNat % (s.goodBytes ue src n + 1)
    let r := f.2.save o.ctx (copyDst o.desc) (s.bytes src k)
    if r.2 = .ok then r.1.finish o rd (s.badAt ue src n) else r.1.done o r.2
  else
    let r := s0.save o.ctx (copyDst o.desc) (s.bytes src n)
    r.1.finish o r.2 (copyDst o.desc)

/-- FILL's fields (R138). -/
def fillDst (d : BitVec 512) : Nat := dAddr d 16
def fillLen (d : BitVec 512) : Nat := db d 24 4
def fillPattern (d : BitVec 512) : Nat := db d 32 8

def State.fillCheck (s : State) (x : Nat) (d : BitVec 512) : Status :=
  if fillLen d = 0 then (s.mapCheck x true (fillDst d) 1).worst .zeroLenNoop else s.reachCheck x true (fillDst d) (fillLen d)

/-- n bytes of the 8 B pattern, from its byte 0 on. -/
def patternBytes (v n : Nat) : List Byte := (List.range n).map (fun k => BitVec.ofNat 8 (nbits v (8 * (k % 8)) 8))

def State.fillRun (s : State) (o : Op) : State :=
  let st := s.fillCheck o.ctx o.desc
  if st != .ok then s.done o st
  else if s.isAway (fillDst o.desc) (fillLen o.desc) then
    s.remoteWrite o (fillDst o.desc) (patternBytes (fillPattern o.desc) (fillLen o.desc))
  else
    let r := s.save o.ctx (fillDst o.desc) (patternBytes (fillPattern o.desc) (fillLen o.desc))
    r.1.finish o r.2 (fillDst o.desc)

/-- COUNTER_OP's fields (R138). -/
def ctrTarget (d : BitVec 512) : Nat := bfld d 128 14
def ctrOp (d : BitVec 512) : Nat := db d 18 1
def ctrOperand (d : BitVec 512) : Nat := db d 24 8

def State.counterCheck (s : State) (x : Nat) (d : BitVec 512) : Status :=
  if (s.ctr x (ctrTarget d)).isNone || 1 < ctrOp d then .permission else .ok

/-- COUNTER_OP: the target is updated before the completion add (R139). -/
def State.counterRun (s : State) (o : Op) : State :=
  let st := s.counterCheck o.ctx o.desc
  match s.ctr o.ctx (ctrTarget o.desc) with
  | some c =>
    if st != .ok then s.done o st
    else if ctrOp o.desc = 0 then (s.ctrAdd c (ctrOperand o.desc)).done o .ok
    else (s.ctrSet c (ctrOperand o.desc)).done o .ok
  | none => s.done o st

/-- An answer for operation `id` arrives: data of a read, or the status of a write. When the last one is there the operation goes on
or ends with the highest-ranked code (R18, R468). -/
def State.opAnswer (s : State) (id addr : Nat) (st : Status) (data : List Byte) : State :=
  match s.op id with
  | none => s
  | some o =>
    match o.phase with
    | .remote st0 =>
      let w : Op := { o with phase := .remote (st0.worst st), got := if data.isEmpty then o.got else o.got ++ [(addr, data)] }
      let s1 := s.setOp w
      if s1.opAwaits id then s1
      else if st0.worst st != .ok || w.got.contains wroteMark then s1.finish w (st0.worst st) addr
      else s1.copyAway w []
    | _ => s

/-- NOP completes OK once its wait and fence hold. -/
def execNop (op : Nat) (s : State) : Host.Outcome State Fault Refusal := .next (s.onOp op (· == 0x00) (fun t o => t.done o .ok))

def execCopy (op : Nat) (ue : List Nat) (s : State) : Host.Outcome State Fault Refusal :=
  .next (s.onOp op (· == 0x01) (fun t o => t.copyRun o ue))

def execFill (op : Nat) (s : State) : Host.Outcome State Fault Refusal := .next (s.onOp op (· == 0x02) (fun t o => t.fillRun o))

def execCounterOp (op : Nat) (s : State) : Host.Outcome State Fault Refusal := .next (s.onOp op (· == 0x03) (fun t o => t.counterRun o))

end Sys2Proof.Machine
end

