-- ==== Sys2Proof/Machine/Reduce.lean ====
section
/-! DEFINITION. REDUCE: lanes and operators, memory mode, stream mode with steered writes and partial blocks (R199-R230). -/

namespace Sys2Proof.Machine

-- lanes -----------------------------------------------------------------------------------------------------------------

/-- Operators of R205: 0 SUM, 1 MIN, 2 MAX, 3 AND, 4 OR, 5 XOR, 6 SUMSQ. -/
def redSum (op : Nat) : Bool := op == 0 || op == 6

/-- Formats that the reduce unit takes. -/
def redFmt (f : Nat) : Bool := f ≤ 4 || f == 0xA || f == 0xC

/-- Sub-accumulators of a lane, k (R199). -/
def redK (op fmt : Nat) : Nat :=
  let b := fmtBits fmt
  if b = 32 || fmt = 1 then 1 else if b = 16 then 2 else if op = 6 then 2 else 4

/-- Width of a sub-accumulator. -/
def redW (op fmt : Nat) : Nat := 320 / redK op fmt

/-- Exponent of the LSB weight (R199). -/
def redLsb (op fmt : Nat) : Int :=
  match fmt with
  | 0x2 => if op = 6 then -48 else -24
  | 0x3 => if op = 6 then -18 else -9
  | 0x4 => if op = 6 then -32 else -16
  | 0xA => 0
  | 0xC => 0
  | _ => if op = 6 then -160 else -149

/-- The allowed combinations of R205. -/
def redAllowed (op inF outF : Nat) : Bool :=
  redFmt inF &&
    (match op with
      | 0 => if fmtIsInt inF then outF == 0xC || outF == 0xA || outF == 0 else outF ≤ 4
      | 1 => outF == inF
      | 2 => outF == inF
      | 3 => fmtIsInt inF && outF == inF
      | 4 => fmtIsInt inF && outF == inF
      | 5 => fmtIsInt inF && outF == inF
      | 6 => outF ≤ 2
      | _ => false)

/-- Code of the identity in `IN_FMT` (R205). -/
def redIdentity (op fmt : Nat) : Nat :=
  let w := fmtBits fmt
  match op with
  | 1 => if fmtIsInt fmt then 2 ^ (w - 1) - 1 else if fmt = 3 then 0x7E else (fmtFloat fmt).elim 0 FFmt.infCode
  | 2 => if fmtIsInt fmt then 2 ^ (w - 1) else if fmt = 3 then 0xFE else (fmtFloat fmt).elim 0 (fun f => f.sign true + f.infCode)
  | 3 => 2 ^ w - 1
  | _ => 0

/-- Five flags of a sub-accumulator: NAN, PINF, NINF, NZ, OVF (R202). -/
structure Sub where
  /-- The sub-accumulator's bits. -/
  a : Nat
  flags : Nat
  deriving DecidableEq, Repr

def Lane.sub (l : Lane) (w j : Nat) : Sub := { a := nbits l.acc.toNat (w * j) w, flags := nbits l.flags.toNat (5 * j) 5 }

/-- A lane of sub-accumulators. -/
def laneOf (w : Nat) (l : List Sub) (weight : Nat) : Lane :=
  { acc := BitVec.ofNat 320 (pack w (l.map (·.a))), flags := BitVec.ofNat 20 (pack 5 (l.map (·.flags))), weight := weight }

def Lane.subs (l : Lane) (op fmt : Nat) : List Sub := (List.range (redK op fmt)).map (l.sub (redW op fmt))

/-- A lane before any contribution (R203). -/
def laneIdentity (op fmt : Nat) : Lane :=
  laneOf (redW op fmt) (List.replicate (redK op fmt) { a := if redSum op then 0 else redIdentity op fmt, flags := 0 }) 0

/-- Value x is -0. -/
def isNegZero (fmt c : Nat) : Bool := (fmtFloat fmt).any (fun f => c == f.sign true)

/-- |x| is 2^64 or more. -/
def big64 (m : Nat) (e : Int) : Bool := m != 0 && decide (64 ≤ log2Frac m 1 e)

/-- m * 2^s as an integer, low bits cut off when s is negative (R208). -/
def shiftNat (m : Nat) (s : Int) : Nat := if 0 ≤ s then m * 2 ^ s.toNat else m / 2 ^ (-s).toNat

/-- Absorb one value into a sub-accumulator (R203, R209, R210). -/
def absorb (op fmt : Nat) (u : Sub) (c : Nat) : Sub :=
  let w := redW op fmt
  let v := elemVal fmt c
  let f := u.flags ||| (match v with
    | .nan => 1
    | .inf neg => if op = 6 then 16 else if op = 0 then (if neg then 4 else 2) else 0
    | .fin _ m e => if op = 6 && big64 m e then 16 else 0) ||| (if isNegZero fmt c then 0 else 8)
  match op with
  | 0 =>
    match v with
    | .fin neg m e => { a := ((intVal w u.a + smant neg (shiftNat m (e - redLsb op fmt))) % 2 ^ w).toNat, flags := f }
    | _ => { u with flags := f }
  | 6 =>
    match v with
    | .fin _ m e => { a := if big64 m e then u.a else (u.a + shiftNat (m * m) (2 * e - redLsb op fmt)) % 2 ^ w, flags := f }
    | _ => { u with flags := f }
  | 1 => { a := if v == .nan then u.a else if v.le (elemVal fmt u.a) then c else u.a, flags := f }
  | 2 => { a := if v == .nan then u.a else if (elemVal fmt u.a).le v then c else u.a, flags := f }
  | 3 => { a := u.a &&& c, flags := f }
  | 4 => { a := u.a ||| c, flags := f }
  | _ => { a := u.a ^^^ c, flags := f }

/-- `WEIGHT` after n more contributions (R202, R204). -/
def weightAdd (a n : Nat) : Nat := min 0x100001 (a + n)

/-- Absorb a lane's values of one contribution; none for positions past the vector's end. -/
def Lane.absorb (l : Lane) (op fmt : Nat) (cs : List (Option Nat)) : Lane :=
  laneOf (redW op fmt) (((l.subs op fmt).zip cs).map (fun p => p.2.elim p.1 (Sys2Proof.Machine.absorb op fmt p.1))) (weightAdd l.weight 1)

/-- Absorb a partial lane of another engine (R226). -/
def Lane.join (l m : Lane) (op fmt : Nat) : Lane :=
  let w := redW op fmt
  let one (p : Sub × Sub) : Sub :=
    let f := p.1.flags ||| p.2.flags
    if redSum op then { a := (p.1.a + p.2.a) % 2 ^ w, flags := f }
    else { (Sys2Proof.Machine.absorb op fmt p.1 p.2.a) with flags := f }
  laneOf w (((l.subs op fmt).zip (m.subs op fmt)).map one) (weightAdd l.weight m.weight)

/-- Result of a sub-accumulator in `OUT_FMT`, divided by `den` before the one rounding (R206, R207, R209, R247). -/
def finishDiv (op inF outF : Nat) (sat : Bool) (post : Int) (den : Nat) (u : Sub) : Nat :=
  let has (b : Nat) : Bool := u.flags.testBit b
  if redSum op then
    let a := intVal (redW op inF) u.a
    let v : Val :=
      if has 0 || (has 1 && has 2) then .nan
      else if has 1 || has 4 then .inf false
      else if has 2 then .inf true
      else if a = 0 then .fin (op == 0 && !has 3) 0 0
      else .fin (a < 0) a.natAbs (redLsb op inF + post)
    convTo outF v den false sat
  else if has 0 then convTo inF .nan 1 false false
  else nbits u.a 0 (fmtBits inF)

def finishSub (op inF outF : Nat) (sat : Bool) (post : Int) (u : Sub) : Nat := finishDiv op inF outF sat post 1 u

/-- Bytes 0-47 of an accumulator line (R202). -/
def Lane.bytes (l : Lane) : List Byte := leBytes 40 l.acc.toNat ++ leBytes 4 l.flags.toNat ++ leBytes 4 l.weight

def laneParse (b : List Byte) : Lane :=
  { acc := BitVec.ofNat 320 (leNat (b.take 40)), flags := BitVec.ofNat 20 (le b 40 4), weight := nbits (le b 44 4) 0 21 }

-- the descriptor --------------------------------------------------------------------------------------------------------

/-- The result's bytes, k and L of R212. -/
def rdRB (d : BitVec 512) : Nat := cdiv (rdElems d * esize (rdOut d)) 64 * 64
def rdKk (d : BitVec 512) : Nat := redK (rdOp d) (rdIn d)
def rdLanes (d : BitVec 512) : Nat := cdiv (rdElems d) (rdKk d)

/-- Lanes of one 64 B group (R226). -/
def groupLanes (d : BitVec 512) : Nat := 64 / (esize (rdIn d) * rdKk d)

/-- A link port may carry a context's partials: it is in the slice and runs ZFL. -/
def State.parentOk (s : State) (x l : Nat) : Bool := s.sliceLink (s.ctxSlice x) l && !s.ztl l

/-- PERMISSION conditions common to both modes (R213, R584). -/
def redBad (d : BitVec 512) (limit : Nat) : Bool :=
  2 ≤ rdMode d || !redAllowed (rdOp d) (rdIn d) (rdOut d) || rdGran d == 0 || 576 < rdGran d || limit < rdGran d
    || misaligned [(rdSrc d, 64), (rdStride d, 64), (if rdForward d then 0 else rdDst d, 64)]
    || (rdStride d != 0 && rdStride d < rdVB d)

/-- Memory mode: R213. -/
def State.redMemCheck (s : State) (x : Nat) (d : BitVec 512) (limit : Nat) : Status :=
  let starts := if rdStride d = 0 && rdCount d != 0 then [rdSrc d] else (List.range (rdCount d)).map (fun c => rdSrc d + c * rdStride d)
  let st := Status.all [(redBad d limit || (rdForward d && !rdLocal d && !s.parentOk x (rdLink d)), .permission),
    (rdElems d == 0 || rdCount d == 0, .zeroLenNoop),
    (!rdForward d && starts.any (fun a => overlaps a (rdVB d) (rdDst d) (rdRB d)), .addrFault),
    (2 ^ 20 < rdCount d, .capacityExhausted)]
  let st := starts.foldl (fun a p => a.worst (s.mapCheck x false p (rdVB d))) st
  if rdForward d then st else st.worst (s.mapCheck x true (rdDst d) (rdRB d))

def State.openRed (s : State) (x id : Nat) : Option Stream := s.reds.find? (fun r => r.isOpen && r.ctx == x && r.redId == id)

/-- The open reduction that an operation runs. -/
def State.redOf (s : State) (o : Op) : Option Stream := s.reds.find? (fun r => r.isOpen && r.queue == o.queue && r.redId == rdId o.desc)

/-- Stream mode: R217, made before the reduction opens. DEDUCED, unsafe: notes/assumptions/25.md. -/
def State.redStreamCheck (s : State) (x : Nat) (d : BitVec 512) (limit : Nat) (dynamic : Bool) : Status :=
  let lines := rdLanes d + cdiv (rdCount d * rdVB d / 64) 512
  let st := Status.all [
    (redBad d limit || dynamic || 4096 < rdCount d || 64 * rdGran d < lines || rdStride d == 0 || (s.openRed x (rdId d)).isSome
      || s.reds.any (fun r => r.isOpen && r.ctx == x && overlaps (rdSrc r.desc) (ingestLen r.desc) (rdSrc d) (ingestLen d))
      || (s.ctr x (rdOpenCtr d)).isNone || (rdForward d && !rdLocal d && !s.parentOk x (rdLink d)), .permission),
    (rdElems d == 0 || rdCount d == 0, .zeroLenNoop),
    ((pagesOf (rdSrc d) (ingestLen d)).any (fun p => s.routeOf s.version p != .here), .addrFault),
    (!rdForward d && overlaps (rdDst d) (rdRB d) (rdSrc d) (ingestLen d), .addrFault)]
  let st := st.worst (s.mapCheck x false (rdSrc d) (ingestLen d))
  if rdForward d then st else st.worst (s.mapCheck x true (rdDst d) (rdRB d))

/-- Check of the descriptor's own fields, in either mode; a later run of an open reduction is at the engine and window of the first (R219). -/
def State.redCheck (s : State) (o : Op) (limit : Nat) (dynamic : Bool) : Status :=
  if rdMode o.desc = 1 then
    match s.redOf o with
    | some r => if dynamic || o.engine != some r.engine || o.scr != r.scr then .permission else .ok
    | none => s.redStreamCheck o.ctx o.desc limit dynamic
  else s.redMemCheck o.ctx o.desc limit

-- cost -------------------------------------------------------------------------------------------------------------------

/-- Result ACLK per 32 lanes. -/
def redWr (d : BitVec 512) : Nat := if rdForward d then 12 else cdiv (rdKk d * esize (rdOut d)) 4

/-- Unit cost (R215, R224). -/
def redCost (d : BitVec 512) : Nat :=
  let k := rdKk d
  if rdMode d = 1 then
    let c := if rdIn d == 1 || (rdOp d == 6 && fmtBits (rdIn d) == 8) then 4 else 2
    48 + max (c * rdMaxCells d) (redWr d * cdiv (rdLanes d) 32 + 144)
  else
    let sg := 64 * rdGran d
    (List.range (cdiv (rdLanes d) sg)).foldl (fun a j =>
      let l := min sg (rdLanes d - j * sg)
      let rd := if 2048 ≤ l * k * esize (rdIn d) then 216 else 252
      let wr := if rdForward d || 2048 ≤ l * k * esize (rdOut d) then 144 else 180
      a + rd + rdCount d * cdiv l 32 + redWr d * cdiv l 32 + wr) 32

-- partial blocks ---------------------------------------------------------------------------------------------------------

/-- Inputs whose groups are all recorded (R221). -/
def Stream.inputsDone (r : Stream) : Nat :=
  ((List.range (rdCount r.desc)).filter (fun i => (r.receipt.filter (fun p => p.1 == i)).length == rdVB r.desc / 64)).length

def Stream.maxWeight (r : Stream) : Nat := r.lanes.foldl (fun a l => max a l.weight) 0

/-- The status block of the engine and the open count of its die (R229, R230). -/
def State.redSync (s : State) (e : Nat) : State :=
  let s1 := match s.reds.find? (fun r => r.isOpen && r.engine == e) with
    | some r => (((s.wrn (redReg e 0) (1 + 2 ^ 16 * r.ctx)).wrn (redReg e 4) r.redId).wrn (redReg e 8) r.inputsDone).wrn (redReg e 0xC) r.maxWeight
    | none => (((s.wr (redReg e 0) 0).wr (redReg e 4) 0).wr (redReg e 8) 0).wr (redReg e 0xC) 0
  s1.wrn (dieReg (e / 64) 0x200) (s1.reds.filter (fun r => r.isOpen && r.engine / 64 == e / 64)).length

/-- A partial block or failure record for reduction `id` of context x meets no open reduction, or one it does not fit (R227). -/
def State.partRefused (s : State) (x id input group : Nat) : Bool :=
  match s.openRed x id with
  | none => true
  | some r => rdCount r.desc ≤ input || rdVB r.desc / 64 ≤ group

/-- The reduction has closed: steering ends at the next boundary. -/
def State.redClosed (s : State) (r : Stream) : State := (s.setRed { r with steer := 2, waiting := [] }).redSync r.engine

/-- A message to the parent of a forwarding REDUCE: `ADDR` and `SUB` of R456. -/
def partMsg (s : State) (x gen cls : Nat) (d : BitVec 512) (group : Nat) (st : Status) (data : List Byte) : Msg :=
  { kind := 0x07, cls := cls, dst := s.fld (linkBlock (rdLink d)) 16 8, sub := st.code, ctx := x, gen := gen,
    addr := rdParentId d + 2 ^ 16 * rdParentInput d + 2 ^ 28 * group + 2 ^ 44 * rdOp d + 2 ^ 48 * rdIn d, payload := data }

/-- The operation of an open reduction. -/
def State.redOp (s : State) (r : Stream) : Option Op :=
  s.ops.find? (fun o => o.queue == r.queue && isStream o.desc && rdId o.desc == r.redId && (match o.phase with
    | .executed _ => false
    | _ => true))

/-- Class of a queue's dynamic data (R117). -/
def State.dynClass (s : State) (q : Nat) : Nat := s.fld (queueBlock q + 4) 24 3

/-- Close an open reduction early with a code: its descriptor ends, and a failure record goes to the parent (R225, R229). `fuel` bounds the
chain of parents on this module. -/
def State.redClose (s : State) (fuel : Nat) (r : Stream) (st : Status) : State :=
  let s1 := s.redClosed r
  let ended := (s1.redOp r).elim s1 (fun o => s1.done o st)
  let s2 := ended.when (st == .capacityExhausted) (·.sat (dieReg (r.engine / 64) 0x210) 1)
  if !rdForward r.desc then s2
  else if rdLocal r.desc then
    match fuel with
    | 0 => s2
    | n + 1 =>
      if s2.partRefused r.ctx (rdParentId r.desc) (rdParentInput r.desc) 0 then s2.sat (dieReg (r.engine / 64) 0x20C) 1
      else match s2.openRed r.ctx (rdParentId r.desc) with
        | some p => s2.redClose n p st
        | none => s2
  else s2.sendOn (rdLink r.desc) (partMsg s2 r.ctx (s2.ctxGen r.ctx) (s2.dynClass r.queue) r.desc 0 st []) (0x80 + r.engine / 64)

/-- A block arrives for an open reduction: refused, closing it, or waiting for a run (R225, R227).
DEDUCED, unsafe: notes/assumptions/25.md. -/
def State.partArrive (s : State) (die x id input group op fmt code : Nat) (data : List Byte) (poisoned : Bool) : State :=
  if s.partRefused x id input group then s.sat (dieReg die 0x20C) 1
  else match s.openRed x id with
    | none => s
    | some r =>
      if code != 0 then s.redClose 64 r (Status.ofCode code)
      else if op != rdOp r.desc || fmt != rdIn r.desc then s.redClose 64 r .permission
      else if poisoned then (s.redClose 64 r .mediaUncorrectable).fault r.ctx 2
      else s.setRed { r with waiting := r.waiting ++ [.part input group op fmt code data] }

/-- Send a block or failure record of a forwarding REDUCE to its parent (R226, R227). -/
def State.partSend (s : State) (o : Op) (group : Nat) (st : Status) (data : List Byte) : State :=
  let d := o.desc
  if rdLocal d then
    s.partArrive ((o.engine.getD 0) / 64) o.ctx (rdParentId d) (rdParentInput d) group (rdOp d) (rdIn d) st.code data false
  else s.sendOn (rdLink d) (partMsg s o.ctx o.gen (s.dynClass o.queue) d group st data) (0x80 + (o.engine.getD 0) / 64)

-- memory mode ------------------------------------------------------------------------------------------------------------

/-- Element codes of a contribution's lanes a to a + n - 1, lane by lane. -/
def laneCodes (d : BitVec 512) (b : List Byte) (a n : Nat) : List (List (Option Nat)) :=
  let k := rdKk d
  let z := esize (rdIn d)
  (List.range n).map (fun i => (List.range k).map (fun j =>
    let e := i * k + j
    if (a + i) * k + j < rdElems d then some (le b (e * z) z) else none))

/-- Result bytes of lanes a on: elements past the vector's end are zero (R212). -/
def laneResult (d : BitVec 512) (a : Nat) (l : List Lane) : List Byte :=
  let k := rdKk d
  let es := (List.range (l.length * k)).map (fun e =>
    if a * k + e < rdElems d then
      finishSub (rdOp d) (rdIn d) (rdOut d) (rdSat d) (rdPost d)
        (((l.getD (e / k) { acc := 0, flags := 0, weight := 0 }).subs (rdOp d) (rdIn d)).getD (e % k) { a := 0, flags := 0 })
    else 0)
  let b := es.flatMap (leBytes (esize (rdOut d)))
  b ++ List.replicate (cdiv b.length 64 * 64 - b.length) 0

/-- The lanes of the window as accumulator lines (R202). -/
def State.scrLanes (s : State) (w : Win) (first : Nat) (l : List Lane) : State :=
  s.scrPut w (64 * first) (l.flatMap (fun x => x.bytes ++ List.replicate 16 0))

/-- Blocks of the groups that lanes a on cover; a lane past L is at the identity. -/
def laneBlocks (d : BitVec 512) (a : Nat) (l : List Lane) : List (Nat × List Byte) :=
  let g := groupLanes d
  (List.range (cdiv l.length g)).map (fun i =>
    (a / g + i, (List.range g).flatMap (fun j => (l.getD (i * g + j) (laneIdentity (rdOp d) (rdIn d))).bytes)))

/-- One segment: the lanes after every contribution, or the failing address (R214). -/
def State.segment (s : State) (d : BitVec 512) (ue : List Nat) (a n : Nat) : List Lane × Status × Nat :=
  let z := esize (rdIn d) * rdKk d
  (List.range (rdCount d)).foldl (fun (q : List Lane × Status × Nat) c =>
    if q.2.1 != .ok then q
    else
      let p := rdSrc d + c * rdStride d + a * z
      let len := min (n * z) (rdVB d - a * z)
      let st := s.readCheck ue p len
      if st != .ok then (q.1, st, s.badAt ue p len)
      else ((q.1.zip (laneCodes d (s.bytes p len) a n)).map (fun x => x.1.absorb (rdOp d) (rdIn d) x.2), .ok, 0))
    (List.replicate n (laneIdentity (rdOp d) (rdIn d)), .ok, 0)

/-- The segments from j on (R214): the state, the code, the failing address, and the number of segments finished. -/
def State.segments (s : State) (o : Op) (ue : List Nat) : Nat → Nat → State × Status × Nat × Nat
  | 0, j => (s, .ok, 0, j)
  | f + 1, j =>
    let d := o.desc
    let sg := 64 * rdGran d
    if rdLanes d ≤ j * sg then (s, .ok, 0, j)
    else
      let n := min sg (rdLanes d - j * sg)
      let r := s.segment d ue (j * sg) n
      if r.2.1 != .ok then (s, r.2.1, r.2.2, j)
      else
        let s1 := s.scrLanes o.win 0 r.1
        if rdForward d then
          State.segments (s1.each (laneBlocks d (j * sg) r.1) (fun b t => t.partSend o b.1 .ok b.2)) o ue f (j + 1)
        else
          let a := rdDst d + j * sg * rdKk d * esize (rdOut d)
          let w := s1.save o.ctx a (laneResult d (j * sg) r.1)
          if w.2 != .ok then (w.1, w.2, a, j) else State.segments w.1 o ue f (j + 1)

/-- Segments of a memory-mode REDUCE. -/
def redSegments (d : BitVec 512) : Nat := cdiv (rdLanes d) (64 * rdGran d)

/-- A REDUCE ends in a failure after n segments: a failure record follows the blocks that it has sent (R214). -/
def State.redFail (s : State) (o : Op) (st : Status) (addr n : Nat) : State :=
  (s.when (rdForward o.desc && n != 0) (·.partSend o 0 st [])).finish o st addr

/-- A memory-mode REDUCE that is stopped: an open number of its segments are finished, and their results stay (R216).
DESIGN CHOICE, unsafe in part: notes/assumptions/16.md. -/
def State.redPart (s : State) (o : Op) : State × Nat :=
  let f := s.fresh
  let r := f.2.segments o [] (f.1.toNat % max 1 (redSegments o.desc)) 0
  (r.1, r.2.2.2)

/-- Memory mode (R213, R214, R216). `bad`: lines of the accumulators that turn out uncorrectable (R165). -/
def State.redRun (s : State) (o : Op) (ue bad : List Nat) : State :=
  let st := s.redMemCheck o.ctx o.desc (if o.dynamic then 576 else o.gran)
  if st != .ok then (s.done o st).when (st == .capacityExhausted) (·.sat (dieReg (o.engine.getD 0 / 64) 0x210) 1)
  else
    let s0 := s.each (List.range (if rdStride o.desc = 0 then 1 else rdCount o.desc)) (fun c t =>
      t.mark (rdSrc o.desc + c * rdStride o.desc) (rdVB o.desc))
    if bad.any (· < min (rdLanes o.desc) (64 * rdGran o.desc)) then
      let p := s0.redPart o
      p.1.redFail o .mediaUncorrectable 0 p.2
    else
      let r := s0.segments o ue (redSegments o.desc) 0
      if r.2.1 != .ok then r.1.redFail o r.2.1 r.2.2.1 r.2.2.2 else r.1.done o .ok

def execReduce (op : Nat) (ue : List Nat) (scr : ScrIn) (s : State) : Host.Outcome State Fault Refusal :=
  .next (s.onOp op (· == 0x20) (fun t o => if isStream o.desc then t else (t.scrIn o.win scr).redRun o ue scr.bad))

-- stream mode ------------------------------------------------------------------------------------------------------------

/-- Record a group, unless it is there already or its input has the other form (R221). -/
def Stream.fresh (r : Stream) (input group : Nat) (part : Bool) : Bool :=
  !(r.receipt.any (fun p => p.1 == input && (p.2.1 == group || p.2.2 != part)))

/-- Absorb one raw line into the lanes of its group. -/
def Stream.line (r : Stream) (input group : Nat) (b : List Byte) : Stream :=
  let g := groupLanes r.desc
  let cs := laneCodes r.desc b (group * g) g
  let one (p : Nat × Lane) : Lane :=
    if p.1 / g == group then p.2.absorb (rdOp r.desc) (rdIn r.desc) (cs.getD (p.1 % g) []) else p.2
  { r with lanes := (indexed r.lanes).map one, receipt := r.receipt ++ [(input, group, false)] }

/-- Absorb one partial block. -/
def Stream.block (r : Stream) (input group : Nat) (b : List Byte) : Stream :=
  let g := groupLanes r.desc
  let one (p : Nat × Lane) : Lane :=
    if p.1 / g == group then p.2.join (laneParse ((b.drop (48 * (p.1 % g))).take 48)) (rdOp r.desc) (rdIn r.desc) else p.2
  { r with lanes := (indexed r.lanes).map one, receipt := r.receipt ++ [(input, group, true)] }

/-- Absorb one message: the stream and the duplicates met. DEDUCED, unsafe: notes/assumptions/25.md. -/
def Stream.take (r : Stream) (m : RedMsg) : Stream × Nat :=
  match m with
  | .raw l => l.foldl (fun (q : Stream × Nat) x =>
      if q.1.fresh x.1 x.2.1 false then (q.1.line x.1 x.2.1 x.2.2, q.2) else (q.1, q.2 + 1)) (r, 0)
  | .part i g _ _ _ d => if r.fresh i g true then (r.block i g d, 0) else (r, 1)

/-- A run absorbs whole messages, oldest first, up to a number of cells: the stream, duplicates, cells taken (R222). -/
def Stream.run (r : Stream) : Nat → List RedMsg → Stream × Nat × Nat
  | _, [] => ({ r with waiting := [] }, 0, 0)
  | cells, m :: l =>
    if m.cells ≤ cells then
      let a := r.take m
      let b := a.1.run (cells - m.cells) l
      (b.1, a.2 + b.2.1, m.cells + b.2.2)
    else ({ r with waiting := m :: l }, 0, 0)

/-- The receipt bitmap, one bit per input and group, input-major (R218). -/
def Stream.bitmap (r : Stream) : List Byte :=
  let v := rdVB r.desc / 64
  leBytes (cdiv (rdCount r.desc * v) 512 * 64) (r.receipt.foldl (fun a p => a ||| 2 ^ (p.1 * v + p.2.1)) 0)

/-- Commit a run's stream: the window and the registers follow. -/
def State.redCommit (s : State) (r : Stream) : State :=
  let w : Win := { engine := r.engine, base := r.scr }
  (((s.setRed r).scrLanes w 0 r.lanes).scrPut w (64 * rdLanes r.desc) r.bitmap).redSync r.engine

/-- A run ended within its `COST`: the context's overrun count returns to 0 (R99, R219). -/
def State.overrunReset (s : State) (x : Nat) : State :=
  { s with ctx := { s.ctx with overruns := s.ctx.overruns.filter (fun p => p.1 != x) } }

/-- The operation waits for the next entry of its queue; its engine is free. -/
def State.park (s : State) (o : Op) : State :=
  let s1 := (s.setOp { o with phase := .parked }).overrunReset o.ctx
  match o.engine with
  | some e => s1.wrFld (engineBlock e + 4) 0 3 0
  | none => s1

/-- Groups that a message brings. -/
def RedMsg.groups : RedMsg → Nat
  | .raw l => l.length
  | .part _ _ _ _ _ _ => 1

/-- The finishing run (R204, R223); what still waits is discarded as duplicates (R221). -/
def State.redFinish (s : State) (o : Op) (r : Stream) : State :=
  if 2 ^ 20 < r.maxWeight then s.redClose 64 r .capacityExhausted
  else
    let t := (s.redClosed r).sat (dieReg (r.engine / 64) 0x204) ((r.waiting.map RedMsg.groups).sum)
    if rdForward o.desc then (t.each (laneBlocks o.desc 0 r.lanes) (fun b t => t.partSend o b.1 .ok b.2)).done o .ok
    else
      let w := t.save o.ctx (rdDst o.desc) (laneResult o.desc 0 r.lanes)
      w.1.finish o w.2 (rdDst o.desc)

/-- Lines of an open reduction's window: accumulators and receipt bitmap (R218). -/
def Stream.lines (r : Stream) : Nat := rdLanes r.desc + cdiv (rdCount r.desc * rdVB r.desc / 64) 512

/-- REDUCE_STREAM_RUN: opening, absorbing, or finishing run (R217-R223). A run that does not end within its `COST` changes
nothing; FRAME_OVERRUN stops it. A run absorbs messages that waited at its `START`. -/
def State.redStreamRun (s : State) (o : Op) (inCost : Bool) : State :=
  let d := o.desc
  match s.redOf o with
  | none =>
    let st := s.redStreamCheck o.ctx d (if o.dynamic then 576 else o.gran) o.dynamic
    if st != .ok then s.done o st
    else if !inCost then s
    else
      let r : Stream := { ctx := o.ctx, redId := rdId d, queue := o.queue, engine := o.engine.getD 0, scr := o.scr, gran := rdGran d, desc := d,
                          steer := 0, lanes := List.replicate (rdLanes d) (laneIdentity (rdOp d) (rdIn d)), receipt := [], waiting := [],
                          invalid := false }
      (({ s with reds := s.reds ++ [r] }).redCommit r).park o
  | some r =>
    if o.engine != some r.engine || o.scr != r.scr then s.redClose 64 r .permission
    else if s.scrBad o.win 0 r.lines then (s.redClose 64 r .mediaUncorrectable).media o 0
    else if r.invalid then s.redClose 64 r .stateLost
    else if !inCost then s
    else if r.inputsDone = rdCount d then s.redFinish o r
    else
      let q := r.run (rdMaxCells d) (r.waiting.take r.atStart)
      let r1 : Stream := { q.1 with waiting := q.1.waiting ++ r.waiting.drop r.atStart }
      let s1 := ((s.redCommit r1).sat (dieReg (r.engine / 64) 0x204) q.2.1).when (q.2.2 != 0) (·.progress (.queue o.queue))
      s1.park o

/-- A run of an open reduction starts: the messages that wait now are those that it may absorb (R222). -/
def State.redStart (s : State) (o : Op) : State :=
  match s.redOf o with
  | some r => s.when (isStream o.desc) (·.setRed { r with atStart := r.waiting.length })
  | none => s

def execReduceStreamRun (op : Nat) (inCost : Bool) (scr : ScrIn) (s : State) : Host.Outcome State Fault Refusal :=
  .next (s.onOp op (· == 0x20) (fun t o => if isStream o.desc then (t.scrIn o.win scr).redStreamRun o inCost else t))

-- steering ---------------------------------------------------------------------------------------------------------------

/-- A write of context x that touches steered ranges, with what it stores outside them, checked as any access (R220, R221, R223). Poisoned
data close the reductions that they reach (R225). -/
def State.steer (s : State) (x a : Nat) (b : List Byte) (poisoned : Bool) : State × Status :=
  let w := s.steerWrite x a b (!poisoned)
  let hit := if poisoned && a % 64 = 0 && b.length % 64 = 0 then
      (s.steered x a b.length).filter (fun r => r.isOpen && (wholeWrite a b).any (fun p => (slotOf r.desc p.1).any (fun q => 64 * q.2 < rdVB r.desc)))
    else []
  let s1 := w.1.each hit (fun r t => (match t.openRed x r.redId with
    | some q => t.redClose 64 q .mediaUncorrectable
    | none => t).fault x 2)
  w.2.foldl (fun (q : State × Status) p =>
    let st := q.1.mapCheck x true p.1 p.2.length
    if st != .ok then (q.1, q.2.worst st)
    else
      let r := q.1.save x p.1 p.2
      (r.1, q.2.worst r.2)) (s1, .ok)

/-- STEERED_WRITE. -/
def execSteeredWrite (ctx addr : Nat) (data : List Byte) (poisoned : Bool) (s : State) : Host.Outcome State Fault Refusal :=
  .next (if (s.steered ctx addr data.length).isEmpty then s else (s.steer ctx addr data poisoned).1.wakeIdle)

/-- A frame boundary: steering begins and `OPEN_CTR` rises, or steering ends (R218, R223). DEDUCED, unsafe: notes/assumptions/25.md. -/
def State.redFrame (s : State) : State :=
  let begins := s.reds.filter (fun r => r.steer == 0)
  let s1 : State := { s with reds := (s.reds.filter (fun r => r.steer != 2)).map (fun (r : Stream) => { r with steer := 1 }) }
  s1.each begins (fun r t => match t.ctr r.ctx (rdOpenCtr r.desc) with
    | some c => t.ctrAdd c 1
    | none => t)

end Sys2Proof.Machine
end

