-- ==== Sys2Proof/Machine/Gather.lean ====
section
/-! DEFINITION. GATHER, GATHER_REDUCE, ROW_FILTER and SCORE_FILTER (R231-R266). -/

namespace Sys2Proof.Machine

/-- Contiguous read and write times (R238). -/
def rdc (b : Nat) : Nat := if 2048 ≤ b then 216 + 2 * cdiv b 256 else 252 + cdiv b 64
def wrc (b : Nat) : Nat := if 2048 ≤ b then 144 + 2 * cdiv b 256 else 180 + cdiv b 64

/-- A piece of output: address, bytes. -/
abbrev Piece := Nat × List Byte

/-- Write pieces in order, up to the first that fails. -/
def State.savePieces (s : State) (x : Nat) (l : List Piece) : State × Status × Nat :=
  l.foldl (fun (q : State × Status × Nat) p =>
    if q.2.1 != .ok then q
    else
      let r := q.1.save x p.1 p.2
      (r.1, r.2, if r.2 == .ok then q.2.2 + 1 else q.2.2)) (s, .ok, 0)

/-- The counts that an operation of the gather family adds when it has written its n pieces, and not when it fails (R239). -/
def whenAll (n : Nat) (stats : List (Nat × Nat)) (k : Nat) : List (Nat × Nat) := if k = n then stats else []

/-- A read failed: of the output that did not depend on it, an open part was already written and stays (R234, R585).
DESIGN CHOICE, unsafe in part: notes/assumptions/16.md. -/
def State.failAfter (s : State) (o : Op) (l : List Piece) (st : Status) (addr : Nat) (stats : Nat → List (Nat × Nat)) : State :=
  let f := s.fresh
  let w := f.2.savePieces o.ctx (l.take (f.1.toNat % (l.length + 1)))
  w.1.finish { o with stats := stats w.2.2 } (st.worst w.2.1) addr

/-- The pieces are written and the operation ends, with the counts of what it wrote (R239, R289). -/
def State.endWith (s : State) (o : Op) (l : List Piece) (stats : Nat → List (Nat × Nat)) : State :=
  let w := s.savePieces o.ctx l
  if w.2.1 != .ok then w.1.finish { o with stats := stats w.2.2 } w.2.1 (l.head?.elim 0 (·.1)) else w.1.done { o with stats := stats l.length } .ok

/-- Input ranges of an operation against its worst-case output (R232, R233). -/
def State.extents (s : State) (x : Nat) (ins : List Span) (dst n : Nat) : Status :=
  let st := ins.foldl (fun a p => a.worst (s.mapCheck x false p.1 p.2)) (s.mapCheck x true dst n)
  if ins.any (fun p => overlaps p.1 p.2 dst n) then st.worst .addrFault else st

/-- Granules out of range (R237, R162). -/
def granBad (g min limit : Nat) : Bool := g < min || 576 < g || limit < g

/-- The list of n little-endian numbers of z bytes at `a`. -/
def State.nums (s : State) (a z n : Nat) : List Nat := (List.range n).map (fun i => leNat (s.bytes (a + i * z) z))

/-- Code of reading several ranges, and the address that fails. -/
def State.readAll (s : State) (ue : List Nat) (l : List Span) : Status × Nat :=
  l.foldl (fun (q : Status × Nat) p => if q.1 != .ok then q else (s.readCheck ue p.1 p.2, s.badAt ue p.1 p.2)) (.ok, 0)

/-- Die register of the engine an operation runs on. -/
def Op.dieReg (o : Op) (r : Nat) : Nat := Sys2Proof.Machine.dieReg (o.engine.getD 0 / 64) r

/-- Granules that an operation may use: its entry's, or all of them when dynamic (R162). -/
def Op.limit (o : Op) : Nat := if o.dynamic then 576 else o.gran

-- GATHER ------------------------------------------------------------------------------------------------------------------

def gaTable (d : BitVec 512) : Nat := dAddr d 16
def gaIndex (d : BitVec 512) : Nat := dAddr d 24
def gaDst (d : BitVec 512) : Nat := dAddr d 32
def gaCount (d : BitVec 512) : Nat := db d 40 4
def gaRow (d : BitVec 512) : Nat := db d 44 4
def gaStride (d : BitVec 512) : Nat := db d 48 4
def gaRows (d : BitVec 512) : Nat := db d 52 4
def gaGran (d : BitVec 512) : Nat := db d 56 2
def gaIdx (d : BitVec 512) : Nat := if (db d 58 2).testBit 0 then 8 else 4
def gaZero (d : BitVec 512) : Bool := (db d 58 2).testBit 1

/-- R237, R242, R584. DEDUCED, unsafe: notes/assumptions/26.md. -/
def State.gatherCheck (s : State) (x : Nat) (d : BitVec 512) (limit : Nat) : Status :=
  let table := if gaRows d = 0 then 0 else (gaRows d - 1) * gaStride d + gaRow d
  let st := Status.all [
    (gaRow d % 64 != 0 || 2 ^ 20 < gaRow d || gaStride d % 64 != 0 || gaStride d < gaRow d
      || granBad (gaGran d) (1 + cdiv (gaRow d) 4096) limit || misaligned [(gaTable d, 64), (gaIndex d, 64), (gaDst d, 64)], .permission),
    (gaCount d == 0 || gaRow d == 0, .zeroLenNoop)]
  st.worst (s.extents x [(gaTable d, table), (gaIndex d, gaCount d * gaIdx d)] (gaDst d) (gaCount d * gaRow d))

/-- R243. -/
def gatherCost (d : BitVec 512) : Nat :=
  let r := if 2048 ≤ gaRow d then 2 * cdiv (gaRow d) 256 else gaRow d / 64
  32 + rdc (gaCount d * gaIdx d) + (if 2048 ≤ gaRow d then 216 else 252) + gaCount d * r + wrc (gaCount d * gaRow d)

/-- A zero-length operation still runs the checks of its list, which rank above it (R18, R151, R233). -/
def Status.listed (st list : Status) : Status := if st == .zeroLenNoop then st.worst list else st

/-- An index of the list is refused (R233, R241). -/
def State.gatherList (s : State) (d : BitVec 512) : Status :=
  if !gaZero d && (s.nums (gaIndex d) (gaIdx d) (gaCount d)).any (fun i => gaRows d ≤ i) then .addrFault else .ok

/-- GATHER (R241). -/
def State.gatherRun (s : State) (o : Op) (ue : List Nat) : State :=
  let d := o.desc
  let st := (s.gatherCheck o.ctx d o.limit).listed (s.gatherList d)
  let ib := gaCount d * gaIdx d
  if st != .ok then s.done o st
  else if s.readCheck ue (gaIndex d) ib != .ok then s.finish o (s.readCheck ue (gaIndex d) ib) (s.badAt ue (gaIndex d) ib)
  else
    let idx := s.nums (gaIndex d) (gaIdx d) (gaCount d)
    let oob := (idx.filter (fun i => gaRows d ≤ i)).length
    if s.gatherList d != .ok then s.done o (s.gatherList d)
    else
      let row (i : Nat) : Span := (gaTable d + i * gaStride d, gaRow d)
      let good := (indexed idx).takeWhile (fun p => gaRows d ≤ p.2 || s.readCheck ue (row p.2).1 (gaRow d) == .ok)
      let out := good.map (fun p => (gaDst d + p.1 * gaRow d,
        if gaRows d ≤ p.2 then List.replicate (gaRow d) (0 : Byte) else s.bytes (row p.2).1 (gaRow d)))
      let s1 := (s.mark (gaIndex d) ib).each (idx.filter (· < gaRows d)) (fun i t => t.mark (row i).1 (gaRow d))
      match idx[good.length]? with
      | some i => s1.failAfter o out (s.readCheck ue (row i).1 (gaRow d)) (s.badAt ue (row i).1 (gaRow d)) (fun _ => [])
      | none => s1.endWith o out (whenAll out.length [(o.dieReg 0x300, oob)])

def execGather (op : Nat) (ue : List Nat) (s : State) : Host.Outcome State Fault Refusal :=
  .next (s.onOp op (· == 0x30) (fun t o => t.gatherRun o ue))

-- GATHER_REDUCE -----------------------------------------------------------------------------------------------------------

def grTable (d : BitVec 512) : Nat := dAddr d 16
def grBags (d : BitVec 512) : Nat := dAddr d 24
def grDst (d : BitVec 512) : Nat := dAddr d 32
def grBagCount (d : BitVec 512) : Nat := db d 40 4
def grCount (d : BitVec 512) : Nat := db d 44 4
def grRows (d : BitVec 512) : Nat := db d 48 4
def grRow (d : BitVec 512) : Nat := db d 52 2
def grGran (d : BitVec 512) : Nat := db d 54 2
def grCtrl (d : BitVec 512) : Nat := db d 56 4
def grOp (d : BitVec 512) : Nat := nbits (grCtrl d) 0 4
def grIn (d : BitVec 512) : Nat := nbits (grCtrl d) 4 4
def grOut (d : BitVec 512) : Nat := nbits (grCtrl d) 8 4
def grSat (d : BitVec 512) : Bool := (grCtrl d).testBit 12
def grZero (d : BitVec 512) : Bool := (grCtrl d).testBit 13

/-- R246. -/
def grAllowed (op inF outF : Nat) : Bool :=
  if op = 8 then redFmt inF && outF ≤ 4 else op ≤ 2 && redAllowed op inF outF

/-- E, L, OB and the offset list's bytes (R244, R245). -/
def grElems (d : BitVec 512) : Nat := grRow d / esize (grIn d)
def grK (d : BitVec 512) : Nat := redK 0 (grIn d)
def grLanes (d : BitVec 512) : Nat := cdiv (grElems d) (grK d)
def grOB (d : BitVec 512) : Nat := cdiv (grElems d * esize (grOut d)) 64 * 64
def grOffs (d : BitVec 512) : Nat := cdiv (4 * (grBagCount d + 1)) 64 * 64

/-- DEDUCED, unsafe: notes/assumptions/26.md. -/
def State.gatherReduceCheck (s : State) (x : Nat) (d : BitVec 512) (limit : Nat) : Status :=
  let st := Status.all [
    (!grAllowed (grOp d) (grIn d) (grOut d) || grRow d % 64 != 0 || 2 ^ 24 < grBagCount d || 2 ^ 28 < grCount d
      || granBad (grGran d) (1 + cdiv (grLanes d) 64) limit || misaligned [(grTable d, 64), (grBags d, 64), (grDst d, 64)], .permission),
    (grBagCount d == 0 || grRow d == 0, .zeroLenNoop)]
  st.worst (s.extents x [(grTable d, grRows d * grRow d), (grBags d, grOffs d + 4 * grCount d)] (grDst d) (grBagCount d * grOB d))

/-- R249. -/
def gatherReduceCost (d : BitVec 512) : Nat :=
  let ib := grOffs d + 4 * grCount d
  let r := if 2048 ≤ grRow d then 2 * cdiv (grRow d) 256 else grRow d / 64
  let w := cdiv (grK d * esize (grOut d)) 4
  32 + rdc ib + 252 + grCount d * max r (cdiv (grLanes d) 32) + grBagCount d * (w * cdiv (grLanes d) 32 + 16) + wrc (grBagCount d * grOB d)

/-- The offsets and bag lengths that R248 refuses. -/
def bagCheck (offs : List Nat) (count : Nat) : Status :=
  let pairs := offs.zip offs.tail
  Status.all [(offs.head? != some 0 || pairs.any (fun p => p.2 < p.1) || offs.getLast? != some count, .permission),
    (pairs.any (fun p => 2 ^ 20 < p.2 - p.1), .capacityExhausted)]

/-- Value of every element of an empty bag (R246). -/
def grEmpty (d : BitVec 512) : Nat := if grOp d = 1 || grOp d = 2 then redIdentity (grOp d) (grIn d) else 0

/-- One pooled row: its elements from the rows that a bag absorbs (R247). -/
def bagRow (d : BitVec 512) (rows : List (List Byte)) : List Byte :=
  let z := esize (grIn d)
  let op := if grOp d = 8 then 0 else grOp d
  let el (e : Nat) : Nat :=
    if rows.isEmpty then grEmpty d
    else
      let u := rows.foldl (fun u b => absorb op (grIn d) u (le b (e * z) z)) { a := if redSum op then 0 else redIdentity op (grIn d), flags := 0 }
      finishDiv op (grIn d) (grOut d) (grSat d) 0 (if grOp d = 8 then rows.length else 1) u
  let b := ((List.range (grElems d)).map el).flatMap (leBytes (esize (grOut d)))
  b ++ List.replicate (grOB d - b.length) 0

/-- What the bag list and its indices refuse (R233, R248). -/
def State.bagList (s : State) (d : BitVec 512) : Status :=
  let oob := !grZero d && (s.nums (grBags d + grOffs d) 4 (grCount d)).any (fun i => grRows d ≤ i)
  (bagCheck (s.nums (grBags d) 4 (grBagCount d + 1)) (grCount d)).worst (if oob then .addrFault else .ok)

/-- GATHER_REDUCE. -/
def State.gatherReduceRun (s : State) (o : Op) (ue : List Nat) : State :=
  let d := o.desc
  let st := (s.gatherReduceCheck o.ctx d o.limit).listed (s.bagList d)
  let ib := grOffs d + 4 * grCount d
  if st != .ok then s.done o st
  else if s.readCheck ue (grBags d) ib != .ok then s.finish o (s.readCheck ue (grBags d) ib) (s.badAt ue (grBags d) ib)
  else
    let offs := s.nums (grBags d) 4 (grBagCount d + 1)
    let idx := s.nums (grBags d + grOffs d) 4 (grCount d)
    let oob := (idx.filter (fun i => grRows d ≤ i)).length
    let st := s.bagList d
    if st != .ok then s.done o st
    else
      let addr (i : Nat) : Nat := grTable d + i * grRow d
      let bags := (offs.zip offs.tail).map (fun p => ((idx.drop p.1).take (p.2 - p.1)).filter (· < grRows d))
      let good := bags.takeWhile (fun b => b.all (fun i => s.readCheck ue (addr i) (grRow d) == .ok))
      let out := (indexed good).map (fun p => (grDst d + p.1 * grOB d, bagRow d (p.2.map (fun i => s.bytes (addr i) (grRow d)))))
      let s1 := (s.mark (grBags d) ib).each (idx.filter (· < grRows d)) (fun i t => t.mark (addr i) (grRow d))
      match (bags.drop good.length).head? with
      | some b =>
        let f := s.readAll ue (b.map (fun i => (addr i, grRow d)))
        s1.failAfter o out f.1 f.2 (fun _ => [])
      | none => s1.endWith o out (whenAll out.length [(o.dieReg 0x300, oob)])

def execGatherReduce (op : Nat) (ue : List Nat) (s : State) : Host.Outcome State Fault Refusal :=
  .next (s.onOp op (· == 0x31) (fun t o => t.gatherReduceRun o ue))

-- ROW_FILTER --------------------------------------------------------------------------------------------------------------

def rfSrc (d : BitVec 512) : Nat := dAddr d 16
def rfDst (d : BitVec 512) : Nat := dAddr d 24
def rfCount (d : BitVec 512) : Nat := db d 32 4
def rfUnits (d : BitVec 512) : Nat := db d 36 2
def rfGran (d : BitVec 512) : Nat := db d 38 2
def rfMax (d : BitVec 512) : Nat := db d 40 4
def rfCtrl (d : BitVec 512) (p : Nat) : Nat := db d (44 + 8 * p) 4
def rfValue (d : BitVec 512) (p : Nat) : Nat := db d (48 + 8 * p) 4
def rfP1 (d : BitVec 512) : Bool := (rfCtrl d 1).testBit 24
def rfOr (d : BitVec 512) : Bool := (rfCtrl d 1).testBit 25
def rfMode (d : BitVec 512) : Nat := nbits (rfCtrl d 1) 26 2
def rfRow (d : BitVec 512) : Nat := 64 * rfUnits d

/-- Bytes of a field type (R251). -/
def pfSize (t : Nat) : Nat := if t ≤ 1 then 1 else if t = 2 || t = 3 || t = 6 then 2 else 4

/-- A predicate's control word is refused (R252). -/
def predBad (ctl row : Nat) : Bool :=
  let t := nbits ctl 16 4
  let c := nbits ctl 20 4
  let off := nbits ctl 0 16
  7 < t || 7 < c || (6 ≤ c && 6 ≤ t) || off % pfSize t != 0 || row < off + pfSize t

/-- omax and the list's bytes (R253). -/
def rfOmax (d : BitVec 512) : Nat := if rfMax d = 0 then rfCount d else min (rfCount d) (rfMax d)
def rfList (d : BitVec 512) : Nat := if rfMode d = 1 || rfMode d = 2 then cdiv (4 * rfOmax d) 64 * 64 else 0
def rfOutBytes (d : BitVec 512) : Nat := 64 + rfList d + (if rfMode d = 1 then 0 else rfOmax d * rfRow d)

/-- DEDUCED, unsafe: notes/assumptions/26.md. -/
def State.rowFilterCheck (s : State) (x : Nat) (d : BitVec 512) (limit : Nat) : Status :=
  let st := Status.all [
    (rfMode d == 3 || predBad (rfCtrl d 0) (rfRow d) || (rfP1 d && predBad (rfCtrl d 1) (rfRow d))
      || granBad (rfGran d) (1 + cdiv (rfUnits d) 64) limit || misaligned [(rfSrc d, 64), (rfDst d, 64)], .permission),
    (rfCount d == 0, .zeroLenNoop)]
  st.worst (s.extents x [(rfSrc d, rfCount d * rfRow d)] (rfDst d) (rfOutBytes d))

/-- R254. -/
def rowFilterCost (d : BitVec 512) : Nat := 32 + rdc (rfCount d * rfRow d) + wrc (rfOutBytes d)

/-- The field of a row compares with the operand (R251, R252). -/
def predHolds (ctl value : Nat) (row : List Byte) : Bool :=
  let t := nbits ctl 16 4
  let w := 8 * pfSize t
  let f := le row (nbits ctl 0 16) (pfSize t)
  let v := nbits value 0 w
  let val (c : Nat) : Val :=
    if t = 6 then bf16.decode c else if t = 7 then fp32.decode c else if t % 2 = 1 then Val.ofInt (intVal w c) else Val.ofInt c
  let eq := (val f).leq (val v) && (val v).leq (val f)
  match nbits ctl 20 4 with
  | 0 => eq
  | 1 => !eq
  | 2 => (val f).leq (val v) && !eq
  | 3 => (val f).leq (val v)
  | 4 => (val v).leq (val f) && !eq
  | 5 => (val v).leq (val f)
  | 6 => f &&& v != 0
  | _ => f &&& v == 0

/-- A row matches (R253). -/
def rowMatch (d : BitVec 512) (row : List Byte) : Bool :=
  let a := predHolds (rfCtrl d 0) (rfValue d 0) row
  if !rfP1 d then a
  else
    let b := predHolds (rfCtrl d 1) (rfValue d 1) row
    if rfOr d then a || b else a && b

/-- Row numbers and row copies for the rows that go out. -/
def rfPieces (d : BitVec 512) (rows : List (Nat × List Byte)) : List Piece :=
  let nums := rows.flatMap (fun p => leBytes 4 p.1)
  let pad := List.replicate (cdiv nums.length 64 * 64 - nums.length) (0 : Byte)
  (if rfMode d = 1 || rfMode d = 2 then [(rfDst d + 64, nums ++ pad)] else [])
    ++ (if rfMode d = 1 then [] else (indexed rows).map (fun p => (rfDst d + 64 + rfList d + p.1 * rfRow d, p.2.2)))

/-- ROW_FILTER. -/
def State.rowFilterRun (s : State) (o : Op) (ue : List Nat) : State :=
  let d := o.desc
  let st := s.rowFilterCheck o.ctx d o.limit
  if st != .ok then s.done o st
  else
    let addr (i : Nat) : Nat := rfSrc d + i * rfRow d
    let good := (List.range (rfCount d)).takeWhile (fun i => s.readCheck ue (addr i) (rfRow d) == .ok)
    let hits := (good.map (fun i => (i, s.bytes (addr i) (rfRow d)))).filter (fun p => rowMatch d p.2)
    let sent := hits.take (rfOmax d)
    let s1 := s.mark (rfSrc d) (rfCount d * rfRow d)
    if good.length < rfCount d then
      s1.failAfter o (rfPieces d sent) (s.readCheck ue (addr good.length) (rfRow d)) (s.badAt ue (addr good.length) (rfRow d)) (fun _ => [])
    else
      let trunc := if rfOmax d < hits.length then 1 else 0
      let head := leBytes 4 sent.length ++ leBytes 4 hits.length ++ leBytes 4 trunc ++ List.replicate 52 0
      let out := (rfDst d, head) :: rfPieces d sent
      s1.endWith o out (whenAll out.length [(o.dieReg 0x304, trunc)])

def execRowFilter (op : Nat) (ue : List Nat) (s : State) : Host.Outcome State Fault Refusal :=
  .next (s.onOp op (· == 0x32) (fun t o => t.rowFilterRun o ue))

-- SCORE_FILTER ------------------------------------------------------------------------------------------------------------

def sfQuery (d : BitVec 512) : Nat := dAddr d 16
def sfTable (d : BitVec 512) : Nat := dAddr d 24
def sfDst (d : BitVec 512) : Nat := dAddr d 32
def sfBlocks (d : BitVec 512) : Nat := db d 40 2
def sfTopK (d : BitVec 512) : Nat := db d 42 2
def sfThreshold (d : BitVec 512) : Nat := db d 44 4
def sfMax (d : BitVec 512) : Nat := db d 48 2
def sfGran (d : BitVec 512) : Nat := db d 50 2
def sfCtrl (d : BitVec 512) : Nat := db d 52 4
def sfVBY (d : BitVec 512) : Nat := 64 * db d 56 2
def sfFirst (d : BitVec 512) : Nat := db d 58 1
def sfLastKeep (d : BitVec 512) : Nat := db d 59 1
def sfLastM1 (d : BitVec 512) : Nat := db d 60 1
def sfThr (d : BitVec 512) : Bool := (sfCtrl d).testBit 0
def sfRank (d : BitVec 512) : Bool := (sfCtrl d).testBit 1
def sfSummary (d : BitVec 512) : Bool := (sfCtrl d).testBit 2
def sfCopy (d : BitVec 512) : Nat := nbits (sfCtrl d) 4 2
def sfD (d : BitVec 512) : Nat := 64 * 2 ^ nbits (sfCtrl d) 6 2
def sfKF (d : BitVec 512) : Nat := nbits (sfCtrl d) 8 4
def sfQF (d : BitVec 512) : Nat := nbits (sfCtrl d) 12 4
def sfBT (d : BitVec 512) : Nat := 16 * 2 ^ nbits (sfCtrl d) 16 3
def sfG (d : BitVec 512) : Nat := nbits (sfCtrl d) 20 5 + 1

/-- Sizes of R256: a row of keys, KB, QB, X. -/
def sfRow (d : BitVec 512) : Nat := sfD d * esize (sfKF d)
def sfKB (d : BitVec 512) : Nat := sfBT d * sfRow d
def sfQB (d : BitVec 512) : Nat := sfG d * sfRow d
def sfX (d : BitVec 512) : Nat := max (max (sfKB d) (sfVBY d)) (32 * sfRow d)

/-- F, out_max, LB and the output's extent (R259, R262). -/
def sfForced (d : BitVec 512) : Nat := min (sfBlocks d) (sfFirst d + sfLastKeep d)
def sfOutMax (d : BitVec 512) : Nat :=
  let rest := sfBlocks d - sfForced d
  sfForced d + (if sfThr d then (if sfMax d = 0 then rest else min (sfMax d) rest) else min (sfTopK d) rest)
def sfLB (d : BitVec 512) : Nat := cdiv (8 * sfOutMax d) 64 * 64
def sfKeys (d : BitVec 512) : Nat := if sfCopy d = 1 then sfOutMax d * sfKB d else 0
def sfVals (d : BitVec 512) : Nat := if sfCopy d = 1 || sfCopy d = 2 then sfOutMax d * sfVBY d else 0
def sfOutBytes (d : BitVec 512) : Nat := 64 + sfLB d + sfKeys d + sfVals d

/-- The summary table's first byte (R257). -/
def sfSumAddr (d : BitVec 512) : Nat := sfTable d + cdiv (16 * sfBlocks d) 64 * 64

/-- The inputs that the descriptor names. -/
def sfInputs (d : BitVec 512) : List Span :=
  [(sfQuery d, sfQB d), (sfTable d, 16 * sfBlocks d)] ++ (if sfSummary d then [(sfSumAddr d, sfBlocks d * sfRow d)] else [])

/-- Key formats: BF16, FP16, E4M3, E5M2 (R256). -/
def sfFmt (f : Nat) : Bool := 1 ≤ f && f ≤ 4

/-- R264, R261, R584. DEDUCED, unsafe: notes/assumptions/26.md. -/
def State.scoreFilterCheck (s : State) (x : Nat) (d : BitVec 512) (limit : Nat) : Status :=
  let st := Status.all [
    (sfCopy d == 3 || nbits (sfCtrl d) 6 2 == 3 || 4 < nbits (sfCtrl d) 16 3 || !sfFmt (sfKF d) || !sfFmt (sfQF d)
      || pairRow (sfKF d) != pairRow (sfQF d) || sfBT d ≤ sfLastM1 d || (sfThr d && fp32.decode (sfThreshold d) == .nan)
      || granBad (sfGran d) (cdiv (sfQB d + 20 * sfBlocks d + 2 * sfX d) 4096) limit || (sfCopy d != 0 && sfVBY d == 0)
      || misaligned [(sfQuery d, 64), (sfTable d, 64), (sfDst d, 64)], .permission),
    (sfBlocks d == 0 || (!sfThr d && sfTopK d == 0), .zeroLenNoop)]
  st.worst (s.extents x (sfInputs d) (sfDst d) (sfOutBytes d))

/-- R265. -/
def scoreFilterCost (d : BitVec 512) : Nat :=
  let mrow := if fmtBits (sfKF d) = 16 then sfD d else sfD d / 2
  let c (x : Nat) : Nat := if 2048 ≤ x then 2 * cdiv x 256 else cdiv x 64
  let score :=
    if sfSummary d then rdc (sfBlocks d * sfRow d) + cdiv (sfBlocks d) 32 * (mrow + 32)
    else (if 2048 ≤ sfKB d then 216 else 252) + 24 + sfBlocks d * max (c (sfKB d)) (cdiv (sfBT d) 32 * mrow + 8)
  let copy := match sfCopy d with
    | 1 => 360 + sfOutMax d * (c (sfKB d) + c (sfVBY d))
    | 2 => 360 + sfOutMax d * c (sfVBY d)
    | _ => 0
  let head := if 2048 ≤ sfOutBytes d then 144 + 2 * cdiv (64 + sfLB d) 256 else 180 + cdiv (64 + sfLB d) 64
  32 + rdc (16 * sfBlocks d) + rdc (sfQB d) + score + (64 + 2 * sfBlocks d) + copy + head

/-- An entry of the block table: key and value address (R257). -/
def State.blockEntry (s : State) (d : BitVec 512) (i : Nat) : Nat × Nat :=
  let a := sfTable d + 16 * i
  (leNat (s.bytes a 8) % 2 ^ 52, leNat (s.bytes (a + 8) 8) % 2 ^ 52)

/-- Used block extents: key blocks when scored whole or copied, value blocks when copied (R257). -/
def State.blockSpans (s : State) (d : BitVec 512) (i : Nat) : List Span :=
  let e := s.blockEntry d i
  (if !sfSummary d || sfCopy d = 1 then [(e.1, sfKB d)] else []) ++ (if sfCopy d = 1 || sfCopy d = 2 then [(e.2, sfVBY d)] else [])

/-- Dot product of two rows as an MMA forms it (R174, R258). -/
def sfDot (d : BitVec 512) (q k : List Val) : Word :=
  let g := rowGroup (pairRow (sfKF d))
  groups g 0 (sfD d / g) (q.zip k)

/-- The elements of a row of D elements. -/
def sfElems (d : BitVec 512) (fmt : Nat) (b : List Byte) : List Val :=
  (List.range (sfD d)).map (fun j => elemVal fmt (le b (j * esize fmt) (esize fmt)))

/-- The greater of two FP32 codes under R209; a NaN is canonical. -/
def maxCode (a b : Nat) : Nat :=
  let x := fp32.decode a
  let y := fp32.decode b
  if x == .nan || y == .nan then 0x7FC00000 else if x.le y then b else a

/-- Score of block i (R258). -/
def State.blockScore (s : State) (d : BitVec 512) (qs : List (List Val)) (i : Nat) : Nat :=
  let ks :=
    if sfSummary d then [s.bytes (sfSumAddr d + i * sfRow d) (sfRow d)]
    else
      let n := if i + 1 = sfBlocks d then sfLastM1 d + 1 else sfBT d
      (List.range n).map (fun t => s.bytes ((s.blockEntry d i).1 + t * sfRow d) (sfRow d))
  let ps := (ks.map (sfElems d (sfKF d))).flatMap (fun k => qs.map (fun q => (sfDot d q k).toNat))
  match ps with
  | [] => 0x7FC00000
  | p :: l => l.foldl maxCode (maxCode p p)

/-- A scored block. -/
structure Scored where
  pos : Nat
  score : Nat
  deriving DecidableEq, Repr

def Scored.isNan (b : Scored) : Bool := fp32.decode b.score == .nan

/-- R260. -/
def rankBefore (a b : Scored) : Bool :=
  let x := fp32.decode a.score
  let y := fp32.decode b.score
  if a.isNan then b.isNan && a.pos ≤ b.pos
  else if b.isNan then true
  else if x.leq y && y.leq x then a.pos ≤ b.pos
  else y.leq x

/-- Block i is forced (R259). -/
def sfIsForced (d : BitVec 512) (i : Nat) : Bool := i < sfFirst d || sfBlocks d ≤ i + sfLastKeep d

/-- A block qualifies: its score is a number, and in threshold mode at least `THRESHOLD` (R261). -/
def sfQualifies (d : BitVec 512) (b : Scored) : Bool :=
  !b.isNan && (!sfThr d || (fp32.decode (sfThreshold d)).leq (fp32.decode b.score))

/-- Non-forced blocks selected, in rank order (R261). -/
def sfSelect (d : BitVec 512) (l : List Scored) : List Scored :=
  let free := orderBy rankBefore (l.filter (fun b => !sfIsForced d b.pos))
  if sfThr d then
    let q := free.filter (sfQualifies d)
    if sfMax d = 0 then q else q.take (sfMax d)
  else free.take (sfTopK d)

/-- The output in its order (R262). -/
def sfOrdered (d : BitVec 512) (l : List Scored) : List Scored :=
  let sel := l.filter (fun b => sfIsForced d b.pos) ++ sfSelect d l
  if sfRank d then orderBy rankBefore sel else orderBy (fun a b => a.pos ≤ b.pos) sel

/-- Header (R263) and list. -/
def sfHead (d : BitVec 512) (l out : List Scored) : List Piece :=
  let q := (l.filter (fun b => !sfIsForced d b.pos && sfQualifies d b)).length
  let trunc := if sfThr d && sfMax d != 0 && sfMax d < q then 1 else 0
  let nan := if l.any Scored.isNan then 2 else 0
  let kth := ((sfSelect d l).getLast?).elim 0x7FC00000 (·.score)
  let item (b : Scored) : List Byte := leBytes 4 (b.pos + 2 ^ 16 * (sfIsForced d b.pos).toNat) ++ leBytes 4 b.score
  [(sfDst d, leBytes 4 out.length ++ leBytes 4 q ++ leBytes 4 (trunc + nan) ++ leBytes 4 kth ++ leBytes 2 (sfForced d) ++ List.replicate 46 0),
   (sfDst d + 64, out.flatMap item)]

/-- Block copies in the output's order (R262). -/
def State.sfBlockPieces (s : State) (d : BitVec 512) (out : List Scored) : List (Span × Nat) :=
  let b := sfDst d + 64 + sfLB d
  (if sfCopy d = 1 then (indexed out).map (fun p => (((s.blockEntry d p.2.pos).1, sfKB d), b + p.1 * sfKB d)) else [])
    ++ (if sfCopy d = 1 || sfCopy d = 2 then
          (indexed out).map (fun p => (((s.blockEntry d p.2.pos).2, sfVBY d), b + sfKeys d + p.1 * sfVBY d))
        else [])

/-- What the block table's used addresses refuse (R233, R257). -/
def State.blockList (s : State) (x : Nat) (d : BitVec 512) : Status :=
  let spans := (List.range (sfBlocks d)).flatMap (s.blockSpans d)
  spans.foldl (fun a p => (a.worst (s.mapCheck x false p.1 p.2)).worst (if p.1 % 64 != 0 then .permission
    else if overlaps p.1 p.2 (sfDst d) (sfOutBytes d) then .addrFault else .ok)) Status.ok

/-- SCORE_FILTER. -/
def State.scoreFilterRun (s : State) (o : Op) (ue : List Nat) : State :=
  let d := o.desc
  let st := (s.scoreFilterCheck o.ctx d o.limit).listed (s.blockList o.ctx d)
  let rd := s.readAll ue (sfInputs d)
  if st != .ok then s.done o st
  else if (s.readCheck ue (sfTable d) (16 * sfBlocks d)) != .ok then
    s.finish o (s.readCheck ue (sfTable d) (16 * sfBlocks d)) (s.badAt ue (sfTable d) (16 * sfBlocks d))
  else
    let st := s.blockList o.ctx d
    let keys := if sfSummary d then [] else (List.range (sfBlocks d)).map (fun i => ((s.blockEntry d i).1, sfKB d))
    let kr := s.readAll ue keys
    let s1 := s.each (sfInputs d ++ keys) (fun p t => t.mark p.1 p.2)
    if st != .ok then s.done o st
    else if rd.1 != .ok then s1.finish o rd.1 rd.2
    else if kr.1 != .ok then s1.finish o kr.1 kr.2
    else
      let qs := (List.range (sfG d)).map (fun g => sfElems d (sfQF d) (s.bytes (sfQuery d + g * sfRow d) (sfRow d)))
      let l := (List.range (sfBlocks d)).map (fun i => { pos := i, score := s.blockScore d qs i : Scored })
      let out := sfOrdered d l
      let copies := s.sfBlockPieces d out
      let good := copies.takeWhile (fun p => s.readCheck ue p.1.1 p.1.2 == .ok)
      let pieces := good.map (fun p => (p.2, s.bytes p.1.1 p.1.2))
      let s2 := s1.each copies (fun p t => t.mark p.1.1 p.1.2)
      match copies[good.length]? with
      | some p => s2.failAfter o pieces (s.readCheck ue p.1.1 p.1.2) (s.badAt ue p.1.1 p.1.2) (fun _ => [])
      | none =>
        let q := (l.filter (fun b => !sfIsForced d b.pos && sfQualifies d b)).length
        let trunc := if sfThr d && sfMax d != 0 && sfMax d < q then 1 else 0
        let sent := sfHead d l out ++ pieces
        s2.endWith o sent (whenAll sent.length [(o.dieReg 0x304, trunc), (o.dieReg 0x308, (l.filter Scored.isNan).length),
          (o.dieReg 0x30C, sfBlocks d), (o.dieReg 0x310, out.length)])

def execScoreFilter (op : Nat) (ue : List Nat) (s : State) : Host.Outcome State Fault Refusal :=
  .next (s.onOp op (· == 0x33) (fun t o => t.scoreFilterRun o ue))

end Sys2Proof.Machine
end

