-- ==== Sys2Proof/Machine/Zgc.lean ====
section
/-! DEFINITION. The ZGC wire compression: COMPRESS, EXPAND and the feed of the array (R267-R289). -/

namespace Sys2Proof.Machine

-- the stream --------------------------------------------------------------------------------------------------------------

/-- Element size of an `ESIZE` code (R269). -/
def zEs (c : Nat) : Nat := if c = 3 then 1 else 2 ^ c

/-- Raw lengths of the blocks of n raw bytes (R268). -/
def zLens (n : Nat) : List Nat := (List.range (cdiv n 4096)).map (fun b => min 4096 (n - 4096 * b))

/-- R272. -/
def zCmax (n : Nat) : Nat := (zLens n).foldl (fun a r => a + 64 + cdiv r 64 * 64) 0

/-- Bytes with zeros up to a multiple of 64. -/
def pad64 (l : List Byte) : List Byte := l ++ List.replicate (cdiv l.length 64 * 64 - l.length) 0

/-- Byte plane j of a list of bytes (R270). -/
def plane (es j : Nat) (l : List Byte) : List Byte := (List.range (l.length / es)).map (fun i => l.getD (i * es + j) 0)

/-- Bytes equal to the first, at most 129 (R273). -/
def runLen : List Byte → Nat
  | [] => 0
  | b :: l => min 129 (1 + (l.takeWhile (· == b)).length)

/-- Length of the literal that starts here: up to 128 bytes, none of which starts a run of 3 (R273). -/
def litLen : Nat → List Byte → Nat
  | 0, _ => 0
  | _, [] => 0
  | f + 1, b :: l => if runLen (b :: l) < 3 then 1 + litLen f l else 0

/-- The compressor's run-length code of one plane (R273). -/
def rleCode : Nat → List Byte → List Byte
  | 0, _ => []
  | _, [] => []
  | f + 1, b :: l =>
    let r := runLen (b :: l)
    if 3 ≤ r then BitVec.ofNat 8 (0x7E + r) :: b :: rleCode f ((b :: l).drop r)
    else
      let n := litLen 128 (b :: l)
      BitVec.ofNat 8 (n - 1) :: (b :: l).take n ++ rleCode f ((b :: l).drop n)

/-- Element i of a block is present: some bit of it is set (R270). -/
def zPresent (es : Nat) (l : List Byte) (i : Nat) : Bool := ((l.drop (i * es)).take es).any (· != 0)

/-- SPARSE payload: bitmap, then present elements. -/
def sparseCode (es : Nat) (l : List Byte) : List Byte :=
  let n := l.length / es
  let bit (i : Nat) : Nat := if i < n && zPresent es l i then 2 ^ (i % 8) else 0
  (List.range (cdiv n 8)).map (fun k => BitVec.ofNat 8 ((List.range 8).foldl (fun a j => a + bit (8 * k + j)) 0))
    ++ ((List.range n).filter (zPresent es l)).flatMap (fun i => (l.drop (i * es)).take es)

/-- Payloads of the enabled methods that apply, by ascending code (R273). `m`: ZERO, SPARSE, PLANE_RLE enables. -/
def zMethods (es m : Nat) (l : List Byte) : List (Nat × List Byte) :=
  [(0, l)] ++ (if m.testBit 0 && l.all (· == 0) then [(1, [])] else []) ++ (if m.testBit 1 then [(2, sparseCode es l)] else [])
    ++ (if m.testBit 2 then [(3, (List.range es).flatMap (fun j => rleCode 4097 (plane es j l)))] else [])

/-- The method with the smallest padded payload; a tie goes to the lower code (R273). -/
def zChoose (es m : Nat) (l : List Byte) : Nat × List Byte :=
  (zMethods es m l).foldl (fun b p => if cdiv p.2.length 64 < cdiv b.2.length 64 then p else b) (0, l)

/-- Header of a block, with a check value (R269). -/
def zHeader (meth raw pay esize seq : Nat) (chk : Bool) (check : Nat) : List Byte :=
  leBytes 2 0x475A ++ [1, BitVec.ofNat 8 meth] ++ leBytes 2 raw ++ leBytes 2 pay ++ [BitVec.ofNat 8 esize, BitVec.ofNat 8 chk.toNat]
    ++ [0, 0] ++ leBytes 4 seq ++ leBytes 4 check ++ List.replicate 44 0

/-- A whole block of raw bytes, and its method. -/
def zBlock (esize m : Nat) (chk : Bool) (seq : Nat) (l : List Byte) : Nat × List Byte :=
  let c := zChoose (zEs esize) m l
  let p := pad64 c.2
  let h0 := zHeader c.1 l.length p.length esize (seq % 2 ^ 32) chk 0
  let k := if chk then (crc32c (h0 ++ p)).toNat else 0
  (c.1, zHeader c.1 l.length p.length esize (seq % 2 ^ 32) chk k ++ p)

-- COMPRESS ----------------------------------------------------------------------------------------------------------------

def cmSrc (d : BitVec 512) : Nat := dAddr d 16
def cmDst (d : BitVec 512) : Nat := dAddr d 24
def cmRaw (d : BitVec 512) : Nat := db d 32 4
def cmCap (d : BitVec 512) : Nat := db d 36 4
def cmSeq (d : BitVec 512) : Nat := db d 40 4
def cmCtrl (d : BitVec 512) : Nat := db d 44 2
def cmGran (d : BitVec 512) : Nat := db d 46 2
def cmRes (d : BitVec 512) : Nat := dAddr d 48
def cmEsize (d : BitVec 512) : Nat := nbits (cmCtrl d) 0 2

/-- Two extents of a list overlap. -/
def anyOverlap : List Span → Bool
  | [] => false
  | p :: l => l.any (fun q => overlaps p.1 p.2 q.1 q.2) || anyOverlap l

/-- Extents against the mapping and each other (R276): (first byte, bytes, written). -/
def State.extentCheck (s : State) (x : Nat) (l : List (Span × Bool)) : Status :=
  let st := l.foldl (fun a p => a.worst (s.mapCheck x p.2 p.1.1 p.1.2)) Status.ok
  if anyOverlap (l.map (·.1)) then st.worst .addrFault else st

/-- R276, R584, for COMPRESS. -/
def State.compressCheck (s : State) (x : Nat) (d : BitVec 512) (limit : Nat) : Status :=
  let bad := cmEsize d == 3 || 2 ^ 28 < cmRaw d || cmRaw d % zEs (cmEsize d) != 0
  let st := Status.all [
    (bad || cmCap d < zCmax (cmRaw d) || granBad (cmGran d) 2 limit
      || misaligned [(cmSrc d, 64), (cmDst d, 64), (cmRes d, 64)], .permission),
    (cmRaw d == 0, .zeroLenNoop)]
  st.worst (s.extentCheck x [((cmSrc d, cmRaw d), false), ((cmDst d, cmCap d), true), ((cmRes d, 64), true)])

/-- R277. -/
def zRd (b : Nat) : Nat := if 2048 ≤ b then 216 else 252
def compressCost (d : BitVec 512) : Nat :=
  32 + zRd (cmRaw d) + (zLens (cmRaw d)).foldl (fun a r => a + cdiv r 64 + 2) 0 + 24 + 180

/-- Blocks of the input up to the first that cannot be read: address in the stream, method, bytes. -/
def State.compressBlocks (s : State) (d : BitVec 512) (n : Nat) : List (Nat × Nat × List Byte) :=
  ((List.range n).foldl (fun (q : Nat × List (Nat × Nat × List Byte)) b =>
    let raw := s.bytes (cmSrc d + 4096 * b) (min 4096 (cmRaw d - 4096 * b))
    let k := zBlock (cmEsize d) (nbits (cmCtrl d) 4 3) ((cmCtrl d).testBit 2) (cmSeq d + b) raw
    (q.1 + k.2.length, q.2 ++ [(q.1, k.1, k.2)])) (cmDst d, [])).2

/-- COMPRESS (R273-R275). After a read error an open number of the earlier blocks has been written (R585). -/
def State.compressRun (s : State) (o : Op) (ue : List Nat) : State :=
  let d := o.desc
  let st := s.compressCheck o.ctx d o.limit
  if st != .ok then s.done o st
  else
    let lens := zLens (cmRaw d)
    let ok := (List.range lens.length).takeWhile (fun b => s.readCheck ue (cmSrc d + 4096 * b) (lens.getD b 0) == .ok)
    let bl := s.compressBlocks d ok.length
    let pieces := bl.map (fun p => (p.1, p.2.2))
    let s1 := s.mark (cmSrc d) (cmRaw d)
    -- blocks written, and those of them stored as RAW
    let stats (k : Nat) : List (Nat × Nat) :=
      [(o.dieReg 0x400, min k bl.length), (o.dieReg 0x404, ((bl.take k).filter (fun p => p.2.1 == 0)).length)]
    if ok.length < lens.length then
      let a := cmSrc d + 4096 * ok.length
      s1.failAfter o pieces (s.readCheck ue a (lens.getD ok.length 0)) (s.badAt ue a (lens.getD ok.length 0)) stats
    else
      let count (m : Nat) : Nat := (bl.filter (fun p => p.2.1 == m)).length
      let total := bl.foldl (fun a p => a + p.2.2.length) 0
      let line := leBytes 4 total ++ leBytes 4 bl.length ++ leBytes 4 (count 0) ++ leBytes 4 (count 1) ++ leBytes 4 (count 2)
        ++ leBytes 4 (count 3) ++ List.replicate 40 0
      s1.endWith o (pieces ++ [(cmRes d, line)]) stats

def execCompress (op : Nat) (ue : List Nat) (s : State) : Host.Outcome State Fault Refusal :=
  .next (s.onOp op (· == 0x40) (fun t o => t.compressRun o ue))

-- decoding ----------------------------------------------------------------------------------------------------------------

/-- What a payload yields: the decoded part, payload bytes used, and whether it would yield beyond the block (R278 order 5). -/
structure Yield where
  data : List Byte
  used : Nat
  excess : Bool
  deriving DecidableEq, Repr

/-- SPARSE (R270, R279): `n` elements of `es` bytes from bitmap and values. -/
def sparseYield (es n : Nat) (p : List Byte) : Yield :=
  let nb := cdiv n 8
  let bit (i : Nat) : Bool := (p.getD (i / 8) 0).getLsbD (i % 8)
  let stray := (List.range (8 * nb)).any (fun i => n ≤ i && bit i)
  let r := (List.range n).foldl (fun (q : Option Nat × List Byte) i =>
    match q.1 with
    | none => q
    | some v =>
      if p.length ≤ i / 8 then (none, q.2)
      else if !bit i then (some v, q.2 ++ List.replicate es 0)
      else if p.length < v + es then (none, q.2)
      else (some (v + es), q.2 ++ (p.drop v).take es)) (some nb, [])
  { data := r.2, used := r.1.getD p.length, excess := stray }

/-- One plane of run-length code: its bytes, what is left of the payload, and whether a control passes the plane's end (R271).
It is short when fewer than `n` bytes come out. -/
def planeYield : Nat → Nat → List Byte → List Byte × List Byte × Bool
  | _, 0, p => ([], p, false)
  | 0, _, p => ([], p, false)
  | _, _, [] => ([], [], false)
  | f + 1, n, c :: p =>
    let k := c.toNat
    let m := if k < 0x80 then k + 1 else k - 0x7E
    if n < m then ([], p, true)
    else if k < 0x80 then
      let q := p.take m
      if q.length < m then (q, [], false)
      else
        let r := planeYield f (n - m) (p.drop m)
        (q ++ r.1, r.2.1, r.2.2)
    else
      match p with
      | [] => ([], [], false)
      | v :: t =>
        let r := planeYield f (n - m) t
        (List.replicate m v ++ r.1, r.2.1, r.2.2)

/-- All planes in turn, until one is short or passes its end. -/
def planesYield (n : Nat) : Nat → List Byte → List (List Byte) × List Byte × Bool
  | 0, p => ([], p, false)
  | k + 1, p =>
    let r := planeYield (n + 1) n p
    if r.2.2 || r.1.length < n then ([r.1], r.2.1, r.2.2)
    else
      let q := planesYield n k r.2.1
      (r.1 :: q.1, q.2.1, q.2.2)

/-- PLANE_RLE: the decoded part ends before the first byte that no plane supplies (R279). -/
def rleYield (es n : Nat) (p : List Byte) : Yield :=
  let r := planesYield n es p
  let at? (i : Nat) : Option Byte := (r.1.getD (i % es) [])[i / es]?
  let cut := ((List.range (n * es)).takeWhile (fun i => (at? i).isSome)).length
  { data := (List.range cut).map (fun i => (at? i).getD 0), used := p.length - r.2.1.length, excess := r.2.2 }

/-- Payload of a method to raw bytes (R270). -/
def zYield (meth es raw : Nat) (p : List Byte) : Yield :=
  match meth with
  | 0 => { data := p.take raw, used := min raw p.length, excess := false }
  | 1 => { data := List.replicate raw 0, used := 0, excess := false }
  | 2 => sparseYield es (raw / es) p
  | _ => rleYield es (raw / es) p

/-- What one block of a stream gives (R278): status (OK, SHORT_BLOCK, or why it stops), order 4, decoded part, raw length, next byte. -/
structure ZOut where
  st : Status
  check : Bool
  data : List Byte
  raw : Nat
  next : Nat
  deriving DecidableEq, Repr

/-- EXPAND's fields (R281). -/
def exSrc (d : BitVec 512) : Nat := dAddr d 16
def exDst (d : BitVec 512) : Nat := dAddr d 24
def exComp (d : BitVec 512) : Nat := db d 32 4
def exDecl (d : BitVec 512) : Nat := db d 36 4
def exSeq (d : BitVec 512) : Nat := db d 40 4
def exCtrl (d : BitVec 512) : Nat := db d 44 2
def exEsize (d : BitVec 512) : Nat := nbits (exCtrl d) 0 2
def exReqChk (d : BitVec 512) : Bool := (exCtrl d).testBit 2
def exSink (d : BitVec 512) : Bool := (exCtrl d).testBit 3
def exResEn (d : BitVec 512) : Bool := (exCtrl d).testBit 4
def exGran (d : BitVec 512) : Nat := db d 46 2
def exRes (d : BitVec 512) : Nat := dAddr d 48
def exProg (d : BitVec 512) : Nat := dAddr d 56

/-- Order 1 of R278 for block b, whose header `h` is at stream byte `pos`. -/
def zHeaderBad (d : BitVec 512) (b pos : Nat) (h : List Byte) : Bool :=
  let raw := le h 4 2
  let pay := le h 6 2
  let more := pos + 64 + pay < exComp d
  let chk := (le h 9 1).testBit 0
  le h 0 2 != 0x475A || le h 2 1 != 1 || 3 < le h 3 1 || 2 < le h 8 1 || le h 8 1 != exEsize d
    || 4096 < raw || raw % zEs (exEsize d) != 0 || 4096 < pay || pay % 64 != 0
    || 1 < le h 9 1 || le h 10 2 != 0 || (h.drop 20).any (· != 0)
    || le h 12 4 != (exSeq d + b) % 2 ^ 32
    || (!chk && (le h 16 4 != 0 || exReqChk d))
    || (raw < 4096 && more)
    || (raw == 0 && le h 3 1 == 1 && pay == 0 && (b != 0 || more))

/-- Block b of a stream by R278: header, the payload bytes that lie within `COMP_BYTES`. -/
def zDecode (d : BitVec 512) (b pos : Nat) (h p : List Byte) : ZOut :=
  let raw := le h 4 2
  let pay := le h 6 2
  let meth := le h 3 1
  let out (st : Status) (check : Bool) (data : List Byte) : ZOut :=
    { st := st, check := check, data := data, raw := raw, next := pos + 64 + pay }
  let whole := pos + 64 + pay ≤ exComp d
  let y := zYield meth (zEs (exEsize d)) raw p
  if zHeaderBad d b pos h then out .mediaUncorrectable false []
  else if exDecl d - 4096 * b < raw then out .expansionOverflow false []
  else if cdiv raw 64 * 64 < pay || (meth == 1 && pay != 0) then out .expansionOverflow false []
  else if (le h 9 1).testBit 0 && whole && (crc32c (h.take 16 ++ [0, 0, 0, 0] ++ h.drop 20 ++ p)).toNat != le h 16 4 then
    out .mediaUncorrectable true []
  else if y.excess || (y.data.length == raw && ((p.drop y.used).any (· != 0) || 63 < (p.drop y.used).length)) then
    out .expansionOverflow false []
  else if y.data.length < raw then out .shortBlock false y.data
  else out .ok false y.data

/-- Header and payload of the block at stream byte `pos`, as memory holds them. -/
def State.zHead (s : State) (d : BitVec 512) (pos : Nat) : List Byte := s.bytes (exSrc d + pos) 64
def State.zPay (s : State) (d : BitVec 512) (pos : Nat) : List Byte :=
  s.bytes (exSrc d + pos + 64) (min (le (s.zHead d pos) 6 2) (exComp d - pos - 64))

/-- Reading the block at `pos` meets an error (R585); a header fault ends the reading at the header. -/
def State.zReadCheck (s : State) (ue : List Nat) (d : BitVec 512) (b pos : Nat) : Status :=
  let st := s.readCheck ue (exSrc d + pos) 64
  if st != .ok || zHeaderBad d b pos (s.zHead d pos) then st
  else s.readCheck ue (exSrc d + pos + 64) (s.zPay d pos).length

/-- Where that error lies. -/
def State.zBadAt (s : State) (ue : List Nat) (d : BitVec 512) (pos : Nat) : Nat :=
  if s.readCheck ue (exSrc d + pos) 64 != .ok then s.badAt ue (exSrc d + pos) 64
  else s.badAt ue (exSrc d + pos + 64) (s.zPay d pos).length

/-- A block was yielded: the run counts it (R279, R282, R289). -/
def ZRun.take (r : ZRun) (z : ZOut) : ZRun :=
  { pos := z.next
    block := r.block + 1
    blocks := r.blocks + 1
    raw := r.raw + z.raw
    yield := r.yield + z.data.length
    firstShort := r.firstShort.orElse (fun _ => if z.st == .shortBlock then some r.block else none)
    shorts := r.shorts + (if z.st == .shortBlock then 1 else 0)
    lastShort := z.st == .shortBlock }

/-- The stream has ended: a missing part counts once (R279). -/
def ZRun.close (r : ZRun) (d : BitVec 512) : ZRun :=
  if r.raw < exDecl d && !r.lastShort then
    { r with firstShort := r.firstShort.orElse (fun _ => some r.block), shorts := r.shorts + 1 }
  else r

-- EXPAND ------------------------------------------------------------------------------------------------------------------

/-- Extents of an EXPAND but for its result line (R276). -/
def exExtents (d : BitVec 512) : List (Span × Bool) :=
  ((exSrc d, exComp d), false) :: (if exSink d then [((exProg d, 64), false)] else [((exDst d, cdiv (exDecl d) 64 * 64), true)])

/-- R276, R584, for EXPAND. -/
def State.expandCheck (s : State) (x : Nat) (d : BitVec 512) (limit : Nat) : Status :=
  let res : List (Span × Bool) := if exResEn d then [((exRes d, 64), true)] else []
  let low := [(exSrc d, 64)] ++ (if exSink d then [(exProg d, 64)] else [(exDst d, 64)]) ++ (if exResEn d then [(exRes d, 64)] else [])
  let st := Status.all [
    (exEsize d == 3 || exComp d % 64 != 0 || 2 ^ 28 < exDecl d || exDecl d % zEs (exEsize d) != 0
      || granBad (exGran d) 2 limit || misaligned low, .permission),
    (exComp d == 0, .zeroLenNoop)]
  st.worst (s.extentCheck x (exExtents d ++ res))

/-- The result line may be written (R282, R584). -/
def State.expandLineOk (s : State) (x : Nat) (d : BitVec 512) (st : Status) : Bool :=
  exResEn d && st != .zeroLenNoop && st != .ctxFenced && st != .abortedFabric && st != .epochStale && exRes d % 64 == 0
    && s.ctxCheck x == .ok && s.mapCheck x true (exRes d) 64 == .ok
    && !(exExtents d).any (fun p => overlaps p.1.1 p.1.2 (exRes d) 64)

/-- The result line (R282). -/
def zLine (blocks first fail yield : Nat) : List Byte :=
  leBytes 4 blocks ++ leBytes 4 first ++ leBytes 4 fail ++ leBytes 4 yield ++ List.replicate 48 0

/-- Write the result line, where R282 has one; the status, or why the line failed. -/
def State.expandLine (s : State) (x : Nat) (d : BitVec 512) (st : Status) (line : List Byte) : State × Status :=
  if s.expandLineOk x d st then
    let r := s.save x (exRes d) line
    (r.1, st.worst r.2)
  else (s, st)

/-- An EXPAND ends at a status. DEDUCED, unsafe: notes/assumptions/27.md. -/
def State.expandEnd (s : State) (o : Op) (st : Status) (fail : Option Nat) (bad check : Nat) (stall : Nat) : State :=
  let z := o.run.zgc
  let r := s.expandLine o.ctx o.desc st (zLine z.blocks (z.firstShort.getD 0xFFFFFFFF) (fail.getD 0xFFFFFFFF) z.yield)
  let excess := if r.2 == .expansionOverflow then 1 else 0
  -- a stream of one empty block yields none (R151)
  let stats := [(o.dieReg 0x408, if r.2 == .zeroLenNoop then 0 else z.blocks), (o.dieReg 0x40C, excess), (o.dieReg 0x410, z.shorts), (o.dieReg 0x414, bad),
    (o.dieReg 0x418, check), (o.dieReg 0x41C, stall)]
  r.1.done { o with stats := stats } r.2

/-- An EXPAND fails before any data moves (R282). -/
def State.expandReject (s : State) (o : Op) (st : Status) : State :=
  let r := s.expandLine o.ctx o.desc st (zLine 0 0xFFFFFFFF 0xFFFFFFFF 0)
  r.1.done o r.2

/-- How long body instructions of a feed waited on it depends on the time of accesses, which is open: a free value; 0 without a feed.
DESIGN CHOICE, unsafe: notes/assumptions/17.md. -/
def State.feedStall (s : State) (o : Op) : State × Nat := if o.phase == .stepping then (s.fresh.2, s.fresh.1.toNat) else (s, 0)

/-- A block stops the operation (R278, R280): the context is faulted on orders 1 and 4. -/
def State.expandStop (s : State) (o : Op) (z : ZOut) : State :=
  let media := z.st == .mediaUncorrectable
  let w := s.feedStall o
  (w.1.expandEnd o z.st (some o.run.zgc.block) (if media then 1 else 0) (if z.check then 1 else 0) w.2).when media (·.fault o.ctx 3)

/-- A read of the stream fails (R585). -/
def State.expandReadFail (s : State) (o : Op) (ue : List Nat) (st : Status) : State :=
  let w := s.feedStall o
  (w.1.expandEnd o st (some o.run.zgc.block) 0 0 w.2).when (st == .mediaUncorrectable) (·.media o (s.zBadAt ue o.desc o.run.zgc.pos))

/-- The status at the end of a stream whose blocks all yielded. -/
def expandStatus (d : BitVec 512) (z : ZRun) : Status :=
  if z.shorts != 0 then .shortBlock else if exDecl d = 0 then .zeroLenNoop else .ok

/-- What writing a list of bytes at `DST` for SINK 0 leaves: the last line is filled with zeros (R281). -/
def State.expandWrite (s : State) (o : Op) (a : Nat) (l : List Byte) : State × Status := if exSink o.desc then (s, .ok) else s.save o.ctx a l

/-- Blocks in stream order, to memory (R278-R281). -/
def State.expandBlocks (s : State) (o : Op) (ue : List Nat) : Nat → State
  | 0 => s.expandEnd o .ok none 0 0 0
  | f + 1 =>
    let d := o.desc
    let r := o.run.zgc
    if exComp d ≤ r.pos then
      let c := r.close d
      let w := s.expandWrite o (exDst d + r.raw) (List.replicate (cdiv (exDecl d) 64 * 64 - r.raw) 0)
      w.1.expandEnd { o with run := { o.run with zgc := c } } ((expandStatus d c).worst w.2) none 0 0 0
    else
      let rd := s.zReadCheck ue d r.block r.pos
      let s1 := s.mark (exSrc d + r.pos) 64
      let z := zDecode d r.block r.pos (s.zHead d r.pos) (s.zPay d r.pos)
      if rd != .ok then s1.expandReadFail o ue rd
      else if !z.st.success && z.st != .shortBlock then s1.expandStop o z
      else
        let w := s1.expandWrite o (exDst d + 4096 * r.block) (z.data ++ List.replicate (z.raw - z.data.length) 0)
        let o1 : Op := { o with run := { o.run with zgc := r.take z } }
        if w.2 != .ok then w.1.expandEnd o w.2 (some r.block) 0 0 0 else w.1.expandBlocks o1 ue f

-- feeding the array -------------------------------------------------------------------------------------------------------

/-- The feed record, laid out as an ARRAY_PROGRAM descriptor with HEAD and TAIL before it (R284). -/
def State.feedRecord (s : State) (d : BitVec 512) : BitVec 512 := BitVec.ofNat 512 (leNat (s.bytes (exProg d) 64))
def feedHead (r : BitVec 512) : Nat := db r 0 2
def feedTail (r : BitVec 512) : Nat := db r 2 2

/-- Blocks that the body runs for. -/
def feedBlocks (d : BitVec 512) : Nat := cdiv (exDecl d) 4096

/-- The parts of a program: head, body, tail. -/
def feedParts (r : BitVec 512) (prog : List Nat) : List Nat × List Nat × List Nat :=
  (prog.take (feedHead r), (prog.drop (feedHead r)).take (prog.length - feedHead r - feedTail r), prog.drop (prog.length - feedTail r))

/-- The unrolled sequence (R285). -/
def feedUnrolled (d r : BitVec 512) (prog : List Nat) : List Nat :=
  let p := feedParts r prog
  p.1 ++ (List.replicate (feedBlocks d) p.2.1).flatten ++ p.2.2

/-- Instructions that count both accumulators as written in the float class (R285): ACC_IN of FP32 to each. -/
def feedAccs : List Nat := [0x11, 0x11 + 2 ^ 16]

/-- An instruction reads the feed (lines 0-63). -/
def readsFeed (i : Nat) : Bool := (readSpans i).any (fun p => overlaps p.1 p.2 0 64)

/-- What R285 forbids besides R179 and R180. -/
def feedBad (body : Bool) (i : Nat) : Bool :=
  (writeSpans i).any (fun p => overlaps p.1 p.2 0 128) || (readSpans i).any (fun p => overlaps p.1 p.2 64 64) || (!body && readsFeed i)

/-- Time of the fused run: placed instructions, d[b-1], d[b-2]'s releases (R286). -/
structure Fused where
  placed : List Placed
  d1 : Nat
  rel1 : Nat
  rel2 : Nat
  deriving DecidableEq, Repr

/-- One body instruction of the current invocation. -/
def fusedInstr (r : BitVec 512) (db : Nat) (q : List Placed × Nat) (i : Nat) : List Placed × Nat :=
  let l := placeAfter r (if readsFeed i then db else 0) q.1 i
  match l with
  | p :: _ => if readsFeed i && !uopEmpty i then (l, max q.2 p.free) else (l, q.2)
  | [] => (l, q.2)

/-- One invocation of the body for a block of `rl` raw bytes. -/
def fusedBlock (r : BitVec 512) (body : List Nat) (f : Fused) (rl : Nat) : Fused :=
  let db := max f.d1 f.rel2 + 1 + cdiv rl 64
  let q := body.foldl (fusedInstr r db) (f.placed, 0)
  { placed := q.1, d1 := db, rel1 := q.2, rel2 := f.rel1 }

/-- T_fused (R286). -/
def tFused (d r : BitVec 512) (prog : List Nat) : Nat :=
  let p := feedParts r prog
  let f0 : Fused := { placed := p.1.foldl (placeInstr r) [], d1 := zRd (exComp d), rel1 := 0, rel2 := 0 }
  let f := (zLens (exDecl d)).foldl (fusedBlock r p.2.1) f0
  let l := p.2.2.foldl (placeInstr r) f.placed
  l.foldl (fun a p => max a p.done) f.d1

/-- Decode of the feed program (R284, R285, R287). -/
def State.feedDecode (s : State) (o : Op) (r : BitVec 512) (prog : List Nat) : Status :=
  let p := feedParts r prog
  let own := p.1.map (feedBad false) ++ p.2.1.map (feedBad true) ++ p.2.2.map (feedBad false)
  let u := feedUnrolled o.desc r prog
  let l := (List.range u.length).map (s.instrCheck o.ctx r (exGran o.desc) feedAccs u)
  let st := l.foldl Status.worst (if own.any id then Status.permission else .ok)
  if u.any (uopBad (exGran o.desc)) then st else if tFused o.desc r prog = apCost r then st else st.worst .permission

/-- Checks of the feed record before its program is fetched (R284, R179). -/
def State.feedCheck (s : State) (o : Op) (r : BitVec 512) : Status :=
  (Status.all [(apCount r ≤ feedHead r + feedTail r || apGran r != exGran o.desc || 4096 < apCount r || apProg r % 64 != 0, .permission)]).worst
    (s.mapCheck o.ctx false (apProg r) (16 * apCount r))

/-- Instruction lists run in the operation's window, on its accumulators. -/
def State.feedRun (s : State) (o : Op) (r : BitVec 512) (l : List Nat) (ue : List Nat) : State × Op × Status :=
  l.foldl (fun (q : State × Op × Status) i =>
    if q.2.2 != .ok then q
    else
      let w := q.1.instrRun { q.2.1 with desc := r } i ue
      (w.1, { w.2.1 with desc := o.desc }, w.2.2)) (s, o, .ok)

/-- The program fails at an instruction (R193). -/
def State.feedFail (s : State) (o : Op) (st : Status) : State :=
  let w := s.feedStall o
  (w.1.expandEnd o st none 0 0 w.2).when (st == .mediaUncorrectable) (·.media o 0)

/-- The feed's program, as fetched when the operation started. -/
def Op.feedProg (o : Op) : List Nat := (o.run.prog.drop 4).map (·.toNat)
def Op.feedRec (o : Op) : BitVec 512 :=
  BitVec.ofNat 512 ((o.run.prog.take 4).foldr (fun b a => b.toNat + 2 ^ 128 * a) 0)

/-- EXPAND with `SINK` 1 up to its first block: record, program, head. The feed record is kept before the program, in four parts. -/
def State.feedStart (s : State) (o : Op) (ue : List Nat) : State :=
  let rd := s.readCheck ue (exProg o.desc) 64
  if rd != .ok then (s.expandReject o rd).when (rd == .mediaUncorrectable) (·.media o (s.badAt ue (exProg o.desc) 64))
  else
    let r := s.feedRecord o.desc
    let st := s.feedCheck o r
    if st != .ok then s.expandReject o st
    else
      let fd := s.readCheck ue (apProg r) (16 * apCount r)
      if fd != .ok then (s.expandReject o fd).when (fd == .mediaUncorrectable) (·.media o (s.badAt ue (apProg r) (16 * apCount r)))
      else
        let prog := s.apFetch r
        let dc := s.feedDecode o r prog
        let s := (s.mark (exProg o.desc) 64).mark (apProg r) (16 * apCount r)
        if dc != .ok then s.expandReject o dc
        else if exDecl o.desc = 0 then s.expandBlocks o ue 2
        else
          let zero : Tile := { int := false, cells := List.replicate 1024 0 }
          let words := (List.range 4).map (fun k => BitVec.ofNat 128 (nbits r.toNat (128 * k) 128)) ++ prog.map (BitVec.ofNat 128)
          let o1 : Op := { o with
            phase := .stepping, run := { prog := words, pc := words.length, acc0 := some zero, acc1 := some zero } }
          let q := s.feedRun o1 r (feedParts r prog).1 ue
          if q.2.2 != .ok then q.1.feedFail q.2.1 q.2.2 else q.1.setOp q.2.1

/-- EXPAND (R278-R284). DEDUCED, unsafe: notes/assumptions/27.md. -/
def State.expandRun (s : State) (o : Op) (ue : List Nat) : State :=
  let st := s.expandCheck o.ctx o.desc o.limit
  if st != .ok then s.expandReject o st
  else if exSink o.desc then s.feedStart o ue
  else s.expandBlocks o ue (exComp o.desc / 64 + 1)

/-- Unit cost of EXPAND (R283, R287): that of a feed follows from T_fused of the program its record names. -/
def State.expandCost (s : State) (d : BitVec 512) : Nat :=
  if exSink d then
    let r := s.feedRecord d
    32 + 216 + 2 * cdiv (apCount r) 16 + (if apCount r ≤ 4096 then tFused d r (s.apFetch r) else 0) + (if exResEn d then 180 else 0)
  else 32 + zRd (exComp d) + (zLens (exDecl d)).foldl (fun a r => a + 1 + cdiv r 64) 0 + 24 + 180

def execExpand (op : Nat) (ue : List Nat) (s : State) : Host.Outcome State Fault Refusal :=
  .next (s.onOp op (· == 0x41) (fun t o => t.expandRun o ue))

/-- A decoded block enters its feed slot, the other bytes of the slot are zero, and the body runs over it (R285, R286): its
instructions name lines 0-63, which are slot b mod 2. -/
def State.feedBlock (s : State) (o : Op) (data : List Byte) (ue : List Nat) : State × Op × Status :=
  let slot := o.run.zgc.block % 2
  let w := o.win
  let full := data ++ List.replicate (4096 - data.length) 0
  let keep := s.scrBytes w 0 4096
  let s1 := s.scrPut w (4096 * slot) full
  let s2 := if slot = 0 then s1 else s1.scrPut w 0 full
  let r := s2.feedRun o o.feedRec (feedParts o.feedRec o.feedProg).2.1 ue
  (if slot = 0 then r.1 else r.1.scrPut w 0 keep, r.2.1, r.2.2)

/-- The stream and the body have ended: the tail runs and the operation ends (R288). -/
def State.feedEnd (s : State) (o : Op) (ue : List Nat) : State :=
  let q := s.feedRun o o.feedRec (feedParts o.feedRec o.feedProg).2.2 ue
  let f := q.1.feedStall o
  if q.2.2 != .ok then q.1.feedFail q.2.1 q.2.2
  else f.1.expandEnd q.2.1 (expandStatus o.desc q.2.1.run.zgc) none 0 0 f.2

/-- The next block of a feed: a stream block, a missing one (its slot holds zeros), or the end (R286, R288). -/
def State.feedStep (s : State) (o : Op) (ue : List Nat) : State :=
  let d := o.desc
  let r := o.run.zgc
  let nb := feedBlocks d
  let finish (q : State × Op × Status) (z : ZRun) : State :=
    let o2 : Op := { q.2.1 with run := { q.2.1.run with zgc := z } }
    let o3 : Op := { q.2.1 with run := { q.2.1.run with zgc := z.close d } }
    if q.2.2 != .ok then q.1.feedFail q.2.1 q.2.2
    else if exComp d ≤ z.pos && nb ≤ z.block then q.1.feedEnd (if z.block = r.block + 1 && r.pos < exComp d then o3 else o2) ue
    else q.1.setOp o2
  if exComp d ≤ r.pos then
    -- a missing block: the first one closes the count of R279
    let c := if r.block = r.blocks then r.close d else r
    finish (s.feedBlock o [] ue) { c with block := r.block + 1 }
  else
    let rd := s.zReadCheck ue d r.block r.pos
    let z := zDecode d r.block r.pos (s.zHead d r.pos) (s.zPay d r.pos)
    let s1 := s.mark (exSrc d + r.pos) 64
    if rd != .ok then s1.expandReadFail o ue rd
    else if !z.st.success && z.st != .shortBlock then s1.expandStop o z
    else if nb ≤ r.block then finish (s1, o, .ok) (r.take z)
    else finish (s1.feedBlock o z.data ue) (r.take z)

/-- EXPAND_BLOCK_DECODE. Each body invocation runs in the command that decodes its block, so the credit rule always holds. -/
def execExpandBlockDecode (op : Nat) (ue : List Nat) (scr : ScrIn) (s : State) : Host.Outcome State Fault Refusal :=
  .next (match s.op op with
    | some o => if o.phase == .stepping && dOpcode o.desc == 0x41 && !s.opHalted o then
        s.coherent (.op op) (fun t => ((t.scrIn o.win scr).feedStep o ue).stepped o) else s
    | none => s)

end Sys2Proof.Machine
end

