-- ==== Sys2Proof/Machine/Sequencer.lean ====
section
/-! DEFINITION. The sequencers: descriptors read from their rings, started, stopped, preempted and completed; Ephemeris entries
(R94-R100, R110, R123-R136, R144, R149, R154-R156, R163, R195-R198, R524, R586). -/

namespace Sys2Proof.Machine

-- costs and checks --------------------------------------------------------------------------------------------------------

/-- Opcodes with a meaning (R135, R364, R357, R360). -/
def opKnown (c : Nat) : Bool :=
  c ≤ 3 || c == 0x10 || c == 0x20 || (0x30 ≤ c && c ≤ 0x33) || c == 0x40 || c == 0x41 || (0x50 ≤ c && c ≤ 0x55) || c == 0x58 || c == 0x59

/-- Opcodes that need an engine when dynamic (R135). -/
def opEngine (c : Nat) : Bool := c == 1 || c == 2 || (0x10 ≤ c && c < 0x50)

/-- `UNIT` under which an opcode runs at an entry (R136); none when it is not schedulable. -/
def opUnit (c unit : Nat) : Bool :=
  match c with
  | 0x00 => true
  | 0x03 => true
  | 0x10 => unit == 0
  | 0x20 => unit == 1
  | 0x40 => unit == 3
  | 0x41 => unit == 4
  | _ => 0x30 ≤ c && c ≤ 0x33 && unit == 2

/-- Scratch granules of a descriptor (R161). -/
def opGran (d : BitVec 512) : Nat :=
  match dOpcode d with
  | 0x10 => apGran d
  | 0x20 => rdGran d
  | 0x30 => gaGran d
  | 0x31 => grGran d
  | 0x32 => rfGran d
  | 0x33 => sfGran d
  | 0x40 => cmGran d
  | 0x41 => exGran d
  | _ => 0

/-- Unit cost in ACLK (R135 and the opcodes' chapters). DESIGN CHOICE, unsafe in part: notes/assumptions/13.md. -/
def State.unitCost (s : State) (d : BitVec 512) : Nat :=
  match dOpcode d with
  | 0x00 => 0
  | 0x01 => Config.genericCost 1 (copyLen d)
  | 0x02 => Config.genericCost 2 (fillLen d)
  | 0x03 => 24
  | 0x10 => apUnitCost d
  | 0x20 => redCost d
  | 0x30 => gatherCost d
  | 0x31 => gatherReduceCost d
  | 0x32 => rowFilterCost d
  | 0x33 => scoreFilterCost d
  | 0x40 => compressCost d
  | 0x41 => s.expandCost d
  | _ => 0

/-- What an operation's own descriptor fails, before any data moves (R18, R135, R477); a queue on a die outside its context's slice fails
each descriptor (R483). The second stage of the address checks ranks above a zero length (R18, R233). -/
def State.opCheck (s : State) (o : Op) : Status :=
  let d := o.desc
  let own : Status :=
    match dOpcode d with
    | 0x01 => s.copyCheck o.ctx d
    | 0x02 => s.fillCheck o.ctx d
    | 0x03 => s.counterCheck o.ctx d
    | 0x10 => s.apCheck o.ctx d o.limit
    | 0x20 => s.redCheck o o.limit o.dynamic
    | 0x30 => (s.gatherCheck o.ctx d o.limit).listed (s.gatherList d)
    | 0x31 => (s.gatherReduceCheck o.ctx d o.limit).listed (s.bagList d)
    | 0x32 => s.rowFilterCheck o.ctx d o.limit
    | 0x33 => (s.scoreFilterCheck o.ctx d o.limit).listed (s.blockList o.ctx d)
    | 0x40 => s.compressCheck o.ctx d o.limit
    | 0x41 => s.expandCheck o.ctx d o.limit
    | _ => .ok
  let pre := Status.all [(!opKnown (dOpcode d) || (dWaitEn d && 1 < dCond d) || !s.sliceDie (s.ctxSlice o.ctx) (o.queue / 4096), .permission)]
  ((s.ctxCheck o.ctx).worst pre).worst own

-- rings -------------------------------------------------------------------------------------------------------------------

/-- Address of ring slot i of queue q. -/
def ringSlot (s : State) (q i : Nat) : Nat :=
  let b := queueBlock q
  (s.rd (b + 8)).toNat + 2 ^ 32 * (s.rd (b + 0xC)).toNat + 64 * (i % 2 ^ s.fld (b + 4) 8 5)

/-- A queue stops on a fault of R126: ERROR, its `Q_ERR` bit, an event record of kind 4. DEDUCED, unsafe: notes/assumptions/15.md. -/
def qFault (s : State) (q i : Nat) (st : Status) (m : Word) : State :=
  let s1 : State := { s with heads := s.heads.filter (fun h => h.queue != q) }
  (qErr (qSetState s1 q 4) q m).evlog q st 4 0 i

/-- Code of a ring read (R126). `tf`: it meets a quota or tier fault. -/
def ringCheck (s : State) (q i : Nat) (ue : List Nat) (tf : Bool) : Status :=
  let a := ringSlot s q i
  let st := s.mapCheck (s.ffld (queueBlock q) 0 10) false a 64
  if st != .ok then .addrFault else if tf then .quota else if s.readCheck ue a 64 != .ok then .mediaUncorrectable else .ok

/-- The descriptor that a ring slot holds. -/
def ringDesc (s : State) (q i : Nat) : BitVec 512 := BitVec.ofNat 512 (leNat (s.bytes (ringSlot s q i) 64))

/-- The descriptor's wait condition holds now (R140). -/
def waitNow (s : State) (x : Nat) (d : BitVec 512) : Bool :=
  match s.ctr x (dWaitCtr d) with
  | some c => waitHolds (dCond d) (s.ctrVal c) (dValue d)
  | none => false

/-- The head descriptor of a ring is read, unless it was before (R123, R126): the state, and the head if the queue goes on. -/
def qRead (s : State) (q : Nat) (ue : List Nat) (tf : Bool) : State × Option Head :=
  let i := (s.rd (queueBlock q + 0x24)).toNat
  match s.heads.find? (fun h => h.queue == q && h.index == i) with
  | some h => (s, some h)
  | none =>
    let x := s.ffld (queueBlock q) 0 10
    let st := ringCheck s q i ue tf
    let d := ringDesc s q i
    if st != .ok then ((qFault s q i st 0x8).when (st == .mediaUncorrectable) (·.errLog 0xC 5 q x (ringSlot s q i) 0), none)
    else if (s.ctr x (dDone d)).isNone || (dWaitEn d && (s.ctr x (dWaitCtr d)).isNone) then (qFault s q i .permission 0x10, none)
    else
      let h : Head := { queue := q, index := i, desc := d, met := !dWaitEn d || 1 < dCond d || waitNow s x d }
      ({ s with heads := s.heads ++ [h] }, some h)

/-- A stopped operation reads its descriptor again (R123): the state, and the operation if the queue goes on. -/
def qReread (s : State) (o : Op) (ue : List Nat) (tf : Bool) : State × Option Op :=
  if o.phase == .parked || o.old then (s, some o)
  else
    let st := ringCheck s o.queue o.index ue tf
    if st != .ok then
      ((qFault s o.queue o.index st 0x8).when (st == .mediaUncorrectable) (·.errLog 0xC 5 o.queue o.ctx (ringSlot s o.queue o.index) 0), none)
    else (s, some { o with desc := ringDesc s o.queue o.index })

/-- The operation of a queue that waits to start again, the oldest first (R133, R219). -/
def qWaiting (s : State) (q : Nat) : Option Op := (qOps s q).find? (fun o => o.phase == .restart || o.phase == .parked)

-- starting and ending -----------------------------------------------------------------------------------------------------

/-- Operations in flight of the queues of die d (R154). -/
def dieOps (s : State) (d : Nat) : List Op := s.ops.filter (fun o => o.queue / 4096 == d)

/-- `DIE_INFLIGHT`, and its peak: the highest value that it held or holds (R156). DESIGN CHOICE, unsafe: notes/assumptions/17.md. -/
def inflightSync (s : State) (d : Nat) : State :=
  let n := (dieOps s d).length
  (s.wrn (dieReg d 0x100) n).wrn (dieReg d 0x104) (max n (max (s.rd (dieReg d 0x100)).toNat (s.rd (dieReg d 0x104)).toNat))

/-- Work is under way that a stop or a preemption ends. -/
def Phase.isWork : Phase → Bool
  | .running => true
  | .stepping => true
  | .remote _ => true
  | .boundary => true
  | _ => false

/-- An operation occupies its engine. -/
def Op.onEngine (o : Op) : Bool := o.phase.isWork && o.phase != .boundary

/-- The operation that engine e runs. -/
def State.engineOp (s : State) (e : Nat) : Option Op := s.ops.find? (fun o => o.engine == some e && o.onEngine)

/-- Engine e is quarantined, by the bit in force (R198). -/
def State.quarantined (s : State) (e : Nat) : Bool := s.fbit (engineBlock e + 0x14) 0

/-- Engine e's quarantine ends at this frame boundary: it rejoins the active Ephemeris at a later epoch boundary (R198). -/
def State.engineOut (s : State) (e : Nat) : State :=
  { s with eph := { s.eph with outEngines := s.eph.outEngines.filter (fun p => p.1 != e) ++ [(e, s.time.frame)] } }

/-- `ENG_STATE` of an engine that runs nothing any more; how long it was busy is a matter of time, so `ENG_BUSY` moves by a free
value (R195, R196). DESIGN CHOICE, unsafe: notes/assumptions/17.md. -/
def State.engineIdle (s : State) (e : Nat) : State :=
  let f := s.fresh
  if (s.engineOp e).isSome then s
  else (f.2.wrFld (engineBlock e + 4) 0 3 (if s.quarantined e then 3 else 0)).wrap (engineBlock e + 0x10) f.1.toNat

/-- Lines of a window read as zero, and none is poisoned (R163, R164); an open stream reduction with a line of it has lost its window
(R225). -/
def State.scrClear (s : State) (e first n : Nat) : State :=
  let keys := (List.range n).map (fun g => scrKey e (first + g) 0 / 4096)
  let hit (r : Stream) : Bool := r.isOpen && (List.range r.gran).any (fun g => keys.contains (scrKey r.engine (r.scr + g) 0 / 4096))
  { s with
    scr := s.scr.filter (fun c => !keys.contains (c.1 / 4096))
    scrPoison := s.scrPoison.filter (fun l => !keys.contains (l / 64))
    reds := s.reds.map (fun (r : Stream) => if hit r then { r with invalid := true } else r) }

/-- Keep an engine's last 256 starts (R524). -/
def State.history (s : State) (o : Op) (e : Nat) : State :=
  let h : Hist := { engine := e, queue := o.queue, index := o.index, ctx := o.ctx, gen := o.gen, desc := o.desc, frame := s.time.frame,
                    scr := o.scr, gran := o.gran }
  let mine := (s.health.history.filter (fun k => k.engine == e)) ++ [h]
  { s with health := { s.health with history := s.health.history.filter (fun k => k.engine != e) ++ mine.drop (mine.length - 256) } }

/-- An operation is in flight from now on. -/
def State.enter (s : State) (o : Op) (isNew : Bool) : State :=
  let o1 : Op := { o with phase := .running, startFrame := s.time.frame, run := {}, got := [], stats := [] }
  inflightSync (if isNew then { s with ops := s.ops ++ [o1], nextOp := s.nextOp + 1 } else s.setOp o1) (o.queue / 4096)

/-- An operation runs from now on: its engine shows it, and the start is recorded. -/
def State.launch (s : State) (o : Op) (isNew : Bool) : State :=
  let s1 := s.enter o isNew
  let s2 := match o.engine with
    | some e => (s1.history o e).wrn (engineBlock e + 4) ((if o.dynamic then 2 else 1) + 2 ^ 16 * o.ctx)
    | none => s1
  s2.trace 1 (o.engine.getD o.queue) o.ctx 0

/-- A new operation takes its descriptor from the ring: `Q_ISSUE` moves on. -/
def qTake (s : State) (q : Nat) : State :=
  let b := queueBlock q
  let i := s.rd (b + 0x24)
  let s1 := s.wr (b + 0x24) (i + 1)
  { s1 with
    heads := s1.heads.filter (fun h => h.queue != q || h.index != i.toNat)
    bells := liveBells (i + 1) (s1.rd (b + 0x20)) q s1.bells }

/-- The operation of a head descriptor. DEDUCED, unsafe: notes/assumptions/19.md. -/
def State.newOp (s : State) (h : Head) (dynamic : Bool) : Op :=
  let x := s.ffld (queueBlock h.queue) 0 10
  { id := s.nextOp, queue := h.queue, index := h.index, ctx := x, gen := s.ctxGen x, desc := h.desc, dynamic := dynamic }

/-- An open stream reduction closes with its descriptor's code. -/
def State.endWithCode (s : State) (o : Op) (st : Status) : State :=
  if isStream o.desc then
    match s.redOf o with
    | some r => s.redClose 64 r st
    | none => s.done o st
  else s.done o st

/-- An operation ends before it runs: an EXPAND still writes its result line (R282); a REDUCE that is too long is counted on the die of
its engine, or of its queue where it found none (R204, R229). DEDUCED, unsafe: notes/assumptions/19.md. -/
def State.reject (s : State) (o : Op) (isNew : Bool) (st : Status) : State :=
  let s1 := (s.enter o isNew).when (dOpcode o.desc == 0x20 && st == .capacityExhausted)
    (·.sat (dieReg (o.engine.elim (o.queue / 4096) (· / 64)) 0x210) 1)
  if dOpcode o.desc = 0x41 then s1.expandReject o st else s1.endWithCode o st

/-- What an operation writes besides a result line: first byte and bytes. -/
def opOut (d : BitVec 512) : Span :=
  match dOpcode d with
  | 0x01 => (copyDst d, copyLen d)
  | 0x02 => (fillDst d, fillLen d)
  | 0x30 => (gaDst d, gaCount d * gaRow d)
  | 0x31 => (grDst d, grBagCount d * grOB d)
  | 0x32 => (rfDst d, rfOutBytes d)
  | 0x33 => (sfDst d, sfOutBytes d)
  | 0x40 => (cmDst d, cmCap d)
  | 0x41 => if exSink d then (0, 0) else (exDst d, cdiv (exDecl d) 64 * 64)
  | _ => (0, 0)

/-- The whole work of an operation that writes `opOut`. -/
def State.wholeRun (s : State) (o : Op) : State :=
  match dOpcode o.desc with
  | 0x01 => s.copyRun o []
  | 0x02 => s.fillRun o
  | 0x30 => s.gatherRun o []
  | 0x31 => s.gatherReduceRun o []
  | 0x32 => s.rowFilterRun o []
  | 0x33 => s.scoreFilterRun o []
  | 0x40 => s.compressRun o []
  | 0x41 => s.expandRun o []
  | _ => s

/-- An operation is stopped where it stands (R98, R216, R505): the writes that it has made stay. Which they are is open: of a memory-mode
REDUCE the results of some segments, of the others a first part of their output. DESIGN CHOICE, unsafe in part: notes/assumptions/16.md. -/
def State.stopPart (s : State) (o : Op) : State :=
  if o.phase != .running || s.opCheck o != .ok then s
  else if dOpcode o.desc = 0x20 then (if isStream o.desc then s else (s.redPart o).1)
  else
    let p := opOut o.desc
    let f := s.fresh
    let n := f.1.toNat % (p.2 + 1)
    if p.2 = 0 || s.isAway p.1 p.2 then s else (f.2.save o.ctx p.1 ((s.wholeRun o).bytes p.1 n)).1

/-- An operation that ran has been stopped or preempted: it goes back to the head of its queue (R98, R110, R133), and its engine's failure
registers go on recording it (R586). -/
def State.putBack (s0 : State) (o : Op) : State :=
  let s := s0.stopPart o
  let o1 : Op := { o with phase := .restart, engine := none, placed := o.engine.orElse (fun _ => o.placed), run := {}, got := [], stats := [], failIndex := 0, decodeFail := false }
  let s1 : State := { s with link := { s.link with awaits := s.link.awaits.filter (fun a => a.who != Who.op o.id) } }
  let s2 := (s1.setOp o1).trace 3 (o.engine.getD o.queue) o.ctx 0
  match o.engine with
  | some e => s2.engineIdle e
  | none => s2

/-- R110: preemption. -/
def State.preempt (s : State) (o : Op) : State := (s.putBack o).sat (ephReg ((o.engine.getD 0) / 64) 0x40) 1

/-- The failure registers of an engine on which an operation was placed (R197, R586). -/
def State.engineFail (s : State) (o : Op) (e : Nat) (st : Status) : State :=
  let b := engineBlock e
  let s1 := s.when (!st.success) (·.wrn (b + 0x20) (st.code + 2 ^ 8 * o.ctx + 2 ^ 18 * o.failIndex))
  let s2 := s1.when (dOpcode o.desc == 0x10 && o.decodeFail) (·.set (b + 0x18) 0x4)
  s2.when (st == .mediaUncorrectable) (·.set (b + 0x18) 0x8)

/-- R586, R195: what a completed operation leaves in the block of its engine, or of the one that it was placed on before it was stopped. -/
def State.engineDone (s : State) (o : Op) (st : Status) : State :=
  match o.engine with
  | none => o.placed.elim s (fun e => s.engineFail o e st)
  | some e =>
    let b := engineBlock e
    ((((s.sat (b + 0xC) 1).wrap (b + 8) 1).progress (.engine e)).engineFail o e st).engineIdle e

/-- R144: an operation completes with a status. Its record, its statistics, the code and the add, and what waits on them.
DEDUCED, unsafe: notes/assumptions/19.md. -/
def State.complete (s : State) (o : Op) (st : Status) : State :=
  let s0 : State := { s with ops := s.ops.filter (fun p => p.id != o.id) }
  let s1 := s0.each o.stats (fun p t => t.sat p.1 p.2)
  let s2 := if !st.success then s1.evlog o.queue st 3 (o.entry.getD 0) o.index
    else if dEvent o.desc then s1.evlog o.queue st 1 (o.entry.getD 0) o.index else s1
  let s3 := match s2.ctr o.ctx (dDone o.desc) with
    | some c => (s2.when (!st.success) (·.ctrFail c st)).ctrAdd c 1
    | none => s2
  let s4 := ((s3.engineDone o st).progress (.queue o.queue)).trace 2 (o.engine.getD o.queue) o.ctx st.code
  let s5 := inflightSync (if o.old then s4 else qHeadUpdate s4 o.queue) (o.queue / 4096)
  let s6 := s5.when (qState s5 o.queue == 2 && (qOps s5 o.queue).isEmpty) (fun t => qSetState t o.queue 0)
  qWake (s6.when (o.entry.isSome && !o.keepCount && st != .frameOverrun) (·.overrunReset o.ctx)) o.queue

/-- Messages of an operation are held for re-send (R505). -/
def State.opHeld (s : State) (o : Op) : Bool :=
  s.link.replay.any (fun r => r.msg.ctx == o.ctx && r.msg.gen == o.gen
    && (r.msg.kind == 0x08 || (r.msg.kind == 0x07 && dOpcode o.desc == 0x20)
      || s.link.awaits.any (fun a => a.who == Who.op o.id && a.kind == r.msg.kind && a.addr == r.msg.addr && a.peer == r.msg.dst)))

/-- An operation of a context under Occultation ends: it waits for no answer any more (R505). -/
def State.fenceEnd (s : State) (o : Op) (st : Status) : State :=
  ({ s with link := { s.link with awaits := s.link.awaits.filter (fun a => a.who != Who.op o.id) } }).complete o st

/-- A host has not given up a line that context x may have written (R144). DEDUCED, safe: notes/assumptions/30.md. -/
def State.invalBusy (s : State) (x : Nat) : Bool :=
  s.coh.invals.any (fun i => (s.rights (i.line / 2 ^ 15)).any (fun e => entryCtx e == x || entryDomain e != 0))

/-- OPERATION_COMPLETE: the add follows every write of the operation, mirrored ones, those that wait for a write cache and those that
coherent hosts have to see included (R144, R385, R541). An operation that an Occultation
stopped completes once every message of it is acknowledged or released (R505). -/
def execOperationComplete (op : Nat) (s : State) : Host.Outcome State Fault Refusal :=
  .next (match s.op op with
    | some o =>
      (match o.phase with
        | .executed st =>
          if s.ctxState o.ctx == 3 then (if s.opHeld o then s else s.fenceEnd o st)
          else if s.mirrorBusy o.ctx || s.opAwaits o.id || s.cacheBusy o.ctx || s.invalBusy o.ctx then s else s.complete o st
        | _ => s)
    | none => s)

-- dynamic starts ----------------------------------------------------------------------------------------------------------

/-- ACLK per frame (R56). -/
def State.frameLen (s : State) : Nat := 225 * s.time.units

/-- The sooner of two instants, if any. -/
def sooner (a b : Option Nat) : Option Nat :=
  match a, b with
  | some x, some y => some (min x y)
  | none, y => y
  | x, none => x

/-- ACLK from now to the first `START` of image g on engine e in frames `lo` and later, before frame `hi`. -/
def State.firstStart (s : State) (g : Image) (e lo : Nat) (hi : Option Nat) : Option Nat :=
  (g.eng.filter (fun k => k.engine == e)).foldl (fun (m : Option Nat) k =>
    let n0 := lo + (k.frame + g.period - lo % g.period) % g.period
    let n := if n0 = s.time.frame && k.start ≤ s.time.cycle then n0 + g.period else n0
    if hi.all (fun h => n < h) then sooner m (some ((n - s.time.frame) * s.frameLen + k.start - s.time.cycle)) else m) none

/-- ACLK from now to the next `START` on engine e (R110): of the active image until a switch or a stop, of the armed one from its switch to a
stop (R102, R107, R108). -/
def State.nextStart (s : State) (e : Nat) : Option Nat :=
  let stop := s.eph.stopAt
  let turn := match s.eph.armed with
    | some a => if s.eph.recheck = 0 && stop.all (fun h => a * s.epochLen < h) then some (a * s.epochLen) else none
    | none => none
  sooner (s.eph.active.bind (fun g => s.firstStart g e s.time.frame (sooner turn stop)))
    (turn.bind (fun a => s.eph.standby.bind (fun g => s.firstStart g e (max a s.time.frame) stop)))

/-- Granule g of engine e's numbering is named by an entry of the active image, or held by a running operation (R163). -/
def State.granTaken (s : State) (e g : Nat) : Bool :=
  let meets (e2 b n : Nat) : Bool := b ≤ g && g < b + n && (if g < 64 then e2 == e else e2 / 4 == e / 4)
  (s.eph.active.any (fun im => im.eng.any (fun k => meets k.engine k.scrBase k.scrGran)))
    || s.ops.any (fun o => o.onEngine && o.engine.any (fun e2 => meets e2 o.scr o.gran))

/-- The lowest window of n free granules on engine e. -/
def State.window (s : State) (e n : Nat) : Option Nat :=
  (List.range (577 - n)).find? (fun b => (List.range n).all (fun i => !s.granTaken e (b + i)))

/-- Engine e can take a dynamic operation of a cost and granules for a slice: its window (R110, R132, R163, R198). -/
def State.engineTakes (s : State) (sl e cost n : Nat) : Option Nat :=
  if s.sliceCore sl (e / 4) && s.dieUp (e / 64) && !s.quarantined e && !s.sec.haltedEngines.contains e && (s.engineOp e).isNone
      && !s.health.searches.any (fun h => h.engine == e)
      && (s.nextStart e).all (fun t => dispatchCost + 96 + cost ≤ t) then s.window e n
  else none

/-- Engines in the order of R132. -/
def engineOrder (die : Nat) : List Nat :=
  (die :: (List.range 4).filter (· != die)).flatMap (fun d => (List.range 64).map (· + 64 * d))

/-- The engine and window of a dynamic operation. -/
def State.chooseEngine (s : State) (o : Op) : Option (Nat × Nat) :=
  (engineOrder (o.queue / 4096)).findSome? (fun e =>
    (s.engineTakes (s.ctxSlice o.ctx) e (s.unitCost o.desc) (opGran o.desc)).map (fun b => (e, b)))

/-- The context's slice holds a core. -/
def State.hasCore (s : State) (x : Nat) : Bool := s.sliceValid (s.ctxSlice x) && (List.range 64).any (s.sliceCore (s.ctxSlice x))

/-- Code of a descriptor's own checks as a dynamic one (R132). -/
def State.dynCheck (s : State) (o : Op) : Status :=
  if opEngine (dOpcode o.desc) && !s.hasCore o.ctx then (s.opCheck o).worst .permission else s.opCheck o

/-- A dynamic operation needs no engine, or finds one. -/
def State.hasPlace (s : State) (o : Op) : Bool :=
  s.dynCheck o != .ok || !opEngine (dOpcode o.desc) || (s.chooseEngine o).isSome

/-- Start an operation dynamically: a descriptor that fails its own checks ends at once; one that finds no engine stays. `take` is what
its start does to its queue. -/
def State.startDynamic (s : State) (o : Op) (isNew : Bool) (take : State → State) : State :=
  let st := s.dynCheck o
  if st != .ok then
    let o1 : Op := { o with engine := none, entry := none }
    (take s).reject o1 isNew st
  else if opEngine (dOpcode o.desc) then
    match s.chooseEngine o with
    | some p =>
      let o1 : Op := { o with engine := some p.1, entry := none, scr := p.2, gran := opGran o.desc }
      ((take s).scrClear p.1 p.2 (opGran o.desc)).launch o1 isNew
    | none => s
  else (take s).launch { o with engine := none, entry := none } isNew

/-- Queue q runs as dynamic (R130). -/
def State.runsDynamic (s : State) (q : Nat) : Bool :=
  !s.bit (queueBlock q + 4) 1 || !(s.eph.active.any (fun g => g.eng.any (fun e => e.queue == q)))

/-- `MAX_INFLIGHT_M1` in effect (R130). -/
def qMax (s : State) (q : Nat) : Nat := if s.runsDynamic q then s.fld (queueBlock q + 4) 16 6 else 0

/-- Context x is a suspect of a running guilty-context search: it starts nothing (R526). -/
def State.suspect (s : State) (x : Nat) : Bool := s.bit (healthReg x 4) 4

/-- The head descriptor of a queue may start, but for a slot (R129). -/
def State.headFree (s : State) (q : Nat) (h : Head) : Bool :=
  let ops := qOps s q
  let o := s.newOp h true
  ops.length ≤ qMax s q && (!dFence h.desc || ops.isEmpty) && h.met && !s.suspect o.ctx && s.hasPlace o

/-- Queue q runs as dynamic, and what it starts next lacks a slot alone (R133, R155). -/
def State.wantsSlot (s : State) (q : Nat) : Bool :=
  qReady s q && s.runsDynamic q && (match qWaiting s q with
    | some o => !o.dynamic && !s.suspect o.ctx && s.hasPlace o
    | none => s.heads.any (fun h => h.queue == q && s.headFree q h))

/-- Among the queues of a die held back for a slot, it is q's turn: ascending numbers after the queue last granted (R155). -/
def State.slotTurn (s : State) (q : Nat) : Bool :=
  let l := s.stalled.filter (fun k => k / 4096 == q / 4096 && (k == q || s.wantsSlot k))
  let last := (s.granted.find? (fun p => p.1 == q / 4096)).elim 0 (·.2)
  match l with
  | [] => true
  | _ =>
    let above := l.filter (fun k => last < k)
    let pick := if above.isEmpty then l else above
    q == pick.foldl min (pick.headD q)

/-- Queue q waits for a slot, or takes one. -/
def State.slotWait (s : State) (q : Nat) : State := if s.stalled.contains q then s else { s with stalled := s.stalled ++ [q] }
def State.slotTake (s : State) (q : Nat) : State :=
  { s with stalled := s.stalled.filter (· != q), granted := (q / 4096, q) :: s.granted.filter (fun p => p.1 != q / 4096) }

/-- Take a dynamic slot of the die of queue q, or wait for one (R154, R155). -/
def State.withSlot (s : State) (q : Nat) (start : State → State) : State :=
  if s.dynFull (q / 4096) || !s.slotTurn q then s.slotWait q else start s

/-- The head descriptor of a queue that runs as dynamic starts when R129 lets it. -/
def State.headStart (s : State) (q : Nat) (h : Head) : State :=
  if s.headFree q h then s.withSlot q (·.startDynamic (s.newOp h true) true (fun t => (qTake t q).slotTake q)) else s

/-- A stopped or preempted operation starts again as dynamic (R133): one that was scheduled needs a slot. -/
def State.backStart (s : State) (q : Nat) (o : Op) : State :=
  let p : Op := { o with dynamic := true }
  if o.dynamic then s.startDynamic p false id
  else if s.hasPlace p then s.withSlot q (·.startDynamic p false (·.slotTake q))
  else s

/-- DESCRIPTOR_READ: the descriptor that queue q starts next is read, and it starts when the conditions of R129 hold. -/
def State.descriptorRead (s : State) (q : Nat) (ue : List Nat) (tf : Bool) : State :=
  if qState s q != 1 || s.pwr.state != 0 then qWake s q
  else match qWaiting s q with
    | some o =>
      if !s.runsDynamic q || s.suspect o.ctx then s
      else
        let r := qReread s o ue tf
        (match r.2 with
          | some p => r.1.backStart q p
          | none => r.1)
    | none =>
      if s.rd (queueBlock q + 0x20) == s.rd (queueBlock q + 0x24) then s
      else
        let r := qRead s q ue tf
        match r.2 with
        | some h => if r.1.runsDynamic q then r.1.headStart q h else r.1
        | none => r.1

def execDescriptorRead (q cycle : Nat) (ue : List Nat) (tierFault : Bool) (s : State) : Host.Outcome State Fault Refusal :=
  .next (s.when (s.ready && s.dieUp (q / 4096)) (fun t => (t.atCycle cycle).descriptorRead q ue tierFault))

-- entries -----------------------------------------------------------------------------------------------------------------

/-- An overrun of an operation at entry k (R98, R99): counts, event, and the context's consecutive overruns. -/
def State.overrunCount (s : State) (k : Nat) (o : Op) : State × Bool :=
  let die := o.engine.getD 0 / 64
  let x := o.ctx
  let n := (s.ctx.overruns.find? (fun p => p.1 == x)).elim 0 (·.2) + 1
  let s1 := (((s.sat (ephReg die 0x30) 1).wrn (ephReg die 0x34) k).set (ephReg die 0x28) 0x8)
  let s2 : State := { s1 with ctx := { s1.ctx with overruns := (x, n) :: s1.ctx.overruns.filter (fun p => p.1 != x) } }
  ((s2.trace 4 (o.engine.getD 0) x 0).when (n == 4) (fun t => (t.fault x 1).set (ephReg die 0x28) 0x10), n == 4)

/-- Die d takes no part in the active Ephemeris, or engine e does not (R109, R198). -/
def State.outOf (s : State) (e : Nat) : Bool :=
  s.eph.outDies.contains (e / 64) || s.eph.outEngines.any (fun p => p.1 == e) || !s.dieUp (e / 64) || s.quarantined e || s.sec.haltedEngines.contains e

/-- An entry is skipped (R95, R130, R131). DEDUCED, unsafe: notes/assumptions/18.md. -/
def State.entrySkipped (s : State) (e : EngEntry) : Bool :=
  s.ctxState e.ctx != 1 || s.ffld (queueBlock e.queue) 0 10 != e.ctx || qState s e.queue != 1 || !s.bit (queueBlock e.queue + 4) 1
    || !s.entryInSlice e || s.outOf e.engine || !s.dieUp (e.queue / 4096)

/-- The doorbell that covers the head descriptor was accepted at least 256 ACLK ago (R131). -/
def State.bellOld (s : State) (q : Nat) : Bool :=
  let i := s.rd (queueBlock q + 0x24)
  match s.bells.find? (fun b => b.queue == q && BitVec.ofNat 32 b.tail != i) with
  | some b => b.time + 256 ≤ s.now
  | none => true

/-- Place a scheduled operation on its entry's engine and window. -/
def placeAt (o : Op) (k : Nat) (e : EngEntry) : Op :=
  { o with dynamic := false, entry := some k, engine := some e.engine, scr := e.scrBase, gran := e.scrGran }

/-- A scheduled operation starts, or ends at once (R94, R136). -/
def State.startScheduled (s : State) (g : Image) (k : Nat) (e : EngEntry) (o0 : Op) (isNew : Bool) (take : State → State) : State :=
  let o := placeAt o0 k e
  let s1 := take s
  if !opUnit (dOpcode o.desc) e.unit then
    let o1 : Op := { o with keepCount := true }
    s1.reject o1 isNew .permission
  else
    let st := s1.opCheck o
    let ap := if dOpcode o.desc = 0x10 then s1.apCheck o.ctx o.desc o.limit else .ok
    if st != .ok then s1.reject { o with decodeFail := !ap.success } isNew st
    else if e.cost < dispatchCost + switchCost g.eng e + s1.unitCost o.desc then
      ((s1.reject o isNew .frameOverrun).overrunCount k o).1
    else (s1.launch o isNew).redStart o

/-- The head of the entry's queue, where it can start at `START` (R94, R131); otherwise the entry is idle.
A new operation needs a slot of its die: DESIGN CHOICE, unsafe: notes/assumptions/73.md. An earlier descriptor still in flight leaves the
entry idle too: DEDUCED, unsafe: notes/assumptions/18.md. -/
def State.entryHead (s : State) (g : Image) (k : Nat) (e : EngEntry) (ue : List Nat) (tf : Bool) : State :=
  let q := e.queue
  let idle (t : State) : State := t.sat (ephReg (e.engine / 64) 0x38) 1
  match qWaiting s q with
  | some o =>
    let r := qReread s o ue tf
    (match r.2 with
      | some p => r.1.startScheduled g k e p false id
      | none => idle r.1)
  | none =>
    if s.rd (queueBlock q + 0x20) == s.rd (queueBlock q + 0x24) || !s.bellOld q || !(qOps s q).isEmpty || 65536 ≤ (dieOps s (q / 4096)).length then idle s
    else
      let r := qRead s q ue tf
      match r.2 with
      | none => idle r.1
      | some h => if !h.met then idle r.1 else r.1.startScheduled g k e (r.1.newOp h false) true (fun t => qTake t q)

/-- The last cycle of an operation's entry: `START` + `COST` of the image that runs. -/
def State.deadline (s : State) (k : Nat) : Nat := (s.eph.active.bind (fun g => g.eng[k]?)).elim s.time.cycle (fun x => x.start + x.cost)

/-- FRAME_OVERRUN: the operation of an entry still runs at `START` + `COST` (R98, R99). The fourth in a row completes it; what an EXPAND had
yielded by then is open, unless it runs block by block. DESIGN CHOICE, unsafe in part: notes/assumptions/16.md. -/
def State.frameOverrun (s : State) (k : Nat) : State :=
  match s.ops.find? (fun o => o.entry == some k && o.onEngine) with
  | none => s
  | some o =>
    let s1 := (s.atCycle (s.deadline k)).evlog o.queue .frameOverrun 2 k o.index
    let r := s1.overrunCount k o
    if !r.2 then r.1.putBack o
    else if dOpcode o.desc != 0x41 then (r.1.stopPart o).endWithCode o .frameOverrun
    else if o.phase == .stepping then
      let z := o.run.zgc
      let w := r.1.expandLine o.ctx o.desc .frameOverrun (zLine z.blocks (z.firstShort.getD 0xFFFFFFFF) 0xFFFFFFFF z.yield)
      w.1.done o w.2
    else
      let f1 := r.1.fresh
      let f2 := f1.2.fresh
      let f3 := f2.2.fresh
      let w := (f3.2.stopPart o).expandLine o.ctx o.desc .frameOverrun (zLine f1.1.toNat f2.1.toNat 0xFFFFFFFF f3.1.toNat)
      w.1.done o w.2

/-- Entries whose scheduled operations still run, of those that `p` selects, the earlier end first. -/
def State.running (s : State) (p : Op → Bool) : List Nat :=
  orderBy (fun a b => s.deadline a ≤ s.deadline b) ((s.ops.filter (fun o => o.onEngine && !o.dynamic && p o)).filterMap (·.entry))

/-- No scheduled operation runs past its `COST`, whenever FRAME_OVERRUN comes: those that are past it at cycle c of this frame are stopped
first (R98). DESIGN CHOICE, safe: notes/assumptions/7.md. -/
def State.overrunDue (s : State) (c : Nat) : State :=
  s.each (s.running (fun o => o.startFrame != s.time.frame || o.entry.all (fun k => s.deadline k ≤ c))) (fun k t => t.frameOverrun k)

/-- ENTRY_START: `START` of an engine entry of the active image arrives (R94, R95, R110). Entries of a suspect are idle (R525). -/
def State.entryStart (s : State) (k : Nat) (ue : List Nat) (tf : Bool) : State :=
  match s.eph.active with
  | none => s
  | some g =>
    match g.eng[k]? with
    | none => s
    | some e =>
      if e.frame != s.time.frame % g.period then s
      else
        let s1 := (s.overrunDue e.start).atCycle e.start
        let s2 := match s1.engineOp e.engine with
          | some o => if o.dynamic then s1.preempt o else s1
          | none => s1
        if s2.entrySkipped e then s2.sat (ephReg (e.engine / 64) 0x3C) 1
        else if s2.suspect e.ctx then s2.sat (ephReg (e.engine / 64) 0x38) 1
        else s2.entryHead g k e ue tf

def execEntryStart (entry : Nat) (ue : List Nat) (tierFault : Bool) (s : State) : Host.Outcome State Fault Refusal :=
  .next (s.when (s.ready && s.pwr.state == 0) (·.entryStart entry ue tierFault))

def execFrameOverrun (entry : Nat) (s : State) : Host.Outcome State Fault Refusal := .next (s.frameOverrun entry)

end Sys2Proof.Machine
end

