-- ==== Sys2Proof/Machine/Services.lean ====
section
/-! DEFINITION. The services of the tier manager: weight streams (R357-R360) and the cache-pool (R361-R376). Pool addresses, handles and
stream numbers that a service chooses start from free values (notes/assumptions/20.md). -/

namespace Sys2Proof.Machine

/-- Result line address, and its address check (R138, R334). -/
def svRes (d : BitVec 512) : Nat := dAddr d 32
def State.resCheck (s : State) (x : Nat) (d : BitVec 512) : Status := s.mapCheck x true (svRes d) 64

/-- A service ends an operation with a status, after its result line where there is one. -/
def State.svcEnd (s : State) (o : Op) (st : Status) (line : Option (List Byte)) : State :=
  match line with
  | none => s.finish o st (svRes o.desc)
  | some l =>
    let w := s.save o.ctx (svRes o.desc) l
    w.1.finish o (st.worst w.2) (svRes o.desc)

-- weight streams ----------------------------------------------------------------------------------------------------------

def wsTable (d : BitVec 512) : Nat := dAddr d 16
def wsLayers (d : BitVec 512) : Nat := db d 40 2
def wsWindow (d : BitVec 512) : Nat := db d 42 1
def wsAdv (d : BitVec 512) : Nat := bfld d (44 * 8) 14
def wsReady (d : BitVec 512) : Nat := bfld d (46 * 8) 14

/-- The layer table: first address and pages of each layer (R357). -/
def State.layerTable (s : State) (d : BitVec 512) : List (Nat × Nat) :=
  (List.range (wsLayers d)).map (fun i => (leNat (s.bytes (wsTable d + 16 * i) 8) % 2 ^ 52, leNat (s.bytes (wsTable d + 16 * i + 8) 4)))

/-- Pages of the layers. -/
def layerPages (l : List (Nat × Nat)) : List Nat := l.flatMap (fun p => (List.range p.2).map (· + p.1 / 2 ^ 21))

/-- A layer page of context x that a stream may not have (R357). -/
def State.badLayerPage (s : State) (x p : Nat) : Bool :=
  (s.page p).any (fun g => entryCtx g.entry != x || !g.entry.getLsbD 22 || entryPin g.entry != 0 || g.entry.getLsbD 24 || g.entry.getLsbD 25)

/-- The first number from `base` on, modulo m, that a list does not hold. -/
def firstFree (l : List Nat) (m : Nat) : Nat → Nat → Nat
  | 0, base => base % m
  | f + 1, base => if l.contains (base % m) then firstFree l m f (base + 1) else base % m

/-- `WS_OPEN_COUNT`. -/
def State.wsSync (s : State) : State := s.wrn 0x290 (s.tier.streams.filter (fun w => !w.closing)).length

/-- Checks of WS_OPEN before its table is read. -/
def State.wsOwn (s : State) (x : Nat) (d : BitVec 512) : Status :=
  let own := Status.all [((s.ctr x (wsAdv d)).isNone || (s.ctr x (wsReady d)).isNone || wsWindow d == 0 || 64 < wsWindow d
      || 4096 < wsLayers d, .permission), (wsLayers d == 0, .zeroLenNoop)]
  (own.worst (s.resCheck x d)).worst (s.mapCheck x false (wsTable d) (16 * wsLayers d))

/-- `CQ_STACK` cannot hold `WINDOW` times the largest layer (R357). -/
def State.wsStackShort (s : State) (x : Nat) (d : BitVec 512) (l : List (Nat × Nat)) : Bool :=
  decide ((s.frd (quotaReg x 0)).toNat < s.use x 0 + wsWindow d * l.foldl (fun a p => max a p.2) 0)

/-- Refusals of WS_OPEN that do not depend on its layers (R357): `WS_MAX`, and 256 streams on the module. -/
def State.wsRoom (s : State) (x : Nat) : Status :=
  let open_ := s.tier.streams.filter (fun w => !w.closing)
  Status.all [(decide (s.ffld (quotaReg x 0x18) 16 8 ≤ (open_.filter (fun w => w.ctx == x)).length), .quota),
    (decide (256 ≤ open_.length), .capacityExhausted)]

/-- Checks of WS_OPEN on its layers (R357, R376, R584). -/
def State.wsLayerCheck (s : State) (x : Nat) (d : BitVec 512) (l : List (Nat × Nat)) : Status :=
  (Status.all [
    (l.any (fun p => p.1 % 2 ^ 21 != 0 || p.2 == 0) || (layerPages l).any (s.badLayerPage x), .permission),
    (l.any (fun p => s.mapCheck x false p.1 (p.2 * 2 ^ 21) != .ok), .addrFault),
    (s.wsStackShort x d l, .quota)]).worst (s.wsRoom x)

/-- Set or clear `STREAM` on the pages of layers; in the map and in the rights in force. -/
def State.setStream (s : State) (l : List (Nat × Nat)) (on : Bool) : State :=
  let put (e : Word) : Word := if on then e ||| 0x2000000 else e &&& ~~~(0x2000000 : Word)
  { s with tier := { s.tier with
      pages := s.tier.pages.map (fun (g : Page) => if (layerPages l).contains g.page then { g with entry := put g.entry } else g)
      rights := s.tier.rights.map (fun (r : Nat × Word) => if (layerPages l).contains r.1 then (r.1, put r.2) else r) } }

/-- WS_OPEN. DESIGN CHOICE, safe: notes/assumptions/20.md. DEDUCED, unsafe: notes/assumptions/21.md. -/
def State.wsOpen (s : State) (o : Op) (ue : List Nat) : State :=
  let d := o.desc
  let st := s.wsOwn o.ctx d
  let rd := s.readCheck ue (wsTable d) (16 * wsLayers d)
  let l := s.layerTable d
  let st2 := s.wsLayerCheck o.ctx d l
  if st != .ok then s.done o st
  else if rd != .ok then s.finish o ((s.wsRoom o.ctx).worst rd) (s.badAt ue (wsTable d) (16 * wsLayers d))
  else if st2 != .ok then (s.quotaHit o.ctx (if s.wsStackShort o.ctx d l then st2 else .ok)).done o st2
  else
    let f := s.fresh
    let id := firstFree (s.tier.streams.map (·.id)) (2 ^ 32) 257 f.1.toNat
    let w : WStream := { id := id, ctx := o.ctx, layers := l, window := wsWindow d, adv := wsAdv d, ready := wsReady d, staged := 0,
                         staging := none, chunks := 0, copies := [], stopped := false, closing := false }
    let t0 := (f.2.mark (wsTable d) (16 * wsLayers d)).setStream l true
    let t1 : State := { t0 with tier := { t0.tier with streams := t0.tier.streams ++ [w] } }
    let zero (h : Nat) (t : State) : State := match t.ctr o.ctx h with
      | some c => t.ctrSet c 0
      | none => t
    ((zero (wsReady d) (zero (wsAdv d) t1)).wsSync).svcEnd o .ok (some (leBytes 4 id ++ List.replicate 60 0))

def execWsOpen (op : Nat) (ue : List Nat) (s : State) : Host.Outcome State Fault Refusal :=
  .next (s.onOp op (· == 0x58) (fun t o => t.wsOpen o ue))

def State.wsFind (s : State) (id : Nat) : Option WStream := s.tier.streams.find? (fun w => w.id == id && !w.closing)

/-- WS_CLOSE: copies and `STREAM` go at the next frame boundary (R360). -/
def State.wsClose (s : State) (o : Op) : State :=
  let id := db o.desc 16 4
  match s.wsFind id with
  | none => s.done o .permission
  | some w =>
    if w.ctx != o.ctx then s.done o .permission
    else if s.resCheck o.ctx o.desc != .ok then s.done o (s.resCheck o.ctx o.desc)
    else ((s.setWs { w with closing := true }).wsSync).svcEnd o .ok (some (leBytes 4 id ++ List.replicate 60 0))

def execWsClose (op : Nat) (s : State) : Host.Outcome State Fault Refusal := .next (s.onOp op (· == 0x59) State.wsClose)

/-- A closing stream ends: its copies are freed and its pages lose `STREAM`. -/
def State.wsEnd (s : State) (w : WStream) : State :=
  let s1 := s.each w.copies (fun c t => t.copyChunks c.2 (w.layers.getD c.1 (0, 0)).2 false)
  let s2 : State := { s1 with tier := { s1.tier with streams := s1.tier.streams.filter (fun v => v.id != w.id) } }
  ((s2.setStream w.layers false).wsSync).syncUse [w.ctx]

/-- Streams that closed, and all streams of the contexts of a list, end at a boundary. -/
def State.wsFrame (s : State) (gone : List Nat) : State := s.each (s.tier.streams.filter (fun w => w.closing || gone.contains w.ctx)) (fun w t => t.wsEnd w)

/-- The stack of the owner's slice with the most free pages (R359). -/
def State.copyStack (s : State) (x pages : Nat) : Option Nat :=
  ((List.range 8).filter (fun k => s.sliceStack (s.ctxSlice x) k && s.unitUp k && 32 * pages ≤ s.unitFree k)).foldl
    (fun (b : Option Nat) k => match b with
      | none => some k
      | some m => if s.unitFree m < s.unitFree k then some k else some m) none

/-- A position is staged: `READY_CTR` counts it (R358). -/
def State.wsStaged (s : State) (w : WStream) : State :=
  let t := (s.setWs { w with staged := w.staged + 1, staging := none }).syncUse [w.ctx]
  match t.ctr w.ctx w.ready with
  | some c => t.ctrAdd c 1
  | none => t

/-- WS_STAGE: the next position begins, or is staged at once when its layer is there already (R358). -/
def State.wsStage (s : State) (id : Nat) : State :=
  match s.wsFind id with
  | none => s
  | some w =>
    let q := w.staged
    let l := q % max 1 w.layers.length
    let pages := (w.layers.getD l (0, 0)).2
    if w.stopped || w.staging.isSome || s.wsAdvance w + w.window ≤ q || w.layers.isEmpty then s
    else if w.copies.any (fun c => c.1 == l) then s.wsStaged w
    else if (s.frd (quotaReg w.ctx 0)).toNat < s.use w.ctx 0 + pages then s.quotaHit w.ctx .quota
    else match s.copyStack w.ctx pages with
      | none => s
      | some k => ((s.copyChunks k pages true).setWs { w with staging := some q, chunks := 0, copies := w.copies ++ [(l, k)] }).syncUse [w.ctx]

def execWsStage (stream : Nat) (s : State) : Host.Outcome State Fault Refusal := .next (s.wsStage stream)

/-- The layer being staged: its number, first page, pages. -/
def WStream.layer (w : WStream) (q : Nat) : Nat × Nat × Nat :=
  let l := q % max 1 w.layers.length
  let p := w.layers.getD l (0, 0)
  (l, p.1 / 2 ^ 21, p.2)

/-- Staging of a stream stops: the copy that was being made is given back (R359). -/
def State.wsStop (s : State) (w : WStream) (q : Nat) : State :=
  let y := w.layer q
  let k := ((w.copies.find? (fun c => c.1 == y.1)).getD (0, 0)).2
  ((s.copyChunks k y.2.2 false).setWs { w with staging := none, stopped := true, copies := w.copies.filter (fun c => c.1 != y.1) }).syncUse [w.ctx]

/-- The next chunk of a layer is copied to its stage copy, in migration windows or in slack (R348, R359). A lost or uncorrectable chunk
stops the stream's staging. -/
def State.stageChunk (s : State) (w : WStream) (q : Nat) (window : Option Nat) (ok : Bool) (ue : List Nat) : State :=
  let y := w.layer q
  let p := y.2.1 + w.chunks / 32
  let c := w.chunks % 32
  let k := ((w.copies.find? (fun c => c.1 == y.1)).getD (0, 0)).2
  match s.page p with
  | none => s
  | some g =>
    if !ok || 32 * y.2.2 ≤ w.chunks || !(window.all (fun v => s.windowOk v (s.chunkUnit g.loc p c) k)) then s
    else
      let bad := chunkLines p c (s.poison ++ ue)
      if s.lostCheck p != .ok || !bad.isEmpty then (s.copyUe w.ctx bad).wsStop w q
      else (s.setWs { w with chunks := w.chunks + 1 }).windowUse window

/-- The stream that stages page p next. -/
def State.stager (s : State) (p : Nat) : Option (WStream × Nat) :=
  s.tier.streams.findSome? (fun w => match w.staging with
    | some q => if !w.closing && (w.layer q).2.1 + w.chunks / 32 == p && w.chunks < 32 * (w.layer q).2.2 then some (w, q) else none
    | none => none)

/-- The flash units that the next chunk of a move is written to; none for a destination in another tier. -/
def State.chunkFlash (s : State) (g : Page) (m : Move) : List (Nat × Nat × Nat) :=
  if m.tier = 2 then (List.range 4).map (fun i => (s.chunkUnit m.loc g.page m.done - 0x40, g.page, 4 * m.done + i)) else []

/-- The next chunk of a moving page; at a flash tray the write cache takes it, once that has room (R385). -/
def State.chunkCopy (s : State) (g : Page) (m : Move) (window : Option Nat) (ok : Bool) (ue : List Nat) : State :=
  let us := s.chunkFlash g m
  if us.any (fun k => (s.tray k.1).any (fun t => !t.room k.2.1 k.2.2)) then s
  else
    let t := s.moveChunk g m window ok ue
    t.when ((t.page g.page).any (fun h => h.move.any (fun k => m.done < k.done))) (fun v => v.each us (fun k u => u.cacheTake k))

/-- MIGRATION_CHUNK_COPY: the next chunk of a moving page, or of a layer being staged, is copied (R348, R349, R359). -/
def execMigrationChunkCopy (page : Nat) (window : Option Nat) (ok : Bool) (ue : List Nat) (s : State) : Host.Outcome State Fault Refusal :=
  .next (match (s.page page).bind (fun g => g.move.map (fun m => (g, m))) with
    | some r => s.chunkCopy r.1 r.2 window ok ue
    | none =>
      match s.stager page with
      | some r => s.stageChunk r.1 r.2 window ok ue
      | none => s)

/-- WS_STAGE_DONE: every chunk of the layer is copied, and the copy is there (R358, R359). -/
def State.wsStageDone (s : State) (id : Nat) : State :=
  match s.wsFind id with
  | none => s
  | some w =>
    match w.staging with
    | none => s
    | some q => if w.chunks = 32 * (w.layer q).2.2 then s.wsStaged w else s

def execWsStageDone (stream : Nat) (s : State) : Host.Outcome State Fault Refusal := .next (s.wsStageDone stream)

-- pool space of the service -----------------------------------------------------------------------------------------------

/-- The first of n pages in a row that are unmapped, have no rights in force, and are not routed away, from `base` on, else from the start
of the pool. -/
def State.freeRun (s : State) (n base : Nat) : Option Nat :=
  let ok (a : Nat) : Bool := a + n ≤ 2 ^ 31 && (List.range n).all (fun i => (s.page (a + i)).isNone && (s.rights (a + i)).isNone && (match s.routeOf s.version (a + i) with
    | .away _ => false
    | .group _ _ => false
    | _ => true))
  -- a longest free run begins at 0, after a page, or where a routed region begins or ends
  let c := s.tier.pages.map (fun g => g.page + 1) ++ s.tier.rights.map (fun r => r.1 + 1)
    ++ (List.range 256).flatMap (fun k => let e (i : Nat) : Nat := (s.rd (routeReg s.version (0x800 + 16 * k + 4 * i))).toNat; [e 0, e 1 + 1])
  ((base :: c.filter (base ≤ ·)).find? ok).orElse (fun _ => (0 :: c).find? ok)

/-- Pool-map entry of a page of the cache-pool service that context x owns: `CP` and `RO`, no pin, any unit (R334). -/
def svcEntry (x : Nat) : Word := BitVec.ofNat 32 (x + 0xFF000 + 2 ^ 22 + 2 ^ 24)

/-- n pages for the service, owned by context x with `CP` and `RO` set, placed under R337: the state, the code, the first page. They
can be used at once, since the service publishes them itself. DESIGN CHOICE, safe: notes/assumptions/20.md.
DEDUCED, unsafe: notes/assumptions/21.md. -/
def State.svcPages (s : State) (x n : Nat) : State × Status × Nat :=
  let f := s.fresh
  match f.2.freeRun n (f.1.toNat % 2 ^ 31) with
  | none => (s, .capacityExhausted, 0)
  | some a =>
    let e := svcEntry x
    let r := f.2.placeAll x (fun _ => (0, 0xFF)) (fun p l t =>
      let g : Page := { newPage p e l with isNew := false }
      let t1 := (t.zeroPage p).addPage g
      { t1 with tier := { t1.tier with rights := (p, e) :: t1.tier.rights.filter (fun q => q.1 != p) } }) ((List.range n).map (· + a))
    if r.2 != .ok then (s.quotaHit x r.2, r.2, 0) else (r.1.syncUse [x], .ok, a)

-- sequences ---------------------------------------------------------------------------------------------------------------

def Seq.handle (q : Seq) : Nat := q.slot + 2 ^ 16 * q.serial
def Seq.rowBytes (q : Seq) : Nat := q.d * keyBytes q.kFmt
def Seq.kb (q : Seq) : Nat := q.bt * q.rowBytes
def Seq.vt (q : Seq) : Nat := q.vby / q.bt
/-- Room for the entries and summary rows of one table (R362). -/
def Seq.tableBytes (q : Seq) : Nat := let nb := cdiv q.maxTokens q.bt; cdiv (16 * nb) 64 * 64 + cdiv (nb * q.rowBytes) 64 * 64
def Seq.table (q : Seq) (i : Nat) : Nat := q.tables.getD i 0
/-- Blocks of table i, by block index: key and value address. -/
def Seq.blocksOf (q : Seq) (i : Nat) : List (Nat × Nat) := (q.blocks.filter (fun b => b.1 == i)).map (·.2)

/-- `CP_SEQ_OPEN`, `CP_SEQ_LOST`. -/
def State.cpSync (s : State) : State :=
  (s.wrn 0x280 s.tier.seqs.length).wrn 0x284 (s.tier.seqs.filter (fun q => q.phase == 3)).length

def State.setSeq (s : State) (q : Seq) : State :=
  { s with tier := { s.tier with seqs := s.tier.seqs.map (fun r => if r.handle == q.handle then q else r) } }

/-- The open sequence that a request names, if its context owns it (R361). -/
def State.cpSeq (s : State) (o : Op) : Option Seq := s.tier.seqs.find? (fun q => q.handle == db o.desc 16 8 && q.owner == o.ctx)

/-- The replay token (R373). -/
def replayToken (q : Seq) : List Byte :=
  let b := leBytes 8 q.handle ++ leBytes 4 q.replayFrom ++ [BitVec.ofNat 8 q.reason, 0]
  b ++ leBytes 2 ((crc32c b).toNat % 2 ^ 16)

/-- The result line of a request (R365). Without a sequence its fields are open, but for the phase CLOSED of a handle that is not open. DESIGN CHOICE, safe: notes/assumptions/20.md. -/
def State.cpLine (s : State) (o : Op) (st : Status) (q : Option Seq) (phase : Nat) : State × List Byte :=
  let token := match q with
    | some r => if st == .stateLost then replayToken r else List.replicate 16 0
    | none => List.replicate 16 0
  let build (h a p x : Nat) : List Byte := leBytes 8 h ++ leBytes 8 a ++ leBytes 4 (p % 256) ++ leBytes 4 (x % 1024) ++ token ++ List.replicate 24 0
  match q with
  | some r => (s, build r.handle r.dirAddr phase r.owner)
  | none =>
    let f1 := s.fresh
    let f2 := f1.2.fresh
    let f3 := f2.2.fresh
    let f4 := f3.2.fresh
    (f4.2, build (if dOpcode o.desc = 0x50 then f1.1.toNat else db o.desc 16 8) f2.1.toNat (if phase = 4 then 4 else f3.1.toNat) f4.1.toNat)

/-- A request ends (R365). -/
def State.cpEnd (s : State) (o : Op) (st : Status) (q : Option Seq) (phase : Nat) : State :=
  let rc := s.resCheck o.ctx o.desc
  if st == .zeroLenNoop || rc != .ok then s.done o (if st == .zeroLenNoop then st else st.worst rc)
  else
    let l := s.cpLine o st q phase
    l.1.svcEnd o st (some l.2)

-- CP_OPEN

def coMax (d : BitVec 512) : Nat := db d 40 4
def coShape (d : BitVec 512) : Nat := db d 44 4
def coVby (d : BitVec 512) : Nat := 64 * db d 48 2

/-- The sequence that CP_OPEN would open. -/
def coSeq (d : BitVec 512) (x slot serial first : Nat) (mirrors : List Nat) : Seq :=
  let sh := coShape d
  let n := (nbits sh 0 8 + 1) * (nbits sh 8 6 + 1)
  let q0 : Seq :=
    { slot := slot, serial := serial, owner := x, phase := 1, layersN := nbits sh 0 8 + 1, headsN := nbits sh 8 6 + 1,
      d := 64 * 2 ^ nbits sh 14 2, kFmt := nbits sh 16 4, bt := 16 * 2 ^ nbits sh 20 3, vby := coVby d, maxTokens := coMax d,
      tokens := List.replicate (nbits sh 0 8 + 1) 0, dirAddr := first * 2 ^ 21, tables := [], blocks := [], pages := [],
      mirrors := mirrors, replayFrom := 0, reason := 0, handoff := none }
  { q0 with tables := (List.range n).map (fun i => q0.dirAddr + 64 * n + i * q0.tableBytes)
            pages := (List.range q0.metaPages).map (· + first) }

/-- R364. -/
def coBad (d : BitVec 512) : Bool :=
  let sh := coShape d
  nbits sh 14 2 == 3 || 4 < nbits sh 20 3 || !sfFmt (nbits sh 16 4) || coVby d == 0 || coVby d % (16 * 2 ^ nbits sh 20 3) != 0
    || 2 ^ 20 < coMax d

/-- Tray group of a link port. -/
def State.trayGroup (s : State) (l : Nat) : Option Nat := (List.range 16).find? (fun g => (s.groupMembers g).contains l)

/-- DRAM trays of a slice, one for each tray group, that have room for n pages of metadata (R371). -/
def State.mirrorTrays (s : State) (sl n : Nat) (notIn : List Nat) : List Nat :=
  ((List.range 16).filter (fun g => s.groupKind g == 1 && s.groupSlice g == sl && !notIn.contains g)).filterMap (fun g =>
    (s.groupMembers g).find? (fun l => s.unitUp (0x40 + l) && 32 * n ≤ s.unitFree (0x40 + l)))

/-- Directory entry of table i (R363). `LAST_M1` of a layer without tokens is open. -/
def dirEntry (q : Seq) (i open_ : Nat) : List Byte :=
  let t := q.tokens.getD (i / q.headsN) 0
  let n := cdiv t q.bt
  leBytes 8 (q.table i) ++ leBytes 2 n ++ leBytes 2 (if t = 0 then open_ % 256 else t - q.bt * (n - 1) - 1) ++ leBytes 4 t
    ++ List.replicate 48 0

/-- Mean of the valid key rows of block j of a table (R247, R362). -/
def State.summaryRow (s : State) (q : Seq) (layer : Nat) (b : Nat × (Nat × Nat)) : List Byte :=
  let n := min q.bt (q.tokens.getD layer 0 - b.1 * q.bt)
  let z := keyBytes q.kFmt
  let rows := (List.range n).map (fun t => s.bytes (b.2.1 + t * q.rowBytes) q.rowBytes)
  (List.range q.d).flatMap (fun e =>
    let u := rows.foldl (fun (u : Sub) r => absorb 0 q.kFmt u (le r (e * z) z)) { a := 0, flags := 0 }
    leBytes z (finishDiv 0 q.kFmt q.kFmt false 0 n u))

/-- Tables, summary rows where the current `BLOCK_COUNT` puts them (R369), and directory entries of a layer. -/
def State.tablePieces (s : State) (q : Seq) (layer open_ : Nat) : List Piece :=
  (List.range q.headsN).flatMap (fun h =>
    let i := layer * q.headsN + h
    let bl := q.blocksOf i
    [(q.table i + cdiv (16 * bl.length) 64 * 64, (indexed bl).flatMap (fun b => s.summaryRow q layer b)),
     (q.table i, bl.flatMap (fun b => leBytes 8 b.1 ++ leBytes 8 b.2)), (q.dirAddr + 64 * i, dirEntry q i open_)])

/-- Publish the tables of layers. -/
def State.cpPublish (s : State) (q : Seq) (layers : List Nat) : State × Status :=
  let f := s.fresh
  layers.foldl (fun (r : State × Status) l =>
    if r.2 != .ok then r
    else
      let w := r.1.savePieces q.owner (r.1.tablePieces q l f.1.toNat)
      (w.1, w.2.1)) (f.2, .ok)

/-- CP_OPEN. Where the slice has no two DRAM groups with room for the mirrors, the sequence opens with those it has, and `MIRROR_DEGRADED`
stands until they are rebuilt (R371). DESIGN CHOICE, safe: notes/assumptions/20.md. DESIGN CHOICE, unsafe: notes/assumptions/72.md. -/
def State.cpOpen (s : State) (o : Op) : State :=
  let d := o.desc
  let x := o.ctx
  let mine := (s.tier.seqs.filter (fun q => q.owner == x)).length
  let metaN := (coSeq d x 0 0 0 []).metaPages
  let trays := (s.mirrorTrays (s.ctxSlice x) metaN []).take 2
  let short := decide ((s.frd (quotaReg x 4)).toNat < s.use x 1 + trays.length * metaN)
  let st := (Status.all [(coBad d, .permission), (coMax d == 0, .zeroLenNoop),
    (s.ffld (quotaReg x 0x18) 0 16 ≤ mine, .quota), (short, .quota),
    (2 ^ 16 ≤ s.tier.seqs.length, .capacityExhausted)]).worst (s.resCheck x d)
  if st != .ok then (s.quotaHit x (if short then st else .ok)).cpEnd o st none 0
  else
    let r := s.svcPages x metaN
    if r.2.1 != .ok then r.1.cpEnd o r.2.1 none 0
    else
      let f := r.1.fresh
      let slot := firstFree (s.tier.seqs.map (·.slot)) (2 ^ 16) (2 ^ 16) f.1.toNat
      let q := coSeq d x slot (s.tier.serial + 1) r.2.2 trays
      let t0 := f.2.each trays (fun l t => t.copyChunks (0x40 + l) metaN true)
      let t1 : State := { t0 with tier := { t0.tier with seqs := t0.tier.seqs ++ [q], serial := s.tier.serial + 1 } }
      let w := t1.cpPublish q (List.range q.layersN)
      (((w.1.when (trays.length < 2) (·.set 0x22C 0x10)).cpSync).syncUse [x]).cpEnd o w.2 (some q) 1

def execCpOpen (op : Nat) (s : State) : Host.Outcome State Fault Refusal := .next (s.onOp op (· == 0x50) State.cpOpen)

/-- A request on the same sequence reached the service earlier and is not served yet (R367): operations are numbered as they start. -/
def State.cpBehind (s : State) (o : Op) : Bool :=
  s.ops.any (fun p => p.id < o.id && (p.phase == .running || p.phase == .boundary) && 0x51 ≤ dOpcode p.desc && dOpcode p.desc ≤ 0x55
    && db p.desc 16 8 == db o.desc 16 8 && (s.cpSeq p).isSome)

/-- Requests of one sequence are handled one at a time, in the order in which they reach the service (R367). A handle that is not open, or not
the context's, completes PERMISSION (R361). -/
def State.cpRequest (s : State) (o : Op) (f : Seq → State) : State :=
  match s.cpSeq o with
  | none => s.cpEnd o .permission none (if s.tier.seqs.any (fun q => q.handle == db o.desc 16 8) then 0 else 4)
  | some q => if q.handoff.isSome || s.cpBehind o then s else f q

-- CP_APPEND

def caBuf (d : BitVec 512) : Nat := dAddr d 24
def caFirst (d : BitVec 512) : Nat := db d 40 4
def caCount (d : BitVec 512) : Nat := db d 44 4
def caLayer (d : BitVec 512) : Nat := db d 48 2
/-- Where the values begin, and the bytes of `BUF` (R368). -/
def caVals (q : Seq) (d : BitVec 512) : Nat := cdiv (q.headsN * caCount d * q.rowBytes) 64 * 64
def caBytes (q : Seq) (d : BitVec 512) : Nat := caVals q d + q.headsN * caCount d * q.vt

/-- New blocks of an append, laid out from an address: (table, key, value). -/
def newBlocks (q : Seq) (d : BitVec 512) (a : Nat) : List (Nat × Nat × Nat) :=
  let n := cdiv (caFirst d + caCount d) q.bt - cdiv (caFirst d) q.bt
  (List.range (q.headsN * n)).map (fun k =>
    (caLayer d * q.headsN + k / n, a + k * (q.kb + q.vby), a + k * (q.kb + q.vby) + q.kb))

/-- Keys and values of an append, token by token. -/
def State.appendPieces (s : State) (q : Seq) (d : BitVec 512) : List Piece :=
  (List.range q.headsN).flatMap (fun h =>
    let bl := q.blocksOf (caLayer d * q.headsN + h)
    (List.range (caCount d)).flatMap (fun t =>
      let k := caFirst d + t
      let b := bl.getD (k / q.bt) (0, 0)
      let i := h * caCount d + t
      [(b.1 + k % q.bt * q.rowBytes, s.bytes (caBuf d + i * q.rowBytes) q.rowBytes),
       (b.2 + k % q.bt * q.vt, s.bytes (caBuf d + caVals q d + i * q.vt) q.vt)]))

/-- CP_APPEND (R366, R368, R369, R376). DEDUCED, unsafe: notes/assumptions/21.md. -/
def State.cpAppend (s : State) (o : Op) (ue : List Nat) : State :=
  let d := o.desc
  s.cpRequest o (fun q =>
    let st := ((Status.all [
        (q.layersN ≤ caLayer d || caFirst d != q.tokens.getD (caLayer d) 0 || caBuf d % 64 != 0, .permission),
        (caCount d == 0, .zeroLenNoop), (q.maxTokens < caFirst d + caCount d, .capacityExhausted), (q.phase == 3, .stateLost)]).worst
      (s.mapCheck o.ctx false (caBuf d) (caBytes q d))).worst (s.resCheck o.ctx d)
    let rd := s.readCheck ue (caBuf d) (caBytes q d)
    let nb := (newBlocks q d 0).length
    let n := cdiv (nb * (q.kb + q.vby)) (2 ^ 21)
    let r : State × Status × Nat := if n = 0 then (s, .ok, 0) else s.svcPages o.ctx n
    if st != .ok then s.cpEnd o st (some q) q.phase
    -- a placement that fails ranks above an error of the read (R18)
    else if r.2.1 != .ok then r.1.cpEnd o r.2.1 (some q) q.phase
    else if rd != .ok then s.cpEnd o rd (some q) q.phase
    else
      let q1 : Seq := { q with
        blocks := q.blocks ++ newBlocks q d (r.2.2 * 2 ^ 21)
        pages := q.pages ++ (List.range n).map (· + r.2.2)
        tokens := (indexed q.tokens).map (fun p => if p.1 = caLayer d then p.2 + caCount d else p.2) }
      let w := (r.1.mark (caBuf d) (caBytes q d)).savePieces o.ctx (s.appendPieces q1 d)
      let p := w.1.cpPublish q1 [caLayer d]
      let fail := w.2.1.worst p.2
      -- in a failure nothing is appended (R368)
      if fail != .ok then s.cpEnd o fail (some q) q.phase else (p.1.setSeq q1).cpEnd o .ok (some q1) q1.phase)

def execCpAppend (op : Nat) (ue : List Nat) (s : State) : Host.Outcome State Fault Refusal :=
  .next (s.onOp op (· == 0x51) (fun t o => t.cpAppend o ue))

-- CP_SEAL, CP_STATUS

def csTo (d : BitVec 512) : Nat := bfld d 320 10
def csHandoff (d : BitVec 512) : Bool := d.getLsbD 335

/-- The pages and mirrors of a sequence, moves and sources not yet freed included, pass a quota of context y (R343, R370). -/
def State.handoffPages (s : State) (q : Seq) (y : Nat) : Bool :=
  let pg := q.pages.filterMap s.page
  let beyond (k : Nat) : Bool :=
    decide ((s.frd (quotaReg y (4 * k))).toNat
      < s.use y k + (pg.filter (fun g => quotaOf g.tier == k)).length + (pg.filter (fun g => g.move.any (fun m => quotaOf m.tier == k))).length
        + (s.tier.freed.filter (fun f => q.pages.contains f.page && quotaOf f.tier == k)).length
        + (if k = 1 then q.mirrors.length * q.metaPages else 0))
  y != q.owner && (beyond 0 || beyond 1 || beyond 2)

/-- A handoff to context y is refused with this code (R370); the owner itself holds the sequence already.
DEDUCED, unsafe: notes/assumptions/44.md. -/
def State.handoffCheck (s : State) (q : Seq) (y : Nat) : Status :=
  Status.all [(s.ctxState y == 3, .ctxFenced), (!s.defined y || s.ctxSlice y != s.ctxSlice q.owner, .permission),
    (s.handoffPages q y || (y != q.owner && decide (s.ffld (quotaReg y 0x18) 0 16 ≤ (s.tier.seqs.filter (fun r => r.owner == y)).length)), .quota)]

/-- CP_SEAL (R366, R370). -/
def State.cpSeal (s : State) (o : Op) : State :=
  let d := o.desc
  s.cpRequest o (fun q =>
    let st := (Status.all [(q.phase == 2, .permission), (q.phase == 3, .stateLost)]).worst (s.resCheck o.ctx d)
    if st != .ok then s.cpEnd o st (some q) q.phase
    else if !csHandoff d then
      let q1 : Seq := { q with phase := 2 }
      (s.setSeq q1).cpEnd o .ok (some q1) 2
    else
      let hc := s.handoffCheck q (csTo d)
      if hc != .ok then (s.quotaHit (csTo d) (if s.handoffPages q (csTo d) then hc else .ok)).cpEnd o hc (some q) q.phase
      else (s.setSeq { q with handoff := some (csTo d, o.id) }).setOp { o with phase := .boundary })

def execCpSeal (op : Nat) (s : State) : Host.Outcome State Fault Refusal := .next (s.onOp op (· == 0x52) State.cpSeal)

/-- The handoffs of a frame boundary (R370): the pages change their owner, and the request completes.
DEDUCED, unsafe: notes/assumptions/44.md. -/
def State.cpHandoff (s : State) (q : Seq) (y id : Nat) : State :=
  match s.op id with
  | none => s.setSeq { q with handoff := none }
  | some o =>
    let hc := s.handoffCheck q y
    if hc != .ok then (s.setSeq { q with handoff := none }).cpEnd o hc (some q) q.phase
    else
      let q1 : Seq := { q with owner := y, phase := 2, handoff := none }
      let own (e : Word) : Word := (e &&& ~~~(0x3FF : Word)) ||| BitVec.ofNat 32 y
      let s1 := s.setSeq q1
      let s2 : State := { s1 with tier := { s1.tier with
        pages := s1.tier.pages.map (fun (g : Page) => if q.pages.contains g.page then { g with entry := own g.entry } else g)
        rights := s1.tier.rights.map (fun (r : Nat × Word) => if q.pages.contains r.1 then (r.1, own r.2) else r)
        freed := s1.tier.freed.map (fun (f : Freed) => if q.pages.contains f.page then { f with ctx := y } else f) } }
      (s2.cpEnd o .ok (some q1) 2).syncUse [q.owner, y]

def State.cpFrame (s : State) : State :=
  s.each (s.tier.seqs.filter (fun q => q.handoff.isSome)) (fun q t => match q.handoff with
    | some h => t.cpHandoff q h.1 h.2
    | none => t)

/-- CP_STATUS. -/
def State.cpStatus (s : State) (o : Op) : State :=
  s.cpRequest o (fun q => s.cpEnd o ((Status.all [(q.phase == 3, .stateLost)]).worst (s.resCheck o.ctx o.desc)) (some q) q.phase)

def execCpStatus (op : Nat) (s : State) : Host.Outcome State Fault Refusal := .next (s.onOp op (· == 0x53) State.cpStatus)

-- CP_REPLAY, CP_CLOSE

/-- Pages that hold some block of a list. -/
def Seq.blockPages (q : Seq) (l : List (Nat × Nat × Nat)) : List Nat :=
  l.flatMap (fun b => pagesOf b.2.1 q.kb ++ pagesOf b.2.2 q.vby)

/-- Free pages as UNMAP does (R375). DEDUCED, unsafe: notes/assumptions/21.md. -/
def State.cpFree (s : State) (x : Nat) (l : List Nat) : State :=
  (s.each l (fun p t => match t.page p with
    | some g => t.freePage g
    | none => t)).syncUse [x]

/-- A sequence cut back to n tokens: blocks past them are freed (R374). -/
def State.cpCut (s : State) (q : Seq) (n : Nat) : State × Seq :=
  let keepN := cdiv n q.bt
  let kept := ((List.range (q.layersN * q.headsN)).flatMap (fun i =>
    ((q.blocksOf i).take keepN).map (fun b => (i, b.1, b.2))))
  let metaP := q.pages.take q.metaPages
  let keepP := metaP ++ q.blockPages kept
  let q1 : Seq := { q with
    tokens := q.tokens.map (min n), blocks := kept, pages := q.pages.filter keepP.contains, phase := 1, replayFrom := 0, reason := 0 }
  ((s.cpFree q.owner (q.pages.filter (fun p => !keepP.contains p))).setSeq q1, q1)

/-- New backing for pages of context x that are lost, under R337: the pages and their addresses stay. -/
def State.rehomeAll (s : State) (x : Nat) (lost : List Nat) : State × Status :=
  (s.cpFree x lost).placeAll x (fun _ => (0, 0xFF)) (fun p l u => (u.zeroPage p).addPage { newPage p (svcEntry x) l with isNew := false }) lost

/-- A placement for context x counts when it succeeds; refused, it leaves the state and latches a quota (R342). -/
def State.placed (s : State) (x : Nat) (r : State × Status) : State × Status :=
  if r.2 != .ok then (s.quotaHit x r.2, r.2) else (r.1.syncUse [x], .ok)

/-- Metadata pages of a sequence that are lost get new backing (R374). -/
def State.cpRehome (s : State) (q : Seq) : State × Status :=
  let lost := (q.pages.take q.metaPages).filter (fun p => (s.page p).any (·.lost))
  if lost.isEmpty then (s, .ok) else s.placed q.owner (s.rehomeAll q.owner lost)

/-- CP_REPLAY (R366, R373, R374). DEDUCED, unsafe: notes/assumptions/21.md. -/
def State.cpReplay (s : State) (o : Op) : State :=
  let tok := leBytes 16 (db o.desc 40 16)
  s.cpRequest o (fun q =>
    let ok := (crc32c (tok.take 14)).toNat % 2 ^ 16 == le tok 14 2 && le tok 0 8 == db o.desc 16 8
    let st := (Status.all [(!ok || q.phase != 3, .permission), (q.replayFrom < le tok 8 4, .stateLost)]).worst (s.resCheck o.ctx o.desc)
    let h := s.cpRehome q
    if st != .ok then s.cpEnd o st (some q) q.phase
    else if h.2 != .ok then h.1.cpEnd o h.2 (some q) q.phase
    else
      let r := h.1.cpCut q (le tok 8 4)
      let w := r.1.cpPublish r.2 (List.range q.layersN)
      ((w.1.sat 0x288 1).cpSync).cpEnd o w.2 (some r.2) 1)

def execCpReplay (op : Nat) (s : State) : Host.Outcome State Fault Refusal := .next (s.onOp op (· == 0x54) State.cpReplay)

/-- A sequence ends: its pages and mirrors are freed. -/
def State.cpDrop (s : State) (q : Seq) : State :=
  let s1 := s.each q.mirrors (fun l t => t.copyChunks (0x40 + l) q.metaPages false)
  let s2 : State := { s1 with tier := { s1.tier with seqs := s1.tier.seqs.filter (fun r => r.handle != q.handle) } }
  (s2.cpSync).cpFree q.owner q.pages

/-- CP_CLOSE (R375). -/
def State.cpClose (s : State) (o : Op) : State :=
  s.cpRequest o (fun q =>
    if s.resCheck o.ctx o.desc != .ok then s.done o (s.resCheck o.ctx o.desc) else (s.cpDrop q).cpEnd o .ok (some q) 4)

def execCpClose (op : Nat) (s : State) : Host.Outcome State Fault Refusal := .next (s.onOp op (· == 0x55) State.cpClose)

/-- The services of contexts that left: streams and sequences close (R360, R375). -/
def State.svcGone (s : State) (gone : List Nat) : State :=
  (s.wsFrame gone).each (s.tier.seqs.filter (fun q => gone.contains q.owner)) (fun q t => t.cpDrop q)

-- losses ------------------------------------------------------------------------------------------------------------------

/-- Requests waiting on a lost sequence complete STATE_LOST (R372). -/
def State.cpLostOps (s : State) (q : Seq) : State :=
  match q.handoff with
  | some h => (match s.op h.2 with
    | some o =>
      let q1 : Seq := { q with handoff := none }
      (s.setSeq q1).cpEnd o .stateLost (some q1) 3
    | none => s)
  | none => s

/-- A sequence loses data from a token on (R372). -/
def State.cpLose (s : State) (q : Seq) (from_ reason : Nat) : State :=
  if q.phase == 3 && q.replayFrom ≤ from_ then s
  else
    let q1 : Seq := { q with phase := 3, replayFrom := from_, reason := reason }
    ((s.setSeq q1).cpLostOps q1).cpSync

/-- Metadata pages lost are restored from a mirror that is left (R371). -/
def State.cpRestore (s : State) (q : Seq) : State :=
  { s with tier := { s.tier with pages := s.tier.pages.map (fun (g : Page) =>
      if (q.pages.take q.metaPages).contains g.page then { g with lost := false } else g) } }

/-- Units were lost: mirrors on them go, metadata is restored, and sequences that lost blocks become LOST (R371, R372). -/
def State.cpLoss (s : State) (units : List Nat) (reason : Nat) : State :=
  let back := s.tier.seqs.filter (fun q => (q.pages.take q.metaPages).any (fun p => (s.page p).any (·.lost))
    && q.mirrors.any (fun l => !units.contains (0x40 + l)))
  -- the serial number goes on from the highest one restored (R361)
  let serial := match back with
    | [] => s.tier.serial
    | q :: l => l.foldl (fun a r => max a r.serial) q.serial
  let s0 : State := { s with tier := { s.tier with serial := serial } }
  s0.each s.tier.seqs (fun q0 t =>
    let q : Seq := { q0 with mirrors := q0.mirrors.filter (fun l => !units.contains (0x40 + l)) }
    let t1 := (t.setSeq q).when (q.mirrors.length < q0.mirrors.length) (·.set 0x22C 0x10)
    let lost (p : Nat) : Bool := (t1.page p).any (·.lost)
    let metaLost := (q.pages.take q.metaPages).any lost
    let t2 := if metaLost && !q.mirrors.isEmpty then t1.cpRestore q else t1
    let bad := (List.range (q.layersN * q.headsN)).flatMap (fun i =>
      ((indexed (q.blocksOf i)).filter (fun b => (pagesOf b.2.1 q.kb ++ pagesOf b.2.2 q.vby).any lost)).map (·.1))
    if metaLost && q.mirrors.isEmpty then t2.cpLose q 0 3
    else match bad with
      | [] => t2
      | b :: l => t2.cpLose q (l.foldl min b * q.bt) reason)

/-- MIRROR_REBUILD: a metadata mirror is rebuilt on another DRAM tray, of another tray group than the one that is left (R371). -/
def State.mirrorRebuild (s : State) (handle tray : Nat) : State :=
  match s.tier.seqs.find? (fun q => q.handle == handle) with
  | none => s
  | some q =>
    let g := s.trayGroup tray
    if q.mirrors.length < 2 && g.isSome && g.all (fun k => s.groupKind k == 1 && s.groupSlice k == s.ctxSlice q.owner) && !q.mirrors.any (fun l => s.trayGroup l == g)
        && s.unitUp (0x40 + tray) && 32 * q.metaPages ≤ s.unitFree (0x40 + tray) then
      let s1 := (((s.copyChunks (0x40 + tray) q.metaPages true).setSeq { q with mirrors := q.mirrors ++ [tray] }).sat 0x28C 1).syncUse [q.owner]
      s1.when (s1.tier.seqs.all (fun r => r.mirrors.length == 2)) (·.clr 0x22C 0x10)
    else s

def execMirrorRebuild (handle tray : Nat) (s : State) : Host.Outcome State Fault Refusal := .next (s.mirrorRebuild handle tray)

end Sys2Proof.Machine
end

