-- ==== Sys2Proof/Machine/Flash.lean ====
section
/-! DEFINITION. The flash translation at work: joining, destaging, reads and rebuilds, copies, folding, collection, wear, refresh, failed dies,
secure discard, read-only trays, lost stacks (R378-R404). -/

namespace Sys2Proof.Machine

/-- A tray joins the pool after training, as new: every block erased, every spare there (notes/assumptions/22.md). One that was here
before keeps its wear, its retired blocks, spares and failed dies, and none of its data (R381).
PRESUMED, unsafe: notes/assumptions/22.md. -/
def State.flashJoin (s : State) (l : Nat) (h : Hello) : State :=
  let data := trayData h.blocks
  let rated := if s.fld 0x300 0 2 = 1 then h.ratedTlc else h.ratedQlc
  let new : Tray := { link := l, dies := h.dies, blocks := h.blocks, pSlc := h.pSlc, rated := rated, cache := [], waits := [], stripes := [],
                      nextStripe := 0, free := List.replicate h.dies [(0, data)], spares := List.replicate h.dies (traySpares h.blocks),
                      target := List.replicate h.dies 0, failed := [], retired := [], rebuild := [], discards := [], checkpoint := [],
                      journal := [], reading := [] }
  let t : Tray := match s.tray l with
    | some u =>
      let e := u.stripes.foldl (fun (v : Tray) q => v.eraseStripe q) u
      { e with cache := [], waits := [], rebuild := [], discards := [], checkpoint := [], journal := [], reading := [] }
    | none => new
  let s1 : State := { s with flash := { s.flash with trays := s.flash.trays.filter (fun u => u.link != l) ++ [t] } }
  (s1.wrFld (trayReg l 0) 0 3 1).traySync t

/-- Pages that lose a unit are lost (R354, R390). `reason`: that of a replay token, 1 tray lost, 2 stack contents lost (R373). -/
def State.loseFlash (s : State) (pages : List Nat) (reason : Nat) : State :=
  let bad := s.tier.pages.filter (fun g => pages.contains g.page && !g.lost)
  let s0 := s.each bad (fun g t => t.abandonMove g)
  let s1 := s0.each bad (fun g t => match t.page g.page with
    | some h => t.setPage { h with lost := true }
    | none => t)
  let s2 := (s1.when (!bad.isEmpty) (·.set 0x22C 0x2)).each bad (fun g t => t.errLog 0xD 0 g.unit (entryCtx g.entry) (g.page * 2 ^ 21) 0)
  (s2.cpLoss [] reason).syncUse (bad.map (fun g => entryCtx g.entry)).eraseDups

/-- A unit is lost: the map names no copy of it, and its page is lost (R390). -/
def State.loseUnits (s : State) (l : Nat) (us : List (Nat × Nat)) : State :=
  s.onTray l (fun t =>
    let gone := us.foldl (fun (u : Tray) p => u.unmapUnit p.1 p.2) t
    ((s.setTray gone).when (!us.isEmpty) (·.set 0x314 0x4)).loseFlash (us.map (·.1)) 1)

-- discards that wait --------------------------------------------------------------------------------------------------------

/-- Pages of flash backing that await secure discard (R397). -/
def State.discarding (s : State) : List Nat := (s.tier.scrubs.filter (fun r => r.tier == 2)).map (·.page)

/-- The victim of R392. DESIGN CHOICE, unsafe: notes/assumptions/23.md. -/
def State.victim (s : State) (t : Tray) (g : Nat) : Option FStripe :=
  (t.stripes.filter (fun v => v.group == g && !v.buffer && v.closed && v.leaving.isNone
      && !v.copies.any (fun c => s.discarding.contains c.page))).foldl
    (fun (b : Option FStripe) v => match b with
      | none => some v
      | some w => if v.live.length < w.live.length || (v.live.length == w.live.length && v.no < w.no) then some v else some w) none

/-- Collection takes precedence over destaging in a group: its smallest F is below `FL_GC_LOW`, and there is a stripe to collect (R392). -/
def State.gcFirst (s : State) (t : Tray) (g : Nat) : Bool := decide (t.minFree g < (s.frd 0x308).toNat) && (s.victim t g).isSome

-- destaging ---------------------------------------------------------------------------------------------------------------

/-- The first group where a unit can be destaged in a mode (R386). DESIGN CHOICE, unsafe: notes/assumptions/23.md. -/
def State.groupFor (s : State) (t : Tray) (buffer : Bool) (page unit : Nat) : Option Tray :=
  (List.range t.groups).findSome? (fun g =>
    let open_ := t.stripes.any (fun v => v.group == g && v.buffer == buffer && !v.closed)
    let room := !buffer || (t.liveDies g).all (fun d => t.bufferBlocks g < t.target.getD d 0)
    if (open_ || room) && !s.gcFirst t g then (t.program (s.mainPages t.pSlc) g buffer page unit (s.unitData page unit)).map (·.1) else none)

/-- DESTAGE: the oldest dirty unit goes to the buffer, or to a main stripe (R386). A unit whose page is here no more leaves the cache. -/
def State.destage (s : State) (l : Nat) : State :=
  s.onTray l (fun t =>
    match t.cache.find? (·.dirty) with
    | none => s
    | some c =>
      if !s.unitHere l c.page c.unit then s.setTray { t with cache := t.cache.erase c }
      else if !s.trayWorks l then s
      else match (s.groupFor t true c.page c.unit).orElse (fun _ => s.groupFor t false c.page c.unit) with
        | none => s
        | some u =>
          let clean (k : CUnit) : CUnit := if k == c then { k with dirty := false } else k
          ((s.traySync { u with cache := u.cache.map clean }).sat64 (trayReg l 0x20) 1).programmed l 1)

def execDestage (link : Nat) (s : State) : Host.Outcome State Fault Refusal := .next (s.destage link)

-- copies ------------------------------------------------------------------------------------------------------------------

/-- A spare of die d takes the place of a retired block: the tray, and whether there was one. -/
def Tray.spare (t : Tray) (d : Nat) : Tray × Bool :=
  let left := t.spares.getD d 0
  if left = 0 then (t, false) else ({ t with spares := t.spares.set d (left - 1) }, true)

/-- A destination program or verify fails (R394): the block is retired and a spare of its die takes its place, its units being copied again;
with no spare left the stripe goes on without that die, and the units that were valid there are copied again. -/
def State.copyFails (s : State) (t : Tray) (g : Nat) : State :=
  match t.withOpen g false with
  | none => s
  | some r =>
    let v := r.2
    let p := v.next.2
    let d := 16 * g + p
    let u := (r.1.retire d (v.blocks.getD p none)).spare d
    let again := v.copies.filter (fun c => c.pos == p)
    let s1 := s.sat (trayReg t.link 0x3C) 1
    if u.2 then
      (s1.traySync (u.1.setStripe { v with blocks := v.blocks.set p (some { erases := 0, reads := 0 }) })).programmed t.link again.length
    else
      let w : FStripe := { v with blocks := v.blocks.set p none }
      let q := (u.1.setStripe w).copyUnits (s.mainPages t.pSlc) g (again.filter (·.valid))
      (s1.traySync q.1).programmed t.link q.2.1.length

/-- The bytes of a copy as firmware reads it: from its page, or rebuilt from its row when its die has failed (R393 item 1). -/
def Tray.readCopy (t : Tray) (v : FStripe) (c : FCopy) : FCopy :=
  if t.failed.contains (16 * v.group + c.pos) then { c with data := (v.rebuilt c).getD c.data } else c

/-- Copy a stripe's valid units into its group's open main stripe (R393). It is erased once they have all left and the rows that took them
have their parity pages. `gc`: by garbage collection. -/
def State.moveStripe (s : State) (t : Tray) (v : FStripe) (verifyOk gc : Bool) : State :=
  if v.live.isEmpty then s.traySync (t.setStripe { v.close with leaving := some gc, dests := [] })
  else if !verifyOk then s.copyFails t v.group
  else
    -- the stripe is no destination of its own units
    let r := (t.setStripe v.close).copyUnits (s.mainPages t.pSlc) v.group (v.live.map (t.readCopy v))
    let leave (w : FStripe) : FStripe := if w.no == v.no then { w with leaving := if r.2.2 then some gc else none, dests := w.dests ++ r.2.1 } else w
    let u : Tray := { r.1 with stripes := r.1.stripes.map leave }
    (s.traySync u).programmed t.link r.2.1.length

/-- Firmware takes up an activity of its own on a tray that works, from a frame boundary on (R38). -/
def State.activity (s : State) (l : Nat) (f : Tray → State) : State :=
  s.onTray l (fun t => if s.trayWorks l && s.atBoundary then f t else s)

/-- FOLDING: the oldest buffer stripe's units go to main stripes, and its blocks are erased (R388). -/
def State.fold (s : State) (l : Nat) (verifyOk : Bool) : State :=
  s.activity l (fun t =>
    match t.stripes.find? (fun v => v.buffer && v.leaving.isNone) with
    | some v => s.moveStripe t v verifyOk false
    | none => s)

def execFolding (link : Nat) (verifyOk : Bool) (s : State) : Host.Outcome State Fault Refusal := .next (s.fold link verifyOk)

/-- A unit is rebuilt from its row and rewritten elsewhere on the tray as a copy; on a tray that takes no writes its page moves out instead.
A unit that its row does not give back is lost (R390, R404). -/
def State.rewrite (s : State) (t : Tray) (v : FStripe) (c : FCopy) (rowOk verifyOk : Bool) : State :=
  let data := if rowOk then v.rebuilt c else none
  match data with
  | none => s.loseUnits t.link [(c.page, c.unit)]
  | some d =>
    let s1 := s.sat (trayReg t.link 0x38) 1
    if !s.trayWorks t.link then
      match s1.page c.page with
      | some g => if g.move.isSome || g.lost then s1 else match s1.admitTo g 1 with
        | (some loc, x) => (x.startMove g loc).syncUse [entryCtx g.entry]
        | (none, x) => x
      | none => s1
    else if !verifyOk then s1.copyFails t v.group
    else match t.program (s.mainPages t.pSlc) v.group false c.page c.unit d with
      | some u => (s1.traySync { u.1 with rebuild := u.1.rebuild.erase (c.page, c.unit) }).programmed t.link 1
      | none => s1

/-- T_FL_CMD: a page command to a flash tray; reads are remembered with their level until they are answered (R379, R456).
DESIGN CHOICE, unsafe: notes/assumptions/39.md. -/
def State.flashCmd (s : State) (link cmd level die block page : Nat) : State :=
  let s1 := (s.emit (.flashCmd link cmd level die block page)).progress (.link link)
  s1.when (cmd == 0) (fun t => t.onTray link (fun y => t.setTray { y with reading := y.reading ++ [level] }))

/-- T_FL_RESP to the oldest read: a unit was read at its level. One that the code cannot correct is read again at the next level, up to
level 8, and then rebuilt from its row (R379, R390). `rowOk`: the other pages of the row can be read; `verifyOk`: the new copy verifies. -/
def State.flashRead (s : State) (l p u : Nat) (ok rowOk verifyOk : Bool) : State :=
  s.onTray l (fun t =>
    match t.reading with
    | [] => s
    | level :: rest =>
      let t1 : Tray := { t with reading := rest }
      match t.find p u with
      | none => s.setTray t1
      | some k =>
        let v := k.1
        let c := k.2
        let served (b : Option FBlock) : Option FBlock := b.map (fun x => { x with reads := x.reads + 1 })
        let t2 := t1.setStripe { v with blocks := v.blocks.set c.pos (served (v.blocks.getD c.pos none)) }
        if ok then s.setTray t2
        else if level < 8 && !t.failed.contains (16 * v.group + c.pos) then (s.setTray t2).flashCmd l 0 (level + 1) (16 * v.group + c.pos) v.no c.row
        else (s.setTray t2).rewrite t2 v c rowOk verifyOk)

-- secure discard ----------------------------------------------------------------------------------------------------------

/-- A block fails its erase: it is retired, a spare takes its place, and all its pages are programmed with ones; what that fails to remove is
reported (R398). DESIGN CHOICE, unsafe: notes/assumptions/23.md. -/
def State.eraseFails (s : State) (t : Tray) (v : FStripe) (programOk : Bool) : State × Tray × FStripe :=
  match v.used with
  | [] => (s, t, v)
  | p :: _ =>
    let d := 16 * v.group + p
    let u := (t.retire d (v.blocks.getD p none)).spare d
    let w := if u.2 then u.1.setFree d (giveBlock 0 (u.1.free.getD d [])) else u.1
    let s1 := s.sat (trayReg t.link 0x3C) 1
    (s1.when (!programOk) (fun x => (x.set 0x314 0x8).sat 0x31C 1), w, { v with blocks := v.blocks.set p none })

/-- One stripe that holds a copy of a discarded page: other valid units leave it, and its blocks are erased. On a read-only tray a
stripe with other valid units is kept (R396, R400). Answers whether the stripe is gone. -/
def State.discardStripe (s : State) (t : Tray) (v : FStripe) (p : Nat) (eraseOk programOk : Bool) : State × Tray × Bool :=
  let others := (v.live.filter (fun c => c.page != p)).map (t.readCopy v)
  let r := (t.setStripe v.close).copyUnits (s.mainPages t.pSlc) v.group others
  if !others.isEmpty && (!s.trayWorks t.link || !r.2.2) then (s, t, false)
  else
    let x := if eraseOk then (s, r.1, v) else s.eraseFails r.1 v programOk
    (x.1.programmed t.link r.2.1.length, x.2.1.eraseStripe x.2.2, true)

/-- Every copy of a page's units goes from a tray: cache entries, buffer, main and stale copies with the parity pages of their stripes
(R396). Answers whether all of them are gone. -/
def State.discardAll (s : State) (t : Tray) (p : Nat) (eraseOk programOk : Bool) : State × Tray × Bool :=
  let drop (c : CUnit) : Bool := c.page != p
  let t0 : Tray := { t with cache := t.cache.filter drop, waits := t.waits.filter drop, rebuild := t.rebuild.filter (fun c => c.1 != p) }
  let t1 := (List.range 128).foldl (fun (u : Tray) k => u.unmapUnit p k) t0
  let hold := (t1.stripes.filter (fun v => v.copies.any (fun c => c.page == p))).map (·.no)
  hold.foldl (fun (q : State × Tray × Bool) no =>
    match q.2.1.stripe no with
    | some v =>
      let x := q.1.discardStripe q.2.1 v p (eraseOk || q.2.2 != true) programOk
      (x.1, x.2.1, q.2.2 && x.2.2)
    | none => q) (s, t1, true)

/-- A page whose discard on a tray has not been done (R397). -/
def State.toDiscard (s : State) (t : Tray) (p : Nat) : Bool :=
  !t.discards.contains p && s.tier.scrubs.any (fun r => r.page == p && r.tier == 2
    && (s.chunkUnits { tier := r.tier, unit := r.unit, group := r.group } p).contains (0x40 + t.link))

/-- SECURE_DISCARD of a page on a tray, from a frame boundary on (R38, R396), and not while accesses still find the page under the old map
(R339). -/
def State.secureDiscard (s : State) (l p : Nat) (eraseOk programOk : Bool) : State :=
  s.onTray l (fun t =>
    if !s.toDiscard t p || !s.atBoundary || s.tier.gone.any (fun g => g.page == p) then s
    else
      let r := s.discardAll t p eraseOk programOk
      r.1.traySync (if r.2.2 then { r.2.1 with discards := r.2.1.discards ++ [p] } else r.2.1))

def execSecureDiscard (link page : Nat) (eraseOk programOk : Bool) (s : State) : Host.Outcome State Fault Refusal :=
  .next (s.secureDiscard link page eraseOk programOk)

/-- SECURE_DISCARD_COMPLETE: once every tray that held the page is done, the page's backing is free again (R397). -/
def State.discardComplete (s : State) (l p : Nat) : State :=
  match s.tier.scrubs.find? (fun r => r.page == p && r.tier == 2) with
  | none => s
  | some r =>
    let us := s.chunkUnits { tier := r.tier, unit := r.unit, group := r.group } p
    let done (u : Nat) : Bool := (s.tray (u - 0x40)).elim true (fun t => t.discards.contains p)
    if us.contains (0x40 + l) && us.all done then
      let clear (t : Tray) : Tray := { t with discards := t.discards.filter (· != p) }
      let s1 : State := { s with flash := { s.flash with trays := s.flash.trays.map clear } }
      (s1.scrubEnd r).wrn 0x318 ((s.rd 0x318).toNat - 1)
    else s

def execSecureDiscardComplete (link page : Nat) (s : State) : Host.Outcome State Fault Refusal := .next (s.discardComplete link page)

-- collection, wear, refresh -------------------------------------------------------------------------------------------------

/-- A discard on the tray that can be done now goes ahead of collection (R397). -/
def State.discardFirst (s : State) (t : Tray) : Bool :=
  s.discarding.any (fun p => s.toDiscard t p && !s.tier.gone.any (fun g => g.page == p) && (s.discardAll t p true true).2.2)

/-- GARBAGE_COLLECTION in a group while its smallest F is below `FL_GC_HIGH` (R392). DESIGN CHOICE, unsafe: notes/assumptions/23.md. -/
def State.collect (s : State) (l g : Nat) (verifyOk : Bool) : State :=
  s.activity l (fun t =>
    if t.groups ≤ g || (s.frd 0x30C).toNat ≤ t.minFree g || s.discardFirst t then s
    else match s.victim t g with
      | some v => s.moveStripe t v verifyOk true
      | none => s)

def execGarbageCollection (link group : Nat) (verifyOk : Bool) (s : State) : Host.Outcome State Fault Refusal :=
  .next (s.collect link group verifyOk)

/-- WEAR_LEVELLING of a die (R395): the stripe of its least-worn data block is moved. -/
def State.level (s : State) (l d : Nat) (verifyOk : Bool) : State :=
  s.activity l (fun t =>
    let ws := t.dieWears d
    let lo := ws.foldl min (ws.headD 0)
    let hi := ws.foldl max 0
    if hi ≤ lo + (s.frd 0x310).toNat then s
    else match t.stripes.find? (fun v => v.group == d / 16 && v.leaving.isNone && (v.blocks.getD (d % 16) none).any (fun b => b.erases == lo)) with
      | some v => s.moveStripe t v verifyOk false
      | none => s)

def execWearLevelling (link die : Nat) (verifyOk : Bool) (s : State) : Host.Outcome State Fault Refusal := .next (s.level link die verifyOk)

/-- READ_REFRESH: a block of the stripe has served 100,000 reads since its last program (R395). -/
def State.refresh (s : State) (l no : Nat) (verifyOk : Bool) : State :=
  s.activity l (fun t =>
    match t.stripe no with
    | some v => if v.leaving.isNone && v.blocks.any (fun b => b.any (fun k => 100000 ≤ k.reads)) then s.moveStripe t v verifyOk false else s
    | none => s)

def execReadRefresh (link stripe : Nat) (verifyOk : Bool) (s : State) : Host.Outcome State Fault Refusal := .next (s.refresh link stripe verifyOk)

-- dies --------------------------------------------------------------------------------------------------------------------

/-- Valid units on die d. -/
def Tray.unitsOn (t : Tray) (d : Nat) : List (Nat × Nat) :=
  (t.stripes.filter (fun v => v.group == d / 16)).flatMap (fun v => (v.live.filter (fun c => c.pos == d % 16)).map (fun c => (c.page, c.unit)))

/-- Die d is used no more: the open stripes of its group close, and new ones do without it (R391). -/
def Tray.dieGone (t : Tray) (d : Nat) : Tray :=
  let f (v : FStripe) : FStripe :=
    if v.group != d / 16 then v
    else { (if v.closed then v else v.close) with blocks := v.blocks.set (d % 16) none }
  { t with failed := t.failed ++ [d], stripes := t.stripes.map f }

/-- Pages that no longer fit on a tray move out, coldest first: to the flash tier where it takes them, else to DRAM (R391). -/
def State.shed (s : State) (l chunks : Nat) : State :=
  let here := orderBy coldFirst (s.tier.pages.filter (fun g => g.tier == 2 && !g.lost && g.move.isNone && (s.chunkUnits g.loc g.page).contains (0x40 + l)))
  (here.foldl (fun (q : State × Nat) g =>
    if q.2 = 0 then q
    else
      let n := q.2 - (q.1.chunkUnits g.loc g.page).count (0x40 + l)
      match q.1.admitTo g 2 with
      | (some loc, t) => (t.startMove g loc, n)
      | (none, t) => match t.admitTo g 1 with
        | (some loc, u) => (u.startMove g loc, n)
        | (none, u) => (u, q.2)) (s, chunks)).1

/-- FLASH_DIE_FAILURE (R391). Units of which the cache has a copy are not lost: it is destaged again. -/
def State.dieFails (s : State) (l d : Nat) : State :=
  s.onTray l (fun t =>
    if t.dies ≤ d || t.failed.contains d then s
    else
      let inGroup (p : Nat × Nat) : Bool := (t.failed.filter (fun f => f / 16 == d / 16)).any (fun f => (t.unitsOn f).contains p)
      let second := t.rebuild.filter inGroup
      let gone := if second.isEmpty then [] else second ++ t.unitsOn d
      let keep (c : CUnit) : CUnit := if gone.contains (c.page, c.unit) then { c with dirty := true } else c
      let cached (p : Nat × Nat) : Bool := t.cache.any (fun c => c.page == p.1 && c.unit == p.2)
      let t0 := t.dieGone d
      let t1 : Tray := { t0 with
        cache := t.cache.map keep
        rebuild := (t.rebuild ++ t.unitsOn d).filter (fun p => !gone.contains p) }
      let pm := s.mainPages t.pSlc
      let drop := (offered (t.dies - t.failed.length) (trayData t.blocks) pm - offered (t.dies - t.failed.length - 1) (trayData t.blocks) pm) * 32
      let excess := drop - s.unitFree (0x40 + l)
      let cut (x : UnitFree) : UnitFree := if x.unit == 0x40 + l then { x with free := x.free - drop } else x
      let s1 := (s.when (s.trayState l == 1) (·.wrFld (trayReg l 0) 0 3 3)).set 0x314 0x2
      let s2 : State := { s1 with tier := { s1.tier with units := s1.tier.units.map cut } }
      let t2 := (gone.filter cached).foldl (fun (u : Tray) p => u.unmapUnit p.1 p.2) t1
      (((s2.traySync t2).loseUnits l (gone.filter (fun p => !cached p))).shed l excess).syncUse s.tierCtxs)

def execFlashDieFailure (link die : Nat) (s : State) : Host.Outcome State Fault Refusal := .next (s.dieFails link die)

/-- FLASH_DIE_REBUILD: one unit of a failed die is rebuilt and rewritten into new stripes of the remaining dies, from a frame boundary on
(R38, R390, R391). A tray that is read-only moves its page out instead (R404). -/
def State.rebuildUnit (s : State) (l p u : Nat) (verifyOk : Bool) : State :=
  s.onTray l (fun t =>
    match t.find p u with
    | some k => if t.rebuild.contains (p, u) && s.atBoundary then s.rewrite t k.1 k.2 true verifyOk else s
    | none => s.traySync { t with rebuild := t.rebuild.filter (· != (p, u)) })

def execFlashDieRebuild (link page unit : Nat) (verifyOk : Bool) (s : State) : Host.Outcome State Fault Refusal :=
  .next (s.rebuildUnit link page unit verifyOk)

-- boundaries and losses ---------------------------------------------------------------------------------------------------

/-- An epoch boundary: buffer targets (R387), and every 16 epochs a checkpoint of the map (R380). -/
def State.flashEpoch (s : State) : State :=
  s.each s.flash.trays (fun t u =>
    let b (d : Nat) : Nat := min (u.frd 0x304).toNat ((t.freeOf d + t.bufferBlocks (d / 16) - (u.frd 0x30C).toNat) / 4)
    let v : Tray := { t with target := (List.range t.dies).map b }
    u.setTray (if u.epoch % 16 = 0 then { v with checkpoint := t.map, journal := [] } else v))

/-- The stacks of a die lost their contents: the maps of its trays are rebuilt, and units that were dirty in their write caches are lost
(R380). -/
def State.flashCacheLost (s : State) (die : Nat) : State :=
  s.each (s.flash.trays.filter (fun t => t.link / 16 == die)) (fun t u =>
    (u.setTray { t.mapRebuild with cache := [], waits := [] }).loseFlash (((t.cache.filter (·.dirty)).map (·.page)).eraseDups) 2)

end Sys2Proof.Machine
end

