-- ==== Sys2Proof/Machine/Coherence.lean ====
section
/-! DEFINITION. Coherence: requests at a home, snoops at service cores, responses and write-backs, recalls, atomics (R405-R440). -/

namespace Sys2Proof.Machine

-- host-port completions ---------------------------------------------------------------------------------------------------

/-- A failed request is recorded at its port (R446). -/
def State.hpFail (s : State) (port dpa window : Nat) (st : Status) : State :=
  let b := hostBlock port
  (((s.wrn (b + 0x10) (st.code + 256 * window)).wrn (b + 0x14) dpa).wrn (b + 0x18) (dpa / 2 ^ 32)).sat (b + 0x1C) 1

/-- DevLoad of a host port (R448): cells that entered on it and are still held, as a share of `EG_QMAX` of its own egress; none on CXL 1.1.
DEDUCED, unsafe: notes/assumptions/35.md. -/
def State.devLoad (s : State) (port : Nat) : Nat :=
  let held := (s.sw.items.filter (fun q => q.m.ingress == port)).foldl (fun a q => a + (q.arrived - q.sent)) 0
  let share := 100 * held / max 1 (s.fld (egReg (port / 12) (port % 12) 0xC) 0 17)
  if s.fld (hostBlock port) 3 2 < 2 || share < 25 then 0 else if share < 50 then 1 else if share < 85 then 2 else 3

/-- A host request completes (R446): kind 0 read, 1 write, 2 AtomicOp. A port that is not UP has its responses discarded (R447). -/
def State.hostEnd (s : State) (port dpa window kind : Nat) (st : Status) (data : List Byte) (v : Nat) : State :=
  let s1 := if st.success then s else s.hpFail port dpa window st
  let o : Out := match kind with
    | 0 => if st.success then .memData port data false (s.devLoad port) else .memData port (List.replicate 64 0) true (s.devLoad port)
    | 1 => .cmp port (s.devLoad port)
    | _ => .atomicCpl port (if st.success then some v else none)
  (s1.when (s1.hostUp port) (·.emit o)).progress (.host port)

/-- An uncorrectable error on a request: the context is faulted, the error logged (R355, R428, R546).
DEDUCED, unsafe: notes/assumptions/40.md. -/
def State.mediaOf (s : State) (source x a : Nat) (st : Status) : State :=
  s.when (st == .mediaUncorrectable) (fun t => ((t.errLog 0xC 5 source x a 0).poisonMet a).fault x 2)

-- the directory -----------------------------------------------------------------------------------------------------------

def State.dirEnt (s : State) (l : Nat) : Option DirEnt := s.coh.dir.find? (fun e => e.line == l)

def State.dropEnt (s : State) (l : Nat) : State :=
  let t : State := { s with coh := { s.coh with dir := s.coh.dir.filter (fun e => e.line != l) } }
  t.dirSync

/-- Put an entry in place; one without holders goes (R412). -/
def State.setEnt (s : State) (e : DirEnt) : State :=
  if e.holders.isEmpty && e.st != .h then s.dropEnt e.line
  else
    let t : State := { s with coh := { s.coh with dir := e :: s.coh.dir.filter (fun f => f.line != e.line) } }
    t.dirSync

/-- A new entry, allocated now. -/
def State.newEnt (s : State) (line dom : Nat) (st : HomeSt) (holders : List Agent) : State :=
  let t : State := { s with coh := { s.coh with clock := s.coh.clock + 1 } }
  t.setEnt { line := line, dom := dom, st := st, holders := holders, alloc := s.coh.clock }

/-- An agent holds a line no more. When the owner goes, the rest are sharers (R413). -/
def State.dropHolder (s : State) (a : Agent) (l : Nat) : State :=
  match s.dirEnt l with
  | none => s
  | some e =>
    if !e.holders.contains a then s
    else
      let st := if e.holders.head? == some a && e.st != .h then HomeSt.s else e.st
      s.setEnt { e with holders := e.holders.erase a, st := st }

/-- The recorded owner of a line in EM or O. -/
def DirEnt.owner (e : DirEnt) : Option Agent := if e.st == .em || e.st == .o then e.holders.head? else none

/-- Host port n belongs to domain d (R405). -/
def State.domPort (s : State) (d n : Nat) : Bool := s.fbit (domReg d (4 + n / 32 * 4)) (n % 32)

/-- The home tracks copies of this agent in domain d: service cores, and CXL 3.1 host ports of the domain that are not in
downstream mode (R409, R411, R449).
DEDUCED, unsafe: notes/assumptions/34.md. -/
def State.tracks (s : State) (d : Nat) (a : Agent) : Bool :=
  d != 0 && (match a with
    | .core _ => true
    | .host n => s.domPort d n && s.fld (hostBlock n) 0 3 != 4 && s.fld (hostBlock n) 3 2 == 3
    | _ => false)

/-- A line of memory itself. DESIGN CHOICE, unsafe: notes/assumptions/58.md. -/
def State.lineMem (s : State) (l : Nat) : List Byte := (List.range 64).map (fun i => sget (fun _ => 0) s.mem (64 * l + i))

/-- One line update applied at a slice (R440). -/
def State.homeUpdate (s : State) (l : Nat) : State :=
  let h := homeSlice l
  let n := (s.coh.updates.find? (fun p => p.1 == h)).elim 0 (·.2) + 1
  let t : State := { s with coh := { s.coh with updates := (h, n) :: s.coh.updates.filter (fun p => p.1 != h) } }
  t.wrn (dirReg h 0x1C) (n / 1024)

-- atomics -----------------------------------------------------------------------------------------------------------------

/-- Signed value of `s` bytes. -/
def sgn (size v : Nat) : Int := if 2 ^ (8 * size - 1) ≤ v then (v : Int) - 2 ^ (8 * size) else v

/-- The value an atomic leaves (R429). -/
def atomNew (a : Atomic) (old : Nat) : Nat :=
  let w := 2 ^ (8 * a.size)
  let x := a.operand % w
  match a.code with
  | 0 => (old + x) % w
  | 1 => old &&& x
  | 2 => old ||| x
  | 3 => old ^^^ x
  | 4 => if sgn a.size x < sgn a.size old then x else old
  | 5 => if sgn a.size old < sgn a.size x then x else old
  | 6 => min old x
  | 7 => max old x
  | 8 => x
  | _ => if old = x then a.swap % w else old

/-- A misaligned atomic, an unlisted size, a reserved code and a posted SWAP or CAS are refused (R429). -/
def atomOk (off : Nat) (a : Atomic) : Bool :=
  a.code ≤ 9 && (a.size == 4 || a.size == 8 || (a.size == 16 && a.code == 9)) && off % a.size == 0 && !(a.posted && 8 ≤ a.code)

/-- Placement of an atomic to a shared page (R430). -/
def State.atomHome (s : State) (d page : Nat) : Bool :=
  match (List.range 8).find? (fun r => s.fbit (rangeReg d r 8) 0 && decide ((s.frd (rangeReg d r 0)).toNat ≤ page)
      && decide (page ≤ (s.frd (rangeReg d r 4)).toNat)) with
  | some r => s.fbit (rangeReg d r 8) 1
  | none => s.fbit (domReg d 0) 2

/-- Values that the members of a combined ADD receive, in order (R434). -/
def addValues (size : Nat) : Nat → List AddMember → List Nat
  | _, [] => []
  | v, m :: l => v :: addValues size ((v + m.operand) % 2 ^ (8 * size)) l

-- answers -----------------------------------------------------------------------------------------------------------------

/-- Data or a grant for a service core is on its way. -/
def State.fly (s : State) (c l state : Nat) (data : Option (List Byte)) : State :=
  { s with coh := { s.coh with flight := s.coh.flight ++ [{ core := c, line := l, state := state, data := data }] } }

/-- The answer to a request: the state granted, the data, the value an atomic returns. -/
def State.answer (s : State) (r : CReq) (st : Status) (grant : Nat) (data : Option (List Byte)) (v : Nat) : State :=
  match r.via, r.agent with
  | .host dpa w, .host n =>
    s.hostEnd n dpa w (match r.kind with
      | .wrLine _ => 1
      | .wrPart _ _ => 1
      | .wrMask _ _ => 1
      | .atom _ _ => 2
      | _ => 0) st (data.getD []) v
  | .msg q, .zfl l =>
    (match r.kind with
     | .atom _ a => s.when (!a.posted) (·.respond l q 0x06 st (if st.success then leBytes a.size v else []))
     | _ => s)
  | _, _ =>
    (match r.kind with
     | .recall => s
     | .atom _ a => s.when (!a.posted) (·.emit (.value r.agent v st))
     | .cadd _ size ms =>
       s.each ((ms.zip (addValues size v ms)).filter (fun p => !p.1.posted)) (fun p t => t.emit (.value p.1.agent p.2 st))
     | k =>
       let s1 := s.emit (.reply r.agent r.line grant data st)
       (match k, r.agent with
        | .rdS, .core c => s1.fly c r.line grant data
        | .rdOwn, .core c => s1.fly c r.line grant data
        | .upgrade, .core c => s1.fly c r.line grant data
        | _, _ => s1))

/-- A read or atomic of a poisoned line (R428). -/
def State.cohMedia (s : State) (r : CReq) : State :=
  let d := s.lineDom r.line
  let s1 := (s.when (d != 0) (·.set (domReg d 0x10) 4)).sat (dirReg (homeSlice r.line) 0x18) 1
  ((s1.errLog 0xC 5 (homeSlice r.line / 2) r.ctx (64 * r.line) 0).fault r.ctx 2).answer r .mediaUncorrectable 0 none 0

-- requests ----------------------------------------------------------------------------------------------------------------

def ReqKind.writes : ReqKind → Bool
  | .rdCur => false
  | .rdS => false
  | .recall => false
  | _ => true

/-- What an arrival port may do: a tenant port is served only while Sealed (R509), a host port only for contexts of slices that hold
it (R483), and for a shared page only when the domain holds it (R406). -/
def State.portCheck (s : State) (a : Agent) (ctx dom : Nat) : Status :=
  match a with
  | .host n =>
    if (!s.owner n && s.fld 0x700 0 2 != 1) || !s.sliceHost (s.ctxSlice ctx) n || (dom != 0 && !s.domPort dom n) then .permission else .ok
  | _ => .ok

/-- The checks of a request when its home accepts it (R405, R406, R429, R477). DEDUCED, unsafe: notes/assumptions/34.md. -/
def State.reqCheck (s : State) (r : CReq) : Status :=
  let p := r.line / 2 ^ 15
  let base := (((s.ctxCheck r.ctx).worst (s.portCheck r.agent r.ctx (s.lineDom r.line))).worst (s.pageCheck r.ctx p r.kind.writes false)).worst
    (s.lostCheck p)
  match r.kind with
  | .recall => .ok
  | .atom off a => if atomOk off a then base else base.worst .permission
  | .cadd off size _ => if (size == 4 || size == 8) && off % size == 0 then base else base.worst .permission
  | _ => base

/-- What a request amounts to at the home: an agent whose copies are not tracked makes uncached requests only (R409, R410).
DEDUCED, unsafe: notes/assumptions/34.md. -/
def State.reqKind (s : State) (r : CReq) : ReqKind :=
  if s.tracks (s.lineDom r.line) r.agent then r.kind
  else match r.kind with
    | .rdS => .rdCur
    | .rdOwn => .rdCur
    | .upgrade => .rdCur
    | k => k

/-- Snoops that a request draws from the line's home state (R416): the agent and 0 Cur, 1 Data, 2 Inv. -/
def snoopsFor (e : Option DirEnt) (a : Agent) : ReqKind → List (Agent × Nat)
  | .rdCur => (e.bind DirEnt.owner).elim [] (fun o => if o == a then [] else [(o, 0)])
  | .rdS => (e.bind DirEnt.owner).elim [] (fun o => if o == a then [] else [(o, 1)])
  | .recall => (e.elim [] (·.holders)).map (fun h => (h, 2))
  | _ => ((e.elim [] (·.holders)).filter (· != a)).map (fun h => (h, 2))

/-- A snoop leaves the home. -/
def State.snoop (s : State) (l : Nat) (p : Agent × Nat) : State :=
  let s1 := s.emit (.snoop p.1 p.2 l)
  match p.1 with
  | .core c => { s1 with coh := { s1.coh with snoops := s1.coh.snoops ++ [{ core := c, line := l, kind := p.2, stale := false }] } }
  | _ => s1

/-- The home buffer has room for one more line of a slice: the way allocated longest ago goes to memory (R431). -/
def State.homeRoom (s : State) (h : Nat) : State :=
  let held := s.coh.dir.filter (fun e => e.st == .h && homeSlice e.line == h)
  if held.length < 4096 then s
  else
    match held.foldl (fun (b : Option DirEnt) e => match b with
      | none => some e
      | some f => if e.alloc < f.alloc then some e else some f) none with
    | some e => s.dropEnt e.line
    | none => s

/-- Dirty data that reached the home go to memory. -/
def State.txnFlush (s : State) (t : Txn) : State :=
  match t.data with
  | some d => if t.dirty then s.memLine t.req.line d else s
  | none => s

/-- A line in which the enabled bytes are written (R446). -/
def maskLine (m : BitVec 64) (d old : List Byte) : List Byte :=
  (List.range 64).map (fun i => if m.getLsbD i then d.getD i 0 else old.getD i 0)

/-- A write of a request is applied at its home (R417, R419). -/
def State.homeWrite (s : State) (r : CReq) (a : Nat) (d : List Byte) (v : Nat) : State :=
  let q := (s.dropHolder r.agent r.line).save r.ctx a d
  (q.1.homeUpdate r.line).answer r q.2 0 none v

/-- An atomic is applied to the current line (R429-R431). -/
def State.homeAtom (s : State) (t : Txn) (off size : Nat) (new : Nat → Nat) : State :=
  let r := t.req
  let a := 64 * r.line + off
  let old := leNat (s.bytes a size)
  let s1 := s.dropEnt r.line
  let ext := (s.page (r.line / 2 ^ 15)).any (fun g => g.tier == 3)
  let s2 := if t.atHome then (s1.homeRoom (homeSlice r.line)).newEnt r.line (s.lineDom r.line) .h []
            else s1.when (!ext) (·.sat (dirReg (homeSlice r.line) 0x20) 1)
  s2.homeWrite r a (leBytes size (new old)) old

/-- A transaction has every answer it waited for: its result (R416, R424, R428, R431, R434). DEDUCED, unsafe: notes/assumptions/36.md. -/
def State.finishTxn (s : State) (t : Txn) : State :=
  let r := t.req
  let l := r.line
  let s0 : State := { s with coh := { s.coh with txns := s.coh.txns.erase t } }
  let bad := s0.poison.contains l && t.data.isNone
  let now := t.data.getD (s0.lineMem l)
  let toHost := match r.agent with
    | .host _ => true
    | _ => false
  let s1 := if toHost || r.dirUe then s0.txnFlush t else s0
  let m := s1.mark (64 * l) 64
  match r.kind with
  | .recall => (s0.txnFlush t).dropEnt l
  | .rdCur => if bad then s0.cohMedia r else m.answer r .ok 0 (some now) 0
  | .rdS =>
    if bad then s0.cohMedia r
    else if t.shared then
      (match m.dirEnt l with
       | some e => m.setEnt { e with holders := e.holders.filter (· != r.agent) ++ [r.agent], st := if e.st == HomeSt.em then HomeSt.s else e.st }
       | none => m.newEnt l (m.lineDom l) .s [r.agent]).answer r .ok 1 (some now) 0
    else (m.newEnt l (m.lineDom l) .em [r.agent]).answer r .ok 2 (some now) 0
  | .rdOwn => if bad then s0.cohMedia r else ((m.dropEnt l).newEnt l (m.lineDom l) .em [r.agent]).answer r .ok 3 (some now) 0
  | .upgrade => ((m.dropEnt l).newEnt l (m.lineDom l) .em [r.agent]).answer r .ok 3 none 0
  | .wrLine d => s0.homeWrite r (64 * l) d 0
  | .wrPart off d => if bad then s0.answer r .mediaUncorrectable 0 none 0 else (s0.txnFlush t).homeWrite r (64 * l + off) d 0
  | .wrMask m d =>
    if bad then s0.answer r .mediaUncorrectable 0 none 0
    else
      let s2 := s0.txnFlush t
      s2.homeWrite r (64 * l) (maskLine m d (s2.bytes (64 * l) 64)) 0
  | .atom off a => if bad then s0.cohMedia r else (s0.txnFlush t).homeAtom t off a.size (atomNew a)
  | .cadd off size ms =>
    if bad then s0.cohMedia r
    else (s0.txnFlush t).homeAtom t off size (fun old => (old + ms.foldl (fun n m => n + m.operand) 0) % 2 ^ (8 * size))

/-- Agents of domain d that may hold a line: the cores of the dies that answer, and its CXL 3.1 host ports (R409, R427). -/
def State.domAgents (s : State) (d : Nat) : List Agent :=
  (((List.range 64).filter (fun c => s.dieUp (c / 16))).map Agent.core) ++ (((List.range 48).map Agent.host).filter (s.tracks d))

/-- A request is accepted at its home (R416, R418). An entry with an uncorrectable error is taken as held in EM by every agent of its domain:
all are snooped for the line, and whatever dirty data one returns stand for it (R427). DEDUCED, unsafe: notes/assumptions/35.md. -/
def State.startReq (s : State) (r0 : CReq) : State :=
  let st := s.reqCheck r0
  if st != .ok then (s.mediaOf (homeSlice r0.line / 2) r0.ctx (64 * r0.line) st).answer r0 st 0 none 0
  else
    let e := s.dirEnt r0.line
    let bad := r0.dirUe && s.lineDom r0.line != 0 && e.any (fun f => f.st != .h)
    let r : CReq := { r0 with kind := s.reqKind r0, dirUe := bad }
    let caching := r.kind == .rdS || r.kind == .rdOwn
    let leave := caching && e.any (fun f => f.st == .h)
    let s1 := s.when leave (·.dropEnt r.line)
    let recorded := e.any (fun f => f.holders.contains r.agent)
    let k := if r.kind == .upgrade && !recorded then ReqKind.rdOwn else r.kind
    let held := !bad && e.any (fun f => f.st != .h && (f.holders.any (· != r.agent)))
    let d := s.lineDom r.line
    let snoops := if bad then (s.domAgents d).map (fun a => (a, 2)) else snoopsFor e r.agent k
    let t : Txn := { req := { r with kind := k }, waits := snoops.map (·.1), data := none, dirty := false, awaitWb := [],
                     shared := held, atHome := d != 0 && s.atomHome d (r.line / 2 ^ 15) }
    let s2 := s1.when bad (fun u => (u.dropEnt r.line).set (domReg d 0x10) 8)
    if t.waits.isEmpty then s2.finishTxn t
    else
      let s3 : State := { s2 with coh := { s2.coh with txns := s2.coh.txns ++ [t] } }
      s3.each snoops (fun p u => u.snoop r.line p)

/-- Entries of the set of a line, when the slice holds enough lines to fill one (R412, R414). -/
def State.dirWays (s : State) (l : Nat) : List DirEnt :=
  let es := s.coh.dir.filter (fun e => e.st != .h && homeSlice e.line == homeSlice l)
  if es.length < 16 then [] else es.filter (fun e => Config.dirSet e.line == Config.dirSet l)

/-- A request would allocate an entry in a set that has no free way (R414). -/
def State.needsWay (s : State) (r : CReq) : Bool :=
  (s.reqKind r == .rdS || s.reqKind r == .rdOwn || s.reqKind r == .upgrade) && !(s.dirEnt r.line).any (fun e => e.st != .h)
    && decide (16 ≤ (s.dirWays r.line).length)

/-- The way to evict: the one allocated longest ago whose line is not busy; none while a way of the set is being recalled. -/
def State.victimWay (s : State) (l : Nat) : Option DirEnt :=
  let ws := s.dirWays l
  let busy (e : DirEnt) : Bool := s.coh.txns.any (fun t => t.req.line == e.line)
  if ws.any (fun e => s.coh.txns.any (fun t => t.req.line == e.line && t.req.kind == .recall)) then none
  else (ws.filter (fun e => !busy e)).foldl (fun (b : Option DirEnt) e => match b with
    | none => some e
    | some f => if e.alloc < f.alloc then some e else some f) none

/-- A waiting request whose turn it is: its line is free, and no copy of it is on the way back and it is the line's first; its die answers; a tracker is free; a way is
there or can be made (R414, R418, R420, R531). -/
def State.turn (s : State) (r : CReq) : Bool :=
  !s.coh.txns.any (fun t => t.req.line == r.line)
    && (s.coh.waitq.find? (fun q => q.line == r.line)) == some r
    && s.fld 0x10 (4 * (homeSlice r.line / 2)) 4 == 3
    && !s.coh.invals.any (fun i => i.line == r.line)
    && decide (s.sliceTxns (homeSlice r.line) < 4096)
    && (!s.needsWay r || (s.victimWay r.line).isSome)

/-- Waiting requests are accepted in order; a full set gives up a way first. DESIGN CHOICE, safe: notes/assumptions/65.md. -/
def State.pumpHome : Nat → State → State
  | 0, s => s
  | n + 1, s =>
    match s.coh.waitq.find? s.turn with
    | none => s
    | some r =>
      if s.needsWay r then
        (match s.victimWay r.line with
         | some e =>
           let s1 := s.sat (dirReg (homeSlice r.line) 4) 1
           State.pumpHome n (s1.startReq { line := e.line, agent := .unit 0, ctx := 0, kind := .recall, via := .agent })
         | none => s)
      else
        let s1 : State := { s with coh := { s.coh with waitq := s.coh.waitq.erase r } }
        State.pumpHome n (s1.startReq r)

/-- Serve what can be served. DESIGN CHOICE, safe: notes/assumptions/65.md. -/
def State.homes (s : State) : State := s.pumpHome (2 * s.coh.waitq.length + 2)

/-- A request reaches its home. -/
def State.homeReq (s : State) (r : CReq) : State :=
  ({ s with coh := { s.coh with waitq := s.coh.waitq ++ [r] } } : State).homes

/-- A command that brings a request to its home. -/
def State.homeCmd (s : State) (i : Instr) (a : Agent) (ctx line : Nat) (k : ReqKind) (dirUe : Bool) : State :=
  s.served i (fun t => t.homeReq { line := line, agent := a, ctx := ctx, kind := k, via := .agent, dirUe := dirUe })

def execRdCur (a : Agent) (ctx line : Nat) (dirUe : Bool) (s : State) : Host.Outcome State Fault Refusal :=
  .next (s.homeCmd (.rdCur a ctx line dirUe) a ctx line .rdCur dirUe)
def execRdS (a : Agent) (ctx line : Nat) (dirUe : Bool) (s : State) : Host.Outcome State Fault Refusal :=
  .next (s.homeCmd (.rdS a ctx line dirUe) a ctx line .rdS dirUe)
def execRdOwn (a : Agent) (ctx line : Nat) (dirUe : Bool) (s : State) : Host.Outcome State Fault Refusal :=
  .next (s.homeCmd (.rdOwn a ctx line dirUe) a ctx line .rdOwn dirUe)
def execUpgrade (a : Agent) (ctx line : Nat) (s : State) : Host.Outcome State Fault Refusal :=
  .next (s.homeCmd (.upgrade a ctx line) a ctx line .upgrade false)
def execWrLine (a : Agent) (ctx line : Nat) (data : List Byte) (dirUe : Bool) (s : State) : Host.Outcome State Fault Refusal :=
  .next (s.homeCmd (.wrLine a ctx line data dirUe) a ctx line (.wrLine data) dirUe)
def execWrPart (a : Agent) (ctx addr : Nat) (data : List Byte) (s : State) : Host.Outcome State Fault Refusal :=
  .next (s.homeCmd (.wrPart a ctx addr data) a ctx (addr / 64) (.wrPart (addr % 64) data) false)
def execHomeAtomic (a : Agent) (ctx addr : Nat) (op : Atomic) (s : State) : Host.Outcome State Fault Refusal :=
  .next (s.homeCmd (.homeAtomic a ctx addr op) a ctx (addr / 64) (.atom (addr % 64) op) false)

/-- COMBINED_ADD: one update, one status for every member (R433, R434). -/
def execCombinedAdd (ctx addr size : Nat) (members : List AddMember) (s : State) : Host.Outcome State Fault Refusal :=
  .next (match members with
    | [] => s
    | m :: _ => s.homeCmd (.combinedAdd ctx addr size members) m.agent ctx (addr / 64) (.cadd (addr % 64) size members) false)

-- responses at the home ---------------------------------------------------------------------------------------------------

/-- Change the transaction on a line, finish it when nothing is awaited, and serve what waited for it. -/
def State.onTxn (s : State) (l : Nat) (f : Txn → Txn) : State :=
  match s.coh.txns.find? (fun t => t.req.line == l) with
  | none => s
  | some t =>
    let u := f t
    let s1 : State := { s with coh := { s.coh with txns := s.coh.txns.map (fun v => if v == t then u else v) } }
    if u.waits.isEmpty && u.awaitWb.isEmpty then (s1.finishTxn u).homes else s1

/-- The transaction on line l waits for agent a's snoop response. -/
def State.waitsFor (s : State) (a : Agent) (l : Nat) : Bool := s.coh.txns.any (fun t => t.req.line == l && t.waits.contains a)

/-- Take a core's response off the way: none is there, or one that is stale or not. -/
def State.takeRsp (s : State) (c l kind : Nat) : Option (State × Bool) :=
  (s.coh.rsps.find? (fun r => r.core == c && r.line == l && r.kind == kind)).map (fun r =>
    ({ s with coh := { s.coh with rsps := s.coh.rsps.erase r } }, r.stale))

/-- RSPI (R416, R424): the holder is gone. An owner that gave no data owes a write-back, and the transaction waits for it. -/
def State.rspI (s : State) (c l : Nat) : State :=
  match s.takeRsp c l 0 with
  | none => s
  | some (s1, stale) =>
    let a := Agent.core c
    if stale || !s1.waitsFor a l then s1
    else
      -- a core that has sent its write-back owes it, whatever the entry said (R423, R427)
      let owner := (s1.dirEnt l).any (fun e => e.owner == some a)
        || s1.coh.txns.any (fun t => t.req.line == l && t.req.dirUe) && s1.coh.evicting.any (fun e => e.1 == c && e.2.1 == l)
      let got := s1.coh.txns.any (fun t => t.req.line == l && t.data.isSome)
      if owner && !got then s1.onTxn l (fun t => { t with waits := t.waits.erase a, awaitWb := t.awaitWb ++ [a] })
      else (s1.dropHolder a l).onTxn l (fun t => { t with waits := t.waits.erase a })

def execRspI (a : Agent) (line : Nat) (s : State) : Host.Outcome State Fault Refusal :=
  .next (match a with
    | .core c => s.rspI c line
    | _ => s)

/-- RSPS (R415, R416): the holder stays a sharer; after a SnpData an owner of dirty data is recorded in O. -/
def State.rspS (s : State) (c l : Nat) : State :=
  match s.takeRsp c l 1 with
  | none => s
  | some (s1, stale) =>
    let a := Agent.core c
    if stale || !s1.waitsFor a l then s1
    else
      let dirty := s1.coh.txns.any (fun t => t.req.line == l && t.dirty)
      let data := s1.coh.txns.any (fun t => t.req.line == l && t.req.kind == .rdS)
      let s2 := if data then
          (match s1.dirEnt l with
           | some e => s1.setEnt { e with st := if dirty then .o else .s }
           | none => s1)
        else s1
      s2.onTxn l (fun t => { t with waits := t.waits.erase a })

def execRspS (a : Agent) (line : Nat) (s : State) : Host.Outcome State Fault Refusal :=
  .next (match a with
    | .core c => s.rspS c line
    | _ => s)

/-- The kind of snoop a request sent: 0 Cur, 1 Data, 2 Inv. -/
def snoopKind : ReqKind → Nat
  | .rdCur => 0
  | .rdS => 1
  | _ => 2

/-- What a host gives back for a line that a write of a unit took from it: the written bytes stand over it (R144, R416). -/
def State.invalRsp (s : State) (i : Inval) (data : Option (List Byte)) : State :=
  let s1 : State := { s with coh := { s.coh with invals := s.coh.invals.erase i } }
  match data with
  | some d => (s1.memLine i.line (i.writes.foldl (fun old w => overlay i.line w.1 w.2 old) d)).homeUpdate i.line
  | none => s1

/-- The answer to a BISnpCur of a reader: an owner that writes back keeps a clean copy (R416). -/
def State.curRsp (s : State) (q : CurAsk) (data : Option (List Byte)) : State :=
  let s1 : State := { s with coh := { s.coh with curs := s.coh.curs.map (fun c => if c == q then { c with done := true } else c) } }
  match data with
  | some d =>
    let t := (s1.memLine q.line d).homeUpdate q.line
    (match t.dirEnt q.line with
     | some e => if e.owner == some (.host q.host) then t.setEnt { e with st := .s } else t
     | none => t)
  | none => s1

/-- The answer to a transaction's snoop (R413, R416): dirty data are written to memory and stand for the line; without data memory is the
source. -/
def State.txnRsp (s : State) (h : Nat) (t : Txn) (data : Option (List Byte)) : State :=
  let a := Agent.host h
  let l := t.req.line
  let s1 := match data with
    | some d => s.memLine l d
    | none => s
  let k := if t.req.dirUe then 2 else snoopKind t.req.kind
  let s2 := if k = 2 then s1.dropHolder a l
    else if k = 1 || data.isSome then
      (match s1.dirEnt l with
       | some e => s1.setEnt { e with st := .s }
       | none => s1)
    else s1
  s2.onTxn l (fun u => { u with waits := u.waits.erase a, data := data.orElse (fun _ => u.data) })

/-- BIRSP: a host answers the snoop of a unit's write, of a transaction, or of a unit's read. -/
def State.biRsp (s : State) (h l : Nat) (data : Option (List Byte)) : State :=
  match s.coh.invals.find? (fun i => i.host == h && i.line == l) with
  | some i => ((s.invalRsp i data).progress (.host h)).homes
  | none =>
    match s.coh.txns.find? (fun t => t.req.line == l && t.waits.contains (.host h)) with
    | some t => (s.progress (.host h)).txnRsp h t data
    | none =>
      match s.coh.curs.find? (fun c => c.host == h && c.line == l && !c.done) with
      | some q => (s.curRsp q data).progress (.host h)
      | none => s

def execBiRsp (host line : Nat) (data : Option (List Byte)) (s : State) : Host.Outcome State Fault Refusal := .next (s.biRsp host line data)

/-- A write-back overtook the snoop of a core: the snoop, or the response to it, is stale (R424). -/
def State.staleSnoop (s : State) (c l : Nat) : State :=
  let f (p : Snoop) : Snoop := if p.core == c && p.line == l then { p with stale := true } else p
  { s with coh := { s.coh with snoops := s.coh.snoops.map f, rsps := s.coh.rsps.map f } }

/-- A host's write-back answers the snoop that a unit's read sent it (R425). -/
def State.snoopMet (s : State) (a : Agent) (l : Nat) : State :=
  let f (c : CurAsk) : CurAsk := if Agent.host c.host == a && c.line == l then { c with done := true } else c
  { s with coh := { s.coh with curs := s.coh.curs.map f } }

/-- A write-back or clean eviction of agent a reaches the home (R423-R425). -/
def State.writeBack (s : State) (a : Agent) (l : Nat) (data : Option (List Byte)) : State :=
  let s1 := match data with
    | some d => (s.memLine l d).homeUpdate l
    | none => s
  let s2 := (s1.dropHolder a l).snoopMet a l
  let crossing := s.coh.txns.any (fun t => t.req.line == l && (t.waits.contains a || t.awaitWb.contains a))
  if crossing then
    let s3 := s2.sat (dirReg (homeSlice l) 0x10) 1
    let s4 := match a with
      | .core c => s3.staleSnoop c l
      | _ => s3
    s4.onTxn l (fun t => { t with waits := t.waits.erase a, awaitWb := t.awaitWb.erase a, data := data.orElse (fun _ => t.data) })
  else s2

/-- The home acknowledges a core's eviction. -/
def State.ackEvict (s : State) (c l : Nat) : State :=
  { s with coh := { s.coh with evicting := s.coh.evicting.filter (fun e => !(e.1 == c && e.2.1 == l)) } }

/-- DIRTYEVICT: of a core that sent one, or of a host that the home records (R421). -/
def State.dirtyEvict (s : State) (a : Agent) (l : Nat) (data : List Byte) : State :=
  match a with
  | .core c =>
    (match s.coh.evicting.find? (fun e => e.1 == c && e.2.1 == l) with
     | none => s
     | some e => if e.2.2 == none || e.2.2 == some data then (s.ackEvict c l).writeBack a l e.2.2 else s)
  | .host h =>
    if (s.dirEnt l).any (fun e => e.holders.contains a) then s.writeBack a l (some data)
    else (match s.coh.invals.find? (fun i => i.host == h && i.line == l) with
      | some i => ((s.invalRsp i (some data)).sat (dirReg (homeSlice l) 0x10) 1).homes
      | none => s)
  | _ => s

def execDirtyEvict (a : Agent) (line : Nat) (data : List Byte) (s : State) : Host.Outcome State Fault Refusal :=
  .next (s.dirtyEvict a line data)

/-- CLEANEVICT: the holder is removed; crossing a snoop it counts as RspI (R424). -/
def State.cleanEvict (s : State) (a : Agent) (l : Nat) : State :=
  match a with
  | .core c =>
    if s.coh.evicting.any (fun e => e.1 == c && e.2.1 == l && e.2.2.isNone) then (s.ackEvict c l).writeBack a l none else s
  | .host h =>
    if (s.dirEnt l).any (fun e => e.holders.contains a) then s.writeBack a l none
    else (match s.coh.invals.find? (fun i => i.host == h && i.line == l) with
      | some i => ((s.invalRsp i none).sat (dirReg (homeSlice l) 0x10) 1).homes
      | none => s)
  | _ => s

def execCleanEvict (a : Agent) (line : Nat) (s : State) : Host.Outcome State Fault Refusal := .next (s.cleanEvict a line)

-- service cores -----------------------------------------------------------------------------------------------------------

def State.cacheLine (s : State) (c l : Nat) : Option CacheLine := s.coh.caches.find? (fun x => x.core == c && x.line == l)

/-- A core's line takes a state and data, or leaves its cache. -/
def State.setCache (s : State) (c l : Nat) (x : Option (CacheSt × List Byte)) : State :=
  let rest := s.coh.caches.filter (fun y => !(y.core == c && y.line == l))
  { s with coh := { s.coh with caches := match x with
    | some p => { core := c, line := l, st := p.1, data := p.2 } :: rest
    | none => rest } }

/-- The state a snooped line goes to (R415): 0 Cur, 1 Data, 2 Inv. -/
def snooped (kind : Nat) (st : CacheSt) : Option CacheSt :=
  if kind = 2 then none
  else if kind = 0 then some st
  else match st with
    | .m => some .o
    | .o => some .o
    | .e => some .s
    | .s => some .s

/-- A snoop reaches a service core (R415, R423): it supplies from M, O and E, and answers RspS while it keeps a copy, else RspI.
DEDUCED, unsafe: notes/assumptions/34.md. -/
def State.coreSnoop (s : State) (kind c l : Nat) : State :=
  match s.coh.snoops.find? (fun p => p.core == c && p.line == l && p.kind == kind) with
  | none => s
  | some p =>
    if s.coh.flight.any (fun f => f.core == c && f.line == l) then s
    else
      let s0 : State := { s with coh := { s.coh with snoops := s.coh.snoops.erase p } }
      let rsp (t : State) (k : Nat) : State :=
        let r : Snoop := { core := c, line := l, kind := k, stale := p.stale }
        ({ t with coh := { t.coh with rsps := t.coh.rsps ++ [r] } }).emit (.rsp c l k)
      match s0.cacheLine c l with
      | none => rsp s0 0
      | some x =>
        let k := (snooped kind x.st).elim 0 (fun _ => 1)
        let s1 := s0.setCache c l ((snooped kind x.st).map (fun n => (n, x.data)))
        if x.st == .s then rsp s1 k
        else
          let give (t : Txn) : Txn := if t.req.line == l then { t with data := some x.data, dirty := x.st == .m || x.st == .o } else t
          let s2 : State := if p.stale then s1 else { s1 with coh := { s1.coh with txns := s1.coh.txns.map give } }
          rsp (s2.emit (.supply c l x.data)) k

def execSnpCur (core line : Nat) (s : State) : Host.Outcome State Fault Refusal := .next (s.coreSnoop 0 core line)
def execSnpData (core line : Nat) (s : State) : Host.Outcome State Fault Refusal := .next (s.coreSnoop 1 core line)
def execSnpInv (core line : Nat) (s : State) : Host.Outcome State Fault Refusal := .next (s.coreSnoop 2 core line)

/-- SERVICE_CORE_EVICTION (R415): DirtyEvict from M and O, CleanEvict from E and S. -/
def State.coreEvict (s : State) (c l : Nat) : State :=
  match s.cacheLine c l with
  | none => s
  | some x =>
    if s.coh.pending.any (fun p => p.1 == c && p.2.1 == l) then s
    else
      let d := if x.st == .m || x.st == .o then some x.data else none
      let s1 := (s.setCache c l none).emit (.evict c l d)
      { s1 with coh := { s1.coh with evicting := s1.coh.evicting ++ [(c, l, d)] } }

def execServiceCoreEviction (core line : Nat) (s : State) : Host.Outcome State Fault Refusal := .next (s.coreEvict core line)

/-- A service core sends a request: 0 RdS, 1 RdOwn, 2 Upgrade. -/
def State.coreAsk (s : State) (c l kind : Nat) (store : Option (List Byte)) : State :=
  let s1 := s.emit (.request c l kind)
  { s1 with coh := { s1.coh with pending := s1.coh.pending ++ [(c, l, store)] } }

/-- The core runs: its die is up, it is not halted, and the module is Full or Idle (R572). -/
def State.coreRuns (s : State) (c : Nat) : Bool :=
  s.ready && s.pwr.state != 2 && s.dieUp (c / 16) && (!s.sec.haltedCores.contains c || s.sec.steps.contains (256 + c))

/-- SERVICE_CORE_ACCESS: a local read or write of a shared line (R415). -/
def State.coreAccess (s : State) (c ctx l : Nat) (store : Option (List Byte)) : State :=
  if !s.coreRuns c || s.lineDom l == 0 || s.coh.pending.any (fun p => p.1 == c && p.2.1 == l) then s
  else
    let st := ((s.ctxCheck ctx).worst (s.pageCheck ctx (l / 2 ^ 15) store.isSome false)).worst (s.lostCheck (l / 2 ^ 15))
    if st != .ok then (s.mediaOf (c / 16) ctx (64 * l) st).emit (.reply (.core c) l 0 none st)
    else
      match s.cacheLine c l, store with
      | none, none => s.coreAsk c l 0 none
      | none, some d => s.coreAsk c l 1 (some d)
      | some _, none => s
      | some x, some d => if x.st == .m || x.st == .e then s.setCache c l (some (.m, d)) else s.coreAsk c l 2 (some d)

def execServiceCoreAccess (core ctx line : Nat) (store : Option (List Byte)) (s : State) : Host.Outcome State Fault Refusal :=
  .next (
    let t := s.coreAccess core ctx line store
    if s.sec.steps.contains (256 + core) then { t with sec := { t.sec with steps := t.sec.steps.erase (256 + core) } } else t)

/-- GRANT: the core takes the state the home granted, and performs the store it waited with (R415). -/
def State.coreGrant (s : State) (c l state : Nat) (data : Option (List Byte)) : State :=
  match s.coh.flight.find? (fun f => f.core == c && f.line == l && f.state == state && f.data == data) with
  | none => s
  | some f =>
    let want := (s.coh.pending.find? (fun p => p.1 == c && p.2.1 == l)).bind (·.2.2)
    let old := (s.cacheLine c l).elim (s.lineMem l) (·.data)
    let s1 : State := { s with coh := { s.coh with
      flight := s.coh.flight.erase f
      pending := s.coh.pending.filter (fun p => !(p.1 == c && p.2.1 == l)) } }
    match state with
    | 0 => s1
    | 1 => s1.setCache c l (some (.s, f.data.getD old))
    | 2 => s1.setCache c l (some (match want with
      | some d => (.m, d)
      | none => (.e, f.data.getD old)))
    | _ => s1.setCache c l (some (.m, want.getD (f.data.getD old)))

def execGrant (core line : Nat) (state : Nat) (data : Option (List Byte)) (s : State) : Host.Outcome State Fault Refusal :=
  .next (s.coreGrant core line state data)

-- losses and recalls ------------------------------------------------------------------------------------------------------

/-- A line whose owner is gone with its data: poisoned (R426). -/
def State.ownerLost (s : State) (l : Nat) : State :=
  let t : State := { s with poison := s.poison.filter (· != l) ++ [l] }
  (t.sat (dirReg (homeSlice l) 0x18) 1).when (s.lineDom l != 0) (·.set (domReg (s.lineDom l) 0x10) 4)

/-- A host port no longer answers for its copies (R426): its EM lines are poisoned, it leaves every vector, and nothing waits for it. What a
unit wrote over a whole line of it since is good data. -/
def State.hostGone (s : State) (h : Nat) : State :=
  let a := Agent.host h
  let mine := s.coh.dir.filter (fun e => e.holders.contains a)
  let s1 := s.each mine (fun e t => (t.dropHolder a e.line).when (e.owner == some a) (·.ownerLost e.line))
  let s2 : State := { s1 with coh := { s1.coh with
    invals := s1.coh.invals.filter (fun i => i.host != h)
    curs := s1.coh.curs.map (fun c => if c.host == h then { c with done := true } else c) } }
  let s3 := s2.each (s1.coh.invals.filter (fun i => i.host == h && i.owner && !i.writes.any (fun w => coveredLine w.1 w.2.length i.line)))
    (fun i t => t.ownerLost i.line)
  (s3.each ((s3.coh.txns.filter (fun t => t.waits.contains a)).map (·.req.line)) (fun l t =>
    t.onTxn l (fun u => { u with waits := u.waits.erase a }))).homes

/-- A host port is taken down with a state: 0 DOWN, 3 FAILED, 5 DISABLED (R447, R473). -/
def State.hostDown (s : State) (h state : Nat) : State :=
  let b := hostBlock h
  let s1 : State := { s with link := { s.link with ide := s.link.ide.filter (fun p => p.1 != h) } }
  let s2 := ((s1.wrn b (state + (if s.bit b 13 then 2 ^ 13 else 0))).set (b + 0xC) 2).clr (dieReg (h / 12) 0x14) (BitVec.ofNat 32 (2 ^ (h % 12)))
  (s2.trace 5 h 0 0).hostGone h

/-- BISNP_TIMEOUT (R426): the silent port is taken down. -/
def execBiSnpTimeout (host : Nat) (s : State) : Host.Outcome State Fault Refusal :=
  .next (
    let late := (s.coh.txns.filter (fun t => t.waits.contains (.host host))).map (·.req.line)
      ++ (s.coh.invals.filter (fun i => i.host == host)).map (·.line) ++ (s.coh.curs.filter (fun c => c.host == host && !c.done)).map (·.line)
    if late.isEmpty then s
    else
      let s1 := s.each late (fun l u =>
        (u.sat (dirReg (homeSlice l) 0x14) 1).when (u.lineDom l != 0) (·.set (domReg (u.lineDom l) 0x10) 2))
      (s1.set (hostBlock host + 0xC) 4).hostDown host 3)

/-- Recall of a line for domain d (R408). -/
def State.recallLine (s : State) (d l : Nat) : State :=
  let r : CReq := { line := l, agent := .unit 0, ctx := d, kind := .recall, via := .agent }
  { s with coh := { s.coh with waitq := r :: s.coh.waitq } }

/-- A recall for domain d is under way. -/
def State.recalling (s : State) (d : Nat) : Bool :=
  s.coh.txns.any (fun t => t.req.kind == .recall && t.req.ctx == d) || s.coh.waitq.any (fun r => r.kind == .recall && r.ctx == d)

/-- Lines of domain d are recalled: `RECALL` reads 1 until RECALL_DONE (R408). -/
def State.recall (s : State) (d : Nat) (lines : List Nat) : State :=
  if lines.isEmpty then s else ((s.each lines (fun l t => t.recallLine d l)).wrFld (domReg d 0xC) 5 1 1).homes

/-- RECALL_DONE: the last recalled line is back. -/
def execRecallDone (domain : Nat) (s : State) : Host.Outcome State Fault Refusal :=
  .next (s.when (s.bit (domReg domain 0xC) 5 && !s.recalling domain) (·.wrFld (domReg domain 0xC) 5 1 0))

/-- The lines of domain d that an agent holds under rights that have ended: a host port that left the set, an inactive domain, a
page that is no page of the domain any more (R408). -/
def State.recallLines (s : State) (d : Nat) : List Nat :=
  (s.coh.dir.filter (fun e => e.dom == d && e.st != .h && (!s.fbit (domReg d 0) 0 || s.lineDom e.line != d
    || e.holders.any (fun a => match a with
      | .host n => !s.domPort d n
      | _ => false)))).map (·.line)

/-- At a frame boundary each domain's status follows its settings, and lines under ended rights are recalled (R408, R435). -/
def State.cohFrame (s : State) : State :=
  s.each [1, 2, 3] (fun d t =>
    let ports := ((List.range 48).filter (t.domPort d)).length
    let t1 := (t.wrFld (domReg d 0xC) 0 5 ports).wrFld (domReg d 0xC) 6 1 (if t.fbit (domReg d 0) 0 then 1 else 0)
    t1.recall d (t1.recallLines d))

/-- B0 of a context: its requests that no home accepted yet end CTX_FENCED (R505). -/
def State.cohFence (s : State) (x : Nat) : State :=
  let mine := s.coh.waitq.filter (fun r => r.ctx == x && r.kind != .recall)
  let s1 : State := { s with coh := { s.coh with waitq := s.coh.waitq.filter (fun r => !mine.contains r) } }
  s1.each mine (fun r t => t.answer r .ctxFenced 0 none 0)

/-- No access of context x is at a home (R506). -/
def State.cohIdle (s : State) (x : Nat) : Bool := !s.coh.txns.any (fun t => t.req.ctx == x && t.req.kind != .recall)

end Sys2Proof.Machine
end

