-- ==== Sys2Proof/Machine/Links.lean ====
section
/-! DEFINITION. Link ports: received slots, acknowledgement and re-send, ZFL and ZTL messages, training (R450-R470, R474, R480, R495,
R536-R544). -/

namespace Sys2Proof.Machine

-- keys --------------------------------------------------------------------------------------------------------------------

/-- The link key (R491). -/
def State.linkKey (s : State) (l : Nat) (peer : Nat) (theirs : List Byte) : List Byte :=
  let mine := (s.port l).nonce
  Config.kmac256 Config.kLot (if s.moduleNo < peer then mine ++ theirs else theirs ++ mine) 256 "GS-Z-ZFL"

/-- The link confirmation value a sender gives (R491, R495). -/
def confirmOf (key : List Byte) (sender : Nat) : List Byte := Config.kmac256 key (leBytes 1 sender) 128 "GS-Z-CNF"

-- training ----------------------------------------------------------------------------------------------------------------

def State.lpEvent (s : State) (l : Nat) (m : Word) : State := s.set (linkBlock l + 8) m

/-- The trays' units are written to, or not. -/
def State.unitSet (s : State) (u : Nat) (up : Bool) : State :=
  let f (x : UnitFree) : UnitFree := if x.unit == u then { x with up := up } else x
  ({ s with tier := { s.tier with units := s.tier.units.map f } }).syncUse []

/-- Training starts: a new count and nonce, nothing heard yet (R495). State 1 TRAINING, 3 RETRAINING. -/
def State.trainStart (s : State) (l state : Nat) : State :=
  let p := s.port l
  let n := p.trainings + 1
  let nonce := leBytes 8 (Config.modSerialLo.toNat + 2 ^ 32 * Config.modSerialHi.toNat) ++ leBytes 4 s.sec.bootEpoch ++ leBytes 4 n
  let q : LinkPort := { p with trainings := n, nonce := nonce, hello := none, helloSent := false, key := [], peerNonce := [] }
  ((s.setPort q).wrFld (linkBlock l) 0 3 state).wrFld (linkBlock l) 4 5 0

/-- The port may train: the self-test passed (R543), it is enabled in the Almanac, and `DISABLE` is 0. -/
def State.mayTrain (s : State) (l : Nat) : Bool :=
  s.bit 0x828 0 && (s.alm.linkWords.getD l 0).getLsbD 0 && !s.bit (linkBlock l + 4) 0 && s.dieTrains (l / 16)

/-- A port goes down with a state: 0 DOWN, 4 FAILED. -/
def State.lpDown (s : State) (l state : Nat) : State :=
  let s1 := (((s.wrFld (linkBlock l) 0 3 state).wrFld (linkBlock l) 4 5 0).lpEvent l 1).trace 5 (0x40 + l) 0 0
  s1.when (s1.ztl l) (·.unitSet (0x40 + l) false)

/-- A port loses its link and retrains (R450, R453). -/
def State.lpRetrain (s : State) (l : Nat) : State := (s.lpDown l 0).trainStart l 3

/-- LINK_DOWN. A port whose lane failed comes back at four lanes; `DEGRADED` is set at once. -/
def execLinkDown (link : Nat) (laneFailed : Bool) (s : State) : Host.Outcome State Fault Refusal :=
  .next (s.when (s.ready && (s.lpState link == 2 || s.lpState link == 5)) (fun t =>
    (t.lpRetrain link).when laneFailed (·.lpEvent link 4)))

/-- The Almanac's word of a link port: protocol, expected tray kind, expected peer (R553). -/
def State.expects (s : State) (l : Nat) (h : Hello) : Bool :=
  let w := s.alm.linkWords.getD l 0
  if w.getLsbD 1 then h.ztl && nbits w.toNat 2 2 == h.kind && (h.kind != 2 || trayOk h)
  else !h.ztl && (match (s.port l).peer with
    | some p => p == (h.module, h.serial)
    | none => nbits w.toNat 8 8 == h.module)

/-- HELLO (R469, R474, R495): what the peer reports; a peer that is not the expected one, or has another lot key, holds the port
UNSUPPORTED. -/
def State.hear (s : State) (l : Nat) (h : Hello) : State :=
  let p := s.port l
  let q : LinkPort := { p with hello := some h, peerNonce := if h.ztl then [] else h.nonce }
  let s1 := s.setPort q
  let w := s.alm.linkWords.getD l 0
  let changed := !w.getLsbD 1 && !h.ztl && p.peer.any (fun v => v != (h.module, h.serial))
  let lotBad := !h.ztl && h.confirm.any (fun c => c != confirmOf (s1.linkKey l h.module h.nonce) h.module)
  let s2 := (s1.when changed (·.lpEvent l 0x10)).when lotBad (·.set 0x718 0x20)
  if !s2.expects l h || lotBad then s2.wrFld (linkBlock l) 0 3 5 else s2

def execHello (link : Nat) (h : Hello) (s : State) : Host.Outcome State Fault Refusal :=
  .next (s.when (s.pwr.phase != .dark && (s.lpState link == 1 || s.lpState link == 3 || s.lpState link == 5)) (·.hear link h))

/-- Credits granted at training, by each side (R454). DEDUCED, unsafe: notes/assumptions/33.md. -/
def State.grantCredits (s : State) (l : Nat) : State :=
  s.each ([0, 1, 2, 3, 4, 5].map (fun i => (i, 64)) ++ [8, 9, 10, 11, 12].map (fun i => (i, 16))) (fun p t => (t.setCredit l p.1 p.2).setGiven l p.1 p.2)

/-- A tray is there: its capacity joins the pool, or comes back as it was (R354, R381, R384). -/
def State.trayUp (s : State) (l : Nat) (h : Hello) : State :=
  if s.tier.units.any (fun x => x.unit == 0x40 + l) then
    s.unitSet (0x40 + l) (h.kind != 2 || s.trayState l == 1 || s.trayState l == 3)
  else
    let s1 := s.when (h.kind == 2) (·.flashJoin l h)
    let free := if h.kind == 2 then offered h.dies (trayData h.blocks) (s.mainPages h.pSlc) * 32 else h.pages * 32
    let u : UnitFree := { tier := h.kind, unit := 0x40 + l, free := free - s.usedOn (0x40 + l), up := true }
    ({ s1 with tier := { s1.tier with units := s1.tier.units ++ [u] } }).syncUse []

/-- LINK_TRAINED: the round trip is measured, the link key derived, credits are granted; the port is UP unless it is held UNSUPPORTED
(R450, R453, R454, R469, R470). -/
def State.trained (s : State) (l lanes rtt : Nat) (nonce : List Byte) (h : Hello) : State :=
  let b := linkBlock l
  let p := s.port l
  let ok := s.lpState l != 5
  let key := if h.ztl then [] else s.linkKey l h.module nonce
  let q : LinkPort := { p with
    peerNonce := nonce
    key := key
    txSlots := 0
    rxSlots := 0
    peer := if ok && !h.ztl then some (h.module, h.serial) else p.peer }
  let bound := h.ztl && h.kind == 1 && h.readNs ≤ 200 && h.writeNs ≤ 100 && rtt ≤ 100 && lanes == 8
  let st := (if ok then 2 else 5) + 8 * h.ztl.toNat + 16 * lanes + 256 * bound.toNat + 512 * (if h.ztl then h.kind else 0)
    + 2 ^ 16 * (if h.ztl then 0 else h.module)
  let s1 := (((((s.setPort q).grantCredits l).wrn b st).wrn (b + 0x28) rtt).wrn (b + 0x2C) (if h.ztl then h.readNs else 0)).wrn (b + 0x30)
    (if h.ztl then h.writeNs else 0)
  let s2 := ((s1.lpEvent l 2).when (lanes == 4) (·.lpEvent l 4)).trace 5 (0x40 + l) 0 0
  ((s2.when (ok && h.ztl) (·.trayUp l h)).pump l)

def execLinkTrained (link lanes rttNs : Nat) (nonce : List Byte) (s : State) : Host.Outcome State Fault Refusal :=
  .next (match (s.port link).hello with
    | some h => s.when (s.pwr.phase != .dark && (s.lpState link == 1 || s.lpState link == 3 || s.lpState link == 5)
        && (lanes == 4 || lanes == 8)) (·.trained link lanes rttNs nonce h)
    | none => s)

/-- A frame boundary: a training port says HELLO until it has heard one, and once more with its confirmation (R469, R495). -/
def State.helloFrame (s : State) (l : Nat) : State :=
  let p := s.port l
  if (s.lpState l == 1 || s.lpState l == 3) && !p.helloSent then
    let c := match p.hello with
      | some h => if h.ztl then none else some (confirmOf (s.linkKey l h.module h.nonce) s.moduleNo)
      | none => none
    let serial := Config.modSerialLo.toNat + 2 ^ 32 * Config.modSerialHi.toNat
    let h : Hello := { ztl := s.ztl l, module := s.moduleNo, serial := BitVec.ofNat 64 serial, nonce := p.nonce, confirm := c }
    let q : LinkPort := { p with helloSent := p.hello.isSome }
    (s.setPort q).emit (.helloMsg l h)
  else s

-- re-send -----------------------------------------------------------------------------------------------------------------

/-- `E2E_RETRY` (R471). -/
def State.e2eRetry (s : State) : Nat := s.fld 0x618 10 4

/-- Copies kept for one (peer, stream), oldest first. -/
def State.kept (s : State) (key stream : Nat) : List Replay := s.link.replay.filter (fun r => r.sent && r.peer == key && r.msg.stream == stream)

/-- Members of trunk k of a version. -/
def State.trunkPorts (s : State) (v k : Nat) : List Nat := ((List.range 16).map (s.trunkMember v k)).filter (· < 64)

/-- The trunk toward module n in the version in force has a member other than l that is up. -/
def State.otherMember (s : State) (n l : Nat) : Bool :=
  (s.trunkPorts s.version (nbits (s.destEntry s.version n).toNat 2 4)).any (fun p => p != l && s.linkUp p)

/-- The next member after l that is up, in the member order of a trunk (R301). -/
def State.nextMember (s : State) (v k l : Nat) : Option Nat :=
  let ports := s.trunkPorts v k
  (ports.dropWhile (· != l) ++ ports.takeWhile (· != l)).find? (fun p => p != l && s.linkUp p)

/-- The flows of a trunk that leave on member l leave on the next one that is up (R301). -/
def State.moveTrunk (s : State) (v k l : Nat) : State :=
  match s.nextMember v k l with
  | some p =>
    let mine := (s.trunkPorts v k).eraseDups.filter (fun q => s.carrier v k q == l)
    let rest := s.sw.remapped.filter (fun m => !(m.version == v && m.trunk == k && mine.contains m.member))
    { s with sw := { s.sw with remapped := mine.map (fun q => { version := v, trunk := k, member := q, now := p }) ++ rest } }
  | none => s

/-- The messages of a failed member move to the members that its flows leave on now; where its path failed they are sent again there
(R301, R460). DEDUCED, unsafe: notes/assumptions/68.md. -/
def State.moveMember (s : State) (l : Nat) (again : Bool) : State :=
  let trunks := ([0, 1].flatMap (fun v => (List.range 16).map (fun k => (v, k)))).filter (fun t => (s.trunkPorts t.1 t.2).contains l)
  let s1 := s.each trunks (fun t u => u.moveTrunk t.1 t.2 l)
  let onward (r : Replay) : Replay :=
    if r.link == l && r.peer < 0x100 then
      { r with link := (s1.linkTo r.msg.epoch.toNat r.ingress r.peer r.msg.ctx r.msg.cls r.msg.label).getD l, moved := r.sent, retries := 0 }
    else r
  let mine := ((s.link.replay.filter (fun r => r.link == l && r.peer < 0x100)).map onward).filter (fun r => r.link != l)
  let s2 : State := { s1 with link := { s1.link with replay := s1.link.replay.map onward } }
  let s3 := s2.each (mine.filter (fun r => again && r.sent)) (fun r t => (t.sendOut r.link r.msg).sat (linkBlock r.link + 0x1C) 1)
  ((s3.replaySync l).each ((mine.map (·.link)).eraseDups) (fun p t => t.pump p)).set (dieReg (l / 16) 0x520) 8

/-- Awaited answers of a peer that no path reaches: host requests end ABORTED_FABRIC; the rest end with their contexts. -/
def State.dropAwaits (s : State) (key : Nat) : State :=
  let mine := s.link.awaits.filter (fun a => a.peer == key)
  let s1 : State := { s with link := { s.link with awaits := s.link.awaits.filter (fun a => a.peer != key) } }
  s1.each mine (fun a t => match a.who with
    | .host port dpa w kind => t.hostEnd port dpa w kind .abortedFabric [] 0
    | _ => t)

/-- No path to a peer remains (R460, R542): the contexts of the held messages are aborted, mirrored regions degrade.
DEDUCED, unsafe: notes/assumptions/38.md. -/
def State.pathGone (s : State) (l key : Nat) : State :=
  let held := s.link.replay.filter (fun r => r.peer == key)
  let s1 := (s.set 0x614 0x10).lpEvent l 0x20
  let ctxs := ((held.filter (fun r => s1.defined r.msg.ctx && r.msg.gen == s1.ctxGen r.msg.ctx)).map (·.msg.ctx)).eraseDups
  let s2 := s1.each ctxs (fun x t => t.abortStart x 9)
  let s3 := s2.each (held.filter (fun r => r.msg.kind == 0x08)) (fun r t => (t.mirrorOf (r.msg.addr / 2 ^ 21)).elim t t.degrade)
  let s4 : State := { s3 with link := { s3.link with replay := s3.link.replay.filter (fun r => r.peer != key) } }
  (s4.dropAwaits key).replaySync l

/-- A path failed (R460): its flows move at the next frame boundary when the trunk has another member up, or nothing is left.
DEDUCED, unsafe: notes/assumptions/38.md. -/
def State.pathFail (s : State) (l key : Nat) : State :=
  if key < 0x100 && s.otherMember key l then { s with sw := { s.sw with failing := l :: s.sw.failing.filter (· != l) } }
  else s.pathGone l key

/-- At a frame boundary the flows of members whose path failed, and of those that are not up, move (R301); a path that has no other member
any more is lost (R460). -/
def State.remapFrame (s : State) : State :=
  let used := s.link.replay.map (·.link)
  let down := (List.range 64).filter (fun l => used.contains l && !s.ztl l && (s.lpState l == 0 || s.lpState l == 4))
  let failing := s.sw.failing
  let s0 : State := { s with sw := { s.sw with failing := [] } }
  s0.each (failing ++ down.filter (fun l => !failing.contains l)) (fun l t =>
    let peers := ((t.link.replay.filter (fun r => r.link == l && r.peer < 0x100)).map (·.peer)).eraseDups
    let t1 := t.when (peers.any (fun p => t.otherMember p l)) (·.moveMember l (failing.contains l))
    t1.each (if failing.contains l then peers.filter (fun p => !t1.otherMember p l) else []) (fun p u => u.pathGone l p))

/-- Re-send the kept messages of a (peer, stream) from a sequence number on (R460). DEDUCED, unsafe: notes/assumptions/38.md. -/
def State.resend (s : State) (key stream from_ : Nat) : State :=
  let later (r : Replay) : Bool := r.peer == key && r.sent && r.msg.stream == stream && (r.msg.seq + 2 ^ 24 - from_) % 2 ^ 24 < 2 ^ 23
  match s.link.replay.find? later with
  | none => s
  | some f =>
    if s.e2eRetry ≤ f.retries then s.pathFail f.link key
    else
      let again (r : Replay) : Replay := if later r then { r with retries := r.retries + 1 } else r
      let s1 : State := { s with link := { s.link with replay := s.link.replay.map again } }
      s1.each (s.link.replay.filter later) (fun r t =>
        ((t.when (t.carries r.link r.msg.kind) (·.sendOut r.link r.msg)).sat (linkBlock r.link + 0x1C) 1))

/-- E2E_TIMEOUT. The peer of a ZTL port is its tray. -/
def State.e2eTimeout (s : State) (l peer stream : Nat) : State :=
  let key := s.peerKey l peer
  match s.kept key stream with
  | [] => s
  | r :: _ => s.resend key stream r.msg.seq

def execE2eTimeout (link peer stream : Nat) (s : State) : Host.Outcome State Fault Refusal :=
  .next (s.when s.ready (·.e2eTimeout link peer stream))

-- received slots ----------------------------------------------------------------------------------------------------------

/-- Kinds that a port of each protocol takes (R456, R486): all but HELLO, which has a row of its own. -/
def kindOk (ztl : Bool) (k : Nat) : Bool :=
  if ztl then k == 0x21 || k == 0x23 || k == 0x25 || k == 0x27 else (0x01 ≤ k && k ≤ 0x08) || k == 0x10 || k == 0x11

/-- A NAK naming the expected value, at most once per microsecond (R458). -/
def State.nak (s : State) (l key : Nat) (m : Msg) : State :=
  let x := s.lane key m.stream
  if x.nakAt.any (fun t => s.now < t + 1800) then s
  else
    let r : AckRec := { acker := s.moduleNo, sender := m.src, seq := x.rxNext, stream := m.stream, type := 2 }
    (((s.setLane { x with nakAt := some s.now }).emit (.ack l r)).sat (linkBlock l + 0x20) 1)

/-- A message goes to where it is served, or is discarded and counted (R456, R486). A message of another kind than HELLO and EPOCH_NOTICE
wakes a module in Retain (R574). -/
def State.queueRx (s : State) (l : Nat) (m : Msg) : State :=
  if m.kind == 0x12 then s
  else if !kindOk (s.ztl l) m.kind then s.pviol (0x40 + l)
  else
    let s1 : State := { s with link := { s.link with rx := s.link.rx ++ [(l, m)] } }
    s1.when (s1.pwr.state == 2 && m.kind != 0x11) (fun t => { t with pwr := { t.pwr with wake := true } })

/-- A message that came in on link port p for another module goes on with the colour it has now, and nothing of it is kept here; its check
field follows a change of colour. DEDUCED, unsafe: notes/assumptions/38.md. -/
def State.forward (s : State) (p : Nat) (m : Msg) : State :=
  match s.linkTo m.epoch.toNat (0x40 + p) m.dst m.ctx m.cls m.label with
  | some l =>
    let m1 : Msg := { m with colour := s.colourOf (0x40 + p) m }
    s.when (s.linkUp l) (·.sendOut l (if m.crc = msgCrc m then { m1 with crc := msgCrc m1 } else m1))
  | none => s

/-- Take one message of a slot (R457, R458). The triple to acknowledge, if there is one. -/
def State.takeMsg (s : State) (l : Nat) (m : Msg) : State × Option (Nat × Nat × Nat) :=
  let key := if s.ztl l then 0x100 + l else m.src
  if !s.ztl l && !m.mcast && m.dst != s.moduleNo then (s.forward l m, none)
  else if m.stream = 7 then (if m.crc = msgCrc m then s.queueRx l m else s, none)
  else if m.crc != msgCrc m then ((s.sat (linkBlock l + 0x18) 1).nak l key m, none)
  else
    let x := s.lane key m.stream
    let below := (x.rxNext + 2 ^ 24 - m.seq) % 2 ^ 24
    if below = 0 then ((s.setLane { x with rxNext := (x.rxNext + 1) % 2 ^ 24 }).queueRx l m, some (key, m.stream, m.src))
    else if below ≤ 2 ^ 23 then (s, some (key, m.stream, m.src))
    else (s.nak l key m, none)

/-- The messages of a slot, each against the credits of its sender (R454), then one ACK for each triple of which it held some (R459). -/
def State.takeMsgs (s : State) (l : Nat) (ms : List Msg) : State :=
  let r := ms.foldl (fun (q : State × List (Nat × Nat × Nat)) m =>
    let t := (q.1.setGiven l m.stream (q.1.givenOf l m.stream - msgCells m)).takeMsg l m
    (t.1, match t.2 with
      | some k => if q.2.contains k then q.2 else q.2 ++ [k]
      | none => q.2)) (s, [])
  r.1.each r.2 (fun k t =>
    let a : AckRec := { acker := t.moduleNo, sender := k.2.2, seq := (t.lane k.1 k.2.1).rxNext, stream := k.2.1, type := 1 }
    t.emit (.ack l a))

/-- An acknowledgement record (R459): copies below its `SEQ` are released, a NAK re-sends; one for another module is passed on. -/
def State.takeAck (s : State) (l : Nat) (r : AckRec) : State :=
  if !s.ztl l && r.sender != s.moduleNo then
    match s.linkTo s.version (0x40 + l) r.sender 0 7 0 with
    | some p => s.emit (.ack p r)
    | none => s
  else
    let key := if s.ztl l then 0x100 + l else r.acker
    if r.type = 1 then
      let gone (q : Replay) : Bool := q.sent && q.peer == key && q.msg.stream == r.stream
        && (let n := (r.seq + 2 ^ 24 - q.msg.seq) % 2 ^ 24; 1 ≤ n && n ≤ 2 ^ 23)
      let ports := ((s.link.replay.filter gone).map (·.link)).eraseDups
      let s1 : State := { s with link := { s.link with replay := s.link.replay.filter (fun q => !gone q) } }
      s1.each ports (fun p t => (t.progress (.link p)).replaySync p)
    else if r.type = 2 then s.resend key r.stream r.seq
    else s

/-- LINK_SLOT_RECEIVE (R453, R454, R458, R459). A slot whose record fails its tag gives nothing; without alignment the port retrains. -/
def State.slot (s : State) (l : Nat) (gcmOk aligned : Bool) (credits : List (Nat × Nat)) (acks : List AckRec) (msgs : List Msg)
    (fecCorr fecUncorr : Nat) : State :=
  let b := linkBlock l
  let s1 := (s.sat (b + 0xC) fecCorr).sat (b + 0x10) fecUncorr
  if !aligned then s1.lpRetrain l
  else
    let p := s1.port l
    let s2 := s1.setPort { p with rxSlots := p.rxSlots + 1 }
    if !s2.ztl l && !gcmOk then (s2.sat (b + 0x14) 1).lpEvent l 8
    else
      let s3 := s2.each credits (fun c t => t.setCredit l c.1 (t.creditOf l c.1 + c.2))
      let s4 := s3.each acks (fun r t => t.takeAck l r)
      (s4.takeMsgs l msgs).pump l

def execLinkSlotReceive (link : Nat) (gcmOk aligned : Bool) (credits : List (Nat × Nat)) (acks : List AckRec) (msgs : List Msg)
    (fecCorr fecUncorr : Nat) (s : State) : Host.Outcome State Fault Refusal :=
  .next (s.when (s.ready && (s.lpState link == 2 || (s.lpState link == 5 && s.admitted link)))
    (·.slot link gcmOk aligned credits acks msgs fecCorr fecUncorr))

-- ZFL messages ------------------------------------------------------------------------------------------------------------

/-- The oldest message of a kind that link port l brought, taken off the queue. -/
def State.takeRx (s : State) (l kind : Nat) : Option (State × Msg) :=
  (s.link.rx.find? (fun p => p.1 == l && p.2.kind == kind)).map (fun p => ({ s with link := { s.link with rx := s.link.rx.erase p } }, p.2))

/-- Serve the oldest message of a kind; in Retain it waits (R574). DESIGN CHOICE, unsafe: notes/assumptions/5.md. -/
def State.onRx (s : State) (l kind : Nat) (f : State → Msg → State) : State :=
  if !s.ready || s.pwr.state == 2 then s
  else match s.takeRx l kind with
    | some r => f r.1 r.2
    | none => s

/-- Link port l belongs to a slice in a version (R467, R481). -/
def State.linkIn (s : State) (v sl l : Nat) : Bool := (s.rd (sliceReg v sl (8 + l / 32 * 4))).getLsbD (l % 32)

/-- The table of R480 for one tag: the code, and whether it counts as stale. DEDUCED, unsafe: notes/assumptions/37.md. -/
def State.tagCheck (s : State) (l v x gen : Nat) : Status × Bool :=
  let k := s.ctxState x
  if k != 1 && k != 2 && k != 3 then (.permission, false)
  else if gen != s.ctxGen x then (.ctxFenced, true)
  else if k == 3 then (.ctxFenced, true)
  else if !s.linkIn v (s.ctxSlice x) l then (.permission, false)
  else (.ok, false)

/-- Count an arrival of rows 2 and 3 of R480. -/
def State.staleTag (s : State) (x : Nat) : State := (s.sat (ctxReg x 0x14) 1).sat 0x73C 1

/-- The message names a version that is neither in force nor draining (R467). -/
def State.staleEpoch (s : State) (m : Msg) : Bool := m.epoch.toNat != s.version && decide (s.eph.drainEnd ≤ s.time.frame)

/-- Refuse a request: a posted one is dropped. -/
def State.refuse (s : State) (l : Nat) (m : Msg) (kind : Nat) (st : Status) : State := if m.posted then s else s.respond l m kind st []

/-- A request or access is checked for its tag and its version before it is served (R467, R480). `kind` 0: it has no response. -/
def State.access (s : State) (l : Nat) (m : Msg) (kind : Nat) (f : State → State) : State :=
  let c := s.tagCheck l m.epoch.toNat m.ctx m.gen
  let s1 := s.when c.2 (·.staleTag m.ctx)
  let out (t : State) (st : Status) : State := if kind = 0 then t else t.refuse l m kind st
  if c.1 == .ctxFenced then out s1 .ctxFenced
  else if s1.staleEpoch m then out ((s1.sat 0x61C 1).sat (linkBlock l + 0x24) 1) .epochStale
  else if c.1 != .ok then out s1 c.1
  else f s1

/-- Every page of [a, a + n) is served here under version v (R463). -/
def State.routedHere (s : State) (v a n : Nat) : Status :=
  if (pagesOf a n).all (fun p => (s.routeOf v p).isHere) then .ok else .addrFault

/-- Length and alignment of a request in whole lines (R456). DEDUCED, unsafe: notes/assumptions/37.md. -/
def wholeLines (a n : Nat) : Status := if n = 0 || n % 64 != 0 || 4096 < n || a % 64 != 0 then .permission else .ok

/-- RD. -/
def State.serveRd (s : State) (l : Nat) (m : Msg) (ue : List Nat) : State :=
  let st0 := ((wholeLines m.addr m.sub).worst (if m.mcast then .addrFault else s.routedHere m.epoch.toNat m.addr m.sub)).worst
    (s.mapCheck m.ctx false m.addr m.sub)
  let st := if st0 == .ok then s.readCheck ue m.addr m.sub else st0
  if st != .ok then (s.mediaOf (0x40 + l) m.ctx (s.badAt ue m.addr m.sub) st).respond l m 0x02 st []
  else (s.mark m.addr m.sub).respond l m 0x02 .ok (s.bytes m.addr m.sub)

def execRd (link : Nat) (ue : List Nat) (s : State) : Host.Outcome State Fault Refusal :=
  .next (s.coherent (.rd link) (fun v => v.onRx link 0x01 (fun t m => t.access link m 0x02 (fun u => u.serveRd link m ue))))

/-- Where a WR or MIRROR_WR writes, and for which context: a copy of a multicast by its group's entry (R468). -/
def State.wrPlace (s : State) (m : Msg) : Status × Nat × Nat :=
  let v := m.epoch.toNat
  let n := m.payload.length
  if !m.mcast then (s.routedHere v m.addr n, m.addr, m.ctx)
  else
    match s.routeOf v (m.addr / 2 ^ 21) with
    | .group k first =>
      let g (i : Nat) : Nat := (s.rd (routeReg v (0x400 + 16 * k + 4 * i))).toNat
      let off := m.addr - first * 2 ^ 21
      if k != m.group || !(g 0).testBit 0 || g 3 < off + n then (.addrFault, 0, 0)
      else (.ok, g 1 + 2 ^ 32 * g 2 + off, nbits (g 0) 18 10)
    | _ => (.addrFault, 0, 0)

/-- WR. A write to a steered range goes to its reduce unit (R220). -/
def State.serveWr (s : State) (l : Nat) (m : Msg) : State :=
  let p := s.wrPlace m
  let n := m.payload.length
  let st := ((wholeLines m.addr n).worst p.1).worst (if p.1 == .ok then s.mapCheck p.2.2 true p.2.1 n else .ok)
  if p.1 == .ok && !(s.steered p.2.2 p.2.1 n).isEmpty then
    let w := s.steer p.2.2 p.2.1 m.payload false
    (w.1.wakeIdle).refuse l m 0x04 ((wholeLines m.addr n).worst w.2)
  else if st != .ok then s.refuse l m 0x04 st
  -- the access waits for room in the write cache (R385)
  else if (s.cacheFull p.2.1 n).isSome then { s with link := { s.link with rx := (l, m) :: s.link.rx } }
  else
    let w := s.save p.2.2 p.2.1 m.payload
    (w.1.mediaOf (0x40 + l) p.2.2 p.2.1 w.2).refuse l m 0x04 w.2

def execWr (link : Nat) (s : State) : Host.Outcome State Fault Refusal :=
  .next (s.onRx link 0x03 (fun t m => t.access link m 0x04 (fun u => u.serveWr link m)))

/-- ATOMIC: routed to its home, which answers (R429-R431). -/
def State.serveAtomic (s : State) (l : Nat) (m : Msg) : State :=
  let a : Atomic := { code := nbits m.sub 0 4, size := nbits m.sub 4 5, operand := leNat (m.payload.take 16),
                      swap := leNat ((m.payload.drop 16).take 16), posted := m.posted }
  let st := if m.mcast then Status.addrFault else s.routedHere m.epoch.toNat m.addr 1
  if st != .ok then s.refuse l m 0x06 st
  else s.homeReq { line := m.addr / 64, agent := .zfl l, ctx := m.ctx, kind := .atom (m.addr % 64) a, via := .msg m }

def execAtomic (link : Nat) (s : State) : Host.Outcome State Fault Refusal :=
  .next (s.onRx link 0x05 (fun t m => t.access link m 0x06 (fun u => u.serveAtomic link m)))

/-- RED_PARTIAL (R226, R227, R456): absorbed, refused or dropped; it has no response. -/
def State.serveRed (s : State) (l : Nat) (m : Msg) (poisoned : Bool) : State :=
  let f (lo w : Nat) : Nat := nbits m.addr lo w
  s.partArrive (l / 16) m.ctx (f 0 16) (f 16 12) (f 28 16) (f 44 4) (f 48 4) (m.sub % 256) m.payload poisoned

def execRedPartial (link : Nat) (poisoned : Bool) (s : State) : Host.Outcome State Fault Refusal :=
  .next (s.onRx link 0x07 (fun t m => t.access link m 0 (fun u => (u.serveRed link m poisoned).wakeIdle)))

-- mirrors -----------------------------------------------------------------------------------------------------------------

/-- Bytes of a MIRROR_WR lie in a region whose partner sent it, mapped to the context (R540, R543). -/
def State.mirrorInto (s : State) (m : Msg) (a x n : Nat) : Status :=
  (pagesOf a n).foldl (fun st p => st.worst (
    let mine := (s.mirrorOf p).any (fun r => s.mirrorPartner r == m.src)
    match s.rights p with
    | none => .addrFault
    | some e => if !mine then .permission else if entryCtx e != x then .addrFault else s.lostCheck p)) .ok

/-- MIRROR_WR (R541, R543): applied as any write (R356, R385) of the partner, and not mirrored back; with `ADMIT` the region rejoins. -/
def State.serveMirror (s : State) (l : Nat) (m : Msg) : State :=
  let p := s.wrPlace m
  let n := m.payload.length
  let st := ((wholeLines m.addr n).worst p.1).worst (if p.1 == .ok then s.mirrorInto m p.2.1 p.2.2 n else .ok)
  let r := s.takeWrite p.2.1 n
  if st != .ok then s.refuse l m 0x04 st
  else if (s.cacheFull p.2.1 n).isSome then { s with link := { s.link with rx := (l, m) :: s.link.rx } }
  else if r.2 != .ok then r.1.refuse l m 0x04 r.2
  else
    let s1 := (r.1.store p.2.1 m.payload).expWrite p.2.1 n
    let s2 := match s1.mirrorOf (p.2.1 / 2 ^ 21) with
      | some r =>
        if m.sub % 2 = 1 && s1.mirrorState r == 3 && !s1.health.admitted.contains r then
          ({ s1 with health := { s1.health with admitted := s1.health.admitted ++ [r] } } : State)
        else s1
      | none => s1
    s2.refuse l m 0x04 .ok

def execMirrorWr (link : Nat) (s : State) : Host.Outcome State Fault Refusal :=
  .next (s.onRx link 0x08 (fun t m => t.access link m 0x04 (fun u => u.serveMirror link m)))

/-- A page of a region being copied has every answer: it is no longer dirty (R543 item 4). -/
def State.resyncPage (s : State) (r p : Nat) : State :=
  if s.link.awaits.any (fun a => a.who == .mirror (0x100 + r) && a.addr / 2 ^ 21 == p) then s
  else
    let was := s.health.dirty.contains (r, p)
    let cut (q : Nat × List Nat) : Nat × List Nat := if q.1 == r then (q.1, q.2.filter (· != p)) else q
    let s1 : State := { s with health := { s.health with
      dirty := s.health.dirty.filter (· != (r, p))
      resync := s.health.resync.map cut } }
    s1.when was (fun t => t.wrn (mirrorReg r 0xC) ((t.rd (mirrorReg r 0xC)).toNat - 1))

-- responses ---------------------------------------------------------------------------------------------------------------

/-- The request kinds that a response answers. DEDUCED, unsafe: notes/assumptions/37.md. -/
def answers : Nat → List Nat
  | 0x02 => [0x01]
  | 0x04 => [0x03, 0x08]
  | 0x06 => [0x05]
  | 0x21 => [0x20]
  | 0x23 => [0x22]
  | _ => [0x24]

/-- A response reached the request that waited for it. Of several copies of one host request the last one ends it (R468). -/
def State.answered (s : State) (a : Await) (m : Msg) : State :=
  let st := a.st.worst (Status.ofCode (m.sub % 256))
  match a.who with
  | .op id => s.opAnswer id a.addr (Status.ofCode (m.sub % 256)) (if m.kind == 0x02 then m.payload else [])
  | .host port dpa w kind =>
    if s.link.awaits.any (fun b => b.who == a.who) then
      let f (b : Await) : Await := if b.who == a.who then { b with st := st } else b
      { s with link := { s.link with awaits := s.link.awaits.map f } }
    else s.hostEnd port dpa w kind st m.payload (leNat m.payload)
  | .mirror r =>
    let p := a.addr / 2 ^ 21
    if st.success then (if 0x100 ≤ r then s.resyncPage (r - 0x100) p else s)
    else (s.mirrorOf p).elim s s.degrade
  | .tray =>
    if st == .mediaUncorrectable then
      { s with poison := s.poison ++ ((List.range (a.len / 64)).map (· + a.addr / 64)).filter (fun l => !s.poison.contains l) }
    else s
  | .core _ => s

/-- A response of a kind: dropped under R480, or given to the oldest request that it answers. DEDUCED, unsafe: notes/assumptions/37.md. -/
def State.response (s : State) (l : Nat) (m : Msg) : State :=
  let key := if s.ztl l then 0x100 + l else m.src
  let c := s.tagCheck l m.epoch.toNat m.ctx m.gen
  if !s.ztl l && c.1 != .ok then s.when c.2 (·.staleTag m.ctx)
  else
    match s.link.awaits.find? (fun a => a.peer == key && (answers m.kind).contains a.kind && a.ctx == m.ctx && a.addr == m.addr) with
    | none => s
    | some a =>
      let s1 : State := { s with link := { s.link with awaits := s.link.awaits.erase a } }
      s1.answered a m

def execRdData (link : Nat) (s : State) : Host.Outcome State Fault Refusal := .next (s.onRx link 0x02 (fun t m => t.response link m))
def execWrResp (link : Nat) (s : State) : Host.Outcome State Fault Refusal := .next (s.onRx link 0x04 (fun t m => t.response link m))
def execAtomicResp (link : Nat) (s : State) : Host.Outcome State Fault Refusal := .next (s.onRx link 0x06 (fun t m => t.response link m))
def execTRdData (link : Nat) (s : State) : Host.Outcome State Fault Refusal := .next (s.onRx link 0x21 (fun t m => t.response link m))
def execTWrResp (link : Nat) (s : State) : Host.Outcome State Fault Refusal := .next (s.onRx link 0x23 (fun t m => t.response link m))
def execTAtomicResp (link : Nat) (s : State) : Host.Outcome State Fault Refusal := .next (s.onRx link 0x25 (fun t m => t.response link m))

-- notices -----------------------------------------------------------------------------------------------------------------

/-- Take a notice, in every power state in which ZFL Control cells pass (R576). -/
def State.onNotice (s : State) (l kind : Nat) (f : State → Msg → State) : State :=
  if !s.ready then s
  else match s.takeRx l kind with
    | some r => f r.1 r.2
    | none => s

def tagAt (p : List Byte) (i : Nat) : Nat × Nat := (nbits (leNat ((p.drop (16 + 4 * i)).take 4)) 0 10, leNat ((p.drop (16 + 4 * i)).take 4) / 2 ^ 10)

/-- ABORT_NOTICE (R536, R537): each (`ORIGIN`, `SERIAL`) once; the tags that pass R480 are kept, acted on at the next boundary, and
sent on while hops are left. DEDUCED, safe: notes/assumptions/69.md. -/
def State.abortNotice (s : State) (l : Nat) (m : Msg) : State :=
  let b (o n : Nat) : Nat := leNat ((m.payload.drop o).take n)
  let origin := b 8 1
  let serial := b 12 4
  if b 11 1 = 0 || 48 < b 11 1 || s.ctx.aborts.any (fun a => a.origin == origin && a.serial == serial) then s
  else
    let tags := (List.range (b 11 1)).map (tagAt m.payload)
    let s1 := s.each (tags.filter (fun t => (s.tagCheck l m.epoch.toNat t.1 t.2).2)) (fun t u => u.staleTag t.1)
    let good := tags.filter (fun t => (s.tagCheck l m.epoch.toNat t.1 t.2).1 == .ok)
    let a : Abort := { origin := origin, serial := serial, reason := b 9 1, frame := b 0 8, tags := good, hops := b 10 1 - 1,
                       sends := if b 10 1 = 0 || good.isEmpty then 0 else 3, from? := some l, acted := false }
    { s1 with ctx := { s1.ctx with aborts := s1.ctx.aborts ++ [a] } }

def execAbortNotice (link : Nat) (s : State) : Host.Outcome State Fault Refusal := .next (s.onNotice link 0x10 (fun t m => t.abortNotice link m))

/-- The flip armed: its target epoch and `RT_GEN` of the version it makes active (R465, R466). -/
def State.flipArmed (s : State) : Option (Nat × Word) :=
  (s.eph.rtArm.orElse (fun _ => s.eph.compArm)).map (fun e => (e, s.rd (if s.version = 0 then 0x610 else 0x60C)))

/-- EPOCH_NOTICE (R466): compared with the flip armed here. -/
def State.epochNotice (s : State) (m : Msg) : State :=
  let e := leNat (m.payload.take 8)
  let g := leNat ((m.payload.drop 8).take 4)
  if s.flipArmed.any (fun f => f.1 == e && f.2.toNat == g) then s else s.set 0x614 0x8

def execEpochNotice (link : Nat) (s : State) : Host.Outcome State Fault Refusal := .next (s.onNotice link 0x11 (fun t m => t.epochNotice m))

-- trays -------------------------------------------------------------------------------------------------------------------

/-- Every chunk of [a, a + n) lies on the DRAM tray of link port l, which is UP. -/
def State.onDramTray (s : State) (l a n : Nat) : Bool :=
  s.ready && s.linkUp l && s.fld (linkBlock l) 9 2 == 1
    && (List.range ((a + n - 1) / 2 ^ 16 - a / 2 ^ 16 + 1)).all (fun i =>
      let c := a / 2 ^ 16 + i
      (s.page (c / 32)).any (fun g => s.chunkUnit g.loc g.page (c % 32) == 0x40 + l))

/-- A request of the module's own to a tray: sent, and its answer awaited. DESIGN CHOICE, unsafe: notes/assumptions/39.md. -/
def State.askTray (s : State) (l kind sub x a n : Nat) (data : List Byte) : State :=
  let m : Msg := { kind := kind, dst := 0xFF, sub := sub, ctx := x, gen := s.ctxGen x, addr := a, payload := data }
  let w : Await := { peer := 0x100 + l, kind := kind, ctx := x, gen := s.ctxGen x, addr := a, who := .tray, len := n }
  let s1 := s.sendOn l m (s.unitIngress a)
  { s1 with link := { s1.link with awaits := s1.link.awaits ++ [w] } }

/-- T_RD: for an access that its checks allow. -/
def execTRd (link addr bytes ctx : Nat) (s : State) : Host.Outcome State Fault Refusal :=
  .next (s.when (s.onDramTray link addr bytes && s.mapCheck ctx false addr bytes == .ok && wholeLines addr bytes == .ok)
    (·.askTray link 0x20 bytes ctx addr bytes []))

/-- T_WR: the data leave as ciphertext, and the tray holds them. -/
def execTWr (link addr ctx : Nat) (data : List Byte) (s : State) : Host.Outcome State Fault Refusal :=
  .next (s.when (s.onDramTray link addr data.length && s.mapCheck ctx true addr data.length == .ok && wholeLines addr data.length == .ok)
    (fun t => (t.write addr data).askTray link 0x22 0 ctx addr 0 (t.cipher addr data)))

/-- T_ATOMIC: executed by the tray (R431). -/
def execTAtomic (link addr ctx : Nat) (op : Atomic) (s : State) : Host.Outcome State Fault Refusal :=
  .next (s.when (s.onDramTray link addr op.size && s.mapCheck ctx true addr op.size == .ok && atomOk (addr % 64) op) (fun t =>
    let old := leNat (t.bytes addr op.size)
    let payload := leBytes 16 op.operand ++ (if op.code = 9 then leBytes 16 op.swap else [])
    (t.store addr (leBytes op.size (atomNew op old))).askTray link 0x24 (op.code + 16 * op.size) ctx addr 0 payload))

/-- T_FL_CMD. -/
def execTFlCmd (link cmd level die block page : Nat) (s : State) : Host.Outcome State Fault Refusal :=
  .next (s.when (s.ready && s.linkUp link && s.fld (linkBlock link) 9 2 == 2) (·.flashCmd link cmd level die block page))

/-- T_FL_RESP. -/
def execTFlResp (link page unit : Nat) (ok rowOk verifyOk : Bool) (s : State) : Host.Outcome State Fault Refusal :=
  .next (s.when (s.ready && s.linkUp link) (·.flashRead link page unit ok rowOk verifyOk))

end Sys2Proof.Machine
end

