-- ==== Sys2Proof/Machine/Contexts.lean ====
section
/-! DEFINITION. Contexts and security: context commands, Occultation (R475-R485, R504-R507), security states and debug levels (R509-R511),
identity and attestation (R497-R503), the trace ring's read index (R516). -/

namespace Sys2Proof.Machine

-- context commands --------------------------------------------------------------------------------------------------------

/-- A refused command (R478). -/
def State.ctxRefuse (s : State) (x : Nat) : State := s.set (ctxReg x 0x18) 0x4

/-- Target generation of a command (R479). -/
def State.ctxTarget (s : State) (x : Nat) : Nat :=
  let n := s.fld (ctxReg x 0xC) 0 22
  if n = 0 then s.ctxGen x + 1 else n

/-- The last generation (R479). -/
def lastGen : Nat := 0x3FFFFF

/-- Guarantee modes ISOLATE and BOTH (R3). -/
def strictMode (m : Nat) : Bool := m == 1 || m == 3

/-- Slices that R485 lets the members of one domain lie in. -/
def State.slicesOk (s : State) (l : List Nat) : Bool :=
  l.all (fun a => l.all (fun b => a == b || !(strictMode (s.sliceMode a) || strictMode (s.sliceMode b))))

/-- Slice of context x, or the one that a DEFINE awaiting its boundary gives it. -/
def State.sliceSoon (s : State) (x : Nat) : Option Nat :=
  match s.ctx.cmds.find? (fun c => c.ctx == x && c.op == 1) with
  | some c => some c.slice
  | none => if s.defined x then some (s.ctxSlice x) else none

/-- Members of domain d as last written (R438). -/
def State.memberList (s : State) (d : Nat) : List Nat :=
  (List.range 32).flatMap (fun w =>
    let v := s.rd (memberReg d w)
    if v = 0 then [] else ((List.range 32).filter (fun i => v.getLsbD i)).map (· + 32 * w))

/-- Domains that context x is a member of and that a DEFINE in slice sl would break (R485). DEDUCED, unsafe: notes/assumptions/43.md. -/
def State.brokenDomains (s : State) (x sl : Nat) : List Nat :=
  [1, 2, 3].filter (fun d => (s.memberList d).contains x
    && !s.slicesOk (sl :: ((s.memberList d).filter (· != x)).filterMap s.sliceSoon))

/-- A write of `CTX_CMD` (R478, R479): accepted for the next frame boundary, or refused. DEDUCED, unsafe: notes/assumptions/43.md. -/
def State.ctxCommand (s : State) (x op sl : Nat) : State :=
  let t := s.ctxTarget x
  let st := s.ctxState x
  let retire := op != 1 && s.ctxGen x == lastGen
  if s.ctx.cmds.any (fun c => c.ctx == x) || op = 0 || 3 < op || !(if op = 1 then st == 0 else st == 1 || st == 2)
      || (op == 1 && !s.sliceValid sl) || !(retire || (decide (s.ctxGen x < t) && decide (t ≤ lastGen))) then s.ctxRefuse x
  else if op = 1 && !(s.brokenDomains x sl).isEmpty then s.each (s.brokenDomains x sl) (fun d u => u.set (domReg d 0x10) 1)
  else
    let c : CtxCmd := { ctx := x, op := op, slice := sl, target := if retire then none else some t }
    { s with ctx := { s.ctx with cmds := s.ctx.cmds ++ [c] } }

/-- DEFINE. -/
def execDefine (port ctx slice : Nat) (s : State) : Host.Outcome State Fault Refusal :=
  .next (s.reg (.define port ctx slice) port (ctxReg ctx 8) (·.ctxCommand ctx 1 slice))

/-- OCCULT. -/
def execOccult (port ctx : Nat) (s : State) : Host.Outcome State Fault Refusal :=
  .next (s.reg (.occult port ctx) port (ctxReg ctx 8) (·.ctxCommand ctx 2 0))

/-- RELEASE. -/
def execRelease (port ctx : Nat) (s : State) : Host.Outcome State Fault Refusal :=
  .next (s.reg (.release port ctx) port (ctxReg ctx 8) (·.ctxCommand ctx 3 0))

/-- DEFINE takes effect (R478, R518): the context is LIVE at its target, in its slice, with the slice's weight (R322). -/
def State.ctxDefine (s : State) (c : CtxCmd) : State :=
  let x := c.ctx
  let w := s.alm.sliceW.getD c.slice 1
  let s1 := ((s.wrFld (ctxReg x 0) 0 3 1).wrFld (ctxReg x 0) 4 6 c.slice).wrFld (ctxReg x 4) 0 22 (c.target.getD 0)
  (s1.each (List.range 4) (fun d t => t.wrf (tmReg d x) (BitVec.ofNat 32 (nput (t.rd (tmReg d x)).toNat 8 8 w)))).stepMark x

-- Occultation -------------------------------------------------------------------------------------------------------------

/-- `HM_SEARCH` shows the first search that runs (R547). -/
def State.searchSync (s : State) : State :=
  match s.health.searches with
  | [] => s.wr 0x814 0
  | h :: _ => s.wrn 0x814 (1 + 2 * h.engine + (if h.replaying then 2 ^ 9 * h.suspects.headD 0 else 0) + 2 ^ 19 * h.suspects.length)

/-- Context x is a suspect of some search, or of none: its `SUSPECT` bit follows (R527, R528). -/
def State.suspectSync (s : State) (x : Nat) : State :=
  s.wrFld (healthReg x 4) 4 1 (if s.health.searches.any (fun h => h.suspects.contains x) then 1 else 0)

/-- A replay of an engine ends, or a search does: the engine reads QUARANTINED while its bit is set (R196).
DEDUCED, unsafe: notes/assumptions/45.md. -/
def State.replayStop (s : State) (e : Nat) : State :=
  s.when (s.fld (engineBlock e + 4) 0 3 == 4) (fun t => t.wrFld (engineBlock e + 4) 0 3 (if t.quarantined e then 3 else 0))

/-- A suspect that is faulted for another reason, or occulted, leaves every search; a replay of it is abandoned (R528). -/
def State.leaveSearch (s : State) (x : Nat) : State :=
  let mine := s.health.searches.filter (fun h => h.replaying && h.suspects.head? == some x)
  let cut (h : Search) : Search :=
    { h with suspects := h.suspects.filter (· != x), replaying := h.replaying && h.suspects.head? != some x }
  let s1 : State := { s with health := { s.health with searches := s.health.searches.map cut } }
  ((s1.each mine (fun h t => t.replayStop h.engine)).suspectSync x).searchSync

/-- A queue of a context under Occultation: FENCED, nothing read from its ring counts any more (R157). -/
def qFence (s : State) (q : Nat) : State :=
  let t : State := { s with
    heads := s.heads.filter (fun h => h.queue != q)
    bells := s.bells.filter (fun r => r.queue != q)
    stalled := s.stalled.filter (· != q) }
  qSetState t q 3

/-- The Occultation of its context has ended: the queue is STOPPED, with nothing in its ring (R157). -/
def qUnfence (s : State) (q : Nat) : State :=
  let b := queueBlock q
  let v := s.rd (b + 0x20)
  (qSetState ((s.wr (b + 0x24) v).wr (b + 0x28) v) q 0).clr (b + 4) 1

/-- An operation stops where it stands and ends with a code, unless one it has already stands higher (R18); it completes at once unless messages
of it are held for re-send (R505, R538). -/
def State.cutOff (s : State) (o : Op) (st : Status) : State :=
  let code := match o.phase with
    | .executed v => v.worst st
    | _ => st
  let held := s.opHeld o
  let seqs := s.tier.seqs.map (fun (q : Seq) => if q.handoff.any (fun h => h.2 == o.id) then { q with handoff := none } else q)
  let s1 : State := { s.stopPart o with tier := { (s.stopPart o).tier with seqs := seqs } }
  let p : Op := { o with phase := .executed code }
  let s2 := (s1.setOp p).when (o.phase.isWork) (·.trace 3 (o.engine.getD o.queue) o.ctx 0)
  let s3 := match o.engine with
    | some e => s2.engineIdle e
    | none => s2
  if held then s3 else s3.fenceEnd p code

/-- Every operation of context x ends with a code, its open reductions first (R225, R505, R538). -/
def State.endOps (s : State) (x : Nat) (st : Status) : State :=
  let s1 := s.each (s.reds.filter (fun r => r.isOpen && r.ctx == x)) (fun r t => match t.openRed x r.redId with
    | some q => t.redClose 64 q st
    | none => t)
  s1.each (s1.ops.filter (fun o => o.ctx == x)) (fun o t => t.cutOff o st)

/-- Accesses of context x that wait for room in a write cache are cancelled: writes of operations go, host requests are answered (R505). -/
def State.cacheCancel (s : State) (x : Nat) : State :=
  let mine (p : Nat) : Bool := (s.page p).any (fun g => entryCtx g.entry == x)
  let hit := s.flash.held.filter (fun h => mine h.2.1)
  { s with
    flash := { s.flash with
      trays := s.flash.trays.map (fun (t : Tray) => { t with waits := t.waits.filter (fun c => !mine c.page) })
      held := s.flash.held.filter (fun h => !mine h.2.1) }
    pending := hit.map (·.2.2.2) ++ s.pending }

/-- B0 (R504, R505). DEDUCED, unsafe: notes/assumptions/43.md. -/
def State.occultBegin (s : State) (x : Nat) (target : Option Nat) (release : Bool) : State :=
  let o : Occ := { ctx := x, target := target, release := release }
  let s1 := ((s.wrFld (ctxReg x 0) 0 3 3).trace 6 0 x 0).leaveSearch x
  let s2 : State := { s1 with ctx := { s1.ctx with occ := s1.ctx.occ ++ [o] } }
  let s3 := (s2.each (s2.queuesOf x) (fun q t => qFence t q)).endOps x .ctxFenced
  (s3.each (s3.tier.pages.filter (fun g => g.move.isSome && entryCtx g.entry == x)) (fun g t => t.abandonMove g)).cohFence x |>.cacheCancel x

/-- Nothing of context x is left in the module (R506). -/
def State.occultReady (s : State) (x : Nat) : Bool :=
  !s.ops.any (fun o => o.ctx == x) && s.cohIdle x && !s.link.replay.any (fun r => r.msg.ctx == x)
    && !s.link.awaits.any (fun a => a.ctx == x && a.who == .tray)

/-- Counters of a context go to zero when its generation advances (R148). -/
def State.ctrZero (s : State) (c : Nat) : State :=
  let b := counterBlock c
  ((s.wr64 b 0).wr (b + 0x14) 0).clr (b + 0x1C) 1

/-- Scratch granules that entries of context x name are invalidated (R164). -/
def State.ctxScratch (s : State) (x : Nat) : State :=
  match s.eph.active with
  | some g => s.each (g.eng.filter (fun e => e.ctx == x)) (fun e t => t.scrClear e.engine e.scrBase e.scrGran)
  | none => s

/-- Pages leave the pool map at once, with the rights on them (R506, R511). -/
def State.removePages (s : State) (l : List Page) : State :=
  let gone := l.map (·.page)
  let s1 := s.each l (fun g t => match t.page g.page with
    | some h => t.freePage h
    | none => t)
  ({ s1 with tier := { s1.tier with rights := s1.tier.rights.filter (fun r => !gone.contains r.1) } }).syncUse (l.map (fun (g : Page) => entryCtx g.entry)).eraseDups

/-- Answers that context x waited for elsewhere are waited for no longer: host requests end CTX_FENCED (R480, R504).
DEDUCED, unsafe: notes/assumptions/43.md. -/
def State.dropAwaitsOf (s : State) (x : Nat) : State :=
  let mine := s.link.awaits.filter (fun a => a.ctx == x)
  let s1 : State := { s with link := { s.link with awaits := s.link.awaits.filter (fun a => a.ctx != x) } }
  s1.each mine (fun a t => match a.who with
    | .host port dpa w kind => if t.link.awaits.any (fun b => b.who == a.who) then t else t.hostEnd port dpa w kind .ctxFenced [] 0
    | _ => t)

/-- B1 (R148, R157, R506, R507, R517, R518). -/
def State.occultEnd (s : State) (o : Occ) : State :=
  let x := o.ctx
  let ctrs := s.ctrsOf x
  let st := if o.target.isNone then 4 else if o.release then 0 else 1
  let s1 := (s.dropAwaitsOf x).svcGone [x]
  let s2 := (s1.removePages (s1.tier.pages.filter (fun g => entryCtx g.entry == x && entryDomain g.entry == 0))).ctxScratch x
  let s3 := s2.each ctrs (fun c t => t.ctrZero c)
  let s4 := if o.release then s3.each ctrs (fun c t => t.wrf (counterBlock c + 0x10) (t.rd (counterBlock c + 0x10) &&& ~~~(0x80000000 : Word))) else s3
  let s5 := (s4.each (s4.queuesOf x) (fun q t => qUnfence t q)).clr (healthReg x 4) 0x7F
  let s6 := ((s5.wrFld (ctxReg x 4) 0 22 (o.target.getD (s5.ctxGen x))).wrFld (ctxReg x 0) 0 3 st).set (ctxReg x 0x18) 1
  let s7 : State := { s6 with ctx := { s6.ctx with
    occ := s6.ctx.occ.filter (fun p => p.ctx != x)
    overruns := s6.ctx.overruns.filter (fun p => p.1 != x) } }
  let s8 := (s7.when (s7.rd (ctxReg x 0x10) == 0) (·.set (ctxReg x 0x18) 2)).trace 7 0 x 0
  s8.when (st == 1) (·.stepMark x)

/-- REPLAY_STORE_RELEASE: held messages of a context under Occultation are released (R506). -/
def execReplayStoreRelease (link ctx : Nat) (s : State) : Host.Outcome State Fault Refusal :=
  .next (s.when (s.ready && s.ctxState ctx == 3) (fun t =>
    let mine := t.link.replay.filter (fun r => r.link == link && r.msg.ctx == ctx)
    let u : State := { t with link := { t.link with replay := t.link.replay.filter (fun r => !(r.link == link && r.msg.ctx == ctx)) } }
    match mine.find? (fun r => r.sent && u.e2eRetry ≤ r.retries) with
    | some r => (u.replaySync link).pathFail link r.peer
    | none => u.replaySync link))

-- security state and debug level ------------------------------------------------------------------------------------------

/-- `SEC_STATE` fields: `STATE` and `DBG_LEVEL` (R509, R510). -/
def State.secState (s : State) : Nat := s.fld 0x700 0 2
def State.dbgLevel (s : State) : Nat := s.fld 0x700 4 2

/-- `SEC_EVENTS.BAD_WRITE`. -/
def State.secBad (s : State) : State := s.set 0x718 0x40

/-- A write of `SEC_CMD` (R509): SEAL burns its fuse; MAINT_ENTER is entered from the next frame boundary on.
DEDUCED, unsafe: notes/assumptions/56.md. -/
def State.secCmd (s : State) (op confirm : Nat) : State :=
  if confirm != 0xA5C3 then s.secBad
  else if op = 1 && s.secState == 0 then { s with sec := { s.sec with fuseSealed := true } }
  else if op = 2 && s.secState == 1 then if s.sec.entering.isSome then s else { s with sec := { s.sec with entering := some 4 } }
  else s.secBad

/-- SEAL: takes effect at the next module start. -/
def execSeal (port confirm : Nat) (s : State) : Host.Outcome State Fault Refusal :=
  .next (s.reg (.seal port confirm) port 0x704 (·.secCmd 1 confirm))

/-- MAINT_ENTER. -/
def execMaintEnter (port confirm : Nat) (s : State) : Host.Outcome State Fault Refusal :=
  .next (s.reg (.maintEnter port confirm) port 0x704 (·.secCmd 2 confirm))

/-- A write of `DBG_CTRL` (R510). An entry into Intrusive that is under way counts as Intrusive.
DEDUCED, unsafe: notes/assumptions/56.md. -/
def State.dbgCtrl (s : State) (v : Word) : State :=
  let l := nbits v.toNat 0 2
  let intrusive := s.dbgLevel == 2 || s.sec.entering.any (· % 10 == 2)
  if l = 3 || (l == 2 && s.secState == 1) || (l != 2 && intrusive) then s.secBad
  else
    let t := s.wr 0x720 (v &&& 3)
    if l = 2 && s.dbgLevel != 2 && t.sec.entering.isNone then { t with sec := { t.sec with entering := some 2 } } else t

/-- DEBUG_LEVEL_REQUEST. -/
def execDebugLevelRequest (port : Nat) (v : Word) (s : State) : Host.Outcome State Fault Refusal :=
  .next (s.regS (.debugLevelRequest port v) port 0x720 v (·.dbgCtrl v))

/-- DBG_TRACE_RD_WRITE. -/
def execDbgTraceRdWrite (port : Nat) (v : Word) (s : State) : Host.Outcome State Fault Refusal :=
  .next (s.reg (.dbgTraceRdWrite port v) port 0x734 (fun t => readIndex t 0x734 0x730 v))

-- identity and attestation ------------------------------------------------------------------------------------------------

def modSerial : List Byte := leBytes 4 Config.modSerialLo.toNat ++ leBytes 4 Config.modSerialHi.toNat

/-- Identity indices (R497). -/
def idIndices : Nat := 1048576

/-- Seed of the current attestation key (R500). -/
def State.attSeed (s : State) : List Byte :=
  Config.kmac256 Config.idSeed (leBytes 4 s.sec.bootEpoch ++ leBytes 4 (s.rd 0x710).toNat) 768 "GS-Z-ATT"

/-- The certification message of the current attestation key (R502). -/
def State.certMessage (s : State) : List Byte :=
  leBytes 4 0x4B41475A ++ leBytes 4 s.sec.bootEpoch ++ leBytes 4 (s.rd 0x710).toNat ++ leBytes 4 (s.rd 0x71C).toNat
    ++ Config.xmssPublic s.attSeed 16 ++ modSerial ++ leBytes 4 0

/-- A journal record (R550). -/
def journalRecord (i : Nat) (m : List Byte) : List Byte :=
  let head := leBytes 4 i ++ Config.shake256 m
  head ++ Config.kmac256 (Config.kmac256 Config.idSeed [] 256 "GS-Z-JRN") head 256 "GS-Z-JRN" ++ List.replicate 60 0xFF

/-- NOR bytes; an erased byte reads 0xFF. DEDUCED, unsafe: notes/assumptions/55.md. -/
def State.norByte (s : State) (a : Nat) : Byte := sget (fun _ => 0xFF) s.alm.nor a
def State.norPut (s : State) (a : Nat) (d : List Byte) : State :=
  { s with alm := { s.alm with nor := (d.zip (List.range d.length)).foldl (fun m p => sset (fun _ => 0xFF) m (a + p.2) p.1) s.alm.nor } }

/-- A 64 KiB sector is erased. -/
def State.norErase (s : State) (sector : Nat) : State := { s with alm := { s.alm with nor := s.alm.nor.filter (fun p => p.1 / 65536 != sector) } }

/-- n free bytes, for n a multiple of 4. DESIGN CHOICE, safe: notes/assumptions/2.md. -/
def State.freeBytes (s : State) (n : Nat) : List Byte × State :=
  ((List.range (n / 4)).flatMap (fun i => leBytes 4 (Config.freeWord (s.freeCtr + i)).toNat), { s with freeCtr := s.freeCtr + n / 4 })

/-- Place of journal record i (R550). -/
def journalAt (i : Nat) : Nat := 0x0FF00000 + i % 4096 * 128

/-- The journal takes a record; its sector is erased before its first slot is written (R498, R550).
DEDUCED, unsafe: notes/assumptions/56.md. -/
def State.journal (s : State) (i : Nat) (rec : List Byte) : State :=
  (s.when (i % 512 == 0) (·.norErase (journalAt i / 65536))).norPut (journalAt i) rec

/-- `SEC_EVENTS.ID_LOW` (R516). -/
def State.idSync (s : State) : State :=
  (s.wrn 0x70C s.sec.idCounter).when (decide (idIndices < s.sec.idCounter + 4096)) (·.set 0x718 0x4)

/-- A new attestation key, certified under the identity key unless no index is left (R498, R500). When the journal record does not read
back, the index is abandoned and the key stays without a certificate. DEDUCED, unsafe: notes/assumptions/56.md. -/
def State.attMake (s : State) (readBack : Bool) : State :=
  let t := (s.wrap 0x710 1).wr 0x714 0
  let m := t.certMessage
  let i := t.sec.idCounter
  if idIndices ≤ i then t.set 0x718 0x8
  else
    let u : State := { t with sec := { t.sec with idCounter := i + 1 } }
    if readBack then
      let v := u.journal i (journalRecord i m)
      ({ v with sec := { v.sec with attReady := true, certMsg := m, certSig := Config.xmssSign Config.idSeed 20 i m } }).idSync
    else
      let f := u.freeBytes 128
      (f.2.journal i f.1).idSync

/-- ATTESTATION_KEY_MADE. -/
def execAttestationKeyMade (certified : Bool) (s : State) : Host.Outcome State Fault Refusal :=
  .next (s.when (s.pwr.phase != .dark && s.pwr.state != 2 && !s.sec.attReady) (·.attMake certified))

/-- An attestation message over I3C or an owner port (R486, R501); `f` answers it while service cores run. -/
def State.attest (s : State) (i3c : Bool) (port : Nat) (f : State → State) : State :=
  if s.pwr.phase == .dark || (!i3c && !s.hostUp port) then s
  else if !i3c && !s.owner port then s.pviol port
  else if s.pwr.state == 2 then s.emit (.mctp i3c port 2 [])
  else f s

/-- What a command answers that needs a certified key, while there is none: BUSY or ID_EXHAUSTED. -/
def State.noKey (s : State) : Nat := if idIndices ≤ s.sec.idCounter then 3 else 1

/-- GET_IDENTITY. -/
def execGetIdentity (i3c : Bool) (port : Nat) (wellFormed : Bool) (s : State) : Host.Outcome State Fault Refusal :=
  .next (s.attest i3c port (fun t =>
    if !wellFormed then t.emit (.mctp i3c port 4 [])
    else t.emit (.mctp i3c port 0 (Config.xmssPublic Config.idSeed 20 ++ modSerial ++ leBytes 4 0x4800))))

/-- GET_ATT_KEY. -/
def execGetAttKey (i3c : Bool) (port : Nat) (wellFormed : Bool) (s : State) : Host.Outcome State Fault Refusal :=
  .next (s.attest i3c port (fun t =>
    if !wellFormed then t.emit (.mctp i3c port 4 [])
    else if !t.sec.attReady then t.emit (.mctp i3c port t.noKey [])
    else t.emit (.mctp i3c port 0 (t.sec.certMsg ++ t.sec.certSig))))

/-- Bytes of the composition map version in force. -/
def State.mapBytes (s : State) : List Byte := (List.range 1024).flatMap (fun i => leBytes 4 (s.rd (sliceReg s.version 0 (4 * i))).toNat)

/-- The report (R503). -/
def State.report (s : State) (nonce : List Byte) : List Byte :=
  leBytes 4 0x5450525A ++ leBytes 4 0x4800 ++ modSerial ++ leBytes 4 (Config.modStepping &&& 0xFFFF).toNat ++ leBytes 4 s.sec.bootEpoch
    ++ leBytes 4 (s.rd 0x710).toNat ++ leBytes 4 (s.rd 0x70C).toNat ++ nonce ++ s.sec.almHash ++ s.sec.fwHash ++ Config.shake256 s.mapBytes
    ++ leBytes 8 s.time.frame ++ leBytes 1 s.secState ++ leBytes 1 s.dbgLevel ++ leBytes 1 s.pwr.state ++ leBytes 1 (s.fld 0x104 0 2)
    ++ leBytes 4 (s.rd 0x71C).toNat ++ leBytes 4 ((List.range 1024).filter s.serving).length ++ leBytes 4 s.sec.intrusiveCount ++ leBytes 8 0

/-- GET_REPORT: signed with the attestation key; after its last signature a new key is made (R500, R503). -/
def execGetReport (i3c : Bool) (port : Nat) (nonce : List Byte) (s : State) : Host.Outcome State Fault Refusal :=
  .next (s.attest i3c port (fun t =>
    if nonce.length != 32 then t.emit (.mctp i3c port 4 [])
    else if !t.sec.attReady then t.emit (.mctp i3c port t.noKey [])
    else
      let n := (t.rd 0x714).toNat
      let r := t.report nonce
      let u := (t.wrn 0x714 (n + 1)).emit (.mctp i3c port 0 (r ++ Config.xmssSign t.attSeed 16 n r))
      if n + 1 = 65536 then { u with sec := { u.sec with attReady := false } } else u))

end Sys2Proof.Machine
end

