-- ==== Sys2Proof/Machine/Ephemeris.lean ====
section
/-! DEFINITION. Ephemeris control: loads, the admission check, arming, stopping (R89-R93, R101-R108, R112-R115). The switch and the
stop themselves happen at the frame boundary (Machine/Boundary.lean). -/

namespace Sys2Proof.Machine

/-- Standby state (`EPH_STATE` [6:4]): 0 empty, 1 loading, 2 checking, 3 accepted, 4 rejected, 5 armed. -/
def State.standbyState (s : State) : Nat := s.fld (ephReg 0 0) 4 3

/-- The standby state and `EPH_STANDBY_ID` of every die. -/
def State.setStandby (s : State) (st id : Nat) : State :=
  s.each (List.range 4) (fun d t => (t.wrFld (ephReg d 0) 4 3 st).wrn (ephReg d 8) id)

def State.setStandbyState (s : State) (st : Nat) : State := s.each (List.range 4) (fun d t => t.wrFld (ephReg d 0) 4 3 st)

/-- `ACTIVE` of every die: 0 none, 1 running, 2 stop pending. -/
def State.setActive (s : State) (v id : Nat) : State :=
  s.each (List.range 4) (fun d t => (t.wrFld (ephReg d 0) 0 2 v).wrn (ephReg d 4) id)

/-- Bits of `EPH_EVENTS`: what concerns the loading and arming, which act in die 0's block alone (R101), is latched there; a switch or a stop,
which every die makes, in every die's block. DESIGN CHOICE, unsafe: notes/assumptions/71.md. -/
def State.ephEvent (s : State) (m : Word) : State := s.set (ephReg 0 0x28) m
def State.ephEventAll (s : State) (m : Word) : State := s.each (List.range 4) (fun d t => t.set (ephReg d 0x28) m)

/-- `CMD_IGNORED`. -/
def State.ephIgnored (s : State) : State := s.ephEvent 0x40

/-- The boundary of epoch e is at least 16 frames ahead. DEDUCED, unsafe: notes/assumptions/11.md. -/
def State.leadOk (s : State) (e : Nat) : Bool := s.time.frame + 16 ≤ e * s.epochLen

/-- The first epoch at least 16 frames ahead (R107). DEDUCED, unsafe: notes/assumptions/11.md. -/
def State.nextEpoch (s : State) : Nat := cdiv (s.time.frame + 16) s.epochLen

/-- A target is compared with bits [31:0] of the epoch number (R103). DEDUCED, unsafe: notes/assumptions/11.md. -/
def State.targetEpoch (s : State) (v : Word) : Nat := s.epoch / 2 ^ 32 * 2 ^ 32 + v.toNat

/-- `RT_CTRL.ARM` reads 1 while either arm of a flip is held (R465). -/
def State.rtArmBit (s : State) : State := s.wrFld 0x604 1 1 (if s.eph.rtArm.isSome || s.eph.compArm.isSome then 1 else 0)

/-- The arm ends without a switch, and with it the flip that it armed (R104). DEDUCED, unsafe: notes/assumptions/12.md. -/
def State.endArm (s : State) : State :=
  let s1 := { s with eph := { s.eph with armed := none, compArm := none } }
  (s1.rtArmBit).wrn (ephReg 0 0x20) 0

/-- A load begins (R93, R114); ignored while the standby state is loading, checking or armed (R113). `EPH_STANDBY_ID` reads 0 until the
image has been read. DESIGN CHOICE, unsafe: notes/assumptions/71.md. -/
def State.load (s : State) (src : Source) (start : Bool) : State :=
  let st := s.standbyState
  if st == 1 || st == 2 || st == 5 then s.ephIgnored
  else
    let s1 := { s with eph := { s.eph with source := some src, bytes := [], readFault := false, standby := none, startImage := start } }
    s1.setStandby 1 0

/-- LOAD_POOL: from the pool address of `EPH_SRC`. -/
def State.loadPool (s : State) : State :=
  s.load (.pool ((s.rd (ephReg 0 0x10)).toNat + 2 ^ 32 * (s.rd (ephReg 0 0x14)).toNat)) false

def execLoadPool (port : Nat) (s : State) : Host.Outcome State Fault Refusal :=
  .next (s.reg (.loadPool port) port (ephReg 0 0x18) (·.loadPool))

/-- LOAD_LIBRARY: an index not below `EPH_LIB_COUNT` is ignored. -/
def State.loadLibrary (s : State) (index : Nat) : State :=
  if (s.rd (ephReg 0 0x4C)).toNat ≤ index then s.ephIgnored else s.load (.library index) false

def execLoadLibrary (port index : Nat) (s : State) : Host.Outcome State Fault Refusal :=
  .next (s.reg (.loadLibrary port index) port (ephReg 0 0x18) (·.loadLibrary index))

/-- DISCARD_STANDBY (R113). -/
def State.discardStandby (s : State) : State :=
  if s.standbyState == 5 && !(s.eph.armed.elim true (fun e => s.leadOk e)) then s.ephIgnored
  else if s.standbyState == 0 then s
  else
    let u := s.endArm
    let e := { u.eph with source := none, bytes := [], standby := none, recheck := 0, startImage := false }
    ({ u with eph := e }).setStandby 0 0

def execDiscardStandby (port : Nat) (s : State) : Host.Outcome State Fault Refusal :=
  .next (s.reg (.discardStandby port) port (ephReg 0 0x18) (·.discardStandby))

/-- STOP_ACTIVE (R107); ignored while no image runs. A second one while a stop is pending changes nothing.
DESIGN CHOICE, unsafe: notes/assumptions/71.md. -/
def State.stopActive (s : State) : State :=
  match s.eph.active with
  | none => s.ephIgnored
  | some g =>
    if s.eph.stopAt.isSome then s
    else ({ s with eph := { s.eph with stopAt := some (s.nextEpoch * s.epochLen) } }).setActive 2 g.id

def execStopActive (port : Nat) (s : State) : Host.Outcome State Fault Refusal :=
  .next (s.reg (.stopActive port) port (ephReg 0 0x18) (·.stopActive))

/-- Bytes read for a source, and whether the read met an uncorrectable error or a lost page (R91, R93). -/
def State.imageBytes (s : State) (src : Source) (ue : List Nat) : List Byte × Bool :=
  match src with
  | .library i => (s.alm.library.getD i [], false)
  | .pool a =>
    if s.readCheck ue a 64 != .ok then ([], true)
    else
      let n := le (s.bytes a 64) 0x28 4
      if !lenOk n then (s.bytes a 64, false)
      else if s.readCheck ue a n != .ok then ([], true) else (s.bytes a n, false)

/-- A read of an image from pool memory met an uncorrectable error: it is logged (R546). -/
def State.imageUe (s : State) (src : Source) (ue : List Nat) : State :=
  match src with
  | .library _ => s
  | .pool a =>
    let n := if s.readCheck ue a 64 != .ok then 64 else le (s.bytes a 64) 0x28 4
    s.when (s.readCheck ue a n == .mediaUncorrectable) (fun t =>
      t.fresh.2.errLog 0xC 5 t.fresh.1.toNat noCtx (s.badAt ue a n) 0)

/-- The check ends with a result: `EPH_CHECK_RESULT` and the standby state (R90, R112). DEDUCED, unsafe: notes/assumptions/12.md. -/
def State.checkResult (s : State) (r : Nat × Nat × Nat) : State :=
  s.wrn (ephReg 0 0x1C) (r.1 + 2 ^ 8 * r.2.1 + 2 ^ 10 * r.2.2)

/-- IMAGE_READ_DONE: a good read moves to checking; a failed read is rejected with `READ_FAULT` (R91, R93), and `EPH_STANDBY_ID` reads 0.
DESIGN CHOICE, unsafe: notes/assumptions/71.md. -/
def execImageReadDone (ue : List Nat) (s : State) : Host.Outcome State Fault Refusal :=
  .next (match s.eph.source with
    | some src =>
      if s.standbyState != 1 then s
      else
        let r := s.imageBytes src ue
        if r.2 then
          let t := s.imageUe src ue
          ((({ t with eph := { t.eph with source := none, readFault := true, startImage := false } }).checkResult (0x12, 0, 0)).setStandby 4 0).when
            s.eph.startImage (·.set 0xA0C 1)
        else ({ s with eph := { s.eph with bytes := r.1 } }).setStandby 2 (le r.1 0x0C 4)
    | none => s)

/-- ADMISSION_CHECK_DONE: the image is accepted or rejected (R89-R91). An accepted start image is armed for the first epoch
boundary at least 16 frames ahead (R563). -/
def execAdmissionCheckDone (s : State) : Host.Outcome State Fault Refusal :=
  .next (if s.standbyState != 2 || s.eph.recheck != 0 || s.eph.source.isNone then s
    else
      let r := s.admission s.eph.bytes s.eph.readFault
      let g := parseImage s.eph.bytes
      let s1 := { s with eph := { s.eph with source := none } }
      if r.1 = 0 then
        let s2 := (({ s1 with eph := { s1.eph with standby := some g } }).checkResult r).setStandby 3 g.id
        if s.eph.startImage then
          (({ s2 with eph := { s2.eph with armed := some s2.nextEpoch, startImage := false } }).setStandbyState 5).wrn (ephReg 0 0x20) 1
        else s2
      else ((({ s1 with eph := { s1.eph with startImage := false } }).checkResult r).setStandby 4 g.id).when s.eph.startImage (·.set 0xA0C 1))

/-- The armed version of the composition map holds nothing that R482 refuses. -/
def State.compositionOk (s : State) (v : Nat) : Bool :=
  let w (sl i : Nat) : Word := s.rd (sliceReg v sl (4 * i))
  let valid (sl : Nat) := (w sl 6).getLsbD 24
  let mode (sl : Nat) := nbits (w sl 6).toNat 16 2
  let strict (sl : Nat) := mode sl == 1 || mode sl == 3
  (List.range 64).all (fun a =>
    !valid a || (mode a != 0 && (List.range 64).all (fun b =>
      b ≤ a || !valid b || (!strict a && !strict b)
        || (List.range 6).all (fun i => (w a i &&& w b i) &&& (if i = 1 then 0xFFFF else 0xFFFFFFFF) == 0))))

/-- EPH_ARM: a write of `ARM` 1 (R102-R104, R106). An arm of a composition flip is refused under R482; one that is late and also for another
boundary than a flip armed through `RT_CTRL` is late. DEDUCED, unsafe: notes/assumptions/28.md. DESIGN CHOICE, unsafe: notes/assumptions/71.md. -/
def State.ephArm (t : State) (comp : Bool) : State :=
  let e := t.targetEpoch (t.rd (ephReg 0 0x24))
  if t.eph.armed.isSome || t.standbyState != 3 then t.ephIgnored
  else if !t.leadOk e then (t.ephEvent 0x1).wrn (ephReg 0 0x20) 0
  else if comp && t.eph.rtArm.any (· != e) then t.ephIgnored
  else if comp && !t.compositionOk (1 - t.version) then t.set 0x614 0x4
  else
    let t1 := { t with eph := { t.eph with armed := some e, compArm := if comp then some e else none } }
    (((t1.rtArmBit).setStandbyState 5).wrn (ephReg 0 0x20) (if comp then 3 else 1)).wakeIdle

def execEphArm (port : Nat) (withComposition : Bool) (s : State) : Host.Outcome State Fault Refusal :=
  .next (s.regS (.ephArm port withComposition) port (ephReg 0 0x20) (if withComposition then 3 else 1) (·.ephArm withComposition))

/-- EPH_DISARM: a write of `ARM` 0 (R104). While nothing is armed it stores `WITH_COMPOSITION` alone (R11, R112). -/
def State.ephDisarm (t : State) (comp : Bool) : State :=
  match t.eph.armed with
  | none => t.wrn (ephReg 0 0x20) (if comp then 2 else 0)
  | some e => if t.eph.recheck != 0 || !t.leadOk e then t.ephIgnored else t.endArm.setStandbyState 3

def execEphDisarm (port : Nat) (s : State) : Host.Outcome State Fault Refusal :=
  .next (s.regS (.ephDisarm port) port (ephReg 0 0x20) 0 (·.ephDisarm false))

/-- EPH_ARM_EPOCH_WRITE: discarded while `ARM` reads 1 (R104). -/
def State.ephArmEpoch (s : State) (v : Word) : State := if s.eph.armed.isSome then s.ephIgnored else s.wr (ephReg 0 0x24) v

def execEphArmEpochWrite (port : Nat) (v : Word) (s : State) : Host.Outcome State Fault Refusal :=
  .next (s.regS (.ephArmEpochWrite port v) port (ephReg 0 0x24) v (·.ephArmEpoch v))

/-- RECHECK_DONE: the re-check of R115 ends; a failing image becomes rejected and is disarmed. -/
def execRecheckDone (s : State) : Host.Outcome State Fault Refusal :=
  .next (match s.eph.standby with
    | some g =>
      if s.eph.recheck = 0 then s
      else
        let back := s.eph.recheck
        let s1 := { s with eph := { s.eph with recheck := 0 } }
        match ((periodBad g s.time.units).map (fun p => (3, p.1, p.2))).orElse
            (fun _ => (lengthBad g s.time.epochLog2).map (fun p => (4, p.1, p.2))) with
        | none => s1.setStandbyState back
        | some r => ((s1.endArm.checkResult r).setStandbyState 4).ephEvent 0x80
    | none => s)

end Sys2Proof.Machine
end

