-- ==== Sys2Proof/Machine/Ports.lean ====
section
/-! DEFINITION. Arming of composition flips, control of host and link ports, host requests, expanders and clocks (R26, R32, R48, R441-R449,
R465, R471-R474, R482). -/

namespace Sys2Proof.Machine

-- flips -------------------------------------------------------------------------------------------------------------------

def State.rtBad (s : State) : State := s.set 0x614 0x4

/-- The stored fields of `RT_CTRL`: `RT_DRAIN`. -/
def State.rtStore (s : State) (v : Word) : State := s.wrFld 0x604 8 8 (nbits v.toNat 8 8)

/-- A write of `RT_CTRL` (R465, R471, R482). DEDUCED, unsafe: notes/assumptions/28.md. -/
def State.rtCtrl (s : State) (v : Word) : State :=
  if nbits v.toNat 8 8 < 2 then s.rtBad
  else
    let t := s.rtStore v
    match v.getLsbD 1, s.eph.rtArm with
    | true, some _ => t
    | true, none =>
      let e := s.targetEpoch (s.rd 0x608)
      if s.eph.compArm.any (· != e) then s.rtBad
      else if !s.leadOk e then t.set 0x614 0x2
      else if !s.compositionOk (1 - s.version) then t.rtBad
      else ({ t with eph := { t.eph with rtArm := some e } }).rtArmBit
    | false, some e => if s.leadOk e then ({ t with eph := { t.eph with rtArm := none } }).rtArmBit else s.rtBad
    | false, none => t

def execRtArm (port : Nat) (v : Word) (s : State) : Host.Outcome State Fault Refusal :=
  .next (s.regS (.rtArm port v) port 0x604 (v ||| 2) (·.rtCtrl (v ||| 2)))

def execRtDisarm (port : Nat) (v : Word) (s : State) : Host.Outcome State Fault Refusal :=
  .next (s.regS (.rtDisarm port v) port 0x604 (v &&& ~~~(2 : Word)) (·.rtCtrl (v &&& ~~~(2 : Word))))

/-- A write of `RT_ARM_EPOCH`: discarded while an arm through `RT_CTRL` is held (R465). -/
def State.rtEpoch (s : State) (v : Word) : State := if s.eph.rtArm.isSome then s.rtBad else s.wr 0x608 v

def execRtArmEpochWrite (port : Nat) (v : Word) (s : State) : Host.Outcome State Fault Refusal :=
  .next (s.regS (.rtArmEpochWrite port v) port 0x608 v (·.rtEpoch v))

-- control of ports --------------------------------------------------------------------------------------------------------

/-- A write of `LP_CTRL` (R474): `DISABLE` takes the port down, `RETRAIN` starts training. -/
def State.lpCtrl (s : State) (l : Nat) (v : Word) : State :=
  let t := s.wr (linkBlock l + 4) (v &&& 3)
  let st := s.lpState l
  if v.getLsbD 0 then (if st == 0 then t else t.lpDown l 0)
  else if v.getLsbD 1 && t.mayTrain l then
    let u := t.clr (linkBlock l + 4) 2
    if st == 2 || st == 5 then u.lpRetrain l else u.trainStart l 1
  else t

def execLpDisable (port n : Nat) (s : State) : Host.Outcome State Fault Refusal :=
  .next (s.regS (.lpDisable port n) port (linkBlock n + 4) 1 (·.lpCtrl n 1))

def execLpRetrain (port n : Nat) (s : State) : Host.Outcome State Fault Refusal :=
  .next (s.regS (.lpRetrain port n) port (linkBlock n + 4) 2 (·.lpCtrl n 2))

/-- The Almanac's word of a host port (R553): downstream. -/
def State.downstream (s : State) (n : Nat) : Bool := (s.alm.hostWords.getD n 0).getLsbD 1

/-- The port is used, its reference clock is there and it is not disabled (R32, R472, R553). -/
def State.hpMayTrain (s : State) (n : Nat) : Bool :=
  s.hostRate n != 0 && s.bit 0x14 (12 + n / 4) && !s.bit (hostBlock n + 4) 0 && s.dieTrains (n / 12)

/-- Training of a host port starts, or of the device below a downstream port. -/
def State.hpTrain (s : State) (n : Nat) : State := s.wrFld (hostBlock n) 0 3 (if s.downstream n then 4 else 1)

/-- The device below a downstream port is gone: at the next frame boundary the pages pinned to it are lost (R354, R449). -/
def State.expanderGone (s : State) (n : Nat) : State :=
  let u := 0x80 + n
  if s.tier.units.any (fun x => x.unit == u) && !s.tier.lostUnits.contains u then
    let t : State := { s with tier := { s.tier with units := s.tier.units.filter (fun x => x.unit != u), lostUnits := s.tier.lostUnits ++ [u] } }
    (t.syncUse []).set (hostBlock n + 0xC) 2
  else s

/-- A host port goes down with a state; an expander port loses its device. -/
def State.hpDown (s : State) (n state : Nat) : State := (s.when (s.downstream n) (·.expanderGone n)).hostDown n state

/-- A write of `HP_CTRL` (R447, R472). -/
def State.hpCtrl (s : State) (n : Nat) (v : Word) : State :=
  let b := hostBlock n
  let t := s.wr (b + 4) (v &&& 3)
  let st := s.fld b 0 3
  if v.getLsbD 0 then (if st == 5 then t else t.hpDown n 5)
  else if v.getLsbD 1 && t.hpMayTrain n then
    let u := t.clr (b + 4) 2
    (u.when (st == 2) (·.hpDown n 0)).hpTrain n
  else t

def execHpDisable (port n : Nat) (s : State) : Host.Outcome State Fault Refusal :=
  .next (s.regS (.hpDisable port n) port (hostBlock n + 4) 1 (·.hpCtrl n 1))

def execHpRetrain (port n : Nat) (s : State) : Host.Outcome State Fault Refusal :=
  .next (s.regS (.hpRetrain port n) port (hostBlock n + 4) 2 (·.hpCtrl n 2))

/-- Options of R441. -/
def hostLinkOk (l : HostLink) : Bool :=
  (l.width == 16 || l.width == 8 || l.width == 4)
    && ((l.gen == 1 || l.gen == 2) && 1 ≤ l.rate && l.rate ≤ 3 && !l.flit256 || l.gen == 3 && 1 ≤ l.rate && l.rate ≤ 4 && l.flit256)

/-- `HP_STATUS` of a port trained with l (R473). -/
def State.hpStatus (s : State) (n : Nat) (l : HostLink) : Nat :=
  (if s.downstream n then 4 else 2) + 8 * l.gen + 32 * l.rate + 256 * l.width + 2 ^ 13 * (s.bit (hostBlock n) 13).toNat + 2 ^ 15 * l.flit256.toNat

/-- The memory behind a trained expander port (R331, R449). DESIGN CHOICE, unsafe: notes/assumptions/39.md. -/
def newExpander (n : Nat) (l : HostLink) : UnitFree := { tier := 3, unit := 0x80 + n, free := l.capacity * 4096, up := true }

/-- Host port n comes up with what it negotiated: its HDM size is in force, `TRAINED` and the die's event are latched (R445, R473). -/
def State.hpUp (s : State) (n : Nat) (l : HostLink) : State :=
  let b := hostBlock n
  let t : State := { s with link := { s.link with hdm := (n, s.fld (b + 8) 0 16) :: s.link.hdm.filter (fun p => p.1 != n) } }
  (((t.wrn b (s.hpStatus n l)).set (b + 0xC) 1).set (dieReg (n / 12) 0x14) (BitVec.ofNat 32 (2 ^ (n % 12)))).trace 5 n 0 0

/-- HOST_PORT_TRAINED (R441, R445, R449, R473). -/
def State.hpTrained (s : State) (n : Nat) (l : HostLink) : State :=
  let t := s.hpUp n l
  if s.downstream n && !t.tier.units.any (fun x => x.unit == 0x80 + n) then
    ({ t with tier := { t.tier with units := t.tier.units ++ [newExpander n l] } }).syncUse []
  else t

def execHostPortTrained (n : Nat) (l : HostLink) (s : State) : Host.Outcome State Fault Refusal :=
  .next (
    let st := s.fld (hostBlock n) 0 3
    s.when (s.pwr.phase != .dark && s.hpMayTrain n && hostLinkOk l && (st == 1 || st == 0 || (st == 4 && 2 ≤ l.gen)))
      (·.hpTrained n l))

def execHostPortDown (n : Nat) (s : State) : Host.Outcome State Fault Refusal := .next (s.when (s.hostUp n) (·.hostDown n 0))

def execExpanderLoss (n : Nat) (s : State) : Host.Outcome State Fault Refusal :=
  .next (s.when (s.ready && s.fld (hostBlock n) 0 3 == 4) (·.expanderGone n))

/-- IDE_KEY_PROGRAM: on CXL 2.0 and 3.1 (R441, R442). -/
def execIdeKeyProgram (port : Nat) (key : BitVec 256) (s : State) : Host.Outcome State Fault Refusal :=
  .next (s.when (s.hostUp port && 2 ≤ s.fld (hostBlock port) 3 2) (fun t =>
    ({ t with link := { t.link with ide := (port, key) :: t.link.ide.filter (fun p => p.1 != port) } }).set (hostBlock port) 0x4000))

-- clocks ------------------------------------------------------------------------------------------------------------------

/-- A condition of `MOD_CLK_LOCK` goes from set to clear (R49). -/
def State.clkLost (s : State) (k : Nat) : State :=
  let m : Word := BitVec.ofNat 32 (2 ^ k)
  if s.bit 0x14 k then (s.clr 0x14 m).set 0x18 m else s

def State.clkBack (s : State) (k : Nat) : State := s.set 0x14 (BitVec.ofNat 32 (2 ^ k))

/-- The host ports of a reference-clock group (R26). -/
def groupPorts (g : Nat) : List Nat := [4 * g, 4 * g + 1, 4 * g + 2, 4 * g + 3]

/-- The clock input of a group is missing, or back. -/
def State.setHref (s : State) (g : Nat) (on : Bool) : State :=
  let rest := s.pwr.hrefGone.filter (· != g)
  { s with pwr := { s.pwr with hrefGone := if on then rest else g :: rest } }

/-- HREF_LOSS: the four host ports of the group go down (R32); in Dark the next start finds the reference missing. -/
def execHrefLoss (g : Nat) (s : State) : Host.Outcome State Fault Refusal :=
  .next ((s.setHref g false).when (s.pwr.phase != .dark) (fun t =>
    (t.clkLost (12 + g)).each (groupPorts g) (fun n u => u.when (u.fld (hostBlock n) 0 3 != 5) (·.hpDown n 0))))

/-- HREF_RESTORE: the ports may train again. -/
def execHrefRestore (g : Nat) (s : State) : Host.Outcome State Fault Refusal :=
  .next ((s.setHref g true).when (s.pwr.phase != .dark) (fun t =>
    (t.clkBack (12 + g)).each (groupPorts g) (fun n u => u.when (u.hpMayTrain n && u.fld (hostBlock n) 0 3 == 0) (·.hpTrain n))))

def execPllLockLoss (k : Nat) (s : State) : Host.Outcome State Fault Refusal := .next (s.when (s.pwr.phase != .dark) (·.clkLost k))
def execPllRelock (k : Nat) (s : State) : Host.Outcome State Fault Refusal := .next (s.when (s.pwr.phase != .dark) (·.clkBack k))

-- host requests -----------------------------------------------------------------------------------------------------------

/-- The window that serves a device physical address (R444), by the table in force. -/
def State.windowOf (s : State) (n dpa : Nat) : Option Nat :=
  (List.range 16).find? (fun w =>
    let b := hostBlock n + 0x100 + 16 * w
    let base := s.ffld b 0 16 * 2 ^ 28
    s.fbit (b + 0xC) 14 && decide (base ≤ dpa) && decide (dpa < base + s.ffld b 16 16 * 2 ^ 28))

/-- Pool address, context, class of an address in window w. -/
def State.windowAddr (s : State) (n w dpa : Nat) : Nat :=
  let b := hostBlock n + 0x100 + 16 * w
  (s.frd (b + 4)).toNat + 2 ^ 32 * (s.frd (b + 8)).toNat + dpa - s.ffld b 0 16 * 2 ^ 28
def State.windowCtx (s : State) (n w : Nat) : Nat := s.ffld (hostBlock n + 0x10C + 16 * w) 0 10
def State.windowCls (s : State) (n w : Nat) : Nat := s.ffld (hostBlock n + 0x10C + 16 * w) 10 3
def State.windowRo (s : State) (n w : Nat) : Bool := s.fbit (hostBlock n + 0x10C + 16 * w) 13

/-- A request accepted at a host port: its window, what the window and the port allow, and then `f` with window, context and pool
address (R444, R446, R483, R509). DEDUCED, unsafe: notes/assumptions/40.md. -/
def State.hostReq (s : State) (i : Instr) (n dpa kind : Nat) (ideOk write : Bool) (f : Nat → Nat → Nat → State → State) : State :=
  if s.ready && s.fld (hostBlock n) 0 3 == 4 then s.pviol n
  else if !s.hostUp n then s
  else s.served i (fun t =>
    if t.bit (hostBlock n) 14 && !ideOk then t.set (hostBlock n + 0xC) 8
    else match t.windowOf n dpa with
    | none => (t.set (hostBlock n + 0xC) 0x10).hostEnd n dpa 0 kind .addrFault [] 0
    | some w =>
      let x := t.windowCtx n w
      let a := t.windowAddr n w dpa
      let st := ((t.ctxCheck x).worst (t.portCheck (.host n) x 0)).worst (if write && t.windowRo n w then .permission else .ok)
      if st != .ok then t.hostEnd n dpa w kind st [] 0 else f w x a t)

/-- A request for a page of another module: sent, to every member of a group for a write; it ends when every answer is there. -/
def State.hostAway (s : State) (n dpa w kind x a : Nat) (m : Msg) : State :=
  let r := s.routeOf s.version (a / 2 ^ 21)
  let group := match r with
    | .group _ _ => true
    | _ => false
  let ts := s.targets r
  if (group && kind != 1) || ts.any (fun t => (s.linkTo s.version n t.1 x (s.windowCls n w) (a / 2 ^ 21)).isNone) then
    s.hostEnd n dpa w kind .addrFault [] 0
  else if ts.isEmpty then s.hostEnd n dpa w kind .ok [] 0
  else s.each ts (fun t u =>
    let q : Msg := { m with
      cls := u.windowCls n w
      mcast := t.2.1
      dst := t.1
      group := if t.2.1 then t.2.2 else 0
      ctx := x
      gen := u.ctxGen x
      addr := a
      label := a / 2 ^ 21 }
    u.ask u.version n q (.host n dpa w kind))

/-- A host request that this module's homes serve: those of shared pages, and every atomic. DEDUCED, unsafe: notes/assumptions/40.md. -/
def State.hostHome (s : State) (n dpa w x a : Nat) (k : ReqKind) : State :=
  s.homeReq { line := a / 64, agent := .host n, ctx := x, kind := k, via := .host dpa w }

/-- MEM_READ (R444, R446). -/
def execMemRead (port dpa : Nat) (ideOk : Bool) (ue : List Nat) (s : State) : Host.Outcome State Fault Refusal :=
  .next (s.hostReq (.memRead port dpa ideOk ue) port dpa 0 ideOk false (fun w x a t =>
    if !(t.routeOf t.version (a / 2 ^ 21)).isHere then t.hostAway port dpa w 0 x a { kind := 0x01, sub := 64 }
    else if t.lineDom (a / 64) != 0 then
      let bad := ue.contains (a / 64) && !t.poison.contains (a / 64)
      let t1 : State := if bad then { t with poison := t.poison ++ [a / 64] } else t
      t1.hostHome port dpa w x a .rdCur
    else
      let st0 := t.mapCheck x false a 64
      let st := if st0 == .ok then t.readCheck ue a 64 else st0
      if st != .ok then (t.mediaOf port x a st).hostEnd port dpa w 0 st [] 0
      else (t.mark a 64).hostEnd port dpa w 0 .ok (t.bytes a 64) 0))

/-- MEM_WRITE (R444, R446, R356, R385): MemWr of a whole line, or MemWrPtl of the enabled bytes. A write of a steered range goes to its reduce
unit, and a part of a line is discarded there (R220). A part of a line cannot leave for another module (R456), and finds no poisoned line to
complete (R428). DEDUCED, unsafe: notes/assumptions/40.md. -/
def execMemWrite (port dpa : Nat) (data : List Byte) (enable : BitVec 64) (ideOk : Bool) (s : State) : Host.Outcome State Fault Refusal :=
  let i : Instr := .memWrite port dpa data enable ideOk
  let whole := enable == BitVec.allOnes 64
  .next (s.hostReq i port dpa 1 ideOk true (fun w x a t =>
    if !(t.routeOf t.version (a / 2 ^ 21)).isHere then
      (if whole then t.hostAway port dpa w 1 x a { kind := 0x03, payload := data } else t.hostEnd port dpa w 1 .addrFault [] 0)
    else if !(t.steered x a data.length).isEmpty then
      let r := t.steer x a (if whole then data else data.take 1) false
      (r.1.wakeIdle).hostEnd port dpa w 1 r.2 [] 0
    else t.cacheHold i a 64 (fun t =>
      if t.lineDom (a / 64) != 0 then t.hostHome port dpa w x a (if whole then .wrLine data else .wrMask enable data)
      else
        let st := (t.mapCheck x true a 64).worst (if !whole && t.poison.contains (a / 64) then .mediaUncorrectable else .ok)
        if st != .ok then t.hostEnd port dpa w 1 st [] 0
        else
          let r := t.save x a (if whole then data else maskLine enable data (t.bytes a 64))
          (r.1.mediaOf port x a r.2).hostEnd port dpa w 1 r.2 [] 0)))

/-- ATOMICOP (R443): FetchAdd, Swap and CAS; any other request to BAR 4 is an Unsupported Request. -/
def execAtomicOp (port dpa : Nat) (op : Atomic) (s : State) : Host.Outcome State Fault Refusal :=
  .next (
    if !(op.code == 0 || op.code == 8 || op.code == 9) || op.posted then
      s.when (s.hostUp port) (·.served (.atomicOp port dpa op) (fun t => (t.pviol port).emit (.unsupported port)))
    else s.hostReq (.atomicOp port dpa op) port dpa 2 true true (fun w x a t =>
      if !(t.routeOf t.version (a / 2 ^ 21)).isHere then
        t.hostAway port dpa w 2 x a { kind := 0x05, sub := op.code + 16 * op.size,
                                      payload := leBytes 16 op.operand ++ (if op.code = 9 then leBytes 16 op.swap else []) }
      else t.cacheHold (.atomicOp port dpa op) a 1 (·.hostHome port dpa w x a (.atom (a % 64) op))))

/-- The host masks or unmasks an MSI-X vector of function 0 of its port: a message that was pending leaves when it is unmasked (R147).
DESIGN CHOICE, unsafe: notes/assumptions/70.md. -/
def State.msixMask (s : State) (port vector : Nat) (on : Bool) : State :=
  let k := (port, vector)
  let rest := s.link.masked.filter (· != k)
  if on then { s with link := { s.link with masked := k :: rest } }
  else
    let t : State := { s with link := { s.link with masked := rest, pend := s.link.pend.filter (· != k) } }
    t.when (s.link.pend.contains k) (·.msix port vector)

/-- CONFIG_REQUEST: before MOD_READY it completes with Configuration Request Retry Status (R561). Later it is the CXL function's: what it does
to the MSI-X masks, on which R147 depends, is its operand. DESIGN CHOICE, unsafe: notes/assumptions/70.md. -/
def execConfigRequest (port : Nat) (mask : Option (Nat × Bool)) (s : State) : Host.Outcome State Fault Refusal :=
  .next (
    if s.pwr.phase == .starting then s.when (s.fld (hostBlock port) 0 3 == 2) (·.emit (.retryStatus port))
    else match mask with
      | some m => s.when (s.ready && s.hostUp port) (·.msixMask port m.1 m.2)
      | none => s)

end Sys2Proof.Machine
end

