-- ==== Sys2Proof/Machine/Time.lean ====
section
/-! DEFINITION. Network time and the frame registers (R56-R75): PTP messages, holdover, `MER_CTRL` writes, reads of the frame
number. The frame boundary itself is in Machine/Boundary.lean. -/

namespace Sys2Proof.Machine

/-- `MER_STATUS.TIME_STATE` (R61): 0 FREE, 1 LOCKING, 2 LOCKED, 3 HOLDOVER. -/
def State.timeState (s : State) : Nat := s.fld 0x104 0 2

/-- Some die runs an Ephemeris. -/
def State.runsEph (s : State) : Bool := s.eph.active.isSome

/-- `MER_OFFSET` of an offset in ns (R69): two's complement, saturated. DESIGN CHOICE, unsafe: notes/assumptions/10.md. -/
def merOffset (o : Int) : Word := BitVec.ofInt 32 (max (-(2 ^ 31 - 1)) (min (2 ^ 31 - 1) o))

/-- Frame period in ns (R56). -/
def State.periodNs (s : State) : Nat := 125 * s.time.units

/-- Local time in ns: a cycle of ACLK is 5/9 ns (R31). -/
def State.localNs (s : State) : Nat := s.now * 5 / 9

/-- Valid time received (R61): `net` is the network time at the start of the current frame. From FREE and HOLDOVER the state becomes LOCKING,
and from LOCKING, once the offset is within 100 ns, LOCKED; with the events of R75. DESIGN CHOICE, unsafe: notes/assumptions/10.md. -/
def State.ptp (s : State) (net : Nat) (o : Int) : State :=
  let timed := s.timeState == 1 || s.timeState == 2
  let lock := timed && decide (o.natAbs ≤ 100)
  let s1 := { s with time := { s.time with net := net, offset := o } }
  let s2 := (s1.wr 0x110 (merOffset o)).wrFld 0x104 0 2 (if lock then 2 else 1)
  let s3 := s2.when (lock && s.timeState != 2) (·.set 0x114 0x2)
  s3.when (decide (1000 < o.natAbs) && s.runsEph) (·.set 0x114 0x10)

/-- The network time that the last Sync stands for now, and the grid's offset from it: the grid's own time is `frame` periods and what has
passed of the frame (R57, R69). DESIGN CHOICE, unsafe: notes/assumptions/10.md. -/
def State.discipline (s : State) : State :=
  match s.time.sync with
  | none => s
  | some r =>
    let into := s.time.cycle * 5 / 9
    let net := r.1 + s.time.delay + (s.localNs - r.2)
    s.ptp (net - into) (((s.time.frame * s.periodNs + into : Nat) : Int) - net)

/-- A Sync is complete with its origin time: it is valid time, and a delay request leaves (R60, R61).
DESIGN CHOICE, unsafe: notes/assumptions/10.md. -/
def State.ptpSync (s : State) (origin arrival : Nat) : State :=
  let t : State := { s with time := { s.time with syncAt := none, sync := some (origin, arrival), reqAt := some s.localNs } }
  (t.emit (.delayReq (s.fld 0x118 0 7) (s.fld 0x118 8 1))).discipline

/-- The mean path delay of a Sync (t1, t2) and a delay request (t3, t4): half the two-way delay (R60). -/
def pathDelay (t1 t2 t3 t4 : Nat) : Nat := ((((t2 : Int) - t1) + ((t4 : Int) - t3)) / 2).toNat

/-- The messages of a slave-only clock (R60): a one-step Sync, a two-step Sync and its Follow_Up, the response to a delay request. -/
def State.ptpTake (s : State) (m : PtpMsg) : State :=
  match m with
  | .sync false origin => s.ptpSync origin s.localNs
  | .sync true _ => { s with time := { s.time with syncAt := some s.localNs } }
  | .followUp origin =>
    (match s.time.syncAt with
      | some a => s.ptpSync origin a
      | none => s)
  | .delayResp received =>
    (match s.time.sync, s.time.reqAt with
      | some r, some q =>
        ({ s with time := { s.time with reqAt := none, delay := pathDelay r.1 r.2 q received } }).discipline
      | _, _ => s)

/-- PTP_MESSAGE: a message of the configured domain and transport disciplines the timebase (R60). -/
def execPtpMessage (domain transport : Nat) (m : PtpMsg) (s : State) : Host.Outcome State Fault Refusal :=
  .next (s.when (s.ready && domain == s.fld 0x118 0 7 && transport == s.fld 0x118 8 1) (·.ptpTake m))

/-- HOLDOVER_TIMEOUT: 2 s without valid time after LOCKING or LOCKED (R61). -/
def execHoldoverTimeout (s : State) : Host.Outcome State Fault Refusal :=
  .next (s.when (s.ready && (s.timeState == 1 || s.timeState == 2)) (fun t => (t.wrFld 0x104 0 2 3).set 0x114 0x1))

/-- The ranges of R70. -/
def merCtrlOk (v : Word) : Bool :=
  let u := nbits v.toNat 0 9
  let l := nbits v.toNat 16 5
  8 ≤ u && u ≤ 256 && 4 ≤ l && l ≤ 16

/-- A write of `MER_CTRL` becomes pending, or is discarded as a whole (R71). -/
def State.merCtrl (s : State) (port : Nat) (v : Word) : State :=
  if merCtrlOk v then (s.plainWrite port 0x100 v).set 0x104 0x4 else s.set 0x114 0x8

/-- MER_CTRL_WRITE. -/
def execMerCtrlWrite (port : Nat) (v : Word) (s : State) : Host.Outcome State Fault Refusal :=
  .next (s.regS (.merCtrlWrite port v) port 0x100 v (·.merCtrl port v))

/-- MER_FRAME_LO_READ: the low word is answered and the high word captured for the port (R74). -/
def execMerFrameLoRead (port : Nat) (s : State) : Host.Outcome State Fault Refusal :=
  .next (s.reg (.merFrameLoRead port) port 0x108 (fun t =>
    let t1 := { t with time := { t.time with
      capture := (port, BitVec.ofNat 32 (t.time.frame / 2 ^ 32)) :: t.time.capture.filter (fun p => p.1 != port) } }
    t1.emit (.regData port (BitVec.ofNat 64 (t.time.frame % 2 ^ 32)))))

end Sys2Proof.Machine
end

