-- ==== Sys2Proof/Machine/Start.lean ====
section
/-! DEFINITION. Start, power and pins: the Almanac image and its checks (R549-R559), the start (R560-R563), the NOR and its update
(R564-R568), input power, power states and thermal limits (R569-R578), the pins (R579-R582), Dark and module reset (R514, R534, R545). -/

namespace Sys2Proof.Machine

-- Dark and module reset ---------------------------------------------------------------------------------------------------

/-- The first n 64 KiB sectors of the Almanac region hold the verified copy. DEDUCED, unsafe in part: notes/assumptions/53.md. -/
def State.norProgram (s : State) (n : Nat) : State :=
  (s.each (List.range n) (fun k t => t.norErase k)).norPut 0 (s.alm.copy.take (n * 65536))

/-- 64 KiB sectors of the verified copy. -/
def State.copySectors (s : State) : Nat := cdiv s.alm.copy.length 65536

/-- An update stops in a sector: those before it are written, it holds anything, the rest is as it was (R567). The state and the sectors
written. DEDUCED, unsafe in part: notes/assumptions/53.md. -/
def State.norPartial (s : State) : State × Nat :=
  let f := s.fresh
  let k := f.1.toNat % max 1 s.copySectors
  let t := f.2.norProgram k
  let g := t.freeBytes 65536
  ((g.2.norErase k).norPut (k * 65536) g.1, k)

/-- `ALM_UPD_STATUS.STATE`. -/
def State.updState (s : State) : Nat := s.fld 0xA20 0 3

/-- Registers that Dark keeps: those of the standby domain, and what the metadata of flash trays says (R545).
DEDUCED, unsafe: notes/assumptions/51.md. -/
def State.keptRegs (s : State) : List (Nat × Word) :=
  s.regs.filter (fun r => r.1 == 0x80C || r.1 == 0xA00 || r.1 == 0xA08 || r.1 == 0x92C
    || (0x30000 ≤ r.1 && r.1 < 0x31000 && r.1 % 0x40 != 0))

/-- A NOR request takes effect in Dark: the xSPI pins are released, then the grant falls (R565).
DEDUCED, unsafe: notes/assumptions/51.md. -/
def State.norGrant (s : State) : State := { s with pwr := { s.pwr with xspiDriven := false, norGrantN := false } }

/-- The module is in Dark: what the standby domain, the fuses, the NOR and the trays' metadata hold is left (R514, R545).
DEDUCED, unsafe: notes/assumptions/51.md. -/
def State.dark (s : State) : State :=
  let t := if s.updState == 3 then s.norPartial.1 else s
  let sec : SecS := { SecS.reset with
    bootEpoch := t.sec.bootEpoch
    idCounter := t.sec.idCounter
    almFloor := t.sec.almFloor
    fuseSealed := t.sec.fuseSealed }
  let pwr : PwrS := { PwrS.reset with
    vinMv := t.pwr.vinMv
    pwrEn := t.pwr.pwrEn
    resetN := t.pwr.resetN
    norReqN := t.pwr.norReqN
    norGrantN := true
    hrefGone := t.pwr.hrefGone
    faultN := t.pwr.faultN
    shutdown := t.pwr.shutdown
    failReason := t.pwr.failReason
    resetCause := t.pwr.resetCause
    standby := t.pwr.standby
    refused := t.pwr.refused
    wasReset := t.pwr.wasReset
    tapIr := t.pwr.tapIr
    tapData := t.pwr.tapData }
  let u : State := { State.reset with
    pending := t.pending
    regs := t.keptRegs
    sec := sec
    alm := { AlmS.reset with nor := t.alm.nor }
    flash := { t.flash with held := [] }
    pwr := pwr
    out := t.out
    freeCtr := t.freeCtr }
  u.when (!u.pwr.norReqN) (·.norGrant)

/-- Dark with the rails off: the test access port is off as well, and starts at IDCODE. -/
def State.railsOff (s : State) : State :=
  let t := s.dark
  { t with pwr := { t.pwr with tapIr := 1, tapData := 0 } }

/-- A module reset with a cause (R534): the start sequence runs again. DEDUCED, unsafe: notes/assumptions/47.md. -/
def State.moduleReset (s : State) (cause : Nat) : State :=
  let t := { s with pwr := { s.pwr with resetCause := cause, wasReset := true, refused := false } }
  (t.wrn 0x80C cause).dark

/-- A shutdown (R570), or OFF with cause 0: Dark, with the cause latched. After an under-voltage the input's return is a new edge of R560;
after any other cause the conditions still hold, so the module waits for one. -/
def State.shutdown (s : State) (cause : Nat) : State :=
  let p := { s.pwr with
    shutdown := cause
    resetCause := if cause = 0 then 0 else 5
    wasReset := s.pwr.wasReset || cause != 0
    refused := cause != 1
    faultN := false }
  (({ s with pwr := p }).wrn 0x92C cause).railsOff

-- the Almanac image -------------------------------------------------------------------------------------------------------

/-- `n` bytes from `a` of an image, and as a number. -/
def almBytes (f : Nat → Byte) (a n : Nat) : List Byte := (List.range n).map (fun i => f (a + i))
def almNat (f : Nat → Byte) (a n : Nat) : Nat := leNat (almBytes f a n)

def almLen (f : Nat → Byte) : Nat := almNat f 8 4
def almRollback (f : Nat → Byte) : Nat := almNat f 12 2

/-- The section table: type, offset, length. -/
def almTable (f : Nat → Byte) : List (Nat × Nat × Nat) :=
  (List.range 6).map (fun i => (almNat f (0x80 + 16 * i) 2, almNat f (0x84 + 16 * i) 4, almNat f (0x88 + 16 * i) 4))

/-- Offset and length of the section of a type. -/
def almSec (f : Nat → Byte) (t : Nat) : Nat × Nat := ((almTable f).find? (fun e => e.1 == t)).elim (0, 0) (·.2)
def almOff (f : Nat → Byte) (t : Nat) : Nat := (almSec f t).1

/-- `FW_LEN`. -/
def fwLen (f : Nat → Byte) : Nat := almNat f (almOff f 6 + 68) 4

/-- A section has the length that its layout needs (R552, R553). DEDUCED, unsafe: notes/assumptions/52.md. -/
def secLenOk (f : Nat → Byte) (t n : Nat) : Bool :=
  match t with
  | 1 => n == 64
  | 2 => 33792 ≤ n
  | 3 => 8192 ≤ n
  | 4 => 1600 ≤ n
  | 5 => 576 ≤ n
  | 6 => 128 + fwLen f + 2820 ≤ n
  | _ => false

/-- `FORMAT` (R551, R552, R556): every type appears once, at a multiple of 64 B, within the image, overlapping nothing.
DEDUCED, unsafe: notes/assumptions/52.md. -/
def almFormatOk (f : Nat → Byte) : Bool :=
  let l := almTable f
  almNat f 0 4 == 0x4C41475A && almNat f 4 2 == 1 && almLen f % 64 == 0 && almLen f + 2820 ≤ 0x0FF00000 && almNat f 14 2 == 6
    && [1, 2, 3, 4, 5, 6].all (fun t => l.any (fun e => e.1 == t))
    && l.all (fun e => e.2.1 % 64 == 0 && 256 ≤ e.2.1 && e.2.1 + e.2.2 ≤ almLen f && secLenOk f e.1 e.2.2)
    && disjoint (l.map (·.2))

/-- The public key at `a` is the one fused as `h`, and its signature verified (R555). -/
def keyOk (f : Nat → Byte) (a : Nat) (h : List Byte) (sigOk : Bool) : Bool := Config.shake256 (almBytes f a 68) == h && sigOk

/-- Host-port and link-port words (R553). -/
def hostWord (f : Nat → Byte) (n : Nat) : Nat := almNat f (almOff f 2 + 64 + 4 * n) 4
def linkWord (f : Nat → Byte) (n : Nat) : Nat := almNat f (almOff f 2 + 256 + 4 * n) 4
def merInit (f : Nat → Byte) : Word := BitVec.ofNat 32 (almNat f (almOff f 2) 4)
def ptpInit (f : Nat → Byte) : Word := BitVec.ofNat 32 (almNat f (almOff f 2 + 4) 4)
def lockWaitOf (f : Nat → Byte) : Nat := almNat f (almOff f 2 + 8) 2
def startImageOf (f : Nat → Byte) : Nat := almNat f (almOff f 2 + 10) 1
def mirrorWord (f : Nat → Byte) (r i : Nat) : Nat := almNat f (almOff f 2 + 512 + 16 * r + 4 * i) 4
def routeWord (f : Nat → Byte) (i : Nat) : Word := BitVec.ofNat 32 (almNat f (almOff f 2 + 1024 + 4 * i) 4)

/-- Word i of slice sl's entry, `SLICE_W`, a tray group, a slice share, images of the library (R552). -/
def sliceWord (f : Nat → Byte) (sl i : Nat) : Word := BitVec.ofNat 32 (almNat f (almOff f 3 + 128 * sl + 4 * i) 4)
def sliceWeight (f : Nat → Byte) (sl : Nat) : Nat := almNat f (almOff f 3 + 128 * sl + 64) 1
def trayGroupOf (f : Nat → Byte) (g : Nat) : Nat × Nat × List Nat :=
  let a := almOff f 4 + 64 + 32 * g
  let ms := (List.range 16).map (fun i => almNat f (a + 16 + i) 1)
  (almNat f a 1 % 4, almNat f (a + 1) 1, (List.range 64).filter ms.contains)
def shareWord (f : Nat → Byte) (sl i : Nat) : Nat := almNat f (almOff f 4 + 576 + 16 * sl + 4 * i) 4
def libCount (f : Nat → Byte) : Nat := almNat f (almOff f 5) 4
def libImage (f : Nat → Byte) (i : Nat) : List Byte :=
  let a := almOff f 5
  let o := almNat f (a + 64 + 8 * i) 4
  almBytes f (a + o) (min (almNat f (a + 68 + 8 * i) 4) ((almSec f 5).2 - o))

/-- Bits of a routing word that have a meaning, by the register table (R462). -/
def routeMask (i : Nat) : Word := (regInfo (routeReg 0 (4 * i))).rws

/-- Reserved fields and values of an image (R10, R551-R554). -/
def almReservedOk (f : Nat → Byte) : Bool :=
  let zero (a n : Nat) := (List.range n).all (fun i => f (a + i) == 0)
  let ident := almOff f 1
  let tiers := almOff f 4
  let mode := almNat f tiers 1
  almNat f 6 2 < 2 && zero 0x54 44 && zero 0xE0 32 && (List.range 6).all (fun i => zero (0x82 + 16 * i) 2 && zero (0x8C + 16 * i) 4)
    && zero (ident + 1) 3 && zero (ident + 8) 24
    && (ptpInit f &&& ~~~(0x17F : Word)) == 0 && lockWaitOf f ≤ 60000
    && (List.range 48).all (fun n => hostWord f n < 32 && nbits (hostWord f n) 2 3 ≤ 4)
    && (List.range 64).all (fun n => nbits (linkWord f n) 2 2 != 3 && nbits (linkWord f n) 4 4 == 0 && linkWord f n < 2 ^ 16)
    && (List.range 16).all (fun r => mirrorWord f r 0 < 2 ^ 31 && mirrorWord f r 1 < 2 ^ 31 && mirrorWord f r 2 < 2 ^ 11)
    && (List.range 4096).all (fun i => (routeWord f i &&& ~~~routeMask i) == 0) && zero (almOff f 2 + 0x4400) 0x4000
    && (List.range 64).all (fun sl => 1 ≤ sliceWeight f sl && zero (almOff f 3 + 128 * sl + 65) 63
      && (List.range 16).all (fun i => (sliceWord f sl i &&& ~~~(regInfo (sliceReg 0 sl (4 * i))).rws) == 0))
    && (mode == 1 || mode == 2)
    && (List.range 16).all (fun g => almNat f (tiers + 64 + 32 * g) 1 ≤ 2 && almNat f (tiers + 65 + 32 * g) 1 < 64
      && (List.range 16).all (fun i => let m := almNat f (tiers + 80 + 32 * g + i) 1; m < 64 || m == 0xFF))
    && libCount f ≤ 64

/-- The slices break R482, or none does. -/
def almSlicesOk (f : Nat → Byte) : Bool :=
  let loaded := State.reset.each (List.range 64) (fun sl t => t.each (List.range 7) (fun i u => u.wr (sliceReg 0 sl (4 * i)) (sliceWord f sl i)))
  loaded.compositionOk 0

/-- `CONTENT` (R554). DEDUCED, unsafe: notes/assumptions/52.md. -/
def almContentOk (f : Nat → Byte) : Bool :=
  let groups := (List.range 16).map (trayGroupOf f)
  let used := groups.filter (fun g => g.1 != 0)
  let regions := ((List.range 16).filter (fun r => (mirrorWord f r 2).testBit 8)).map (fun r => (mirrorWord f r 0, mirrorWord f r 1 + 1 - mirrorWord f r 0))
  almReservedOk f && merCtrlOk (merInit f) && (startImageOf f == 0xFF || decide (startImageOf f < libCount f))
    && (List.range 48).any (fun n => (hostWord f n).testBit 0)
    && (List.range 48).all (fun n => !((hostWord f n).testBit 0 && (hostWord f n).testBit 1))
    && (List.range 64).all (fun n => !(linkWord f n).testBit 1 || nbits (linkWord f n) 2 2 != 0)
    && used.all (fun g => g.2.2.all (fun l => (linkWord f l).testBit 1 && nbits (linkWord f l) 2 2 == g.1))
    && (used.flatMap (·.2.2)).Nodup && almSlicesOk f && disjoint regions

/-- The checks of R556 from FORMAT to CONTENT, in order: the reason, 0 for none. -/
def almCheck (f : Nat → Byte) (floor : Nat) (sigAlm sigFw : Bool) : Nat :=
  if !almFormatOk f then 2
  else if !keyOk f 0x10 Config.almKeyHash sigAlm then 3
  else if !keyOk f (almOff f 6) Config.fwKeyHash sigFw then 4
  else if almRollback f < floor then 5
  else if !almContentOk f then 6 else 0

-- start -------------------------------------------------------------------------------------------------------------------

/-- The start fails (R556, R564). -/
def State.startFail (s : State) (reason : Nat) : State :=
  let t := s.dark
  ({ t with pwr := { t.pwr with failReason := reason, refused := true, faultN := false } }).wrn 0xA00 reason

/-- A journal record whose tag fails, or whose index is not below `ID_COUNTER` (R499). DEDUCED, unsafe: notes/assumptions/67.md. -/
def State.journalBad (s : State) : Bool :=
  let slots := ((s.alm.nor.filter (fun b => 0x0FF00000 ≤ b.1 && b.1 < 0x0FF80000)).map (fun b => (b.1 - 0x0FF00000) / 128)).eraseDups
  slots.any (fun k =>
    let r := almBytes s.norByte (0x0FF00000 + 128 * k) 128
    let head := r.take 36
    (r.drop 36).take 32 != Config.kmac256 (Config.kmac256 Config.idSeed [] 256 "GS-Z-JRN") head 256 "GS-Z-JRN"
      || decide (s.sec.idCounter ≤ leNat (head.take 4)))

/-- Bit set of the numbers below n that satisfy p. -/
def bitSet (n : Nat) (p : Nat → Bool) : Nat := ((List.range n).filter p).foldl (fun a i => a + 2 ^ i) 0

/-- Registers that the Almanac sets (R551-R553, R568). -/
def State.almRegs (s : State) (f : Nat → Byte) : State :=
  let ztl (l : Nat) := (linkWord f l).testBit 1
  let n := ((List.range 64).filter ztl).length
  let s1 := (((s.wrn 0xA00 (2 ^ 16 * almRollback f)).wrn 0xA04 (almLen f)).wrn 0xA08 s.sec.almFloor).wrn 0x600 (almNat f (almOff f 1) 1)
  let s2 := ((((s1.wrn 0x740 (almNat f (almOff f 1 + 4) 4)).wr 0x100 (merInit f)).wrn 0x104 8).wr 0x118 (ptpInit f)).wrn 0x300 (almNat f (almOff f 4) 1)
  let s3 := (s2.wrn 0x1C (n + 2 ^ 8 * (64 - n))).wrn (ephReg 0 0x4C) (libCount f)
  let s4 := s3.each (List.range 4) (fun d t =>
    (t.wrn (dieReg d 8) (0xF - 2 ^ d)).wrn (dieReg d 0x10) (bitSet 16 (fun j => ztl (16 * d + j))))
  let s5 := s4.each (List.range 64) (fun l t => t.wrn (linkBlock l) (if ztl l then 8 else 0))
  let s6 := s5.each (List.range 48) (fun p t => t.wrn (hostBlock p) (if (hostWord f p).testBit 0 then 2 ^ 13 else 0))
  let s7 := s6.each (List.range 16) (fun r t => t.each [0, 1, 2] (fun i u => u.wrn (mirrorReg r (4 * i)) (mirrorWord f r i)))
  let s8 := s7.each [0, 1] (fun v t => t.each (List.range 4096) (fun i u => u.wr (routeReg v (4 * i)) (routeWord f i)))
  let s9 := s8.each [0, 1] (fun v t => t.each (List.range 64) (fun sl u => u.each (List.range 7) (fun i w =>
    w.wr (sliceReg v sl (4 * i)) (sliceWord f sl i))))
  s9.each (List.range 64) (fun sl t => t.each [0, 1, 2] (fun i u => u.wrn (shareReg sl (4 * i)) (shareWord f sl i)))

/-- What the Almanac gives beyond registers. -/
def State.almLoad (s : State) (f : Nat → Byte) : State :=
  let alm : AlmS := { s.alm with
    library := (List.range (libCount f)).map (libImage f)
    startImage := startImageOf f
    lockWait := lockWaitOf f
    hostWords := (List.range 48).map (fun p => BitVec.ofNat 32 (hostWord f p))
    linkWords := (List.range 64).map (fun l => BitVec.ofNat 32 (linkWord f l))
    sliceW := (List.range 64).map (sliceWeight f)
    groups := (List.range 16).map (trayGroupOf f) }
  let c := merInit f
  let sec : SecS := { s.sec with
    almHash := Config.shake256 (almBytes f 0 (almLen f))
    fwHash := Config.shake256 (almBytes f (almOff f 6 + 128) (fwLen f)) }
  let time : TimeS := { s.time with units := nbits c.toNat 0 9, epochLog2 := nbits c.toNat 16 5 }
  ({ s with alm := alm, sec := sec, time := time }).almRegs f

/-- `MOD_CLK_LOCK` at a start: every PLL locked, the references that are there (R32, R48, R560). -/
def State.clocksOk (s : State) : Nat := 0xFFF + 2 ^ 12 * bitSet 12 (fun g => !s.pwr.hrefGone.contains g)

/-- Registers take their state of the start: security, clocks, dies, reset cause (R46-R48, R509, R516, R545).
DEDUCED, unsafe: notes/assumptions/52.md. -/
def State.startRegs (s : State) : State :=
  let cause := if s.pwr.shutdown != 0 then 5 else s.pwr.resetCause
  let s1 := (((s.wrn 0x10 0x3333).wrn 0x14 s.clocksOk).wrn 0x80C cause).wrn 0x92C s.pwr.shutdown
  let s2 := ((s1.wrn 0x700 (if s.sec.fuseSealed then 1 else 0)).wrn 0x708 s.sec.bootEpoch).idSync
  (s2.when (s.journalBad) (·.set 0x718 0x10)).when s.pwr.wasReset
    (·.errLogOpen 9 noCtx 0 (if s.pwr.shutdown != 0 then s.pwr.shutdown else cause))

/-- Every check passed (R557, R558, R561): the floor rises, the Almanac's settings are in force, host ports train. -/
def State.startGo (s : State) (f : Nat → Byte) : State :=
  let floor := if (f 6).getLsbD 0 then max s.sec.almFloor (almRollback f) else s.sec.almFloor
  let t : State := { s with sec := { s.sec with almFloor := floor }, pwr := { s.pwr with phase := .starting, faultN := true, failReason := 0 } }
  let u := (t.almLoad f).startRegs
  let v : State := { u with force := u.regs }
  v.each ((List.range 48).filter v.hpMayTrain) (fun n w => w.hpTrain n)

/-- MODULE_START. The standby domain runs; `SYSCLK` and `EPOCH_EXHAUSTED` are checked before the NOR is read (R556, R560).
DEDUCED, unsafe: notes/assumptions/52.md. -/
def State.start (s : State) (vin : Nat) (sysclk nor sigAlm sigFw : Bool) : State :=
  let s0 : State := { s with pwr := { s.pwr with vinMv := vin, pwrEn := true, resetN := true, standby := true } }
  if !sysclk then s0.startFail 8
  else if s0.sec.bootEpoch == 0xFFFFFFFF then s0.startFail 7
  else
    let s1 : State := { s0 with sec := { s0.sec with bootEpoch := s0.sec.bootEpoch + 1 } }
    if !nor then s1.startFail 1
    else
      let r := almCheck s1.norByte s1.sec.almFloor sigAlm sigFw
      if r != 0 then s1.startFail r else s1.startGo s1.norByte

def execModuleStart (vinMv : Nat) (sysclkOk norPresent sigAlmOk sigFwOk : Bool) (s : State) : Host.Outcome State Fault Refusal :=
  .next (s.when (s.pwr.phase == .dark && 59000 ≤ vinMv && s.pwr.norReqN && !s.pwr.refused)
    (·.start vinMv sysclkOk norPresent sigAlmOk sigFwOk))

/-- Chunks of 64 KiB that a stack offers: 126 GiB (R329). -/
def stackChunks : Nat := 64512 * 32

/-- MOD_READY (R57, R561, R562): stacks and self-test results are in; link ports train if the test passed. -/
def State.goReady (s : State) (test : Word) : State :=
  let kind := nbits test.toNat 4 4
  let unit := nbits test.toNat 8 8
  let pass := test.getLsbD 0
  let units := (List.range 8).map (fun k => ({ tier := 0, unit := k, free := stackChunks, up := pass || kind != 4 || unit != k } : UnitFree))
  let t : State := { s with
    tier := { s.tier with units := units }
    health := { s.health with stackOut := if !pass && kind == 4 then [unit] else [] }
    pwr := { s.pwr with phase := .ready, modReady := true, wasReset := false, shutdown := 0 } }
  let u := (((t.wr 0x828 (test &&& 0xFFF1)).wrn 0x92C 0).when (!pass && kind == 1) (fun v =>
    (v.wrf (engineBlock unit + 0x14) 1).wrFld (engineBlock unit + 4) 0 3 3)).syncUse []
  let w := u.each ((List.range 64).filter u.mayTrain) (fun l v => v.trainStart l 1)
  { w with force := w.regs }

def execModReady (selfTest : Word) (s : State) : Host.Outcome State Fault Refusal :=
  .next (s.when (s.pwr.phase == .starting) (·.goReady selfTest))

/-- START_TIMEOUT. -/
def execStartTimeout (s : State) : Host.Outcome State Fault Refusal := .next (s.when (s.pwr.phase == .starting) (·.startFail 9))

/-- START_IMAGE_LOAD (R563): once LOCKED, or once `LOCK_WAIT` has passed without it. -/
def execStartImageLoad (locked : Bool) (s : State) : Host.Outcome State Fault Refusal :=
  .next (s.when (s.ready && s.alm.startImage != 0xFF && locked == (s.timeState == 2)) (fun t =>
    let u := (t.when (!locked) (·.set 0xA0C 0x2)).load (.library t.alm.startImage) true
    { u with alm := { u.alm with startImage := 0xFF } }))

-- pins --------------------------------------------------------------------------------------------------------------------

/-- PWR_EN_LOW: Dark; a refused image or a shutdown holds the module no longer (R564, R582). -/
def execPwrEnLow (s : State) : Host.Outcome State Fault Refusal :=
  .next (
    let t := if s.pwr.phase == .dark then s else ({ s with pwr := { s.pwr with resetCause := 0 } }).railsOff
    { t with pwr := { t.pwr with pwrEn := false, refused := false } })

/-- RESET_N_LOW: a module reset; in Dark it lets the module start again (R560, R564). -/
def execResetNLow (s : State) : Host.Outcome State Fault Refusal :=
  .next (
    let t := if s.pwr.phase == .dark then s else s.moduleReset 0
    { t with pwr := { t.pwr with resetN := false, refused := false } })

/-- NOR_REQUEST (R565, R582): granted in Dark, kept while a start is under way, ignored otherwise. -/
def execNorRequest (s : State) : Host.Outcome State Fault Refusal :=
  .next (
    let t : State := { s with pwr := { s.pwr with norReqN := false } }
    match s.pwr.phase with
    | .dark => t.norGrant
    | .starting => t
    | .ready => t.set 0xA0C 0x10)

/-- NOR_RELEASE (R565): the grant ends, then the pins are driven again; the NOR holds what the programmer wrote.
DEDUCED, unsafe: notes/assumptions/55.md. -/
def execNorRelease (writes : List (Nat × Byte)) (s : State) : Host.Outcome State Fault Refusal :=
  .next (
    let t := if s.pwr.norGrantN then s else s.each writes (fun w u => u.norPut w.1 [w.2])
    { t with pwr := { t.pwr with norReqN := true, norGrantN := true, xspiDriven := true } })

-- Almanac update ----------------------------------------------------------------------------------------------------------

/-- DEDUCED, unsafe in part: notes/assumptions/53.md. -/
def State.almBad (s : State) : State := s.set 0xA0C 0x20

/-- An update ends in FAILED with a reason. -/
def State.updFail (s : State) (reason sectors : Nat) : State := (s.wrn 0xA20 (5 + 2 ^ 4 * reason + 2 ^ 8 * sectors)).set 0xA0C 0x8

/-- A write of `ALM_UPD_CMD` (R566, R567). DEDUCED, unsafe in part: notes/assumptions/53.md. -/
def State.almUpd (s : State) (op confirm : Nat) : State :=
  let n := (s.rd 0xA18).toNat
  let src := (s.rd 0xA10).toNat + 2 ^ 32 * (s.rd 0xA14).toNat
  let st := s.updState
  if confirm != 0xC3 || n == 0 || 0x0FF00000 < n || ((st == 1 || st == 3) && op != 3) then s.almBad
  else match op with
  | 1 =>
    let copy := if s.readCheck [] src n == .ok then s.bytes src n else []
    ({ s with alm := { s.alm with copy := copy } }).wrn 0xA20 1
  | 2 => if st == 2 then s.wrn 0xA20 3 else s.almBad
  | 3 =>
    if st == 1 then s.wrn 0xA20 0
    else if st == 3 then
      let f := s.fresh
      let k := 1 + f.1.toNat % max 1 s.copySectors
      (f.2.norProgram k).updFail 0 k
    else s
  | _ => s.almBad

/-- VERIFY. -/
def execVerify (port confirm : Nat) (s : State) : Host.Outcome State Fault Refusal :=
  .next (s.reg (.verify port confirm) port 0xA1C (·.almUpd 1 confirm))

/-- WRITE. -/
def execWrite (port confirm : Nat) (s : State) : Host.Outcome State Fault Refusal :=
  .next (s.reg (.write port confirm) port 0xA1C (·.almUpd 2 confirm))

/-- ABORT. -/
def execAbort (port confirm : Nat) (s : State) : Host.Outcome State Fault Refusal :=
  .next (s.reg (.abort port confirm) port 0xA1C (·.almUpd 3 confirm))

/-- VERIFY_DONE: the checks of R556 on the copy, with ROLLBACK judged against the current floor. -/
def execVerifyDone (sigAlmOk sigFwOk : Bool) (s : State) : Host.Outcome State Fault Refusal :=
  .next (s.when (s.ready && s.updState == 1) (fun t =>
    let f (i : Nat) : Byte := t.alm.copy.getD i 0
    let r := if t.alm.copy.length < almLen f + 2820 then 2 else almCheck f t.sec.almFloor sigAlmOk sigFwOk
    if r = 0 then (t.wrn 0xA20 2).set 0xA0C 0x4 else t.updFail r 0))

/-- WRITE_DONE: WRITTEN, or FAILED with reason FORMAT at the first sector that does not read back. -/
def execWriteDone (readBackOk : Bool) (s : State) : Host.Outcome State Fault Refusal :=
  .next (s.when (s.ready && s.updState == 3) (fun t =>
    if readBackOk then ((t.norProgram t.copySectors).wrn 0xA20 (4 + 2 ^ 8 * t.copySectors)).set 0xA0C 0x4
    else (t.norPartial.1).updFail 2 t.norPartial.2))

-- power and temperature ---------------------------------------------------------------------------------------------------

/-- Consecutive samples of a condition. -/
def runNext (n : Nat) (c : Bool) : Nat := if c then n + 1 else 0

/-- The conditions of `PwrS.runs` in a sample (R570). -/
def sampleBad (x : Sample) : List Bool :=
  [decide (x.vinMv < 57000), decide (72000 < x.iinMa), !x.railsOk] ++ (List.range 4).map (fun d => decide (110 ≤ x.dieC.getD d 0))
    ++ (List.range 8).map (fun k => decide (95 ≤ x.stackC.getD k 0))

/-- The cause of a shutdown that a sample decides; the lowest when several do (R570). -/
def shutdownCause (x : Sample) (runs : List Nat) : Option Nat :=
  if 2 ≤ runs.getD 0 0 then some 1
  else if 70000 < x.vinMv then some 2
  else if 3 ≤ runs.getD 1 0 then some 3
  else if ((runs.drop 3).take 4).any (3 ≤ ·) then some 4
  else if ((runs.drop 7).take 8).any (3 ≤ ·) then some 5
  else if 3 ≤ runs.getD 2 0 then some 6 else none

/-- Sensor readings against the warning thresholds in force (R577): die or stack, temperature, threshold. -/
def State.sensors (s : State) (x : Sample) : List (Nat × Nat) :=
  (List.range 4).map (fun d => (x.dieC.getD d 0, s.ffld 0x928 0 8)) ++ (List.range 8).map (fun k => (x.stackC.getD k 0, s.ffld 0x928 8 8))

/-- The measured values (R578). -/
def State.sampleRegs (s : State) (x : Sample) : State :=
  let pins := (x.pinW :: s.pwr.pins).take 10
  let mean := pins.sum / pins.length
  let bytes (l : List Nat) : Nat := leNat (l.map (BitVec.ofNat 8))
  let t : State := { s with pwr := { s.pwr with pins := pins, vinMv := x.vinMv } }
  let t1 := (((t.wrn 0x90C (x.vinMv % 2 ^ 18)).wrn 0x910 (x.iinMa % 2 ^ 17)).wrn 0x914 (mean % 2 ^ 13)).wrn 0x918
    (max (mean % 2 ^ 13) (s.rd 0x918).toNat)
  ((t1.wrn 0x91C (bytes (x.dieC.take 4))).wrn 0x920 (bytes (x.stackC.take 4))).wrn 0x924 (bytes ((x.stackC.drop 4).take 4))

/-- Warnings (R570, R577). A thermal warning wakes a module in Retain (R574). -/
def State.warnings (s : State) (x : Sample) : State :=
  let l := s.sensors x
  let runs := (s.pwr.warnRun.zip l).map (fun p => runNext p.1 (decide (p.2.2 ≤ p.2.1)))
  let cool := runNext s.pwr.coolRun (l.all (fun p => decide (p.1 + 3 ≤ p.2)))
  let warn := runs.any (3 ≤ ·)
  let t : State := { s with pwr := { s.pwr with
    warnRun := runs
    coolRun := cool
    thermN := if warn then false else if 3 ≤ cool then true else s.pwr.thermN
    wake := s.pwr.wake || (warn && s.pwr.state == 2) } }
  (t.when warn (·.set 0x908 0x8)).when ((57000 ≤ x.vinMv && x.vinMv < 60000) || (67200 < x.vinMv && x.vinMv ≤ 70000)) (·.set 0x908 0x4)

/-- POWER_SAMPLE. In Dark only the input counts: its fall is what a new rise of R560 needs after a shutdown. -/
def State.sample (s : State) (x : Sample) : State :=
  if s.pwr.phase == .dark then
    { s with pwr := { s.pwr with
      vinMv := x.vinMv
      refused := s.pwr.refused && (s.pwr.failReason != 0 || 59000 ≤ x.vinMv) } }
  else
    let runs := (s.pwr.runs.zip (sampleBad x)).map (fun p => runNext p.1 p.2)
    let t := (({ s with pwr := { s.pwr with runs := runs } }).sampleRegs x).warnings x
    match shutdownCause x runs with
    | some c => t.shutdown c
    | none => t

def execPowerSample (x : Sample) (s : State) : Host.Outcome State Fault Refusal := .next (s.when s.pwr.standby (·.sample x))

/-- A write of `PWR_CMD` (R573, R578): it awaits the next frame boundary; a later command takes its place. -/
def State.pwrCmd (s : State) (op confirm : Nat) : State :=
  if op = 0 || 4 < op || (op == 4 && confirm != 0xC3) then s.set 0x908 0x10
  else ({ s with pwr := { s.pwr with cmd := some op } }).set 0x900 0x4

/-- FULL. -/
def execFull (port : Nat) (s : State) : Host.Outcome State Fault Refusal := .next (s.reg (.full port) port 0x904 (·.pwrCmd 1 0))

/-- IDLE. -/
def execIdle (port : Nat) (s : State) : Host.Outcome State Fault Refusal := .next (s.reg (.idle port) port 0x904 (·.pwrCmd 2 0))

/-- RETAIN. -/
def execRetain (port : Nat) (s : State) : Host.Outcome State Fault Refusal := .next (s.reg (.retain port) port 0x904 (·.pwrCmd 3 0))

/-- OFF. -/
def execOff (port confirm : Nat) (s : State) : Host.Outcome State Fault Refusal :=
  .next (s.reg (.off port confirm) port 0x904 (·.pwrCmd 4 confirm))

/-- Dies read Retain, or Operating again (R47). -/
def State.dieRetain (s : State) (on : Bool) : State :=
  s.each (List.range 4) (fun d t =>
    let v := t.fld 0x10 (4 * d) 4
    if on && v == 3 then t.wrFld 0x10 (4 * d) 4 4 else if !on && v == 4 then t.wrFld 0x10 (4 * d) 4 3 else t)

/-- The clocks of the engines stop, or run again: `ENG_STATE` of those that run nothing (R196, R572). -/
def State.engineClocks (s : State) (on : Bool) : State :=
  s.each ((List.range 256).filter (fun e => s.dieUp (e / 64) && s.fld (engineBlock e + 4) 0 3 != 4)) (fun e t =>
    t.wrFld (engineBlock e + 4) 0 3 (if !on then 5 else if t.quarantined e then 3 else 0))

/-- POWER_TRANSITION_DONE (R575): the state is reported; once Full is reached the held requests are served first.
DEDUCED, unsafe: notes/assumptions/50.md. -/
def execPowerTransitionDone (s : State) : Host.Outcome State Fault Refusal :=
  .next (match s.pwr.going with
    | none => s
    | some g =>
      let t := (s.wrFld 0x900 0 2 g).dieRetain (g == 2)
      if g = 0 then
        let u := t.engineClocks true
        { u with pending := s.pwr.held ++ s.pending, pwr := { u.pwr with going := none, state := 0, held := [] } }
      else { t with pwr := { t.pwr with going := none } })

/-- SYSCLK_LOSS: a module reset (R581). The manual lists no cause code for it, so the code is open.
DESIGN CHOICE, safe: notes/assumptions/54.md. -/
def execSysclkLoss (s : State) : Host.Outcome State Fault Refusal :=
  .next (s.when (s.pwr.phase != .dark) (fun t => t.fresh.2.moduleReset (t.fresh.1.toNat % 16)))

/-- STANDBY_POWER_LOSS (R569): what the standby domain latched is lost; fuses, NOR and the trays' metadata stay. -/
def execStandbyPowerLoss (s : State) : Host.Outcome State Fault Refusal :=
  .next (
    let t := s.railsOff
    let p : PwrS := { PwrS.reset with
      standby := false
      pwrEn := t.pwr.pwrEn
      resetN := t.pwr.resetN
      norReqN := t.pwr.norReqN
      hrefGone := t.pwr.hrefGone }
    { t with pwr := p, regs := t.regs.filter (fun r => !(r.1 == 0x80C || r.1 == 0xA00 || r.1 == 0x92C)) })

end Sys2Proof.Machine
end

