-- ==== Sys2Proof/Machine/Health.lean ====
section
/-! DEFINITION. Recovery (R517-R547): the guilty-context search, commands of the recovery controller, stack and port retraining, die
reset, admission and resync of mirrored pairs, the error log's read index. Hang detection and what acts at frame boundaries are in
Machine/Boundary.lean. -/

namespace Sys2Proof.Machine

/-- `HM_EVENTS` bits. DEDUCED, unsafe: notes/assumptions/67.md. -/
def State.hmEvent (s : State) (m : Word) : State := s.set 0x804 m
def State.hmBad (s : State) : State := s.hmEvent 0x1000

-- the guilty-context search -----------------------------------------------------------------------------------------------

/-- The search on engine e. DEDUCED, unsafe: notes/assumptions/45.md. -/
def State.searchOn (s : State) (e : Nat) : Option Search := s.health.searches.find? (fun h => h.engine == e)

/-- A search changes, or ends. -/
def State.setSearch (s : State) (h : Search) : State :=
  { s with health := { s.health with searches := s.health.searches.map (fun k => if k.engine == h.engine then h else k) } }
def State.dropSearch (s : State) (e : Nat) : State :=
  { s with health := { s.health with searches := s.health.searches.filter (fun k => k.engine != e) } }

/-- A search ends: every suspect it held is released (R527). -/
def State.searchEnd (s : State) (h : Search) : State :=
  let t := (s.dropSearch h.engine).replayStop h.engine
  (t.each h.suspects (fun x u => u.suspectSync x)).searchSync

/-- No suspect reproduced the hang: the engine is faulty and stays quarantined (R527). -/
def State.engineFaulty (s : State) (h : Search) : State :=
  let e := h.engine
  let t := s.set (dieReg (e / 64) (0x808 + e % 64 / 32 * 4)) (BitVec.ofNat 32 (2 ^ (e % 32)))
  ((t.hmEvent 0x20).errLog 7 0 e noCtx 0 0).searchEnd h

/-- REPLAY_FINISHED: the suspect whose replay ran through is released; the next one's replay starts at the next frame boundary (R527). -/
def execReplayFinished (engine : Nat) (s : State) : Host.Outcome State Fault Refusal :=
  .next (match s.searchOn engine with
    | none => s
    | some h =>
      if !h.replaying then s
      else match h.suspects with
        | [] => s
        | x :: rest =>
          if rest.isEmpty then (s.engineFaulty h)
          else
            let k : Search := { h with suspects := rest, replaying := false, left := 0 }
            (((s.setSearch k).replayStop engine).suspectSync x).searchSync)

/-- A running replay stood still for the window: its suspect is guilty, the rest are released, and the engine rejoins (R527). -/
def State.guilty (s : State) (h : Search) (x : Nat) : State :=
  let e := h.engine
  let t := (((s.fault x 5).set (healthReg x 4) 0x20).hmEvent 0x10).errLog 6 0 e x 0 5
  ((t.wrf (engineBlock e + 0x14) 0).searchEnd h).engineOut e

-- retraining of stacks ----------------------------------------------------------------------------------------------------

/-- What backed pages on unit u is gone: scrubs, freed sources and stage copies on it need nothing more. -/
def State.unitGone (s : State) (u : Nat) : State :=
  let gone (r : Scrub) : Bool := r.unit == u
  let flash := (s.tier.scrubs.filter (fun r => gone r && r.tier == 2)).length
  let xs := ((s.tier.scrubs.filter gone).map (·.ctx)).eraseDups
  let streams := s.tier.streams.map (fun (w : WStream) => { w with copies := w.copies.filter (fun c => c.2 != u) })
  let t : State := { s with tier := { s.tier with
    scrubs := s.tier.scrubs.filter (fun r => !gone r)
    freed := s.tier.freed.filter (fun r => r.unit != u)
    streams := streams } }
  (t.wrn 0x318 ((t.rd 0x318).toNat - flash)).each xs (fun x v => v.syncScrub x)

/-- A retrain of stack k begins (R529): it is out of service, holds no data, and every page on it is lost (R354, R371).
DEDUCED, unsafe: notes/assumptions/48.md. -/
def State.stackRetrain (s : State) (k : Nat) : State :=
  let tries := (s.health.stackTries.find? (fun p => p.1 == k)).elim 0 (·.2)
  let h : HealthS := { s.health with
    stackTries := (k, tries + 1) :: s.health.stackTries.filter (fun p => p.1 != k)
    stackRetraining := k :: s.health.stackRetraining.filter (· != k)
    stackOut := s.health.stackOut.filter (· != k) }
  let o := dieReg (k / 2) 0x810
  let t := ({ s with health := h }).wrFld o (8 * (k % 2)) 8 (min 0xFF (s.fld o (8 * (k % 2)) 8 + 1))
  (((((t.unitSet k false).loseUnit k).unitGone k).cpLoss [k] 2).flashCacheLost (k / 2)).syncUse []

/-- Stack k is back in service; pages lost on it hold their space until they are unmapped. -/
def State.stackBack (s : State) (k : Nat) : State :=
  let f (x : UnitFree) : UnitFree := if x.unit == k then { x with free := stackChunks - s.usedOn k, up := true } else x
  ({ s with tier := { s.tier with units := s.tier.units.map f } }).syncUse []

/-- STACK_RETRAIN_DONE. Pages found on it are lost. -/
def execStackRetrainDone (stack : Nat) (s : State) : Host.Outcome State Fault Refusal :=
  .next (s.when (s.ready && s.health.stackRetraining.contains stack) (fun t =>
    let u : State := { t with health := { t.health with stackRetraining := t.health.stackRetraining.filter (· != stack) } }
    ((u.loseUnit stack).cpLoss [stack] 2).stackBack stack))

-- die reset ---------------------------------------------------------------------------------------------------------------

/-- Registers of die d that its reset keeps as they are, besides their `RW` and `RW-S` bits (R545): link protocols, Ephemeris state
and identities, engines judged faulty. -/
def keptWhole (d : Nat) : Place → Bool
  | .dieCtl e o => e == d && (o == 0x10 || o == 0x808 || o == 0x80C)
  | .eph e o => e == d && o ≤ 8
  | _ => false

/-- Registers of die d that return to their reset value whatever their access code (R545): ring and log indices, counter values,
statistics. -/
def droppedWhole : Place → Bool
  | .dieCtl _ o => o == 0x104 || o == 0x504 || o == 0x540
  | .queue _ o => o == 0x30
  | .counter _ o => o < 8
  | _ => false

/-- Die of a place. -/
def Place.die : Place → Option Nat
  | .dieCtl d _ => some d
  | .eph d _ => some d
  | .queue q _ => some (q / 4096)
  | .counter c _ => some (c / 16384)
  | .engine e _ => some (e / 64)
  | .host n _ => some (n / 12)
  | .link n _ => some (n / 16)
  | _ => none

/-- What a register of die d reads after the die's reset (R532, R545). DEDUCED, unsafe: notes/assumptions/46.md. -/
def afterReset (d off : Nat) (v : Word) : Word :=
  let p := place off
  let i := regInfo off
  if keptWhole d p then v
  else if droppedWhole p then i.reset
  else
    let kept := (v &&& (i.rw ||| i.rws)) ||| (i.reset &&& ~~~(i.rw ||| i.rws))
    match p with
    | .queue _ 4 => kept &&& ~~~(1 : Word)
    | .host _ 0 => v &&& 0x2000
    | .link _ 0 => v &&& 8
    | _ => kept

/-- The registers of die d after its reset, in force at once. -/
def State.dieRegs (s : State) (d : Nat) : State :=
  let l := (s.regs.filter (fun r => (place r.1).die == some d)).map (fun r => (r.1, afterReset d r.1 r.2))
  let t := s.each l (fun r u => u.wrf r.1 r.2)
  t.each ((List.range 64).map (· + 64 * d)) (fun e u => u.when (u.bit (engineBlock e + 0x14) 0) (·.wrFld (engineBlock e + 4) 0 3 3))

/-- Contexts that a reset of die d faults (R531). -/
def State.dieCtxs (s : State) (d : Nat) : List Nat :=
  let live := (List.range 1024).filter s.serving
  let bound := live.filter (fun x => (s.queuesOf x).any (fun q => q / 4096 == d) || (s.ctrsOf x).any (fun c => c / 16384 == d))
  let ops := (s.ops.filter (fun o => o.engine.any (fun e => e / 64 == d))).map (·.ctx)
  let reds := (s.reds.filter (fun r => r.isOpen && r.engine / 64 == d)).map (·.ctx)
  let held := (s.health.searches.filter (fun h => h.engine / 64 == d)).flatMap (·.suspects)
  ((bound ++ ops ++ reds ++ held).filter s.serving).eraseDups

/-- Service cores of die d lose their caches. A line that one of them held dirty cannot be written back: it is poisoned (R428, R531).
DEDUCED, unsafe: notes/assumptions/46.md. -/
def State.coresGone (s : State) (d : Nat) : State :=
  let mine (c : Nat) : Bool := c / 16 == d
  let dirty := (s.coh.caches.filter (fun c => mine c.core && (c.st == .m || c.st == .o))).map (·.line)
  let held := (s.coh.dir.flatMap (fun e => e.holders.filterMap (fun a => match a with
    | .core c => if mine c then some (c, e.line) else none
    | _ => none)))
  let s1 := s.each held (fun p t => t.dropHolder (.core p.1) p.2)
  let s2 : State := { s1 with
    poison := s1.poison ++ dirty.filter (fun l => !s1.poison.contains l)
    coh := { s1.coh with
      caches := s1.coh.caches.filter (fun c => !mine c.core)
      evicting := s1.coh.evicting.filter (fun e => !mine e.1)
      pending := s1.coh.pending.filter (fun p => !mine p.1)
      snoops := s1.coh.snoops.filter (fun p => !mine p.core)
      rsps := s1.coh.rsps.filter (fun p => !mine p.core)
      flight := s1.coh.flight.filter (fun f => !mine f.core)
      waitq := s1.coh.waitq.filter (fun r => match r.agent with
        | .core c => !mine c
        | _ => true) } }
  let waits (t : Txn) : Bool := t.waits.any (fun a => match a with
    | .core c => mine c
    | _ => false)
  s2.each ((s2.coh.txns.filter waits).map (·.req.line)) (fun l t => t.onTxn l (fun u => { u with waits := u.waits.filter (fun a => match a with
    | .core c => !mine c
    | _ => true) }))

/-- Cell memory, telemetry samples, policer buckets and gate positions of die d (R531, R545). -/
def State.switchLost (s : State) (d : Nat) : State :=
  { s with sw := { s.sw with
    items := s.sw.items.filter (fun i => i.die != d)
    vtime := s.sw.vtime.filter (fun p => p.1.1 != d)
    flast := s.sw.flast.filter (fun p => p.1.die != d)
    nadir := s.sw.nadir.filter (fun p => p.1.1 != d)
    buckets := s.sw.buckets.filter (fun b => b.die != d)
    gates := s.sw.gates.filter (fun g => g.die != d)
    samples := s.sw.samples.filter (fun x => x.leaf.die != d)
    stalled := s.sw.stalled.filter (fun p => p.1 != d)
    served := s.sw.served.filter (fun p => p.1.1 != d)
    path := s.sw.path.filter (fun p => p.1 != d && p.2.2.egress != 0x20 + d) } }

/-- Work on die d: operations on its engines stop, its queues forget what was read from their rings, its windows are invalid, scratch and
searches are gone (R528, R531, R545). DEDUCED, unsafe: notes/assumptions/46.md. -/
def State.dieWork (s : State) (d : Nat) : State :=
  let s1 := s.each (s.ops.filter (fun o => o.engine.any (fun e => e / 64 == d))) (fun o t => match t.op o.id with
    | some p => (match p.phase with
      | .executed _ => t
      | _ => t.putBack p)
    | none => t)
  let space (k : Nat) : Bool := (k < 256 && k / 64 == d) || (256 ≤ k && (k - 256) / 16 == d)
  let mine := s1.health.searches.filter (fun h => h.engine / 64 == d)
  let s2 : State := { s1 with
    ops := s1.ops.map (fun (o : Op) => if o.queue / 4096 == d then { o with old := true } else o)
    heads := s1.heads.filter (fun h => h.queue / 4096 != d)
    bells := s1.bells.filter (fun b => b.queue / 4096 != d)
    stalled := s1.stalled.filter (fun q => q / 4096 != d)
    granted := s1.granted.filter (fun p => p.1 != d)
    reds := s1.reds.map (fun (r : Stream) => if r.engine / 64 == d then { r with invalid := true } else r)
    scr := s1.scr.filter (fun b => !space (b.1 / 2 ^ 22))
    scrPoison := s1.scrPoison.filter (fun l => !space (l / 2 ^ 16))
    sec := { s1.sec with
      haltedEngines := s1.sec.haltedEngines.filter (fun e => e / 64 != d)
      haltedCores := s1.sec.haltedCores.filter (fun c => c / 16 != d)
      steps := s1.sec.steps.filter (fun k => !space k) } }
  s2.each mine (fun h t => t.searchEnd h)

/-- A reset of die d begins (R531): contexts are faulted, home buffers are written back, ports go down, cells are lost, and the registers
stand as firmware will restore them. Accesses that other dies hold meanwhile are a matter of time.
DEDUCED, unsafe: notes/assumptions/46.md. -/
def State.dieReset (s : State) (d : Nat) : State :=
  let xs := s.dieCtxs d
  let s1 := s.each xs (fun x t => t.fault x 6)
  let s2 := s1.each (s1.coh.dir.filter (fun e => e.st == .h && homeSlice e.line / 2 == d)) (fun e t => t.dropEnt e.line)
  let s3 := s2.each ((List.range 48).filter (fun n => n / 12 == d && (let k := s2.fld (hostBlock n) 0 3; k == 1 || k == 2 || k == 4)))
    (fun n t => t.hpDown n 0)
  let s4 := s3.each ((List.range 64).filter (fun l => l / 16 == d && (let k := s3.lpState l; k == 1 || k == 2 || k == 3 || k == 5)))
    (fun l t => t.lpDown l 0)
  let s5 := (((s4.dieWork d).coresGone d).switchLost d).dieRegs d
  let h : HealthS := { s5.health with
    resetting := d :: s5.health.resetting.filter (· != d)
    watch := s5.health.watch.filter (fun w => match w.unit with
      | .stack n => n / 2 != d
      | .switch n => n != d
      | .host n => n / 12 != d
      | .link n => n / 16 != d
      | .engine e => e / 64 != d
      | .queue q => q / 4096 != d) }
  let e : EphS := { s5.eph with outDies := if s5.eph.active.isSome then d :: s5.eph.outDies.filter (· != d) else s5.eph.outDies }
  let s6 := (({ s5 with health := h, eph := e }).wrFld 0x10 (4 * d) 4 1).wrn (dieReg d 8) 0
  let s7 := s6.each ((List.range 4).filter (· != d)) (fun p t => t.clr (dieReg p 8) (BitVec.ofNat 32 (2 ^ d)))
  let o := 8 * (d - 1)
  let s8 := (((s7.hmEvent 0x40).wrFld 0x810 o 8 (min 0xFF (s7.fld 0x810 o 8 + 1))).errLog 8 0 d noCtx 0 0).dirSync
  inflightSync (s8.each ((s8.reds.filter (fun r => r.engine / 64 == d)).map (·.engine)) (fun e t => t.redSync e)) d

/-- Out of reset (R533): die-to-die paths and link ports train. DEDUCED, unsafe: notes/assumptions/46.md. -/
def State.dieRetrain (s : State) (d : Nat) : State :=
  let others := (List.range 4).filter (· != d)
  let t := ((s.wrFld 0x10 (4 * d) 4 2).wrn (dieReg d 8) (2 ^ 4 * (0xF - 2 ^ d))).each others (fun p u => u.set (dieReg p 8) (BitVec.ofNat 32 (2 ^ (4 + d))))
  t.each ((List.range 64).filter (fun l => l / 16 == d && t.mayTrain l)) (fun l u => u.trainStart l 3)

/-- A stack that two failed retrains took out of service is retrained with its die, and is back (R529, R533). -/
def State.stackReturn (s : State) (k : Nat) : State :=
  ({ s with health := { s.health with stackOut := s.health.stackOut.filter (· != k) } }).stackBack k

/-- The die operates again (R532, R533): its paths are up, its stacks are in service, lines homed there are recalled, its host ports may
train. -/
def State.dieBack (s : State) (d : Nat) : State :=
  let others := (List.range 4).filter (fun p => p != d && s.dieUp p)
  let s1 : State := { s with health := { s.health with resetting := s.health.resetting.filter (· != d) } }
  let s2 := (s1.wrFld 0x10 (4 * d) 4 3).wrn (dieReg d 8) (bitSet 4 others.contains)
  let s3 := s2.each others (fun p u => (u.clr (dieReg p 8) (BitVec.ofNat 32 (2 ^ (4 + d)))).set (dieReg p 8) (BitVec.ofNat 32 (2 ^ d)))
  let lines := (s3.coh.dir.filter (fun e => homeSlice e.line / 2 == d)).map (·.line)
  let s4 := ((s3.each (s.health.stackOut.filter (· / 2 == d)) (fun k t => t.stackReturn k)).each lines (fun l t => t.recallLine 0 l)).homes
  inflightSync (s4.each ((List.range 48).filter (fun n => n / 12 == d && s4.hpMayTrain n)) (fun n t => t.hpTrain n)) d

/-- DIE_RESET_DONE. -/
def execDieResetDone (die : Nat) (s : State) : Host.Outcome State Fault Refusal :=
  .next (s.when (s.ready && s.health.resetting.contains die && s.fld 0x10 (4 * die) 4 == 2) (·.dieBack die))

/-- DIE_RESET_TIMEOUT: a module reset (R533). -/
def execDieResetTimeout (die : Nat) (s : State) : Host.Outcome State Fault Refusal :=
  .next (s.when (s.ready && s.health.resetting.contains die) (·.moduleReset 3))

/-- A reset of a die is decided: it begins at the next frame boundary, that of die 0 as a module reset (R23, R38).
DEDUCED, unsafe: notes/assumptions/47.md. -/
def State.dieCmd (s : State) (d : Nat) : State :=
  { s with health := { s.health with dieCmds := s.health.dieCmds.filter (· != d) ++ [d] } }

/-- D2D_PATH_FAILURE (R36, R530): both dies are out of service until their reset. DEDUCED, unsafe: notes/assumptions/67.md. -/
def State.pathDown (s : State) (a b : Nat) : State :=
  let half (t : State) (d p : Nat) : State :=
    ((t.set (dieReg d 0xC) (BitVec.ofNat 32 (2 ^ p))).clr (dieReg d 8) (BitVec.ofNat 32 (2 ^ p))).wrFld 0x10 (4 * d) 4 5
  let t := half (half s a b) b a
  if a = 0 || b = 0 then t.moduleReset 4 else (t.dieCmd a).dieCmd b

def execD2dPathFailure (a b : Nat) (s : State) : Host.Outcome State Fault Refusal :=
  .next (s.when (s.ready && a != b && a < 4 && b < 4 && s.bit (dieReg a 8) b) (·.pathDown a b))

-- commands of the recovery controller -------------------------------------------------------------------------------------

/-- A write of `HM_CMD` (R547). `UNIT` of a die reset is 1 to 3: a write that names die 0 is out of range (DEDUCED: R23 then speaks of a
reset of die 0 that a hang or a stack asks for). DEDUCED, unsafe: notes/assumptions/47.md. -/
def State.hmCmd (s : State) (op unit ctx confirm : Nat) : State :=
  match op with
  | 1 => s.fault ctx 7
  | 2 => if s.serving ctx then s.abortStart ctx 8 else s
  | 3 => if confirm != 0xC3 || unit == 0 || 3 < unit then s.hmBad else s.dieCmd unit
  | 4 => if confirm != 0xC3 then s.hmBad else s.moduleReset 1
  | 5 =>
    if confirm != 0xC3 then s.hmBad
    else { s with health := { s.health with stackCmds := s.health.stackCmds.filter (· != unit) ++ [unit] } }
  | _ => s.hmBad

/-- FAULT_CTX. -/
def execFaultCtx (port ctx : Nat) (s : State) : Host.Outcome State Fault Refusal :=
  .next (s.reg (.faultCtx port ctx) port 0x808 (·.hmCmd 1 0 ctx 0))

/-- ABORT_CTX. -/
def execAbortCtx (port ctx : Nat) (s : State) : Host.Outcome State Fault Refusal :=
  .next (s.reg (.abortCtx port ctx) port 0x808 (·.hmCmd 2 0 ctx 0))

/-- DIE_RESET. -/
def execDieReset (port unit confirm : Nat) (s : State) : Host.Outcome State Fault Refusal :=
  .next (s.reg (.dieReset port unit confirm) port 0x808 (·.hmCmd 3 unit 0 confirm))

/-- MODULE_RESET. -/
def execModuleReset (port confirm : Nat) (s : State) : Host.Outcome State Fault Refusal :=
  .next (s.reg (.moduleReset port confirm) port 0x808 (·.hmCmd 4 0 0 confirm))

/-- RETRAIN_STACK. -/
def execRetrainStack (port unit confirm : Nat) (s : State) : Host.Outcome State Fault Refusal :=
  .next (s.reg (.retrainStack port unit confirm) port 0x808 (·.hmCmd 5 unit 0 confirm))

/-- A stack's retrain ran out of time (R529): it is tried again; after the second failure in an epoch its die is reset, or it stays out of
service. -/
def State.stackLate (s : State) (k : Nat) : State :=
  let tries := (s.health.stackTries.find? (fun p => p.1 == k)).elim 0 (·.2)
  let t : State := { s with health := { s.health with stackRetraining := s.health.stackRetraining.filter (· != k) } }
  if tries < 2 then { t with health := { t.health with stackCmds := t.health.stackCmds.filter (· != k) ++ [k] } }
  else
    let u : State := { t with health := { t.health with stackOut := k :: t.health.stackOut.filter (· != k) } }
    if u.bit 0x800 17 then u.dieCmd (k / 2) else u

/-- A link port's retrain ran out of time (R529): FAILED, and a tray on it is lost at the next frame boundary (R354). -/
def State.linkLate (s : State) (l : Nat) : State :=
  let t := s.lpDown l 4
  if t.tier.units.any (fun x => x.unit == 0x40 + l) && !t.tier.lostUnits.contains (0x40 + l) then
    { t with tier := { t.tier with lostUnits := t.tier.lostUnits ++ [0x40 + l] } }
  else t

/-- RETRAIN_TIMEOUT. -/
def execRetrainTimeout (isStack : Bool) (n : Nat) (s : State) : Host.Outcome State Fault Refusal :=
  .next (if isStack then s.when (s.ready && s.health.stackRetraining.contains n) (·.stackLate n)
    else s.when (s.ready && (s.lpState n == 1 || s.lpState n == 3)) (·.linkLate n))

-- mirrored pairs ----------------------------------------------------------------------------------------------------------

/-- A write of an admit entry's control word (R543, R547): `ARM` makes it wait for the HELLO of its module. -/
def State.admitWrite (s : State) (k : Nat) (v : Word) : State :=
  let o := 0x840 + 16 * k
  let st := if !v.getLsbD 8 then 0 else if s.bit o 8 && s.fld o 0 8 == nbits v.toNat 0 8 then s.fld o 9 2 else 1
  s.wrn o (nbits v.toNat 0 9 + 2 ^ 9 * st)

/-- ADMIT_ARM. -/
def execAdmitArm (port k : Nat) (v : Word) (s : State) : Host.Outcome State Fault Refusal :=
  .next (s.regS (.admitArm port k v) port (0x840 + 16 * k) v (·.admitWrite k v))

/-- MIRROR_RESYNC: one page of a region in RESYNC is copied to the partner (R543 item 4). -/
def execMirrorResync (region page : Nat) (s : State) : Host.Outcome State Fault Refusal :=
  .next (s.when (s.ready && region < 16 && s.mirrorValid region && s.mirrorState region == 2 && (s.resyncLeft region).contains page
      && !s.link.awaits.any (fun a => a.who == .mirror (0x100 + region) && a.addr / 2 ^ 21 == page))
    (fun t => (t.mirrorSend region (page * 2 ^ 21) (2 ^ 21) (.mirror (0x100 + region)) 0).resyncPage region page))

/-- HM_LOG_RD_WRITE. -/
def execHmLogRdWrite (port : Nat) (v : Word) (s : State) : Host.Outcome State Fault Refusal :=
  .next (s.reg (.hmLogRdWrite port v) port 0x81C (fun t => readIndex t 0x81C 0x818 v))

end Sys2Proof.Machine
end

