-- ==== Sys2Proof/Machine/Switch.lean ====
section
/-! DEFINITION. The switch core and traffic manager of each die: ingress, policers, combining, gates, fair queueing, egress positions,
queue samples (R290-R326, R433). -/

namespace Sys2Proof.Machine

/-- Cells per slot of a host port at its trained rate and width; of a link port at its lanes; of a path or local delivery (R87, R292). -/
def State.hostCells (s : State) (n : Nat) : Nat :=
  let full := match s.fld (hostBlock n) 5 3 with
    | 4 => 56
    | 3 => 28
    | 2 => 14
    | 1 => 7
    | _ => 0
  full * s.fld (hostBlock n) 8 5 / 16

def State.linkCells (s : State) (n : Nat) : Nat := if s.fld (linkBlock n) 4 4 = 8 then 100 else if s.fld (linkBlock n) 4 4 = 4 then 50 else 0

/-- Rate of the ingress of a message at die d: one that enters the module elsewhere comes over a die-to-die path. -/
def State.ingressRate (s : State) (d ingress : Nat) : Nat :=
  if ingress < 0x30 then (if ingress / 12 = d then s.hostCells ingress else 3840)
  else if 0x40 ≤ ingress && ingress < 0x80 then (if (ingress - 0x40) / 16 = d then s.linkCells (ingress - 0x40) else 3840)
  else 3840

def State.egressRate (s : State) (d e : Nat) : Nat :=
  if e < 0x0C then s.hostCells (12 * d + e)
  else if 0x10 ≤ e && e < 0x20 then s.linkCells (16 * d + e - 0x10)
  else 3840

/-- Port code of an egress in link entries (R80). -/
def egressCode (d e : Nat) : Nat :=
  if e < 0x0C then 12 * d + e
  else if e < 0x20 then 0x40 + 16 * d + (e - 0x10)
  else 0x80 + 4 * d + (e - 0x20)

/-- Die and egress of a port code. -/
def portPlace (c : Nat) : Nat × Nat :=
  if c < 0x30 then (c / 12, c % 12)
  else if c < 0x80 then ((c - 0x40) / 16, 0x10 + (c - 0x40) % 16)
  else ((c - 0x80) / 4, 0x20 + (c - 0x80) % 4)

/-- A port has trained below its scheduled rate, or with fewer lanes than its full width, or carries nothing (R87, R95). -/
def State.portLow (s : State) (c : Nat) : Bool :=
  if c < 0x30 then !s.hostUp c || s.fld (hostBlock c) 5 3 < s.hostRate c || s.fld (hostBlock c) 8 5 != 16
  else if c < 0x80 then !s.linkUp (c - 0x40) || s.fld (linkBlock (c - 0x40)) 4 4 != 8
  else !s.dieUp ((c - 0x80) % 4)

/-- A link entry is skipped (R95, R109). DEDUCED, unsafe: notes/assumptions/18.md. -/
def State.linkSkipped (s : State) (x : LinkEntry) : Bool :=
  let d := (portPlace x.port).1
  s.ctxState x.ctx != 1 || !s.linkInSlice x || s.eph.outDies.contains d || !s.dieUp d || s.portLow x.port

/-- A link entry names an egress: a path code always does (R80). -/
def LinkEntry.out (x : LinkEntry) : Bool := x.dir == 1 || 0x80 ≤ x.port

/-- The link entries of the active image for a slot of a frame (R76). -/
def State.slotEntries (s : State) (frame slot : Nat) : List LinkEntry :=
  s.eph.active.elim [] (fun g => g.link.filter (fun x => x.frame == frame % g.period && x.slot == slot))

/-- Those that reserve cells at an egress: local delivery has none (R80, R95). -/
def State.egressEntries (s : State) (d e frame slot : Nat) : List LinkEntry :=
  if e = 0x24 then [] else (s.slotEntries frame slot).filter (fun x => x.out && x.port == egressCode d e && !s.linkSkipped x)

/-- Control cells of a slot at an egress (R66). -/
def controlCount (e slot : Nat) : Nat := if slot = 0 && e != 0x24 then 4 else 0

/-- Positions of a slot that Zenith and Control cells hold at an egress (R66, R80). -/
def State.reserved (s : State) (d e frame slot : Nat) : Nat :=
  (s.egressEntries d e frame slot).foldl (fun a x => a + x.cells) (controlCount e slot)

/-- Positions of the current slot that an egress has used. -/
def State.usedPositions (s : State) (d e : Nat) : Nat := (s.sw.served.find? (fun p => p.1 == (d, e))).elim 0 (·.2)

/-- What a cell position at an egress is (R303). -/
inductive Position where
  | control
  | zenith (flow : Nat)
  | free
  deriving DecidableEq, Repr

/-- The flow whose reserved position is the k-th of a list of entries. -/
def zenithAt : List LinkEntry → Nat → Option Nat
  | [], _ => none
  | x :: l, k => if k < x.cells then some x.flow else zenithAt l (k - x.cells)

/-- The next position at an egress: the Control cells come first in slot 0; the cells of link entries follow, in entry order.
DESIGN CHOICE, unsafe: notes/assumptions/32.md. -/
def State.nextPosition (s : State) (d e : Nat) : Position :=
  let k := s.usedPositions d e
  let c := controlCount e s.time.slot
  if k < c then .control
  else (zenithAt (s.egressEntries d e s.time.frame s.time.slot) (k - c)).elim .free .zenith

-- gates -----------------------------------------------------------------------------------------------------------------

/-- Entry i of the active gate list in force (R309, R324). -/
def State.gateWord (s : State) (d e i : Nat) : Nat := (s.frd (egReg d e (0x100 + 0x100 * s.fld (egReg d e 0x10) 1 1 + 4 * i))).toNat
def gwOpen (w : Nat) : Nat := nbits w 0 6
def gwSlots (w : Nat) : Nat := nbits w 8 16
def gwEnd (w : Nat) : Bool := w.testBit 31

def State.gateOn (s : State) (d e : Nat) : Bool := s.fbit (egReg d e 0x10) 0

def State.gate (s : State) (d e : Nat) : Option Gate := s.sw.gates.find? (fun g => g.die == d && g.e == e)

def State.setGate (s : State) (g : Gate) : State :=
  { s with sw := { s.sw with gates := g :: s.sw.gates.filter (fun h => !(h.die == g.die && h.e == g.e)) } }

/-- First entry at or after i that has slots; none past the list's end, which is at entry 63 at the latest (R310).
DEDUCED, unsafe: notes/assumptions/32.md. -/
def State.gateFrom (s : State) (d e : Nat) : Nat → Nat → Option Nat
  | 0, _ => none
  | n + 1, i =>
    let w := s.gateWord d e i
    if gwSlots w != 0 then some i else if gwEnd w || 63 ≤ i then none else s.gateFrom d e n (i + 1)

/-- The entry that follows entry i; none after the last one, whose state holds to the end of the cycle. -/
def State.gateAfter (s : State) (d e i : Nat) : Option Nat :=
  if gwEnd (s.gateWord d e i) || 63 ≤ i then none else s.gateFrom d e 64 (i + 1)

/-- The entry that begins a cycle. -/
def State.gateFirst (s : State) (d e : Nat) : Nat := (s.gateFrom d e 64 0).getD 0

/-- `EG_GATE_STATE`: the open classes and the current entry (R323). -/
def State.gateSync (s : State) (d e : Nat) : State :=
  match s.gate d e with
  | some g =>
    if s.gateOn d e then s.wrn (egReg d e 0x14) (gwOpen (s.gateWord d e g.entry) + 256 * g.entry)
    else s.wrn (egReg d e 0x14) 0x3F
  | none => s.wrn (egReg d e 0x14) 0x3F

/-- Class c may start a message now. -/
def State.gateOpen (s : State) (d e c : Nat) : Bool := !s.gateOn d e || (s.fld (egReg d e 0x14) 0 6).testBit c

/-- The entries of a cycle from entry i on as (open classes, slots): cut off at its end, the last one held to it (R310). -/
def State.cycleFrom (s : State) (d e : Nat) : Nat → Nat → Nat → List (Nat × Nat)
  | 0, _, _ => []
  | n + 1, i, left =>
    let w := s.gateWord d e i
    if left = 0 then []
    else match s.gateAfter d e i with
      | none => [(gwOpen w, left)]
      | some j => (gwOpen w, min left (gwSlots w)) :: s.cycleFrom d e n j (left - min left (gwSlots w))

def State.cycleSlots (s : State) (d e : Nat) : Nat := s.ffld (egReg d e 0x10) 8 8 * s.time.units

/-- The entries of a whole cycle. -/
def State.cycleOf (s : State) (d e : Nat) : List (Nat × Nat) := s.cycleFrom d e 64 (s.gateFirst d e) (s.cycleSlots d e)

/-- Slots until the class's gate next closes, from a list of coming entries; none when it stays open (R311). -/
def openFor (c : Nat) : List (Nat × Nat) → Option Nat
  | [] => none
  | p :: l => if p.2 = 0 then openFor c l else if p.1.testBit c then (openFor c l).map (· + p.2) else some 0

/-- The entries from now on: the rest of this cycle and one whole cycle more. -/
def State.comingGates (s : State) (d e : Nat) : List (Nat × Nat) :=
  match s.gate d e with
  | none => s.cycleOf d e
  | some g =>
    let p := max 1 (s.ffld (egReg d e 0x10) 8 8)
    let left := (p - s.time.frame % p) * s.time.units - s.time.slot
    let w := gwOpen (s.gateWord d e g.entry)
    match s.gateAfter d e g.entry with
    | none => (w, left) :: s.cycleOf d e
    | some i => (w, min left g.left) :: s.cycleFrom d e 64 i (left - min left g.left) ++ s.cycleOf d e

/-- Positions of the slot that begins k slots after the current one that no entry reserves and that are not used yet. -/
def State.freeIn (s : State) (d e k : Nat) : Nat :=
  let t := s.time.slot + k
  let r := s.reserved d e (s.time.frame + t / s.time.units) (t % s.time.units)
  s.egressRate d e - max r (if k = 0 then s.usedPositions d e else 0)

/-- Free positions of the next n slots, from the current position on. -/
def State.freePositions (s : State) (d e n : Nat) : Nat := ((List.range n).map (s.freeIn d e)).sum

/-- A Bulk or Nadir message of n cells fits before its gate closes (R311). -/
def State.gateFits (s : State) (d e c n : Nat) : Bool :=
  !s.gateOn d e
    || (s.gateOpen d e c && (match openFor c (s.comingGates d e) with
        | none => true
        | some k => n ≤ s.freePositions d e (min k (n + s.time.units + 1))))

/-- Whether a class is open in slot k of a list of entries. -/
def openAt (c : Nat) : List (Nat × Nat) → Nat → Bool
  | [], _ => false
  | p :: l, k => if k < p.2 then p.1.testBit c else openAt c l (k - p.2)

/-- The most free positions of an open interval of the class, over this gate cycle and the next. -/
def State.widestOpen (s : State) (d e c : Nat) : Nat :=
  let l := s.cycleOf d e
  let n := s.cycleSlots d e
  ((List.range (2 * n)).foldl (fun (a : Nat × Nat) k =>
    if openAt c l (k % max 1 n) then (a.1 + s.freeIn d e k, max a.2 (a.1 + s.freeIn d e k)) else (0, a.2)) (0, 0)).2

/-- Class under which a message waits: 8 for coherence, Nadir when demoted. -/
def QMsg.cls (i : QMsg) : Nat := if i.m.coh != 0 then 8 else if i.demoted then 5 else i.m.cls

/-- A waiting message that fits in no open interval of the cycle (R312). -/
def State.gateStuck (s : State) (d e : Nat) : Bool :=
  s.sw.items.any (fun i => i.die == d && i.m.egress == e && i.cls < 6 && !i.tx
    && !(s.cycleOf d e).all (fun p => p.1.testBit i.cls) && s.widestOpen d e i.cls < i.m.cells)

/-- A frame boundary at an egress: a due list switch, then a gate cycle's start (R310, R313). DEDUCED, unsafe: notes/assumptions/32.md. -/
def State.gateCycle (s : State) (d e : Nat) : State :=
  if !s.gateOn d e then (({ s with sw := { s.sw with gates := s.sw.gates.filter (fun h => !(h.die == d && h.e == e && h.switchFrom.isNone)) } })).gateSync d e
  else
    let p := max 1 (s.ffld (egReg d e 0x10) 8 8)
    if s.time.frame % p != 0 then s
    else
      let due := (s.gate d e).any (fun g => g.switchFrom.any (· ≤ s.time.frame))
      let s1 := if due then (s.wrFld (egReg d e 0x10) 1 1 (1 - s.fld (egReg d e 0x10) 1 1)).clr (egReg d e 0x10) 0x4 else s
      let i := s1.gateFirst d e
      let keep := if due then none else (s.gate d e).bind (·.switchFrom)
      let s2 := (s1.setGate { die := d, e := e, entry := i, left := gwSlots (s1.gateWord d e i), switchFrom := keep }).gateSync d e
      s2.when (s2.gateStuck d e) (fun t => (t.sat (egReg d e 0x18) 1).set (dieReg d 0x520) 0x4)

/-- GATE_ENTRY_EXPIRY: the next entry takes effect once the slots of the current one have run out (R310). -/
def State.gateExpiry (s : State) (d e : Nat) : State :=
  match s.gate d e with
  | some g =>
    if !s.gateOn d e || g.left != 0 then s
    else match s.gateAfter d e g.entry with
      | some i => (s.setGate { g with entry := i, left := gwSlots (s.gateWord d e i) }).gateSync d e
      | none => s
  | none => s

def execGateEntryExpiry (die e : Nat) (s : State) : Host.Outcome State Fault Refusal := .next (s.gateExpiry die e)

/-- `SWITCH` written 1: due at the first cycle start at least one frame later (R313). DEDUCED, unsafe: notes/assumptions/32.md. -/
def State.gateSwitch (s : State) (d e : Nat) : State :=
  let due := some (if s.time.cycle = 0 then s.time.frame + 1 else s.time.frame + 2)
  let g := (s.gate d e).getD { die := d, e := e, entry := 0, left := 0, switchFrom := none }
  (s.setGate { g with switchFrom := due }).set (egReg d e 0x10) 0x4

def execEgGateSwitch (port die e : Nat) (s : State) : Host.Outcome State Fault Refusal :=
  .next (s.regS (.egGateSwitch port die e) port (egReg die e 0x10) (s.rd (egReg die e 0x10) ||| 4)
    (fun t => if validEgress die e then t.gateSwitch die e else t))

-- policers --------------------------------------------------------------------------------------------------------------

/-- Buckets of a policer in 1/256 B; full until first used (R315, R317). DEDUCED, unsafe: notes/assumptions/31.md. -/
def State.bucket (s : State) (d p : Nat) : Bucket :=
  (s.sw.buckets.find? (fun b => b.die == d && b.pol == p)).getD
    { die := d, pol := p, c := 256 * (s.frd (polReg d p 0xC)).toNat, p := 256 * (s.frd (polReg d p 0x10)).toNat }

def State.setBucket (s : State) (b : Bucket) : State :=
  { s with sw := { s.sw with buckets := b :: s.sw.buckets.filter (fun x => !(x.die == b.die && x.pol == b.pol)) } }

/-- The marker of RFC 2697 or RFC 2698 on a message of n units that arrives with a colour: colour and buckets after (R315, R316). -/
def mark3 (two aware : Bool) (colour n : Nat) (b : Bucket) : Nat × Bucket :=
  let pre := if aware then colour else 0
  if two then
    if pre = 2 || b.p < n then (2, b)
    else if pre = 1 || b.c < n then (1, { b with p := b.p - n })
    else (0, { b with c := b.c - n, p := b.p - n })
  else
    if pre = 0 && n ≤ b.c then (0, { b with c := b.c - n })
    else if pre ≤ 1 && n ≤ b.p then (1, { b with p := b.p - n })
    else (2, b)

/-- Tokens of one slot: CIR and PIR are in MB/s, so a slot brings 32 units for each (R315). -/
def State.bucketGain (s : State) (b : Bucket) : Bucket :=
  let cir := 32 * s.ffld (polReg b.die b.pol 4) 0 24
  let pir := 32 * s.ffld (polReg b.die b.pol 8) 0 24
  let cmax := 256 * (s.frd (polReg b.die b.pol 0xC)).toNat
  let pmax := 256 * (s.frd (polReg b.die b.pol 0x10)).toNat
  if s.fbit (polReg b.die b.pol 0) 1 then { b with c := min cmax (b.c + cir), p := min pmax (b.p + pir) }
  else { b with c := min cmax (b.c + cir), p := min pmax (b.p + (b.c + cir - cmax)) }

/-- The ingress is a host port or a ZFL link port of die d (R314). -/
def State.metered (s : State) (d ingress : Nat) : Bool :=
  (ingress < 0x30 && ingress / 12 == d)
    || (0x40 ≤ ingress && ingress < 0x80 && (ingress - 0x40) / 16 == d && !s.bit (linkBlock (ingress - 0x40)) 3)

/-- Meter a message: its colour, whether it is demoted, whether it is dropped (R314-R318). A host port's message enters the module green. -/
def State.police (s : State) (d : Nat) (m : SwMsg) : State × Nat × Bool × Bool :=
  let colour := if m.ingress < 0x30 && m.ingress / 12 = d then 0 else m.colour
  let t := s.frd (tmReg d m.ctx)
  let p := nbits t.toNat 16 12
  let cfg := s.frd (polReg d p 0)
  if m.coh != 0 || 6 ≤ m.cls || !s.metered d m.ingress || !t.getLsbD 28 then (s, colour, false, false)
  else
    let r := if cfg.getLsbD 0 then mark3 (cfg.getLsbD 1) (cfg.getLsbD 2) colour (65536 * m.cells) (s.bucket d p) else (0, s.bucket d p)
    let s1 := (if cfg.getLsbD 0 then s.setBucket r.2 else s).sat (polReg d p (0x14 + 4 * r.1)) 1
    let drop := r.1 == 2 && cfg.getLsbD 4 && 0x40 ≤ m.ingress
    let demote := (r.1 == 1 && cfg.getLsbD 3) || (r.1 == 2 && !drop)
    (s1, r.1, demote && m.cls != 5, drop)

-- queues ------------------------------------------------------------------------------------------------------------------

def QMsg.leaf (i : QMsg) : Leaf :=
  { die := i.die, e := i.m.egress, cls := i.cls, ctx := if 6 ≤ i.cls then 0 else i.m.ctx }

def State.at (s : State) (d e : Nat) : List QMsg := s.sw.items.filter (fun i => i.die == d && i.m.egress == e)

/-- Depth of a queue in cells. -/
def State.depth (s : State) (l : Leaf) : Nat := (s.sw.items.filter (fun i => i.leaf == l)).foldl (fun a i => a + i.held) 0

/-- Cells of a share of die d: 0 dynamic, 1 Zenith, 2 Control, 3 and up a coherence class (R293). -/
def shareOf (cls coh : Nat) : Nat := if coh != 0 then 2 + coh else if cls = 6 then 1 else if cls = 7 then 2 else 0
def shareMax (k : Nat) : Nat := if k = 0 then 223232 else if k = 1 then 32768 else 1024
def State.shareUsed (s : State) (d k : Nat) : Nat :=
  (s.sw.items.filter (fun i => i.die == d && shareOf i.m.cls i.m.coh == k)).foldl (fun a i => a + i.m.cells - i.sent) 0
    + (if k = 0 then s.redCells d else 0)

def State.samp (s : State) (l : Leaf) : Samp :=
  (s.sw.samples.find? (fun x => x.leaf == l)).getD { leaf := l, depthMax := 0, delaySum := 0, delayCount := 0, delayMax := 0 }

def State.setSamp (s : State) (x : Samp) : State :=
  { s with sw := { s.sw with samples := x :: s.sw.samples.filter (fun y => y.leaf != x.leaf) } }

/-- Signed comparison of virtual times (R306). -/
def vlt (a b : Word64) : Bool := (a - b).msb
def vmax (a b : Word64) : Word64 := if vlt a b then b else a

/-- The step Q of a leaf (R305). -/
def State.leafStep (s : State) (l : Leaf) : Nat :=
  let w :=
    if l.cls = 8 then s.ffld (egReg l.die l.e 8) 0 24
    else
      let c := if l.cls = 4 then s.ffld (egReg l.die l.e 4) 0 8 else s.ffld (egReg l.die l.e 0) (8 * l.cls) 8
      c * s.ffld (tmReg l.die l.ctx) 8 8 * s.ffld (tmReg l.die l.ctx) 0 8
  2 ^ 40 / w

def State.vtimeOf (s : State) (d e : Nat) : Word64 := (s.sw.vtime.find? (fun p => p.1 == (d, e))).elim 0 (·.2)
def State.flastOf (s : State) (l : Leaf) : Word64 := (s.sw.flast.find? (fun p => p.1 == l)).elim 0 (·.2)

/-- A message joins its queue; Bulk and coherence messages take a virtual time (R306). DEDUCED, unsafe: notes/assumptions/31.md. -/
def State.enqueue (s : State) (d : Nat) (m : SwMsg) (cut demoted : Bool) : State :=
  let i0 : QMsg := { id := s.sw.nextId, die := d, m := m, f := 0, sent := 0, arrived := m.arrived, cut := cut, tx := false,
                     demoted := demoted, late := false, time := s.now, members := [] }
  let l := i0.leaf
  let fair := l.cls < 5 || l.cls = 8
  let f := if fair then vmax (s.vtimeOf d m.egress) (s.flastOf l) + BitVec.ofNat 64 (m.cells * s.leafStep l) else 0
  let s1 : State := { s with sw := { s.sw with
    items := s.sw.items ++ [{ i0 with f := f }]
    nextId := s.sw.nextId + 1
    flast := if fair then (l, f) :: s.sw.flast.filter (fun p => p.1 != l) else s.sw.flast } }
  let x := s1.samp l
  (s1.setSamp { x with depthMax := max x.depthMax (s1.depth l) }).cellSync d

-- combining ---------------------------------------------------------------------------------------------------------------

/-- Line of a request that the switch core may look at. -/
def combLine : Comb → Nat
  | .rdCur l => l
  | .add a _ _ => a / 64
  | .other l => l

def swLine (m : SwMsg) : Option Nat := m.comb.map combLine

/-- Two requests combine: reads of one line, ADDs of one address and size (R433). -/
def combines : Option Comb → Option Comb → Bool
  | some (.rdCur a), some (.rdCur b) => a == b
  | some (.add a n _), some (.add b m _) => a == b && n == m
  | _, _ => false

/-- The queued entry that a request joins, if any (R433). -/
def State.joins (s : State) (d : Nat) (m : SwMsg) : Option QMsg :=
  match swLine m with
  | none => none
  | some line =>
    let dom := s.lineDom line
    if dom == 0 || !s.fbit (domReg dom 0) 3 then none
    else
      let l := s.at d m.egress
      (l.find? (fun i => combines i.m.comb m.comb && i.sent == 0 && !i.tx && i.members.length < 254)).bind (fun i =>
        let behind := (l.dropWhile (fun j => j.id != i.id)).drop 1
        if behind.any (fun j => (j.m :: j.members).any (fun q => q.ingress == m.ingress && q.ctx == m.ctx && swLine q == some line))
        then none else some i)

/-- The request joins: the message carries the sum of the operands. -/
def joinMsg (i : QMsg) (m : SwMsg) : QMsg :=
  let c := match i.m.comb, m.comb with
    | some (.add a n x), some (.add _ _ y) => some (Comb.add a n ((x + y) % 2 ^ (8 * n)))
    | c, _ => c
  { i with m := { i.m with comb := c }, members := i.members ++ [m] }

def State.setItem (s : State) (i : QMsg) : State := { s with sw := { s.sw with items := s.sw.items.map (fun j => if j.id == i.id then i else j) } }

-- ingress -----------------------------------------------------------------------------------------------------------------

/-- A Zenith cell that came over ZFL and has no ingress entry travels as Bulk4 (R97). -/
def State.unmatched (s : State) (m : SwMsg) : Bool :=
  m.cls == 6 && 0x40 ≤ m.ingress && m.ingress < 0x80
    && !(s.eph.active.any (fun g => g.link.any (fun x => x.port == m.ingress && x.dir == 0 && x.flow == m.flow)))

/-- R296, judged as the first cell is written. -/
def State.cutThrough (s : State) (d : Nat) (m : SwMsg) (colour : Nat) (demoted : Bool) : Bool :=
  (s.at d m.egress).isEmpty && s.egressRate d m.egress ≤ s.ingressRate d m.ingress && 0x0C ≤ m.egress
    && (m.coh != 0 || 6 ≤ m.cls || s.gateFits d m.egress m.cls m.cells) && colour < 2 && !demoted

/-- The queue or share has no room for the cells of a message: the sender holds no credit for them (R293, R294).
DEDUCED, unsafe: notes/assumptions/31.md. -/
def State.noRoom (s : State) (d : Nat) (m : SwMsg) (demoted : Bool) : Bool :=
  let k := shareOf m.cls m.coh
  let l : Leaf := { die := d, e := m.egress, cls := if demoted then 5 else m.cls, ctx := m.ctx }
  shareMax k < s.shareUsed d k + m.cells || (k = 0 && (s.frd (egReg d m.egress 0xC)).toNat < s.depth l + m.cells)

/-- A traffic class or coherence message class (R34). -/
def swKind (m : SwMsg) : Nat := if m.coh != 0 then 7 + m.coh else m.cls

/-- A message is held back for credit, and its class at its ingress with it, until its queue has room (R294, R295). -/
def State.stall (s : State) (d : Nat) (m : SwMsg) (demoted : Bool) : State :=
  let rest := s.sw.stalled.filter (fun p => !(p.1 == d && p.2.1.ingress == m.ingress && swKind p.2.1 == swKind m))
  { s with sw := { s.sw with stalled := (d, m, demoted) :: rest } }

/-- Stalls end where room has come (R294). -/
def State.unstall (s : State) (d : Nat) : State :=
  { s with sw := { s.sw with stalled := s.sw.stalled.filter (fun p => p.1 != d || s.noRoom d p.2.1 p.2.2) } }

/-- The message that a die-to-die path gives die d next in the class of m, as it was sent (R33, R34). -/
def State.pathHead (s : State) (d : Nat) (m : SwMsg) : Option (Nat × Bool × SwMsg) :=
  s.sw.path.find? (fun p => p.1 == ingressDie m.ingress && p.2.2.egress == 0x20 + d && swKind p.2.2 == swKind m)

/-- A message may enter the switch core of die d: from the die's own ports and units; or off the direct path from the die where it entered the
module, and then it goes over no further path (R33). -/
def State.enters (s : State) (d : Nat) (m : SwMsg) : Bool :=
  validEgress d m.egress && (ingressDie m.ingress == d || (!(0x20 ≤ m.egress && m.egress < 0x24)
    && (s.pathHead d m).any (fun p => { p.2.2 with egress := m.egress, arrived := m.arrived, trunk := m.trunk } == m)))

/-- The path's buffer gives its message up. -/
def State.offPath (s : State) (d : Nat) (m : SwMsg) : State :=
  if ingressDie m.ingress = d then s
  else match s.pathHead d m with
    | some p => { s with sw := { s.sw with path := s.sw.path.erase p } }
    | none => s

/-- MESSAGE_INGRESS (R296, R314-R318, R433). DEDUCED, unsafe: notes/assumptions/31.md. -/
def State.ingress (s : State) (d : Nat) (m0 : SwMsg) : State :=
  let un := s.unmatched m0
  let s0 := s.when un (·.sat (ephReg d 0x48) m0.cells)
  let m := if un then { m0 with cls := 4 } else m0
  let was := ingressDie m0.ingress != d && (s.pathHead d m0).any (·.2.1)
  if !s.enters d m0 then s
  else
    let p := s0.police d m
    if p.2.2.2 then p.1.sat (dieReg d 0x518) 1
    else
      let dem := p.2.2.1 || was
      if s0.noRoom d m dem then s.stall d m dem
      else
        let q := p.1.offPath d m0
        match if dem then none else q.joins d m with
        | some i =>
          let s1 := q.setItem (joinMsg i m)
          match m.comb with
          | some (.rdCur _) => s1.sat (dieReg d 0x780) 1
          | _ => s1.sat (dieReg d 0x784) 1
        | none =>
          let cut := q.cutThrough d m p.2.1 dem
          let m1 := if cut then m else { m with arrived := m.cells }
          let s1 := (q.enqueue d { m1 with colour := p.2.1 } cut dem).sat (dieReg d (if cut then 0x50C else 0x510)) 1
          s1.when p.2.2.1 (·.sat (dieReg d 0x51C) 1)

def execMessageIngress (die : Nat) (m : SwMsg) (s : State) : Host.Outcome State Fault Refusal :=
  .next (s.when (s.ready && s.dieUp die) (·.ingress die m))

/-- Number of a credit field of the link block: streams 0-5 and 8-12 (R452). DEDUCED, unsafe: notes/assumptions/33.md. -/
def creditStream (i : Nat) : Nat := if i < 6 then i else i + 2

/-- CREDIT_RETURN: cells have left cell memory and credits for them go back, up to `LP_CREDIT_MAX` outstanding, unless the class is held back
(R294, R454). -/
def execCreditReturn (link stream cells : Nat) (s : State) : Host.Outcome State Fault Refusal :=
  .next (s.when (s.ready && s.fld (linkBlock link) 0 3 == 2 && !s.sw.stalled.any (fun p => p.2.1.ingress == 0x40 + link && swKind p.2.1 == creditStream stream)
      && cells != 0 && s.givenOf link (creditStream stream) + cells ≤ s.creditMax)
    (fun t => (t.setGiven link (creditStream stream) (t.givenOf link (creditStream stream) + cells)).emit (.credit link (creditStream stream) cells)))

-- egress ------------------------------------------------------------------------------------------------------------------

/-- No earlier message of its flow waits at the egress (R301, R318). -/
def inOrder (l : List QMsg) (i : QMsg) : Bool := !(l.takeWhile (fun j => j.id != i.id)).any (fun j => flowKey j.m == flowKey i.m)

/-- Which of two queued messages of the coherence leaf goes first: the later class, then arrival (R304, R422). -/
def cohHead (l : List QMsg) : Option QMsg :=
  (l.filter (fun i => i.m.coh != 0)).foldl (fun b i => match b with
    | none => some i
    | some j => if j.m.coh < i.m.coh then some i else some j) none

/-- Head messages of the leaves: the coherence leaf's, and the oldest of each Bulk class and context. -/
def leafHeads (l : List QMsg) : List QMsg :=
  (cohHead l).toList ++ (l.filter (fun i => i.cls < 5)).filter (fun i => (l.find? (fun j => j.leaf == i.leaf)).any (fun j => j.id == i.id))

/-- Order of R306: least F; ties to the coherence leaf, the lower class, the lower `CTX_ID`. -/
def fairBefore (a b : QMsg) : Bool :=
  if a.f == b.f then
    let ka := if a.cls = 8 then 0 else 1 + 1024 * a.cls + a.m.ctx
    let kb := if b.cls = 8 then 0 else 1 + 1024 * b.cls + b.m.ctx
    ka < kb
  else vlt a.f b.f

def fairPick (l : List QMsg) : Option QMsg :=
  l.foldl (fun b i => match b with
    | none => some i
    | some j => if fairBefore i j then some i else some j) none

/-- Rule 6: Nadir queues round-robin in ascending `CTX_ID` after the one served last. -/
def nadirPick (l : List QMsg) (last : Option Nat) : Option QMsg :=
  let heads := (l.filter (fun i => i.cls == 5)).filter (fun i => (l.find? (fun j => j.leaf == i.leaf)).any (fun j => j.id == i.id))
  let least (m : List QMsg) : Option QMsg := m.foldl (fun b i => match b with
    | none => some i
    | some j => if i.m.ctx < j.m.ctx then some i else some j) none
  match last with
  | none => least heads
  | some c => (least (heads.filter (fun i => c < i.m.ctx))).orElse (fun _ => least heads)

/-- One cell of item i leaves, with the colour that its message has (R316); the delay ends with its first cell (R319, R522). After its last cell
a message for another die is in its path's buffer. -/
def State.sendCell (s : State) (i : QMsg) : State :=
  let d := i.die
  let e := i.m.egress
  let x := s.samp i.leaf
  let s1 := if i.sent = 0 then
      s.setSamp { x with
        delaySum := x.delaySum + (s.now - i.time), delayCount := x.delayCount + 1, delayMax := max x.delayMax (s.now - i.time) }
    else s
  let j : QMsg := { i with sent := i.sent + 1, arrived := max i.arrived (i.sent + 1), tx := true }
  let crosses := 0x20 ≤ e && e < 0x24
  let s2 := if j.sent < i.m.cells then s1.setItem j
    else { s1 with sw := { s1.sw with
      items := s1.sw.items.filter (fun k => k.id != i.id)
      path := if crosses then s1.sw.path ++ [(d, i.demoted, i.m)] else s1.sw.path } }
  let s3 := (s2.emit (.cell d e i.m.cls i.m.ctx i.sent i.m.colour)).progress (.switch d)
  let s4 := if e < 0x0C then s3.progress (.host (12 * d + e)) else if 0x10 ≤ e && e < 0x20 then s3.progress (.link (16 * d + e - 0x10)) else s3
  (s4.cellSync d).unstall d

/-- The cell of a message in transmission, or its stomp when the next cell is not there (R297). -/
def State.continueTx (s : State) (i : QMsg) (ready : Bool) : State :=
  if i.cut && !ready && i.arrived ≤ i.sent then
    (((({ s with sw := { s.sw with items := s.sw.items.filter (fun k => k.id != i.id) } }).emit (.stomp i.die i.m.egress)).sat
      (dieReg i.die 0x514) 1).cellSync i.die).unstall i.die
  else s.sendCell i

/-- Rules 4 to 6 of R303. -/
def State.dynamicPosition (s : State) (d e : Nat) (ready : Bool) : State :=
  let l := s.at d e
  match l.find? (fun i => i.tx && i.cls != 6 && i.cls != 7) with
  | some i => s.continueTx i ready
  | none =>
    let ok (i : QMsg) : Bool := i.cls == 8 || (s.gateFits d e i.m.cls i.m.cells && inOrder l i)
    match fairPick ((leafHeads l).filter ok) with
    | some i =>
      let v := ((d, e), i.f) :: s.sw.vtime.filter (fun p => p.1 != (d, e))
      ({ s with sw := { s.sw with vtime := v } }).sendCell i
    | none =>
      match nadirPick (l.filter (fun i => i.cls != 5 || (s.gateFits d e 5 i.m.cells && inOrder l i)))
          ((s.sw.nadir.find? (fun p => p.1 == (d, e))).map (·.2)) with
      | some i =>
        let n := ((d, e), i.m.ctx) :: s.sw.nadir.filter (fun p => p.1 != (d, e))
        ({ s with sw := { s.sw with nadir := n } }).sendCell i
      | none => s.emit (.idleCell d e)

/-- A position is filled by the first rule that applies (R303): rules 1 and 2 in reserved positions; rule 3, late Zenith cells, only where
nothing is reserved (R97). -/
def State.fill (s : State) (d e : Nat) (pos : Position) (ready : Bool) : State :=
  let l := s.at d e
  match pos with
  | .control => (match l.find? (fun i => i.cls == 7) with
    | some i => s.continueTx i ready
    | none => s.emit (.idleCell d e))
  | .zenith flow => (match l.find? (fun i => i.cls == 6 && !i.late && i.m.flow == flow) with
    | some i => s.continueTx i ready
    | none => s.dynamicPosition d e ready)
  | .free => (match l.find? (fun i => i.cls == 6 && i.late) with
    | some i => s.continueTx i ready
    | none => s.dynamicPosition d e ready)

/-- One position of the slot is used. -/
def State.usePosition (s : State) (d e : Nat) : State :=
  { s with sw := { s.sw with served := ((d, e), s.usedPositions d e + 1) :: s.sw.served.filter (fun p => p.1 != (d, e)) } }

/-- EGRESS_POSITION: the next position of the slot, while the slot has one left (R87, R303). -/
def State.position (s : State) (d e : Nat) (ready : Bool) : State :=
  if s.usedPositions d e < s.egressRate d e then (s.fill d e (s.nextPosition d e) ready).usePosition d e else s

def execEgressPosition (die e : Nat) (ready : Bool) (s : State) : Host.Outcome State Fault Refusal :=
  .next (s.when (s.ready && s.dieUp die && validEgress die e) (·.position die e ready))

/-- TM_TELEM_RD_WRITE (R321). -/
def execTmTelemRdWrite (port die : Nat) (v : Word) (s : State) : Host.Outcome State Fault Refusal :=
  .next (s.reg (.tmTelemRdWrite port die v) port (dieReg die 0x540) (fun t => readIndex t (dieReg die 0x540) (dieReg die 0x53C) v))

-- slots and frames ----------------------------------------------------------------------------------------------------------

/-- A slot begins: its link entries that are skipped, or find no cell of their flow at their egress, are counted (R95).
DEDUCED, unsafe: notes/assumptions/18.md. -/
def State.linkSlot (s : State) (slot : Nat) : State :=
  s.each (s.slotEntries s.time.frame slot) (fun x t =>
    let p := portPlace x.port
    if t.linkSkipped x then t.sat (ephReg p.1 0x3C) 1
    else t.when (x.out && !(t.at p.1 p.2).any (fun i => i.cls == 6 && i.m.flow == x.flow)) (·.sat (ephReg p.1 0x38) 1))

/-- A slot ends: buckets gain, gate entries run down, the slots of every ZFL direction count up (R453), and slot `next` of the frame begins (R310, R315).
DESIGN CHOICE, safe: notes/assumptions/64.md. -/
def State.slotTick (s : State) (next : Nat) : State :=
  let t : State := { s with
    sw := { s.sw with
      buckets := s.sw.buckets.map s.bucketGain
      gates := s.sw.gates.map (fun g => if s.gateOn g.die g.e then { g with left := g.left - 1 } else g)
      served := [] }
    link := { s.link with ports := s.link.ports.map (fun p => if p.key.isEmpty then p else { p with txSlots := p.txSlots + 1 }) } }
  t.when (next < s.time.units) (·.linkSlot next)

/-- SLOT_BOUNDARY: the next slot of the frame; the last slot's end is the frame boundary (R57, R315). -/
def execSlotBoundary (s : State) : Host.Outcome State Fault Refusal :=
  .next (if s.ready && s.time.slot + 1 < s.time.units then
      let t := (s.slotTick (s.time.slot + 1)).atCycle (225 * (s.time.slot + 1))
      { t with time := { t.time with slot := s.time.slot + 1 } }
    else s)

/-- Zenith cells that missed their frame are late (R97). -/
def State.zenithLate (s : State) : State :=
  let l := s.sw.items.filter (fun i => i.cls == 6 && !i.late)
  (s.each l (fun i t => t.setItem { i with late := true })).each l (fun i t => t.sat (ephReg i.die 0x44) (i.m.cells - i.sent))

/-- Leaves of die d in the order of R320. -/
def sampBefore (a b : Samp) : Bool :=
  let key (x : Samp) : Nat := x.leaf.e * 2 ^ 16 + (if x.leaf.cls = 8 then 2 ^ 15 else x.leaf.cls * 2 ^ 10) + x.leaf.ctx
  key a ≤ key b

/-- One telemetry record (R320). -/
def State.telemRecord (s : State) (x : Samp) : List Byte :=
  let l := x.leaf
  let u (n : Nat) : Nat := min 0xFFFFFF (n * 5 / 72)
  leBytes 16 (l.e + 2 ^ 8 * (if l.cls = 8 then 8 else l.cls) + 2 ^ 16 * l.ctx + 2 ^ 32 * s.depth l + 2 ^ 52 * x.depthMax
    + 2 ^ 72 * u x.delayMax + 2 ^ 96 * (if x.delayCount = 0 then 0 else min 0xFFFFFF (x.delaySum * 5 / (72 * x.delayCount))) + 2 ^ 120 * (s.time.frame % 256))

/-- Sampling of die d at a frame boundary (R320). -/
def State.telemDie (s : State) (d : Nat) : State :=
  let n := s.ffld (dieReg d 0x538) 16 8
  if !s.fbit (dieReg d 0x538) 0 || n = 0 || s.time.frame % n != 0 then s
  else
    let l := orderBy sampBefore (s.sw.samples.filter (fun x => x.leaf.die == d && (x.depthMax != 0 || s.depth x.leaf != 0)))
    let size := 2 ^ s.ffld (dieReg d 0x538) 4 5
    let base := (s.rd (dieReg d 0x530)).toNat + 2 ^ 32 * (s.rd (dieReg d 0x534)).toNat
    let s1 := s.each l (fun x t =>
      if (t.rd (dieReg d 0x53C) - t.rd (dieReg d 0x540)).toNat = size then (t.sat (dieReg d 0x544) 1).set (dieReg d 0x520) 0x2
      else (t.write (base + 16 * ((t.rd (dieReg d 0x53C)).toNat % size)) (t.telemRecord x)).wrap (dieReg d 0x53C) 1)
    { s1 with sw := { s1.sw with samples := (s1.sw.samples.filter (fun x => x.leaf.die != d || s1.depth x.leaf != 0)).map (fun x =>
        if x.leaf.die == d then { leaf := x.leaf, depthMax := s1.depth x.leaf, delaySum := 0, delayCount := 0, delayMax := 0 } else x) } }

/-- The egresses of a die. -/
def egresses (d : Nat) : List Nat := (List.range 0x25).filter (validEgress d)

/-- The traffic manager's part of a frame boundary, before the new frame begins (R310, R313, R317, R320, R326). -/
def State.switchFrame (s : State) (changed : List Nat) : State :=
  let full (t : State) : State := { t with sw := { t.sw with buckets := t.sw.buckets.filter (fun b =>
    !changed.any (fun o => polReg b.die b.pol 0 ≤ o && o < polReg b.die b.pol 0x14)) } }
  let s1 := full s
  (s1.each (List.range 4) (fun d t => (t.each (egresses d) (fun e u => u.gateCycle d e)).telemDie d)).zenithLate

end Sys2Proof.Machine
end

