-- ==== Sys2Proof/Machine/Hangs.lean ====
section
/-! DEFINITION. Hang detection and its actions, and the searches, at a frame boundary (R522-R529). -/

namespace Sys2Proof.Machine

-- searches ----------------------------------------------------------------------------------------------------------------

/-- Frame of the last step boundary of context x (R518). -/
def State.stepFrame (s : State) (x : Nat) : Nat := s.rd64 (healthReg x 8)

/-- The replay of suspect x begins (R526): the engine's granules are invalidated, and its operations on the engine since its step boundary
run once each. -/
def State.replayStart (s : State) (h : Search) (x : Nat) : State :=
  let e := h.engine
  let mine := s.health.history.filter (fun k => k.engine == e)
  let short := mine.any (fun k => s.stepFrame x < k.frame) && !mine.any (fun k => k.frame ≤ s.stepFrame x)
  let n := (mine.filter (fun k => k.ctx == x && s.stepFrame x ≤ k.frame)).length
  let t : State := { s with health := { s.health with
    watch := s.health.watch.filter (fun w => w.unit != HUnit.engine e) } }
  ((((t.scrClear e 0 64).wrn (engineBlock e + 4) (4 + 2 ^ 16 * x)).when short (·.hmEvent 0x800)).setSearch
    { h with replaying := true, left := n }).searchSync

/-- Searches at a frame boundary: the next suspect's replay begins, or no suspect is left (R526-R528). -/
def State.searchFrame (s : State) : State :=
  s.each (s.health.searches.filter (fun h => !h.replaying)) (fun h t =>
    match h.suspects with
    | [] => t.engineFaulty h
    | x :: _ => t.replayStart h x)

/-- The suspects of a hang on engine e (R525, R526): the stopped operation's context, then those of the history, the latest start first.
DEDUCED, unsafe: notes/assumptions/45.md. -/
def State.suspectsOf (s : State) (e x : Nat) : List Nat :=
  let l := s.health.history.filter (fun k => k.engine == e && s.time.frame ≤ k.frame + s.health.window)
  let last (c : Nat) : Nat := (l.filter (fun k => k.ctx == c)).foldl (fun m k => max m k.frame) 0
  let before (a b : Nat) : Bool := decide (last b < last a) || (last a == last b && decide (a ≤ b))
  (x :: orderBy before ((l.map (·.ctx)).eraseDups.filter (· != x))).filter s.serving

/-- An engine is found hung while it runs operation o (R525). -/
def State.engineHang (s : State) (e : Nat) (o : Op) : State :=
  let xs := s.suspectsOf e o.ctx
  let t := (((((s.wrf (engineBlock e + 0x14) 1).putBack o).scrClear e 0 64).scrClear e o.scr o.gran).set
    (dieReg (e / 64) (0x800 + e % 64 / 32 * 4)) (BitVec.ofNat 32 (2 ^ (e % 32)))).hmEvent 1
  let h : Search := { engine := e, suspects := xs, replaying := false, left := 0 }
  let u : State := { (t.errLog 2 0 e o.ctx 0 0) with health := { (t.errLog 2 0 e o.ctx 0 0).health with searches := t.health.searches ++ [h] } }
  (u.each xs (fun x v => v.suspectSync x)).searchSync

-- work --------------------------------------------------------------------------------------------------------------------

/-- Requests of host port n that wait for something other than a link that is down (R522, R523). -/
def State.hostWork (s : State) (n : Nat) : Bool :=
  s.hostUp n && (s.sw.items.any (fun i => i.die == n / 12 && i.m.egress == n % 12)
    || s.link.awaits.any (fun a => (match a.who with
      | .host p _ _ _ => p == n
      | _ => false) && s.link.replay.all (fun r => r.msg.addr != a.addr || r.peer != a.peer || s.linkUp r.link))
    || (s.coh.txns.any (fun t => t.req.agent == .host n && t.req.kind != .recall))
    || s.coh.waitq.any (fun r => r.agent == .host n && r.kind != .recall)
    || s.flash.held.any (fun h => match h.2.2.2 with
      | .memWrite p _ _ _ _ => p == n
      | .atomicOp p _ _ => p == n
      | _ => false))

/-- Cells queued for link port l, or messages that await acknowledgement on it. -/
def State.linkWork (s : State) (l : Nat) : Bool :=
  s.linkUp l && (s.sw.items.any (fun i => i.die == l / 16 && i.m.egress == 0x10 + l % 16) || s.link.replay.any (fun r => r.link == l && r.sent))

/-- Engines with work: an operation or a replay runs there. -/
def State.engineWork (s : State) (e : Nat) : Bool := (s.engineOp e).isSome || (s.searchOn e).any (·.replaying)

/-- An operation is held at a home or a tray link: it waits for a host that owns a line it reads, or, carried out, for what it wrote to be
taken or given up (R144, R385, R522). -/
def State.opAtHome (s : State) (o : Op) : Bool :=
  s.coh.curs.any (fun c => c.reader == .op o.id && !c.done) || (match o.phase with
    | .executed _ => s.cacheBusy o.ctx || s.invalBusy o.ctx
    | _ => false)

/-- Queues with work: an operation on an engine or held at a home or tray link, that no held message keeps, or an open stream reduction. -/
def State.queueWork (s : State) : List Nat :=
  ((s.ops.filter (fun o => ((o.onEngine && o.engine.isSome) || s.opAtHome o) && !s.opHeld o)).map (·.queue)
    ++ (s.reds.filter (·.isOpen)).map (·.queue)).eraseDups

/-- Progress that the model does not hold: lines an engine has moved, flits of a host port (notes/assumptions/2.md).
DESIGN CHOICE, unsafe in part: notes/assumptions/29.md. -/
def State.freeProgress (s : State) (u : HUnit) : State :=
  let f := s.fresh
  let t := match u with
    | .engine e => f.2.wrap (engineBlock e + 8) f.1.toNat
    | _ => f.2
  t.when (f.1 != 0) (·.progress u)

/-- Units with work of one kind are watched: the state, and those found hung at this boundary (R523). A unit that stands on is not found
again. -/
def State.watchUnits (s : State) (kind : HUnit → Bool) (units : List HUnit) : State × List HUnit :=
  let count (u : HUnit) : Nat := (s.health.counts.find? (fun p => p.1 == u)).elim 0 (·.2)
  let next (u : HUnit) : Watch :=
    match s.health.watch.find? (fun w => w.unit == u && w.count == count u) with
    | some w => { w with stood := w.stood + 1 }
    | none => { unit := u, count := count u, stood := 0 }
  let l := units.map next
  ({ s with health := { s.health with watch := s.health.watch.filter (fun w => !kind w.unit) ++ l } },
   (l.filter (fun w => w.stood == s.health.window)).map (·.unit))

-- actions -----------------------------------------------------------------------------------------------------------------

/-- A switch core is found hung: its die is reset, or the hang is logged (R522). The manual gives the record no kind, so the kind is free.
DESIGN CHOICE, unsafe in part: notes/assumptions/29.md. -/
def State.switchHang (s : State) (d : Nat) : State :=
  if s.bit 0x800 17 then (if d = 0 then s.moduleReset 2 else s.dieReset d)
  else s.fresh.2.errLog (s.fresh.1.toNat % 256) 0 d noCtx 0 0

/-- What a hang of a unit leads to (R522). -/
def State.hang (s : State) (u : HUnit) : State :=
  match u with
  | .stack k => ((s.stackRetrain k).hmEvent 8).errLog 5 0 k noCtx 0 0
  | .switch d => s.switchHang d
  | .host n => ((s.hpDown n 3).hmEvent 4).errLog 4 0 n noCtx 0 0
  | .link l => ((s.lpRetrain l).hmEvent 4).errLog 4 0 (0x40 + l) noCtx 0 0
  | .engine e =>
    (match s.engineOp e, s.searchOn e with
      | some o, _ => s.engineHang e o
      | none, some h => (match h.suspects with
        | x :: _ => s.guilty h x
        | [] => s)
      | none, none => s)
  | .queue q =>
    let x := s.ffld (queueBlock q) 0 10
    ((s.fault x 4).hmEvent 2).errLog 3 0 q x 0 4

/-- One kind of unit is judged, and what is found acts. -/
def State.judge (s : State) (kind : HUnit → Bool) (units : List HUnit) : State :=
  let r := s.watchUnits kind units
  r.1.each r.2 (fun u t => t.when t.ready (·.hang u))

def isSwitch : HUnit → Bool
  | .switch _ => true
  | _ => false
def isPort : HUnit → Bool
  | .host _ => true
  | .link _ => true
  | _ => false
def isEngine : HUnit → Bool
  | .engine _ => true
  | _ => false
def isQueue : HUnit → Bool
  | .queue _ => true
  | _ => false

/-- Hang detection (R522, R523): switch cores, ports, engines, queues. An access of the model is served in the command that makes it, so no
stack controller holds one across a boundary. In Retain it is suspended, and starts afresh. -/
def State.hangFrame (s : State) : State :=
  if s.pwr.state == 2 then { s with health := { s.health with watch := [] } }
  else
    let s1 := s.judge isSwitch (((List.range 4).filter (fun d => s.sw.items.any (fun i => i.die == d))).map HUnit.switch)
    let hosts := ((List.range 48).filter s1.hostWork).map HUnit.host
    let s2 := s1.each hosts (fun u t => t.freeProgress u)
    let s3 := s2.when s2.ready (fun t => t.judge isPort (hosts ++ ((List.range 64).filter t.linkWork).map HUnit.link))
    let engines := ((List.range 256).filter s3.engineWork).map HUnit.engine
    let s4 := s3.each engines (fun u t => t.freeProgress u)
    let s5 := s4.when s4.ready (fun t => t.judge isEngine engines)
    s5.when s5.ready (fun t => t.judge isQueue (t.queueWork.map HUnit.queue))

end Sys2Proof.Machine
end

