-- ==== Sys2Proof/Machine/Boundary.lean ====
section
/-! DEFINITION. The frame boundary (R57, R62, R63, R67): time, protection changes, power states, firmware decisions, epoch actions, and the
Control cells of the new frame. -/

namespace Sys2Proof.Machine

-- time --------------------------------------------------------------------------------------------------------------------

/-- The number of the next frame, and network time and offset at its start (R57, R62, R63). While no Ephemeris runs and network time is
there, the grid steps into alignment; else a frame is longer or shorter by at most 8 ns of the offset. DESIGN CHOICE, safe: notes/assumptions/7.md.
DEDUCED, unsafe: notes/assumptions/8.md. -/
def State.frameNext (s : State) : Nat × Nat × Int × Bool :=
  let t := s.time
  let net := t.net + s.periodNs
  let n := (net + s.periodNs / 2) / s.periodNs
  let timed := s.timeState == 1 || s.timeState == 2
  if timed && !s.runsEph && (s.timeState == 1 || n != t.frame + 1) then (n, n * s.periodNs, 0, true)
  else
    let d : Int := if timed then max (-8) (min 8 t.offset) else 0
    (t.frame + 1, ((net : Int) + d).toNat, t.offset - d, false)

/-- The new frame begins: slots that were left have ended, and the drain of a flip goes on for as many frames as it had. -/
def State.frameTime (s : State) : State :=
  let r := s.frameNext
  let len := if r.2.2.2 then s.frameLen else (r.2.1 - s.time.net) * 9 / 5
  let s1 := (s.elapse (len - s.time.cycle)).each (List.range (s.time.units - s.time.slot)) (fun k t => t.slotTick (s.time.slot + k + 1))
  let t : TimeS := { s.time with
    frame := r.1
    slot := 0
    cycle := 0
    frameBase := s.time.frameBase + (r.2.1 - s.time.net) * 9 / 5
    net := r.2.1 }
  let drain := if s.time.frame + 1 < s.eph.drainEnd then r.1 + (s.eph.drainEnd - (s.time.frame + 1)) else min s.eph.drainEnd r.1
  let s2 : State := { s1 with
    time := t
    eph := { s1.eph with drainEnd := drain }
    health := { s1.health with notified := false }
    tier := { s1.tier with migUsed := [] } }
  let s3 := s2.when r.2.2.2 (·.set 0x114 4)
  s3.when (s.timeState == 1 || s.timeState == 2) (·.ptp r.2.1 r.2.2.1)

/-- The frame that begins is the first of an epoch (R68). -/
def State.epochStart (s : State) : Bool := s.time.frame % s.epochLen == 0

-- protection --------------------------------------------------------------------------------------------------------------

/-- Tier and flash policy registers, which change at an epoch boundary (R346, R351, R402). -/
def epochRegs : List Nat := [0x200, 0x204, 0x208, 0x20C, 0x210, 0x304, 0x308, 0x30C, 0x310]

/-- Protection registers take effect (R14, R67). DEDUCED, unsafe: notes/assumptions/9.md. -/
def State.protect (s : State) : State :=
  let f := if s.epochStart then s.regs else epochRegs.foldl (fun m o => sset resetVal m o (s.frd o)) s.regs
  { s with force := f }

/-- Offsets whose value in force changed since `old`. -/
def State.changedRegs (s : State) (old : List (Nat × Word)) : List Nat :=
  ((s.force.filter (fun p => !old.contains p)) ++ (old.filter (fun p => !s.force.contains p))).map (·.1)

/-- Rights on pages take effect; the range of a command whose `BUSY` has not cleared keeps its old ones, and a new page reads as zero
(R334, R338, R339, R494). -/
def State.pageRights (s : State) : State :=
  let busy (p : Nat) : Bool := s.tier.cmd.any (fun c => decide (c.2.1 ≤ p) && decide (p < c.2.1 + c.2.2))
  let kept := s.tier.rights.filter (fun r => busy r.1)
  let new := (s.tier.pages.filter (fun g => !busy g.page)).map (fun g => (g.page, g.entry))
  let fresh := s.tier.pages.filter (fun g => g.isNew && !busy g.page)
  let s1 := s.each fresh (fun g t => t.zeroPage g.page)
  let pages := s1.tier.pages.map (fun (g : Page) => if busy g.page then g else { g with isNew := false })
  { s1 with tier := { s1.tier with rights := kept ++ new, pages := pages, cmdDone := false, gone := s1.tier.gone.filter (fun g => busy g.page) } }

-- power -------------------------------------------------------------------------------------------------------------------

/-- Conditions of IDLE and of RETAIN (R573). DEDUCED, unsafe: notes/assumptions/50.md. -/
def State.idleOk (s : State) : Bool := !s.runsEph && s.ops.isEmpty
def State.retainOk (s : State) : Bool :=
  s.idleOk && !s.reds.any (·.isOpen) && !s.tier.pages.any (fun g => g.move.isSome) && s.ctx.occ.isEmpty
    && (List.range 4).all (fun d => s.fld 0x10 (4 * d) 4 == 3 || s.fld 0x10 (4 * d) 4 == 4)
    && (List.range 16).all (fun r => !s.mirrorValid r || s.mirrorState r ≤ 1) && s.updState != 3

/-- A transition begins (R575): out of Full, the engines' clocks stop (R196, R572). DEDUCED, unsafe: notes/assumptions/50.md. -/
def State.goPower (s : State) (g : Nat) : State :=
  ({ s with pwr := { s.pwr with going := some g, state := if g = 0 then s.pwr.state else g } } : State).when (g != 0) (·.engineClocks false)

/-- The module leaves Idle or Retain (R574). DEDUCED, unsafe: notes/assumptions/50.md. -/
def State.wakeUp (s : State) : State := s.when (s.pwr.state != 0) (fun t => (t.goPower 0).set 0x908 2)

/-- A pending `PWR_CMD` other than OFF. -/
def State.powerCmd (s : State) (op : Nat) : State :=
  let t : State := ({ s with pwr := { s.pwr with cmd := none } }).clr 0x900 4
  match op with
  | 1 => t.wakeUp
  | 2 => if !t.idleOk then t.set 0x908 1 else t.when (t.pwr.state == 0) (·.goPower 1)
  | _ => if !t.retainOk then t.set 0x908 1 else t.when (t.pwr.state != 2) (·.goPower 2)

/-- Power at a frame boundary (R67, R573, R574): a command first; what woke the module then counts at the next boundary. -/
def State.powerFrame (s : State) : State :=
  if s.pwr.going.isSome then s
  else
    let t := match s.pwr.cmd with
      | some op => s.powerCmd op
      | none => s
    if t.pwr.going.isSome then t
    else ({ t with pwr := { t.pwr with wake := false } }).when t.pwr.wake (·.wakeUp)

-- dies and stacks -----------------------------------------------------------------------------------------------------------

/-- Decided retrains and resets begin, and dies that were in reset come out of it (R38, R529, R531, R533). A reset of die 0 is a module
reset (R23), whose cause is that of a hang: DEDUCED, unsafe: notes/assumptions/47.md. -/
def State.dieFrame (s : State) : State :=
  if s.health.dieCmds.contains 0 then s.moduleReset 2
  else
    let out := s.health.resetting.filter (fun d => s.fld 0x10 (4 * d) 4 == 1)
    let t : State := { s with health := { s.health with dieCmds := [], stackCmds := [] } }
    let s1 := t.each (s.health.stackCmds.filter (fun k => !s.health.stackRetraining.contains k)) (fun k u => u.stackRetrain k)
    let s2 := s1.each (s.health.dieCmds.filter (fun d => !s.health.resetting.contains d)) (fun d u => u.dieReset d)
    s2.each out (fun d u => u.dieRetrain d)

-- faults, aborts, context commands --------------------------------------------------------------------------------------

/-- Every queue of a context has `ENABLE` cleared (R519, R538). DEDUCED, unsafe: notes/assumptions/43.md. -/
def State.queuesOff (s : State) (x : Nat) : State := s.each (s.queuesOf x) (fun q t => (qDisable t q).clr (queueBlock q + 4) 1)

/-- The record of an abort: a received one names the link port it came in on (R546). DESIGN CHOICE, unsafe in part: notes/assumptions/49.md. -/
def State.abortLog (s : State) (a : Abort) (x : Nat) : State :=
  match a.from? with
  | some l => s.errLog 0xB 0 (0x40 + l) x 0 a.serial
  | none => s.errLogOpen 0xA x 0 a.serial

/-- A context that this module holds at a generation is aborted (R538). -/
def State.abortTag (s : State) (a : Abort) (x gen : Nat) : State :=
  if !s.serving x || s.ctxGen x != gen then s
  else
    let t := (((s.endOps x .abortedFabric).queuesOff x).set (healthReg x 4) 0x40)
    (t.wrFld (healthReg x 4) 16 16 (min 0xFFFF (t.fld (healthReg x 4) 16 16 + 1))).abortLog a x

/-- Aborts decided or received since the last boundary; none while in Retain (R538, R576). -/
def State.abortFrame (s : State) : State :=
  if s.pwr.state == 2 then s
  else
    let l := s.ctx.aborts.filter (fun a => !a.acted)
    let done := s.ctx.aborts.map (fun (a : Abort) => { a with acted := true })
    let t : State := { s with ctx := { s.ctx with aborts := done } }
    t.each l (fun a u => (u.hmEvent (if a.from?.isSome then 0x100 else 0x80)).each a.tags (fun g v => v.abortTag a g.1 g.2))

/-- The recovery controller's own commands on a fault (R521): a fabric abort, and OCCULT in place of what owner software wrote. -/
def State.faultFollow (s : State) (x reason : Nat) : State :=
  let t := s.when (s.bit (healthReg x 0) 16) (·.abortStart x reason)
  t.when (t.bit (healthReg x 0) 15) (fun u =>
    let mine := u.ctx.cmds.filter (fun c => c.ctx == x)
    let v : State := { u with ctx := { u.ctx with cmds := u.ctx.cmds.filter (fun c => c.ctx != x) } }
    (v.each mine (fun _ w => w.ctxRefuse x)).ctxCommand x 2 0)

/-- One more fault of a context is counted and logged. -/
def State.faultCount (s : State) (f : CtxFault) : State :=
  let o := healthReg f.ctx 4
  (s.wrFld o 8 8 (min 0xFF (s.fld o 8 8 + 1))).errLogOpen 1 f.ctx 0 f.reason

/-- A fault takes effect (R519): only at the generation it was decided for, and the first reason stays. -/
def State.faultNow (s : State) (f : CtxFault) : State :=
  let x := f.ctx
  if s.ctxGen x != f.gen || !s.serving x then s
  else if s.ctxState x == 2 then (s.faultCount f).faultFollow x f.reason
  else
    let t := ((s.wrFld (ctxReg x 0) 0 3 2).set (ctxReg x 0x18) 8).wrFld (healthReg x 4) 0 4 f.reason
    ((((t.faultCount f).queuesOff x).leaveSearch x).faultFollow x f.reason)

/-- Faults that satisfy p take effect. -/
def State.faultFrame (s : State) (p : CtxFault → Bool) : State :=
  let t : State := { s with ctx := { s.ctx with faults := s.ctx.faults.filter (fun f => !p f) } }
  t.each (s.ctx.faults.filter p) (fun f u => u.faultNow f)

/-- Context commands take effect (R478, R504). -/
def State.ctxFrame (s : State) : State :=
  let t : State := { s with ctx := { s.ctx with cmds := [] } }
  t.each s.ctx.cmds (fun c u =>
    if c.op = 1 then u.when (u.ctxState c.ctx == 0) (·.ctxDefine c)
    else u.when (u.serving c.ctx) (·.occultBegin c.ctx c.target (c.op == 3)))

/-- Occultations begun before this boundary that are ready end (R506). -/
def State.occFrame (s : State) (old : List Occ) : State :=
  s.each (old.filter (fun o => s.ctx.occ.contains o)) (fun o t => t.when (t.occultReady o.ctx) (·.occultEnd o))

-- debug levels --------------------------------------------------------------------------------------------------------------

/-- Target generation of an Occultation that the module itself begins (R479, R511). -/
def State.ownTarget (s : State) (x : Nat) : Option Nat :=
  if s.ctxGen x == lastGen then none
  else
    let t := s.ctxTarget x
    some (if s.ctxGen x < t ∧ t ≤ lastGen then t else s.ctxGen x + 1)

/-- Entry into Intrusive (2) or Maintenance (4), step 4 on: new keys, ports retrain, a new attestation key; the level is reported (R511). -/
def State.entryEnd (s : State) (l : Nat) : State :=
  let s1 := (s.wrap 0x71C 1).each ((List.range 64).filter (fun p => !s.ztl p && (s.lpState p == 2 || s.lpState p == 5))) (fun p t => t.lpRetrain p)
  let s2 := s1.each ((List.range 48).filter s1.hostUp) (fun n t => let u := t.hpDown n 0; u.when (u.hpMayTrain n) (·.hpTrain n))
  let s3 : State := { s2 with sec := { s2.sec with
    attReady := false
    entering := none
    intrusiveCount := s2.sec.intrusiveCount + (if l = 2 then 1 else 0) } }
  let s4 := s3.clr 0x700 0x40
  if l = 2 then ((s4.wrFld 0x700 4 2 2).set 0x718 1).trace 8 0 0 0 else (s4.wrFld 0x700 0 2 2).set 0x718 2

/-- Steps 1 to 3 of an entry, each as soon as the one before it is complete. -/
def State.entryFrame (s : State) : State :=
  match s.sec.entering with
  | none => s
  | some k =>
    let l := k % 10
    let stage (t : State) (n : Nat) : State := { t with sec := { t.sec with entering := some n } }
    let s1 := if k < 10 then stage (((s.set 0x700 0x40).each ((List.range 1024).filter s.serving) (fun x t =>
      t.occultBegin x (t.ownTarget x) false))) (10 + l) else s
    let s2 := if s1.sec.entering == some (10 + l) && s1.ctx.occ.isEmpty then stage (s1.removePages s1.tier.pages) (20 + l) else s1
    if s2.sec.entering == some (20 + l) && s2.tier.scrubs.isEmpty && s2.tier.freed.isEmpty then s2.entryEnd l else s2

/-- A change between Closed and Observe (R510). -/
def State.levelFrame (s : State) : State :=
  let l := s.fld 0x720 0 2
  if s.sec.entering.isSome || s.dbgLevel == 2 || 1 < l || l == s.dbgLevel then s
  else
    let t := s.wrFld 0x700 4 2 l
    -- the record of the change is written while either level traces
    if l = 0 then (s.trace 8 0 0 0).wrFld 0x700 4 2 0 else t.trace 8 0 0 0

-- quarantine ----------------------------------------------------------------------------------------------------------------

/-- `QUARANTINE` of engine e takes effect (R164, R196, R198). -/
def State.quarSet (s : State) (e : Nat) : State :=
  let s1 := match s.engineOp e with
    | some o => ((if o.dynamic then s.preempt o else s.putBack o).scrClear e o.scr o.gran)
    | none => s
  (s1.scrClear e 0 64).wrFld (engineBlock e + 4) 0 3 3

/-- The bit of engine e is cleared: it rejoins the active Ephemeris at a later epoch boundary, and a search on it ends.
DEDUCED, unsafe: notes/assumptions/45.md. -/
def State.quarClear (s : State) (e : Nat) : State :=
  let s1 := match s.searchOn e with
    | some h => s.searchEnd h
    | none => s
  let s2 := s1.engineOut e
  s2.when (s2.engineOp e).isNone (·.wrFld (engineBlock e + 4) 0 3 0)

/-- Engines whose bit in force changed since `old`. -/
def State.quarFrame (s : State) (old : List (Nat × Word)) : State :=
  let es := (s.changedRegs old).filterMap (fun o => match place o with
    | .engine e 0x14 => some e
    | _ => none)
  s.each es.eraseDups (fun e t =>
    let was := (sget resetVal old (engineBlock e + 0x14)).getLsbD 0
    if t.quarantined e && !was then t.quarSet e else if !t.quarantined e && was then t.quarClear e else t)

-- tiers ---------------------------------------------------------------------------------------------------------------------

/-- A tray or expander that is gone (R354, R371). DEDUCED, unsafe: notes/assumptions/48.md. -/
def State.unitLost (s : State) (u : Nat) : State :=
  let t := (((s.set 0x22C 1).loseUnit u).unitGone u)
  let v : State := { t with tier := { t.tier with units := t.tier.units.filter (fun x => x.unit != u) } }
  (v.cpLoss [u] 1).syncUse []

def State.lostFrame (s : State) : State :=
  let t : State := { s with tier := { s.tier with lostUnits := [] } }
  t.each s.tier.lostUnits (fun u v => v.unitLost u)

/-- Firmware has read the telemetry rings (R353). -/
def State.telemRead (s : State) : State :=
  s.when (s.fbit 0x200 5) (fun t => t.each (List.range 4) (fun d u => u.wr (dieReg d 0x540) (u.rd (dieReg d 0x53C))))

-- mirrored pairs --------------------------------------------------------------------------------------------------------------

/-- Context of a mirror region. -/
def State.regionCtx (s : State) (r : Nat) : Nat := (s.rights (s.rd (mirrorReg r 0)).toNat).elim 0 entryCtx

/-- A port that held its peer UNSUPPORTED carries traffic again (R543 item 6). DEDUCED, unsafe: notes/assumptions/42.md. -/
def State.portUp (s : State) (l : Nat) : State :=
  match (s.port l).hello with
  | some h => ((s.setPort { s.port l with peer := some (h.module, h.serial) }).wrFld (linkBlock l) 0 3 2).pump l
  | none => s

/-- Ports that an admit entry matches. -/
def State.admitPorts (s : State) (k : Nat) : List Nat :=
  (List.range 64).filter (fun l => s.admitMatch k l && (s.lpState l == 2 || s.lpState l == 5) && s.fld (linkBlock l) 4 4 != 0)

/-- An entry's readmission is complete: ADMITTED, and its ports are UP. DEDUCED, unsafe: notes/assumptions/42.md. -/
def State.admitDone (s : State) (k : Nat) : State :=
  (s.wrFld (0x840 + 16 * k) 9 2 3).each ((s.admitPorts k).filter (fun l => s.lpState l == 5)) (fun l t => t.portUp l)

/-- Regions of this module that are in sync again (R543 item 6). -/
def State.joinFrame (s : State) : State :=
  let t : State := { s with health := { s.health with admitted := [] } }
  t.each s.health.admitted (fun r u =>
    let v := ((u.setMirror r 0).hmEvent 0x400).errLogOpen 0xF noCtx ((u.rd (mirrorReg r 0)).toNat * 2 ^ 21) 0
    v.each ((List.range 4).filter (fun k => v.bit (0x840 + 16 * k) 8 && v.fld (0x840 + 16 * k) 0 8 == v.mirrorPartner r)) (fun k w => w.admitDone k))

/-- Resync of a region begins (R543 item 4): every page for a new serial, the pages of the dirty map otherwise. -/
def State.resyncStart (s : State) (r : Nat) (all : Bool) : State :=
  let first := (s.rd (mirrorReg r 0)).toNat
  let last := (s.rd (mirrorReg r 4)).toNat
  let pages := if all then (List.range (last + 1 - first)).map (· + first) else (s.health.dirty.filter (fun d => d.1 == r)).map (·.2)
  ({ s with health := { s.health with resync := s.health.resync.filter (fun (p : Nat × List Nat) => p.1 != r) ++ [(r, pages)] } }).setMirror r 2

/-- An armed admit entry at the partner (R543 items 3 to 6). -/
def State.admitFrame (s : State) (k : Nat) : State :=
  let m := s.fld (0x840 + 16 * k) 0 8
  let mine := (List.range 16).filter (fun r => s.mirrorValid r && s.mirrorPartner r == m)
  match s.admitPorts k with
  | [] => s
  | l :: _ =>
    if s.fld (0x840 + 16 * k) 9 2 == 3 || mine.any (fun r => s.mirrorState r == 3) then s
    else
      let new := (s.port l).peer != (s.port l).hello.map (fun h => (h.module, h.serial))
      let bad := mine.filter (fun r => s.mirrorState r == 1)
      let t := s.each bad (fun r u => u.resyncStart r new)
      if mine.any (fun r => t.mirrorState r == 2) then t.wrFld (0x840 + 16 * k) 9 2 2 else t.admitDone k

/-- A copy is complete, and a step boundary of the region's context has passed since: the region's first line goes out with `ADMIT`
(R543 item 5). `last` is the frame that has ended. -/
def State.copyFrame (s : State) (last : Nat) : State :=
  let ready := (List.range 16).filter (fun r => s.mirrorValid r && s.mirrorState r == 2 && !s.health.resync.any (fun (p : Nat × List Nat) => p.1 == r)
    && s.stepFrame (s.regionCtx r) == last)
  let s1 := s.each ready (fun r t => (t.mirrorSend r ((t.rd (mirrorReg r 0)).toNat * 2 ^ 21) 64 (.mirror 0) 1).setMirror r 0)
  let live (p : Nat × List Nat) : Bool := s1.mirrorState p.1 == 2
    && !(p.2.isEmpty && !s1.link.awaits.any (fun a => a.who == .mirror (0x100 + p.1)))
  { s1 with health := { s1.health with resync := (s1.health.resync.filter (fun p => live p)) } }

/-- Mirrored pairs at a frame boundary. -/
def State.mirrorFrame (s : State) (last : Nat) : State :=
  let s1 := (s.joinFrame).copyFrame last
  s1.each ((List.range 4).filter (fun k => s1.bit (0x840 + 16 * k) 8)) (fun k t => t.admitFrame k)

-- epochs --------------------------------------------------------------------------------------------------------------------

/-- The composition-map flip (R464, R465). -/
def State.flip (s : State) : State :=
  let t : State := { s with
    eph := { s.eph with rtArm := none, compArm := none, drainEnd := s.time.frame + s.fld 0x604 8 8 }
    sw := { s.sw with failing := [], remapped := [] } }
  (((t.wrFld 0x604 0 1 (1 - t.version)).rtArmBit).set 0x604 4).set 0x614 1

/-- The image that is switched in at the boundary of epoch e: no stop comes first, and no re-check runs (R104, R108, R115).
DESIGN CHOICE, unsafe: notes/assumptions/71.md. -/
def State.switchIn (s : State) (e : Nat) : Option Image :=
  if s.eph.stopAt != some s.time.frame && s.eph.armed == some e && s.eph.recheck == 0 then s.eph.standby else none

/-- A flip armed for epoch e takes place at its boundary; one armed with an Ephemeris only with the switch (R104, R106, R108, R465). -/
def State.flipEpoch (s : State) (e : Nat) : State :=
  s.when (s.eph.rtArm == some e || (s.eph.compArm == some e && (s.switchIn e).isSome)) (·.flip)

/-- Two granule windows share a granule (R161, R163). -/
def windowsMeet (e1 b1 n1 e2 b2 n2 : Nat) : Bool :=
  (List.range n1).any (fun i => let g := b1 + i; b2 ≤ g && g < b2 + n2 && (if g < 64 then e1 == e2 else e1 / 4 == e2 / 4))

/-- What an image that leaves gives up: the granules its entries name, and open stream reductions (R164, R225). -/
def State.imageGone (s : State) : State :=
  match s.eph.active with
  | none => s
  | some g =>
    let t := s.each g.eng (fun e u => u.scrClear e.engine e.scrBase e.scrGran)
    { t with reds := t.reds.map (fun (r : Stream) => if r.isOpen then { r with invalid := true } else r) }

/-- Engines whose quarantine ends at the boundary of this frame: they do not rejoin at it (R198). -/
def State.outNow (s : State) : List (Nat × Nat) := s.eph.outEngines.filter (fun p => p.2 == s.time.frame)

/-- The stop takes effect (R107, R108): an armed image returns to accepted. -/
def State.stopNow (s : State) : State :=
  let t := s.imageGone
  let eph : EphS := { t.eph with active := none, stopAt := none, outDies := [], outEngines := t.outNow }
  let u := (({ t with eph := eph }).setActive 0 0).ephEventAll 4
  u.when u.eph.armed.isSome (fun v => v.endArm.setStandbyState 3)

/-- The switch (R101, R105, R109, R164): the standby image is active on every die that operates; the granules it names are invalidated,
and a dynamic operation that holds one is preempted. -/
def State.switchNow (s : State) (g : Image) : State :=
  let t := s.imageGone
  let meets (o : Op) : Bool := o.dynamic && o.onEngine && o.engine.any (fun e =>
    g.eng.any (fun k => windowsMeet e o.scr o.gran k.engine k.scrBase k.scrGran))
  let t0 := t.each (t.ops.filter meets) (fun o u => u.preempt o)
  let t1 := t0.each g.eng (fun e u => u.scrClear e.engine e.scrBase e.scrGran)
  let eph : EphS := { t1.eph with
    active := some g
    standby := none
    outDies := (List.range 4).filter (fun d => !t1.dieUp d)
    outEngines := t1.outNow }
  let t2 := ({ t1 with eph := eph }).endArm
  ((t2.setStandby 0 0).setActive (if t2.eph.stopAt.isSome then 2 else 1) g.id).ephEventAll 2

/-- Ephemeris switch or stop at the boundary of epoch e. -/
def State.ephEpoch (s : State) (e : Nat) : State :=
  if s.eph.stopAt == some s.time.frame then s.stopNow
  else match s.switchIn e with
    | some g => s.switchNow g
    | none => s

/-- Dies and engines rejoin the active Ephemeris (R109, R198). `old` are the dies that were out before the boundary's switch. -/
def State.rejoin (s : State) (old : List Nat) : State :=
  if !s.runsEph then { s with eph := { s.eph with outDies := [], outEngines := s.outNow } }
  else
    let t : State := { s with eph := { s.eph with
      outDies := s.eph.outDies.filter (fun d => !s.dieUp d)
      outEngines := s.outNow } }
    t.each (old.filter s.dieUp) (fun d u => u.set (ephReg d 0x28) 0x20)

/-- A pending `MER_CTRL` applies while no die runs an Ephemeris (R71, R72, R115). DEDUCED, unsafe: notes/assumptions/8.md. -/
def State.merApply (s : State) : State :=
  if s.runsEph || !s.bit 0x104 2 then s
  else
    let units := s.fld 0x100 0 9
    let period := 125 * units
    let free := s.timeState == 0
    let changed := units != s.time.units
    let into := if free || !changed then 0 else s.time.net % period
    let time : TimeS := { s.time with
      units := units
      epochLog2 := s.fld 0x100 16 5
      frame := if free || !changed then s.time.frame else s.time.net / period
      net := s.time.net - into
      slot := into / 125
      cycle := into * 9 / 5
      frameBase := s.time.frameBase - into * 9 / 5 }
    let t := (({ s with time := time }).clr 0x104 4).when (!free && changed) (·.set 0x114 4)
    if t.standbyState == 3 || t.standbyState == 5 then
      ({ t with eph := { t.eph with recheck := t.standbyState } }).setStandbyState 2
    else t

/-- Arms whose boundary lies in the past, as the frame number moved past it (R102, R103, R465). DEDUCED, unsafe: notes/assumptions/14.md. -/
def State.lateArms (s : State) : State :=
  let past (e : Nat) : Bool := decide (e * s.epochLen ≤ s.time.frame)
  let s1 := s.when (s.eph.armed.any past) (fun t =>
    let u := (t.endArm).ephEvent 1
    if u.eph.recheck = 0 then u.setStandbyState 3 else { u with eph := { u.eph with recheck := 3 } })
  s1.when (s1.eph.rtArm.any past) (fun t => (({ t with eph := { t.eph with rtArm := none } }).rtArmBit).set 0x614 2)

/-- A changed hang window (R523). -/
def State.windowEpoch (s : State) : State :=
  let w := s.fld 0x800 0 17
  if w == s.health.window then s else { s with health := { s.health with window := w, watch := [] } }

/-- The actions of an epoch boundary, in the order of R67. -/
def State.epochFrame (s : State) : State :=
  let e := s.epoch
  let s1 := ((((s.flipEpoch e).ephEpoch e).rejoin s.eph.outDies).merApply).heatEpoch
  let s2 := (s1.when (s1.pwr.state != 2) (fun t => t.tierPolicy.flashEpoch)).windowEpoch
  { s2 with health := { s2.health with stackTries := [] } }

-- Control cells -------------------------------------------------------------------------------------------------------------

/-- ZFL ports that carry a notice. -/
def State.noticePorts (s : State) (kind : Nat) : List Nat := (List.range 64).filter (fun l => !s.ztl l && s.carries l kind)

/-- Payload of an ABORT_NOTICE (R536). -/
def Abort.payload (a : Abort) : List Byte :=
  leBytes 8 a.frame ++ leBytes 1 a.origin ++ leBytes 1 a.reason ++ leBytes 1 a.hops ++ leBytes 1 a.tags.length ++ leBytes 4 a.serial
    ++ a.tags.flatMap (fun t => leBytes 4 (t.1 + 2 ^ 10 * t.2))

/-- Ports on which an abort is sent (R537): of the contexts' slices at the origin, all but the sender's at a receiver. -/
def State.abortPorts (s : State) (a : Abort) : List Nat :=
  (s.noticePorts 0x10).filter (fun l => match a.from? with
    | some p => l != p
    | none => a.tags.any (fun t => s.sliceLink (s.ctxSlice t.1) l))

/-- The abort notices of this frame: those known before it, for three frames each, and while hops are left (R537). -/
def State.abortSend (s : State) (known : List (Nat × Nat)) : State :=
  let due (a : Abort) : Bool := a.sends != 0 && known.contains (a.origin, a.serial)
  let held (a : Abort) : Abort := if a.from?.isNone then a else { a with tags := a.tags.filter (fun t => s.defined t.1 && s.ctxGen t.1 == t.2) }
  let s1 := s.each ((s.ctx.aborts.filter due).map held) (fun a t =>
    if a.tags.isEmpty then t
    else t.each (t.abortPorts a) (fun l u => u.sendOn l { kind := 0x10, cls := 7, payload := a.payload }))
  { s1 with ctx := { s1.ctx with aborts := s1.ctx.aborts.map (fun (a : Abort) => if due a then { a with sends := a.sends - 1 } else a) } }

/-- EPOCH_NOTICE in each of the last 16 frames before an armed flip (R466). -/
def State.epochSend (s : State) : State :=
  match s.flipArmed with
  | none => s
  | some f =>
    let b := f.1 * s.epochLen
    s.when (decide (b ≤ s.time.frame + 16) && decide (s.time.frame < b)) (fun t =>
      t.each (t.noticePorts 0x11) (fun l u => u.sendOn l { kind := 0x11, cls := 7, payload := leBytes 8 f.1 ++ leBytes 4 f.2.toNat }))

/-- The Control cells of the new frame leave, in the order of R537. -/
def State.controlCells (s : State) (known : List (Nat × Nat)) : State :=
  ((s.abortSend known).epochSend).each (List.range 64) (fun l t => t.helloFrame l)

-- the boundary --------------------------------------------------------------------------------------------------------------

/-- Decisions of firmware and what else follows at every boundary (R38, R67 item 2). `old` is what was in force, `occ` the Occultations
begun before. -/
def State.decisions (s : State) (old : List (Nat × Word)) (occ : List Occ) (last : Nat) : State :=
  let s0 := s.dieFrame
  if !s0.ready then s0
  else
    let s1 := ((s0.abortFrame).faultFrame (fun _ => true)).ctxFrame
    let s2 := (((s1.occFrame occ).entryFrame).levelFrame).quarFrame old
    let s3 := (((((s2.lostFrame).finishMoves).heatFrame).redFrame).wsFrame []).cpFrame
    let s4 := (((s3.switchFrame (s3.changedRegs old)).remapFrame).cohFrame).telemRead
    let s5 := ((s4.mirrorFrame last).searchFrame).hangFrame
    -- contexts that a die reset decided here faults are faulted here (R531)
    s5.when s5.ready (·.faultFrame (fun f => f.reason == 6))

/-- What ends with the boundary: a drain, and a trace ring whose context left LIVE (R467, R515).
DESIGN CHOICE, unsafe in part: notes/assumptions/49.md. -/
def State.boundaryEnd (s : State) : State :=
  let s1 := s.when (s.bit 0x604 2 && decide (s.eph.drainEnd ≤ s.time.frame)) (·.clr 0x604 4)
  s1.when (s1.bit 0x72C 0 && s1.ctxState (s1.fld 0x72C 9 10) != 1) (·.clr 0x72C 1)

/-- STEP_OK follows the active image (R73). -/
def State.stepOkSync (s : State) : State := s.wrFld 0x104 3 1 (if s.runsEph then 0 else 1)

/-- The frame boundary. DESIGN CHOICE, safe: notes/assumptions/7.md. DESIGN CHOICE, safe: notes/assumptions/64.md. -/
def State.boundary (s : State) : State :=
  if s.pwr.cmd == some 4 then s.shutdown 0
  else
    let known := s.ctx.aborts.map (fun a => (a.origin, a.serial))
    let s1 := (((s.overrunDue s.frameLen).frameTime).protect).pageRights
    let s2 := (s1.powerFrame).decisions s.force s.ctx.occ s.time.frame
    if !s2.ready then s2
    else
      let s3 := s2.when s2.epochStart (·.epochFrame)
      ((((s3.lateArms).boundaryEnd).stepOkSync).linkSlot s3.time.slot).controlCells known

/-- FRAME_BOUNDARY. -/
def execFrameBoundary (s : State) : Host.Outcome State Fault Refusal := .next (s.when s.ready (·.boundary))

end Sys2Proof.Machine
end

