-- ==== Sys2Proof/Machine/Counters.lean ====
section
/-! DEFINITION. Synchronisation counters written by a port (R141-R147). The tenant window uses the same functions. -/

namespace Sys2Proof.Machine

/-- C_VALUE_WRITE: the written half, or the whole, takes the value; waits and the notification see it (R141, R142, R145). -/
def State.cValue (s : State) (c : Nat) (h : Half) (v : Word64) : State := s.ctrSet c (halfPut h (s.ctrVal c) v)

/-- DESIGN CHOICE, unsafe: notes/assumptions/60.md. -/
def execCValueWrite (port c : Nat) (half : Half) (v : Word64) (s : State) : Host.Outcome State Fault Refusal :=
  .next (s.reg (.cValueWrite port c half v) port (counterBlock c) (·.cValue c half v))

/-- C_ADD_WRITE: adds the value, shifted to its half, modulo 2^64 (R141, R142). -/
def State.cAdd (s : State) (c : Nat) (h : Half) (v : Word64) : State := s.ctrAdd c (halfAmount h v)

def execCAddWrite (port c : Nat) (half : Half) (v : Word64) (s : State) : Host.Outcome State Fault Refusal :=
  .next (s.reg (.cAddWrite port c half v) port (counterBlock c + 8) (·.cAdd c half v))

/-- Some counter other than c is bound by this word, among the bindings as last written (R143). -/
def State.boundElsewhere (s : State) (c : Nat) (v : Word) : Bool :=
  s.regs.any (fun p => (match bindOf p.1 with
    | some k => k != c && p.2.getLsbD 31 && (p.2 &&& 0x80FFFFFF) == v
    | none => false))

/-- C_BIND_WRITE: a binding that R143 refuses is discarded and counted; the change acts at the next frame boundary. -/
def State.cBind (s : State) (port c : Nat) (v : Word) : State :=
  let off := counterBlock c + 0x10
  let x := nbits v.toNat 0 10
  if v.getLsbD 31 && (s.boundElsewhere c (v &&& 0x80FFFFFF) || !s.defined x || !s.sliceDie (s.ctxSlice x) (c / 16384)) then s.pviol port
  else s.plainWrite port off v

def execCBindWrite (port c : Nat) (v : Word) (s : State) : Host.Outcome State Fault Refusal :=
  .next (s.regS (.cBindWrite port c v) port (counterBlock c + 0x10) v (·.cBind port c v))

/-- C_FAIL_CLR_WRITE: any write clears `C_FAIL` (R141). -/
def State.cFailClr (s : State) (c : Nat) : State := s.wr (counterBlock c + 0x14) 0

def execCFailClrWrite (port c : Nat) (v : Word) (s : State) : Host.Outcome State Fault Refusal :=
  .next (s.reg (.cFailClrWrite port c v) port (counterBlock c + 0x18) (·.cFailClr c))

/-- C_NOTIFY_CFG_WRITE: fields under their access codes, then the notification check (R146, R147). -/
def State.cNotifyCfg (s : State) (port c : Nat) (v : Word) : State := (s.plainWrite port (counterBlock c + 0x1C) v).notify c

def execCNotifyCfgWrite (port c : Nat) (v : Word) (s : State) : Host.Outcome State Fault Refusal :=
  .next (s.regS (.cNotifyCfgWrite port c v) port (counterBlock c + 0x1C) v (·.cNotifyCfg port c v))

/-- C_NOTIFY_VALUE_WRITE: the threshold, then the notification check (R141, R147). -/
def State.cNotifyValue (s : State) (c : Nat) (h : Half) (v : Word64) : State :=
  (s.wr64 (counterBlock c + 0x20) (halfPut h (s.rd64 (counterBlock c + 0x20)) v)).notify c

def execCNotifyValueWrite (port c : Nat) (half : Half) (v : Word64) (s : State) : Host.Outcome State Fault Refusal :=
  .next (s.reg (.cNotifyValueWrite port c half v) port (counterBlock c + 0x20) (·.cNotifyValue c half v))

end Sys2Proof.Machine
end

