-- ==== Sys2Proof/Machine/Mmio.lean ====
section
/-! DEFINITION. Writes of the management aperture by offset (R11, R13, R40-R45) and the tenant window (R52-R54): every register that acts, or
that refuses a value, is led to the meaning of its own command or to its check; the rest are stored under their access codes. -/

namespace Sys2Proof.Machine

/-- Store under the access codes, or discard the whole write and latch an event. DEDUCED, unsafe: notes/assumptions/61.md. -/
def State.guarded (s : State) (port off : Nat) (v : Word) (ok : Bool) (ev : Nat) (m : Word) : State :=
  if ok then s.plainWrite port off v else s.set ev m

def inRange (lo hi n : Nat) : Bool := lo ≤ n && n ≤ hi

-- tiers, pool map, flash --------------------------------------------------------------------------------------------------

/-- A write of `PMAP_CMD` (R338, R351). -/
def State.pmapCmd (s : State) (op : Nat) : State :=
  match op with
  | 1 => s.pmapStart State.pmapMap
  | 2 => s.pmapStart State.pmapUnmap
  | 3 => s.pmapStart State.pmapSetFlags
  | 4 => s.pmapStart State.pmapQuery
  | _ => s.set 0x22C 0x8

/-- The tier registers (R351, R352). `MIRROR_DEGRADED` stays set while a sequence lacks a mirror (R371). -/
def State.tierWrite (s : State) (port o : Nat) (v : Word) : State :=
  let n := v.toNat
  let ok (b : Bool) := s.guarded port o v b 0x22C 0x8
  match o with
  | 0x200 => ok (nbits n 0 4 != 0)
  | 0x20C => ok (nbits n 0 20 ≤ 516096)
  | 0x22C => (s.plainWrite port o v).when (s.tier.seqs.any (fun q => q.mirrors.length < 2)) (·.set 0x22C (s.rd 0x22C &&& 0x10))
  | 0x248 => ok (nbits n 0 17 ≤ 65536)
  | 0x250 => s.pmapCmd (nbits n 0 4)
  | _ => s.plainWrite port o v

/-- The flash registers (R402). -/
def State.flashWrite (s : State) (port o : Nat) (v : Word) : State :=
  let n := nbits v.toNat 0 16
  let ok (b : Bool) := s.guarded port o v b 0x314 0x10
  match o with
  | 0x304 => ok (n ≤ 8192)
  | 0x308 => ok (inRange 64 4096 n)
  | 0x30C => ok (decide (s.fld 0x308 0 16 < n) && n ≤ 8192)
  | 0x310 => ok (16 ≤ n)
  | _ => s.plainWrite port o v

-- domains -----------------------------------------------------------------------------------------------------------------

/-- Host ports of domain d as last written (R435). -/
def State.portSet (s : State) (d : Nat) : List Nat :=
  (List.range 48).filter (fun n => if n < 32 then s.bit (domReg d 4) n else s.bit (domReg d 8) (n - 32))

/-- A write of a port-set register keeps R437. -/
def State.portSetOk (s : State) (d : Nat) : Bool :=
  let l := s.portSet d
  l.length ≤ 16 && [1, 2, 3].all (fun e => e == d || l.all (fun n => !(s.portSet e).contains n))

/-- The domain blocks (R435-R437). DEDUCED, unsafe: notes/assumptions/35.md. -/
def State.domWrite (s : State) (port o : Nat) (v : Word) : State :=
  let d := (o - 0x400) / 0x40 + 1
  match (o - 0x400) % 0x40 with
  | 0x0 => if v.getLsbD 0 && !s.bit o 0 && s.bit (domReg d 0xC) 5 then s.set (domReg d 0x10) 1 else s.plainWrite port o v
  | 0x4 => s.guarded port o v ((s.plainWrite port o v).portSetOk d) (domReg d 0x10) 1
  | 0x8 => s.guarded port o v ((s.plainWrite port o v).portSetOk d) (domReg d 0x10) 1
  | _ => s.plainWrite port o v

/-- A member-set word (R438): a write that adds a member so that R485 is broken is discarded. DEDUCED, unsafe: notes/assumptions/43.md. -/
def State.memberWrite (s : State) (port o : Nat) (v : Word) : State :=
  let d := (o - 0x40000) / 0x80 + 1
  let t := s.plainWrite port o v
  s.guarded port o v ((v &&& ~~~(s.rd o)) == 0 || t.slicesOk ((t.memberList d).filterMap t.sliceSoon)) (domReg d 0x10) 1

-- routing and composition -------------------------------------------------------------------------------------------------

/-- Version v of the tables may be written (R464, R482). -/
def State.versionOpen (s : State) (v : Nat) : Bool :=
  v != s.version && !s.bit 0x604 2 && s.eph.rtArm.isNone && s.eph.compArm.isNone

/-- `E2E_CFG` in range (R471). -/
def e2eOk (v : Word) : Bool :=
  inRange 2 1000 (nbits v.toNat 0 10) && inRange 1 15 (nbits v.toNat 10 4) && inRange 64 2047 (nbits v.toNat 14 11)

/-- The routing registers (R471). -/
def State.routeRegWrite (s : State) (port o : Nat) (v : Word) : State :=
  match o with
  | 0x604 => s.rtCtrl v
  | 0x608 => s.rtEpoch v
  | 0x60C => s.guarded port o v (s.versionOpen 0) 0x614 0x4
  | 0x610 => s.guarded port o v (s.versionOpen 1) 0x614 0x4
  | 0x618 => s.guarded port o v (e2eOk v) 0x614 0x4
  | _ => s.plainWrite port o v

-- security ----------------------------------------------------------------------------------------------------------------

/-- A field of a word replaced by that of another. DEDUCED, unsafe: notes/assumptions/61.md. -/
def keepField (v old : Word) (lo w : Nat) : Word := BitVec.ofNat 32 (nput v.toNat lo w (nbits old.toNat lo w))

/-- A write of `DBG_TRACE_CFG` (R516): `RING_LOG2` keeps its value while `EN` is 1. -/
def State.traceCfg (s : State) (port : Nat) (v : Word) : State :=
  if !inRange 8 16 (nbits v.toNat 4 5) then s.secBad
  else
    let moved := s.bit 0x72C 0 && nbits v.toNat 4 5 != s.fld 0x72C 4 5
    (s.plainWrite port 0x72C (if moved then keepField v (s.rd 0x72C) 4 5 else v)).when moved (·.secBad)

/-- The bits that a write of a register would change. -/
def State.changes (s : State) (o : Nat) (v : Word) : Bool := ((v ^^^ s.rd o) &&& (regInfo o).rws) != 0

/-- The security registers (R509, R510, R516). -/
def State.secWrite (s : State) (port o : Nat) (v : Word) : State :=
  match o with
  | 0x704 => s.secCmd (nbits v.toNat 0 4) (nbits v.toNat 16 16)
  | 0x720 => s.dbgCtrl v
  | 0x724 => s.guarded port o v (!(s.bit 0x72C 0 && s.changes o v)) 0x718 0x40
  | 0x728 => s.guarded port o v (!(s.bit 0x72C 0 && s.changes o v)) 0x718 0x40
  | 0x72C => s.traceCfg port v
  | 0x734 => readIndex s 0x734 0x730 v
  | _ => s.plainWrite port o v

-- health, power, Almanac --------------------------------------------------------------------------------------------------

/-- The health registers (R547). -/
def State.healthWrite (s : State) (port o : Nat) (v : Word) : State :=
  let n := v.toNat
  match o with
  | 0x800 => s.guarded port o v (inRange 16 65536 (nbits n 0 17)) 0x804 0x1000
  | 0x808 => s.hmCmd (nbits n 0 4) (nbits n 4 3) (nbits n 8 10) (nbits n 24 8)
  | 0x81C => readIndex s 0x81C 0x818 v
  | 0x840 => s.admitWrite 0 v
  | 0x850 => s.admitWrite 1 v
  | 0x860 => s.admitWrite 2 v
  | 0x870 => s.admitWrite 3 v
  | _ => s.plainWrite port o v

/-- The power registers (R578) and the Almanac registers (R568). -/
def State.powerWrite (s : State) (port o : Nat) (v : Word) : State :=
  let n := v.toNat
  match o with
  | 0x904 => s.pwrCmd (nbits n 0 4) (nbits n 24 8)
  | 0x928 => s.guarded port o v (inRange 70 105 (nbits n 0 8) && inRange 60 90 (nbits n 8 8)) 0x908 0x10
  | 0xA1C => s.almUpd (nbits n 0 4) (nbits n 24 8)
  | _ => s.plainWrite port o v

/-- A context block (R476). -/
def State.ctxWrite (s : State) (port o : Nat) (v : Word) : State :=
  let x := (o - 0x50000) / 0x20
  if (o - 0x50000) % 0x20 = 8 then s.ctxCommand x (nbits v.toNat 0 4) (nbits v.toNat 4 6) else s.plainWrite port o v

/-- A write of a module-global register. -/
def State.globWrite (s : State) (port o : Nat) (v : Word) : State :=
  if o = 0x100 then s.merCtrl port v
  else if 0x200 ≤ o && o < 0x260 then s.tierWrite port o v
  else if 0x300 ≤ o && o < 0x320 then s.flashWrite port o v
  else if 0x400 ≤ o && o < 0x4C0 then s.domWrite port o v
  else if 0x600 ≤ o && o < 0x620 then s.routeRegWrite port o v
  else if 0x700 ≤ o && o < 0x750 then s.secWrite port o v
  else if 0x800 ≤ o && o < 0x880 then s.healthWrite port o v
  else if 0x900 ≤ o && o < 0xA24 then s.powerWrite port o v
  else if 0x40000 ≤ o && o < 0x40180 then s.memberWrite port o v
  else if 0x50000 ≤ o && o < 0x58000 then s.ctxWrite port o v
  else if 0x70000 ≤ o && o < 0x72000 then s.guarded port o v (s.versionOpen ((o - 0x70000) / 0x1000)) 0x614 0x4
  else if 0x80000 ≤ o && o < 0x88000 then s.guarded port o v (s.versionOpen ((o - 0x80000) / 0x4000)) 0x614 0x4
  else s.plainWrite port o v

-- die control -------------------------------------------------------------------------------------------------------------

/-- A write of `TM_TELEM_CFG` (R321): `RING_LOG2` keeps its value while `EN` is 1. -/
def State.telemCfg (s : State) (port d : Nat) (v : Word) : State :=
  let o := dieReg d 0x538
  let moved := s.bit o 0 && nbits v.toNat 4 5 != s.fld o 4 5
  let w := if moved then keepField v (s.rd o) 4 5 else v
  if w.getLsbD 0 && (!inRange 8 16 (nbits w.toNat 4 5) || nbits w.toNat 16 8 == 0) then s.set (dieReg d 0x520) 1
  else (s.plainWrite port o w).when moved (·.set (dieReg d 0x520) 1)

/-- Some byte of a word of weights is 0. -/
def zeroByte (v : Word) (n : Nat) : Bool := (List.range n).any (fun i => nbits v.toNat (8 * i) 8 == 0)

/-- A write of `EG_GATE_CTRL` (R313, R324): `SWITCH` asks for the other list, or withdraws a request that waits. -/
def State.gateCtrl (s : State) (port d e : Nat) (v : Word) : State :=
  let o := egReg d e 0x10
  let t := s.plainWrite port o v
  if v.getLsbD 2 then (if s.bit o 2 then t else t.gateSwitch d e)
  else match t.gate d e with
    | some g => t.setGate { g with switchFrom := none }
    | none => t

/-- An egress block (R323, R324, R326). -/
def State.egWrite (s : State) (port d e r : Nat) (v : Word) : State :=
  let o := egReg d e r
  let ok (b : Bool) := s.guarded port o v b (dieReg d 0x520) 1
  let onB := s.bit (egReg d e 0x10) 1
  if !validEgress d e then s
  else if r = 0x00 then ok (!zeroByte v 4)
  else if r = 0x04 then ok (!zeroByte v 1)
  else if r = 0x08 then ok (nbits v.toNat 0 24 != 0)
  else if r = 0x0C then ok (inRange 64 65536 (nbits v.toNat 0 17))
  else if r = 0x10 then (if nbits v.toNat 8 8 = 0 then s.set (dieReg d 0x520) 1 else s.gateCtrl port d e v)
  else if 0x100 ≤ r && r < 0x200 then ok onB
  else if 0x200 ≤ r && r < 0x300 then ok (!onB)
  else s.plainWrite port o v

/-- A write of `POL_PIR` keeps it at or above `POL_CIR` in `MODE` 1 (R326). DEDUCED, unsafe: notes/assumptions/61.md. -/
def State.pirOk (s : State) (d p : Nat) (v : Word) : Bool := !s.bit (polReg d p 0) 1 || decide (s.fld (polReg d p 4) 0 24 ≤ nbits v.toNat 0 24)

/-- A write of a die-control register. -/
def State.dieWrite (s : State) (port d o : Nat) (v : Word) : State :=
  let off := dieReg d o
  let ev := dieReg d 0x520
  if o = 0x530 || o = 0x534 then s.guarded port off v (!(s.bit (dieReg d 0x538) 0 && s.changes off v)) ev 1
  else if o = 0x538 then s.telemCfg port d v
  else if o = 0x540 then readIndex s off (dieReg d 0x53C) v
  else if 0x400000 ≤ o && o < 0x580000 && (o - 0x400000) % 0x20000 < 0x10000 then
    (if 16383 < nbits v.toNat 0 16 then s else s.plainWrite port off v)
  else if 0x600000 ≤ o && o < 0x602000 then s.guarded port off v (o % 8 != 0 || !zeroByte v 2) ev 1
  else if 0x610000 ≤ o && o < 0x620000 then s.egWrite port d ((o - 0x610000) / 0x400) (o % 0x400) v
  else if 0x620000 ≤ o && o < 0x640000 then s.guarded port off v (o % 0x20 != 8 || s.pirOk d ((o - 0x620000) / 0x20) v) ev 1
  else s.plainWrite port off v

-- queues, counters, Ephemeris, ports --------------------------------------------------------------------------------------

/-- A write of a queue block (R116-R122, R150). -/
def State.queueWrite (s : State) (port q o : Nat) (v : Word) : State :=
  match o with
  | 0x04 => qCfg s q v
  | 0x08 => qRingLo s port q v
  | 0x0C => qLocked s q (fun t => qRingFollow (t.plainWrite port (queueBlock q + o) v) q)
  | 0x00 | 0x10 | 0x14 => qLocked s q (fun t => t.plainWrite port (queueBlock q + o) v)
  | 0x30 => qLogRd s q v
  | 0x40 => qDoorbell s q v
  | _ => s.plainWrite port (queueBlock q + o) v

/-- A word of a register of 64 bits, as an access of its half. -/
def halfWord (v : Word) : Word64 := v.setWidth 64

/-- A write of a counter block (R141-R147). -/
def State.counterWrite (s : State) (port c o : Nat) (v : Word) : State :=
  match o with
  | 0x00 => s.cValue c .lo (halfWord v)
  | 0x04 => s.cValue c .hi (halfWord v)
  | 0x08 => s.cAdd c .lo (halfWord v)
  | 0x0C => s.cAdd c .hi (halfWord v)
  | 0x10 => s.cBind port c v
  | 0x18 => s.cFailClr c
  | 0x1C => s.cNotifyCfg port c v
  | 0x20 => s.cNotifyValue c .lo (halfWord v)
  | 0x24 => s.cNotifyValue c .hi (halfWord v)
  | _ => s

/-- A write of `EPH_CMD` (R112, R113). -/
def State.ephCmd (s : State) (op index : Nat) : State :=
  match op with
  | 1 => s.loadPool
  | 2 => s.loadLibrary index
  | 3 => s.discardStandby
  | 4 => s.stopActive
  | _ => s.ephIgnored

/-- A write of an Ephemeris control block (R112). -/
def State.ephWrite (s : State) (port d o : Nat) (v : Word) : State :=
  if d = 0 && o = 0x18 then s.ephCmd (nbits v.toNat 0 4) (nbits v.toNat 8 8)
  else if d = 0 && o = 0x20 then (if v.getLsbD 0 then s.ephArm (v.getLsbD 1) else s.ephDisarm (v.getLsbD 1))
  else if d = 0 && o = 0x24 then s.ephArmEpoch v
  else s.plainWrite port (ephReg d o) v

/-- Valid windows of port n: first byte and size in 256 MiB units (R444). -/
def State.validWindows (s : State) (n : Nat) : List (Nat × Nat) :=
  ((List.range 16).filter (fun w => s.bit (hostBlock n + 0x10C + 16 * w) 14)).map (fun w =>
    (s.fld (hostBlock n + 0x100 + 16 * w) 0 16, s.fld (hostBlock n + 0x100 + 16 * w) 16 16))

/-- A write of a host-port block (R445, R447, R472). -/
def State.hostWrite (s : State) (port n o : Nat) (v : Word) : State :=
  let off := hostBlock n + o
  if o = 4 then s.hpCtrl n v
  else if 0x100 ≤ o && o < 0x200 then
    s.guarded port off v (disjoint ((s.plainWrite port off v).validWindows n) && (o % 16 != 0xC || nbits v.toNat 10 3 ≤ 5)) (hostBlock n + 0xC) 0x20
  else s.plainWrite port off v

/-- A write of an owner port to the management aperture. -/
def State.mmio (s : State) (port off : Nat) (v : Word) : State :=
  match place off with
  | .glob o => s.globWrite port o v
  | .dieCtl d o => s.dieWrite port d o v
  | .queue q o => s.queueWrite port q o v
  | .counter c o => s.counterWrite port c o v
  | .eph d o => s.ephWrite port d o v
  | .host n o => s.hostWrite port n o v
  | .link n o => if o = 4 then s.lpCtrl n v else s.plainWrite port off v
  | .engine _ _ => s.plainWrite port off v
  | .reserved => s

/-- What a read of the register at aperture offset o answers, to a port or to the debug access port: `MER_FRAME` is the current frame number,
but for the high word the one captured for the port when it last read the low word (R69, R74); `LP_CREDIT_MAX` reads as 1,024 while it
holds 0 (R471); a reserved offset reads as zero (R44), a die that is not clocked as ones (R45). DEDUCED, unsafe: notes/assumptions/62.md. -/
def State.regRead (s : State) (port : Option Nat) (o : Nat) : Nat :=
  let r := o / 4 * 4
  if !s.reach o then 0xFFFFFFFF
  else if r = 0x108 then s.time.frame % 2 ^ 32
  else if r = 0x10C then
    match s.time.capture.find? (fun p => port == some p.1) with
    | some p => p.2.toNat
    | none => s.time.frame / 2 ^ 32 % 2 ^ 32
  else if r = 0x618 && s.fld 0x618 14 11 = 0 then (s.rd 0x618).toNat + 1024 * 2 ^ 14
  else (s.rd r).toNat

/-- REGISTER_WRITE. A port that is no owner port changes no RW-S field (R13), and reaches no other register of the aperture (R486). -/
def execRegisterWrite (port off : Nat) (v : Word) (s : State) : Host.Outcome State Fault Refusal :=
  .next (s.served (.registerWrite port off v) (fun t =>
    if !t.reach off then t
    else if t.owner port then t.mmio port off v
    else if (regInfo (off / 4 * 4)).rws == 0 then t.pviol port else t.plainWrite port (off / 4 * 4) v))

-- the tenant window -------------------------------------------------------------------------------------------------------

/-- What a window offset reaches. DESIGN CHOICE, unsafe: notes/assumptions/60.md. -/
inductive Slot where
  | queue (q o : Nat)
  | counter (c o : Nat)
  /-- A slot that is not mapped, or whose block belongs to a context the port may not use. -/
  | closed
  /-- The reserved part of the window. -/
  | reserved
  deriving DecidableEq, Repr

/-- The port may use context x: an owner port any that is defined, a tenant port one of a slice that holds it, while Sealed (R483, R486,
R509). -/
def State.mayUse (s : State) (port x : Nat) : Bool :=
  s.defined x && (s.owner port || (s.secState == 1 && s.sliceHost (s.ctxSlice x) port))

/-- The slot of an access, by the map and bindings in force (R52-R55). -/
def State.slotAt (s : State) (port off : Nat) : Slot :=
  if off < 0x1000000 then
    let m := s.frd (qmapReg port (off / 0x1000))
    let q := nbits m.toNat 0 14
    if m.getLsbD 31 && s.mayUse port (s.ffld (queueBlock q) 0 10) then .queue q (off % 0x1000) else .closed
  else if off < 0x1100000 then
    let m := s.frd (cmapReg port ((off - 0x1000000) / 0x40))
    let c := nbits m.toNat 0 16
    let b := s.frd (counterBlock c + 0x10)
    if m.getLsbD 31 && b.getLsbD 31 && s.mayUse port (nbits b.toNat 0 10) then .counter c (off % 0x40) else .closed
  else .reserved

/-- Aperture offset of a slot's block, and the die it lies on. -/
def Slot.base : Slot → Nat
  | .queue q _ => queueBlock q
  | .counter c _ => counterBlock c
  | _ => 0
def Slot.off : Slot → Nat
  | .queue _ o => o
  | .counter _ o => o
  | _ => 0

/-- One word written through a slot: RW-S fields stay as they are (R53). -/
def State.slotWord (s : State) (port : Nat) (k : Slot) (o : Nat) (v : Word) : State :=
  match k with
  | .queue q _ =>
    (match o with
    | 0x30 => qLogRd s q v
    | 0x40 => qDoorbell s q v
    | _ => s.codeWrite false port (queueBlock q + o) v)
  | .counter c _ =>
    (match o with
    | 0x10 => s.codeWrite false port (counterBlock c + o) v
    | 0x1C => (s.codeWrite false port (counterBlock c + o) v).notify c
    | _ => s.counterWrite port c o v)
  | _ => s

/-- A write through a slot. A 64-bit register is written as one unit by an access of 8 B (R142); one that spans two registers writes them in
ascending order. -/
def State.slotWrite (s : State) (port : Nat) (k : Slot) (h : Half) (v : Word64) : State :=
  let o := k.off
  match h with
  | .both =>
    let a := o / 8 * 8
    (match k, a with
    | .counter c _, 0x00 => s.cValue c .both v
    | .counter c _, 0x08 => s.cAdd c .both v
    | .counter c _, 0x20 => s.cNotifyValue c .both v
    | _, _ => (s.slotWord port k a (v.setWidth 32)).slotWord port k (a + 4) ((v >>> 32).setWidth 32))
  | _ => s.slotWord port k (o / 4 * 4) (v.setWidth 32)

/-- What a read through a slot answers. -/
def State.slotRead (s : State) (k : Slot) (h : Half) : Word64 :=
  let up := s.reach k.base
  match h with
  | .both => if up then BitVec.ofNat 64 (s.rd64 (k.base + k.off / 8 * 8)) else 0xFFFFFFFFFFFFFFFF
  | _ => if up then BitVec.ofNat 64 (s.rd (k.base + k.off / 4 * 4)).toNat else 0xFFFFFFFF

/-- A tenant-window access (R52-R54). DESIGN CHOICE, unsafe: notes/assumptions/60.md. -/
def State.windowAccess (s : State) (port off : Nat) (write : Bool) (h : Half) (v : Word64) : State :=
  match s.slotAt port off with
  | .reserved => s.when (!write) (·.emit (.regData port 0))
  | .closed => (s.pviol port).when (!write) (·.emit (.regData port 0))
  | k => if write then s.when (s.reach k.base) (·.slotWrite port k h v) else s.emit (.regData port (s.slotRead k h))

/-- TENANT_WINDOW_ACCESS. `half` tells an access of 8 B from one of 4 B; which half of a 64-bit register 4 B reach follows from `off`. -/
def execTenantWindowAccess (port off : Nat) (write : Bool) (half : Half) (v : Word64) (s : State) : Host.Outcome State Fault Refusal :=
  .next (s.served (.tenantWindowAccess port off write half v) (·.windowAccess port off write half v))

end Sys2Proof.Machine
end

