-- ==== Sys2Proof/Machine/Debug.lean ====
section
/-! DEFINITION. The test access port (R512, R513, R583). -/

namespace Sys2Proof.Machine

/-- An instruction shifted in: the instruction register captures 0b0000_0001 (R583). DESIGN CHOICE, unsafe: notes/assumptions/57.md. -/
def State.tapLoad (s : State) (code : Nat) : State := ({ s with pwr := { s.pwr with tapIr := code } }).emit (.tdo 1)

/-- Data that the selected register captures, shifted out. -/
def State.tapData (s : State) (v : Nat) : State := ({ s with pwr := { s.pwr with tapData := v } }).emit (.tdo v)

/-- BYPASS: one bit. -/
def State.tapBypass (s : State) : State :=
  let t := s.tapLoad 0xFF
  { t with pwr := { t.pwr with tapData := 0 } }

/-- Debug and boundary-scan instructions act at Intrusive in Full and Idle (R512). DESIGN CHOICE, unsafe: notes/assumptions/57.md. -/
def State.tapOpen (s : State) : Bool := s.ready && s.dbgLevel == 2 && s.pwr.state != 2

/-- An instruction of Intrusive; elsewhere it behaves as BYPASS and is counted (R583). -/
def State.tapDebug (s : State) (code : Nat) (f : State → State) : State :=
  if s.pwr.phase == .dark then s
  else if s.tapOpen then f (s.tapLoad code) else s.tapBypass.pviol 0x82

/-- Boundary-scan cells: what they capture is open. -/
def State.scan (s : State) : State := ({ s with freeCtr := s.freeCtr + 1 }).emit (.tdo (Config.scanCells s.freeCtr))

/-- EXTEST: the cells drive the value shifted in. -/
def execExtest (v : Nat) (s : State) : Host.Outcome State Fault Refusal :=
  .next (s.tapDebug 0x00 (fun t => ({ t with pwr := { t.pwr with tapData := v } }).scan))

/-- IDCODE. -/
def execIdcode (s : State) : Host.Outcome State Fault Refusal :=
  .next (s.when (s.pwr.phase != .dark) (fun t =>
    (t.tapLoad 0x01).tapData (1 + 2 * 0x2B5 + 2 ^ 12 * 0x4800 + 2 ^ 28 * nbits Config.modStepping.toNat 8 4)))

/-- SAMPLE_PRELOAD: the cells are sampled, and hold the value shifted in for the next EXTEST. -/
def execSamplePreload (v : Nat) (s : State) : Host.Outcome State Fault Refusal :=
  .next (s.tapDebug 0x02 (fun t => ({ t with pwr := { t.pwr with tapData := v } }).scan))

/-- SEC_STATUS. -/
def execSecStatus (s : State) : Host.Outcome State Fault Refusal :=
  .next (s.when (s.pwr.phase != .dark) (fun t => (t.tapLoad 0x10).tapData (t.rd 0x700).toNat))

/-- The port whose authority the debug access port writes registers with: the lowest owner port.
DESIGN CHOICE, unsafe: notes/assumptions/57.md. -/
def State.ownerPort (s : State) : Nat := ((List.range 48).find? s.owner).getD 0

/-- Byte b of a scratch space exists (R158): engines below 256, cores from 256 on. -/
def scratchByte (space b : Nat) : Bool := (space < 256 && b < 262144) || (256 ≤ space && space < 320 && b < 2097152)

/-- What the debug access port does (R510, R513). -/
def State.debug (s : State) (d : DebugAct) : State :=
  match d with
  | .haltEngine e => { s with sec := { s.sec with haltedEngines := e :: s.sec.haltedEngines.filter (· != e) } }
  | .releaseEngine e => { s with sec := { s.sec with haltedEngines := s.sec.haltedEngines.filter (· != e), steps := s.sec.steps.filter (· != e) } }
  | .haltCore c => { s with sec := { s.sec with haltedCores := c :: s.sec.haltedCores.filter (· != c) } }
  | .releaseCore c => { s with sec := { s.sec with haltedCores := s.sec.haltedCores.filter (· != c), steps := s.sec.steps.filter (· != 256 + c) } }
  | .stepEngine e => s.when (s.sec.haltedEngines.contains e && !s.sec.steps.contains e) (fun t => { t with sec := { t.sec with steps := e :: t.sec.steps } })
  | .stepCore c => s.when (s.sec.haltedCores.contains c && !s.sec.steps.contains (256 + c)) (fun t => { t with sec := { t.sec with steps := (256 + c) :: t.sec.steps } })
  | .readReg o => s.tapData (s.regRead none o)
  | .writeReg o v => s.when (s.reach o) (·.mmio s.ownerPort o v)
  | .readScratch sp b => s.when (scratchByte sp b) (fun t => t.tapData (sget (fun _ => 0) t.scr (sp * 2 ^ 22 + b)).toNat)
  | .writeScratch sp b v => s.when (scratchByte sp b) (fun t => { t with scr := sset (fun _ => 0) t.scr (sp * 2 ^ 22 + b) v })
  | .readPool a => s.tapData (s.byte a).toNat
  | .writePool a v => (s.flushLine (a / 64)).write a [v]

/-- DEBUG_ACCESS. -/
def execDebugAccess (d : DebugAct) (s : State) : Host.Outcome State Fault Refusal := .next (s.tapDebug 0x20 (·.debug d))

/-- BYPASS. -/
def execBypass (s : State) : Host.Outcome State Fault Refusal := .next (s.when (s.pwr.phase != .dark) (·.tapBypass))

/-- TAP_RESET: the instruction register holds IDCODE, as IEEE 1149.1 has it. -/
def execTapReset (s : State) : Host.Outcome State Fault Refusal :=
  .next { s with pwr := { s.pwr with tapIr := 1, tapData := 0 } }

end Sys2Proof.Machine
end

