-- ==== Sys2Proof/Machine/Dispatch.lean ====
section
/-! DEFINITION. One arm per command: its meaning. -/

namespace Sys2Proof.Machine

def exec (i : Instr) (s : State) : Host.Outcome State Fault Refusal :=
  match i with
  | .registerWrite port off v => Sys2Proof.Machine.execRegisterWrite port off v s
  | .tenantWindowAccess port off write half v => Sys2Proof.Machine.execTenantWindowAccess port off write half v s
  | .frameBoundary => Sys2Proof.Machine.execFrameBoundary s
  | .slotBoundary => Sys2Proof.Machine.execSlotBoundary s
  | .ptpMessage domain transport m => Sys2Proof.Machine.execPtpMessage domain transport m s
  | .holdoverTimeout => Sys2Proof.Machine.execHoldoverTimeout s
  | .merCtrlWrite port v => Sys2Proof.Machine.execMerCtrlWrite port v s
  | .merFrameLoRead port => Sys2Proof.Machine.execMerFrameLoRead port s
  | .loadPool port => Sys2Proof.Machine.execLoadPool port s
  | .loadLibrary port index => Sys2Proof.Machine.execLoadLibrary port index s
  | .discardStandby port => Sys2Proof.Machine.execDiscardStandby port s
  | .stopActive port => Sys2Proof.Machine.execStopActive port s
  | .imageReadDone ue => Sys2Proof.Machine.execImageReadDone ue s
  | .admissionCheckDone => Sys2Proof.Machine.execAdmissionCheckDone s
  | .ephArm port withComposition => Sys2Proof.Machine.execEphArm port withComposition s
  | .ephDisarm port => Sys2Proof.Machine.execEphDisarm port s
  | .ephArmEpochWrite port v => Sys2Proof.Machine.execEphArmEpochWrite port v s
  | .recheckDone => Sys2Proof.Machine.execRecheckDone s
  | .entryStart entry ue tierFault => Sys2Proof.Machine.execEntryStart entry ue tierFault s
  | .frameOverrun entry => Sys2Proof.Machine.execFrameOverrun entry s
  | .doorbell port q v cycle => Sys2Proof.Machine.execDoorbell port q v cycle s
  | .qCfgWrite port q v => Sys2Proof.Machine.execQCfgWrite port q v s
  | .queueEnable port q => Sys2Proof.Machine.execQueueEnable port q s
  | .queueDisable port q => Sys2Proof.Machine.execQueueDisable port q s
  | .qRingLoWrite port q v => Sys2Proof.Machine.execQRingLoWrite port q v s
  | .qLogRdWrite port q v => Sys2Proof.Machine.execQLogRdWrite port q v s
  | .descriptorRead q cycle ue tierFault => Sys2Proof.Machine.execDescriptorRead q cycle ue tierFault s
  | .nop op => Sys2Proof.Machine.execNop op s
  | .copy op ue => Sys2Proof.Machine.execCopy op ue s
  | .fill op => Sys2Proof.Machine.execFill op s
  | .counterOp op => Sys2Proof.Machine.execCounterOp op s
  | .operationComplete op => Sys2Proof.Machine.execOperationComplete op s
  | .cValueWrite port c half v => Sys2Proof.Machine.execCValueWrite port c half v s
  | .cAddWrite port c half v => Sys2Proof.Machine.execCAddWrite port c half v s
  | .cBindWrite port c v => Sys2Proof.Machine.execCBindWrite port c v s
  | .cFailClrWrite port c v => Sys2Proof.Machine.execCFailClrWrite port c v s
  | .cNotifyCfgWrite port c v => Sys2Proof.Machine.execCNotifyCfgWrite port c v s
  | .cNotifyValueWrite port c half v => Sys2Proof.Machine.execCNotifyValueWrite port c half v s
  | .arrayProgram op stepwise ue scr => Sys2Proof.Machine.execArrayProgram op stepwise ue scr s
  | .ld op ue scr => Sys2Proof.Machine.execLd op ue scr s
  | .st op scr => Sys2Proof.Machine.execSt op scr s
  | .mma op scr => Sys2Proof.Machine.execMma op scr s
  | .accIn op scr => Sys2Proof.Machine.execAccIn op scr s
  | .accOut op scr => Sys2Proof.Machine.execAccOut op scr s
  | .vop op scr => Sys2Proof.Machine.execVop op scr s
  | .transpose op scr => Sys2Proof.Machine.execTranspose op scr s
  | .reduce op ue scr => Sys2Proof.Machine.execReduce op ue scr s
  | .reduceStreamRun op inCost scr => Sys2Proof.Machine.execReduceStreamRun op inCost scr s
  | .steeredWrite ctx addr data poisoned => Sys2Proof.Machine.execSteeredWrite ctx addr data poisoned s
  | .redPartial link poisoned => Sys2Proof.Machine.execRedPartial link poisoned s
  | .gather op ue => Sys2Proof.Machine.execGather op ue s
  | .gatherReduce op ue => Sys2Proof.Machine.execGatherReduce op ue s
  | .rowFilter op ue => Sys2Proof.Machine.execRowFilter op ue s
  | .scoreFilter op ue => Sys2Proof.Machine.execScoreFilter op ue s
  | .compress op ue => Sys2Proof.Machine.execCompress op ue s
  | .expand op ue => Sys2Proof.Machine.execExpand op ue s
  | .expandBlockDecode op ue scr => Sys2Proof.Machine.execExpandBlockDecode op ue scr s
  | .messageIngress die m => Sys2Proof.Machine.execMessageIngress die m s
  | .creditReturn link stream cells => Sys2Proof.Machine.execCreditReturn link stream cells s
  | .egressPosition die e ready => Sys2Proof.Machine.execEgressPosition die e ready s
  | .gateEntryExpiry die e => Sys2Proof.Machine.execGateEntryExpiry die e s
  | .egGateSwitch port die e => Sys2Proof.Machine.execEgGateSwitch port die e s
  | .tmTelemRdWrite port die v => Sys2Proof.Machine.execTmTelemRdWrite port die v s
  | .map port => Sys2Proof.Machine.execMap port s
  | .unmap port => Sys2Proof.Machine.execUnmap port s
  | .setFlags port => Sys2Proof.Machine.execSetFlags port s
  | .query port => Sys2Proof.Machine.execQuery port s
  | .pmapCommandDone => Sys2Proof.Machine.execPmapCommandDone s
  | .migrationChunkCopy page window ok ue => Sys2Proof.Machine.execMigrationChunkCopy page window ok ue s
  | .sourceFree page => Sys2Proof.Machine.execSourceFree page s
  | .wsOpen op ue => Sys2Proof.Machine.execWsOpen op ue s
  | .wsClose op => Sys2Proof.Machine.execWsClose op s
  | .wsStage stream => Sys2Proof.Machine.execWsStage stream s
  | .wsStageDone stream => Sys2Proof.Machine.execWsStageDone stream s
  | .cpOpen op => Sys2Proof.Machine.execCpOpen op s
  | .cpAppend op ue => Sys2Proof.Machine.execCpAppend op ue s
  | .cpSeal op => Sys2Proof.Machine.execCpSeal op s
  | .cpStatus op => Sys2Proof.Machine.execCpStatus op s
  | .cpReplay op => Sys2Proof.Machine.execCpReplay op s
  | .cpClose op => Sys2Proof.Machine.execCpClose op s
  | .mirrorRebuild handle tray => Sys2Proof.Machine.execMirrorRebuild handle tray s
  | .pageScrub page => Sys2Proof.Machine.execPageScrub page s
  | .pageScrubComplete page => Sys2Proof.Machine.execPageScrubComplete page s
  | .writeCacheFill link page unit => Sys2Proof.Machine.execWriteCacheFill link page unit s
  | .destage link => Sys2Proof.Machine.execDestage link s
  | .folding link verifyOk => Sys2Proof.Machine.execFolding link verifyOk s
  | .flashDieFailure link die => Sys2Proof.Machine.execFlashDieFailure link die s
  | .garbageCollection link group verifyOk => Sys2Proof.Machine.execGarbageCollection link group verifyOk s
  | .wearLevelling link die verifyOk => Sys2Proof.Machine.execWearLevelling link die verifyOk s
  | .readRefresh link stripe verifyOk => Sys2Proof.Machine.execReadRefresh link stripe verifyOk s
  | .secureDiscard link page eraseOk programOk => Sys2Proof.Machine.execSecureDiscard link page eraseOk programOk s
  | .secureDiscardComplete link page => Sys2Proof.Machine.execSecureDiscardComplete link page s
  | .rdCur a ctx line dirUe => Sys2Proof.Machine.execRdCur a ctx line dirUe s
  | .rdS a ctx line dirUe => Sys2Proof.Machine.execRdS a ctx line dirUe s
  | .rdOwn a ctx line dirUe => Sys2Proof.Machine.execRdOwn a ctx line dirUe s
  | .upgrade a ctx line => Sys2Proof.Machine.execUpgrade a ctx line s
  | .wrLine a ctx line data dirUe => Sys2Proof.Machine.execWrLine a ctx line data dirUe s
  | .wrPart a ctx addr data => Sys2Proof.Machine.execWrPart a ctx addr data s
  | .homeAtomic a ctx addr op => Sys2Proof.Machine.execHomeAtomic a ctx addr op s
  | .combinedAdd ctx addr size members => Sys2Proof.Machine.execCombinedAdd ctx addr size members s
  | .snpCur core line => Sys2Proof.Machine.execSnpCur core line s
  | .snpData core line => Sys2Proof.Machine.execSnpData core line s
  | .snpInv core line => Sys2Proof.Machine.execSnpInv core line s
  | .rspI a line => Sys2Proof.Machine.execRspI a line s
  | .rspS a line => Sys2Proof.Machine.execRspS a line s
  | .biRsp host line data => Sys2Proof.Machine.execBiRsp host line data s
  | .dirtyEvict a line data => Sys2Proof.Machine.execDirtyEvict a line data s
  | .cleanEvict a line => Sys2Proof.Machine.execCleanEvict a line s
  | .serviceCoreEviction core line => Sys2Proof.Machine.execServiceCoreEviction core line s
  | .biSnpTimeout host => Sys2Proof.Machine.execBiSnpTimeout host s
  | .recallDone domain => Sys2Proof.Machine.execRecallDone domain s
  | .linkSlotReceive link gcmOk aligned credits acks msgs fecCorr fecUncorr => Sys2Proof.Machine.execLinkSlotReceive link gcmOk aligned credits acks msgs fecCorr fecUncorr s
  | .e2eTimeout link peer stream => Sys2Proof.Machine.execE2eTimeout link peer stream s
  | .rd link ue => Sys2Proof.Machine.execRd link ue s
  | .rdData link => Sys2Proof.Machine.execRdData link s
  | .wr link => Sys2Proof.Machine.execWr link s
  | .wrResp link => Sys2Proof.Machine.execWrResp link s
  | .atomic link => Sys2Proof.Machine.execAtomic link s
  | .atomicResp link => Sys2Proof.Machine.execAtomicResp link s
  | .mirrorWr link => Sys2Proof.Machine.execMirrorWr link s
  | .abortNotice link => Sys2Proof.Machine.execAbortNotice link s
  | .epochNotice link => Sys2Proof.Machine.execEpochNotice link s
  | .hello link h => Sys2Proof.Machine.execHello link h s
  | .tRd link addr bytes ctx => Sys2Proof.Machine.execTRd link addr bytes ctx s
  | .tRdData link => Sys2Proof.Machine.execTRdData link s
  | .tWr link addr ctx data => Sys2Proof.Machine.execTWr link addr ctx data s
  | .tWrResp link => Sys2Proof.Machine.execTWrResp link s
  | .tAtomic link addr ctx op => Sys2Proof.Machine.execTAtomic link addr ctx op s
  | .tAtomicResp link => Sys2Proof.Machine.execTAtomicResp link s
  | .tFlCmd link cmd level die block page => Sys2Proof.Machine.execTFlCmd link cmd level die block page s
  | .tFlResp link page unit ok rowOk verifyOk => Sys2Proof.Machine.execTFlResp link page unit ok rowOk verifyOk s
  | .linkTrained link lanes rttNs nonce => Sys2Proof.Machine.execLinkTrained link lanes rttNs nonce s
  | .linkDown link laneFailed => Sys2Proof.Machine.execLinkDown link laneFailed s
  | .rtArm port v => Sys2Proof.Machine.execRtArm port v s
  | .rtDisarm port v => Sys2Proof.Machine.execRtDisarm port v s
  | .rtArmEpochWrite port v => Sys2Proof.Machine.execRtArmEpochWrite port v s
  | .hpDisable port n => Sys2Proof.Machine.execHpDisable port n s
  | .hpRetrain port n => Sys2Proof.Machine.execHpRetrain port n s
  | .lpDisable port n => Sys2Proof.Machine.execLpDisable port n s
  | .lpRetrain port n => Sys2Proof.Machine.execLpRetrain port n s
  | .hostPortTrained n l => Sys2Proof.Machine.execHostPortTrained n l s
  | .hostPortDown n => Sys2Proof.Machine.execHostPortDown n s
  | .memRead port dpa ideOk ue => Sys2Proof.Machine.execMemRead port dpa ideOk ue s
  | .memWrite port dpa data enable ideOk => Sys2Proof.Machine.execMemWrite port dpa data enable ideOk s
  | .atomicOp port dpa op => Sys2Proof.Machine.execAtomicOp port dpa op s
  | .configRequest port mask => Sys2Proof.Machine.execConfigRequest port mask s
  | .ideKeyProgram port key => Sys2Proof.Machine.execIdeKeyProgram port key s
  | .expanderLoss n => Sys2Proof.Machine.execExpanderLoss n s
  | .hrefLoss g => Sys2Proof.Machine.execHrefLoss g s
  | .hrefRestore g => Sys2Proof.Machine.execHrefRestore g s
  | .pllLockLoss k => Sys2Proof.Machine.execPllLockLoss k s
  | .pllRelock k => Sys2Proof.Machine.execPllRelock k s
  | .define port ctx slice => Sys2Proof.Machine.execDefine port ctx slice s
  | .occult port ctx => Sys2Proof.Machine.execOccult port ctx s
  | .release port ctx => Sys2Proof.Machine.execRelease port ctx s
  | .replayStoreRelease link ctx => Sys2Proof.Machine.execReplayStoreRelease link ctx s
  | .seal port confirm => Sys2Proof.Machine.execSeal port confirm s
  | .maintEnter port confirm => Sys2Proof.Machine.execMaintEnter port confirm s
  | .debugLevelRequest port v => Sys2Proof.Machine.execDebugLevelRequest port v s
  | .attestationKeyMade certified => Sys2Proof.Machine.execAttestationKeyMade certified s
  | .getIdentity i3c port wellFormed => Sys2Proof.Machine.execGetIdentity i3c port wellFormed s
  | .getAttKey i3c port wellFormed => Sys2Proof.Machine.execGetAttKey i3c port wellFormed s
  | .getReport i3c port nonce => Sys2Proof.Machine.execGetReport i3c port nonce s
  | .dbgTraceRdWrite port v => Sys2Proof.Machine.execDbgTraceRdWrite port v s
  | .replayFinished engine => Sys2Proof.Machine.execReplayFinished engine s
  | .faultCtx port ctx => Sys2Proof.Machine.execFaultCtx port ctx s
  | .abortCtx port ctx => Sys2Proof.Machine.execAbortCtx port ctx s
  | .dieReset port unit confirm => Sys2Proof.Machine.execDieReset port unit confirm s
  | .moduleReset port confirm => Sys2Proof.Machine.execModuleReset port confirm s
  | .retrainStack port unit confirm => Sys2Proof.Machine.execRetrainStack port unit confirm s
  | .stackRetrainDone stack => Sys2Proof.Machine.execStackRetrainDone stack s
  | .retrainTimeout isStack n => Sys2Proof.Machine.execRetrainTimeout isStack n s
  | .dieResetDone die => Sys2Proof.Machine.execDieResetDone die s
  | .dieResetTimeout die => Sys2Proof.Machine.execDieResetTimeout die s
  | .d2dPathFailure a b => Sys2Proof.Machine.execD2dPathFailure a b s
  | .admitArm port k v => Sys2Proof.Machine.execAdmitArm port k v s
  | .mirrorResync region page => Sys2Proof.Machine.execMirrorResync region page s
  | .hmLogRdWrite port v => Sys2Proof.Machine.execHmLogRdWrite port v s
  | .moduleStart vinMv sysclkOk norPresent sigAlmOk sigFwOk => Sys2Proof.Machine.execModuleStart vinMv sysclkOk norPresent sigAlmOk sigFwOk s
  | .modReady selfTest => Sys2Proof.Machine.execModReady selfTest s
  | .startTimeout => Sys2Proof.Machine.execStartTimeout s
  | .startImageLoad locked => Sys2Proof.Machine.execStartImageLoad locked s
  | .pwrEnLow => Sys2Proof.Machine.execPwrEnLow s
  | .resetNLow => Sys2Proof.Machine.execResetNLow s
  | .norRequest => Sys2Proof.Machine.execNorRequest s
  | .norRelease writes => Sys2Proof.Machine.execNorRelease writes s
  | .verify port confirm => Sys2Proof.Machine.execVerify port confirm s
  | .verifyDone sigAlmOk sigFwOk => Sys2Proof.Machine.execVerifyDone sigAlmOk sigFwOk s
  | .write port confirm => Sys2Proof.Machine.execWrite port confirm s
  | .writeDone readBackOk => Sys2Proof.Machine.execWriteDone readBackOk s
  | .abort port confirm => Sys2Proof.Machine.execAbort port confirm s
  | .powerSample x => Sys2Proof.Machine.execPowerSample x s
  | .full port => Sys2Proof.Machine.execFull port s
  | .idle port => Sys2Proof.Machine.execIdle port s
  | .retain port => Sys2Proof.Machine.execRetain port s
  | .off port confirm => Sys2Proof.Machine.execOff port confirm s
  | .powerTransitionDone => Sys2Proof.Machine.execPowerTransitionDone s
  | .sysclkLoss => Sys2Proof.Machine.execSysclkLoss s
  | .extest v => Sys2Proof.Machine.execExtest v s
  | .idcode => Sys2Proof.Machine.execIdcode s
  | .samplePreload v => Sys2Proof.Machine.execSamplePreload v s
  | .secStatus => Sys2Proof.Machine.execSecStatus s
  | .debugAccess d => Sys2Proof.Machine.execDebugAccess d s
  | .bypass => Sys2Proof.Machine.execBypass s
  | .tapReset => Sys2Proof.Machine.execTapReset s
  | .flashDieRebuild link page unit verifyOk => Sys2Proof.Machine.execFlashDieRebuild link page unit verifyOk s
  | .serviceCoreAccess core ctx line store => Sys2Proof.Machine.execServiceCoreAccess core ctx line store s
  | .grant core line state data => Sys2Proof.Machine.execGrant core line state data s
  | .standbyPowerLoss => Sys2Proof.Machine.execStandbyPowerLoss s

end Sys2Proof.Machine
end

