-- ==== Sys2Proof/Safety.lean ====
section
/-! DEFINITION. The terms that claims use: the canonical form of every store, what it takes for a port's command to be served, and
which parts of the state a command leaves alone. -/

namespace Sys2Proof.Machine

/-- The memory is in its canonical form. DESIGN CHOICE, unsafe: notes/assumptions/58.md. -/
abbrev Memory.wf (m : List Host.Cell) : Bool := swf (fun _ => (0 : Byte)) m

/-- Registers, registers in force, pool memory and scratch are canonical. -/
def State.wf (s : State) : Bool :=
  swf resetVal s.regs && swf resetVal s.force && Memory.wf s.mem && swf (fun _ => (0 : Byte)) s.scr

/-- The module serves requests of its ports: it is past its start and not in Retain (R561, R574). -/
def State.serves (s : State) : Bool := s.ready && s.pwr.state != 2

/-- A command of `port` to the register at `off` is carried out: the module serves requests, the register's die answers (R45), and the
port is an owner port (R486). -/
def State.accepts (s : State) (port off : Nat) : Bool := s.serves && s.reach off && s.owner port

/-- The parts of the state other than the registers. -/
inductive Part where
  | pending | force | mem | poison | scr | scrPoison | time | eph | ops | heads | bells | nextOp | granted | stalled
  | reds | tier | sw | coh | link | flash | ctx | health | sec | alm | pwr | out | freeCtr
  deriving DecidableEq, Repr

/-- A part of the state is the same in both. -/
def Part.same (s t : State) : Part → Prop
  | .pending => t.pending = s.pending
  | .force => t.force = s.force
  | .mem => t.mem = s.mem
  | .poison => t.poison = s.poison
  | .scr => t.scr = s.scr
  | .scrPoison => t.scrPoison = s.scrPoison
  | .time => t.time = s.time
  | .eph => t.eph = s.eph
  | .ops => t.ops = s.ops
  | .heads => t.heads = s.heads
  | .bells => t.bells = s.bells
  | .nextOp => t.nextOp = s.nextOp
  | .granted => t.granted = s.granted
  | .stalled => t.stalled = s.stalled
  | .reds => t.reds = s.reds
  | .tier => t.tier = s.tier
  | .sw => t.sw = s.sw
  | .coh => t.coh = s.coh
  | .link => t.link = s.link
  | .flash => t.flash = s.flash
  | .ctx => t.ctx = s.ctx
  | .health => t.health = s.health
  | .sec => t.sec = s.sec
  | .alm => t.alm = s.alm
  | .pwr => t.pwr = s.pwr
  | .out => t.out = s.out
  | .freeCtr => t.freeCtr = s.freeCtr

/-- Nothing differs but the parts in `ps` and the registers in `l`: every other part of the state is the same, and every other register
reads the same. -/
def only (ps : List Part) (l : List Nat) (s t : State) : Prop :=
  (∀ p : Part, p ∉ ps → p.same s t) ∧ ∀ off, off ∉ l → t.rd off = s.rd off

/-- Nothing but registers differs, and of those only the ones listed. -/
abbrev onlyRegs (l : List Nat) (s t : State) : Prop := only [] l s t

/-- Pool memory, scratch memory and what is known bad in them are the same. -/
def sameMemory (s t : State) : Prop := t.mem = s.mem ∧ t.poison = s.poison ∧ t.scr = s.scr ∧ t.scrPoison = s.scrPoison

/-- No host owns a line, and no snoop of a host is under way: an access of a unit waits for none (R416). -/
abbrev State.quiet (s : State) : Prop := s.hostOwned = [] ∧ s.coh.invals = [] ∧ s.coh.curs = []

/-- Operation `id` is in flight, running, of this opcode, and not halted by JTAG (R154, R513); it waits for no host. -/
abbrev State.runsOp (s : State) (id : Nat) (o : Op) (code : Nat) : Prop :=
  s.op id = some o ∧ o.phase = .running ∧ dOpcode o.desc = code ∧ s.opHalted o = false ∧ s.quiet

/-- The work of operation `id` has ended with a status. -/
abbrev State.ended (s : State) (id : Nat) (st : Status) : Prop := (s.op id).map (·.phase) = some (.executed st)

/-- No service core holds data newer than memory. -/
def State.settled (s : State) : Prop := ∀ l, s.newer l = none

/-- Unit code u names a unit of the module that takes writes: it is no read-only flash tray (R356). -/
def State.takesWrites (s : State) (u : Nat) : Bool := u < 0x100 && (u < 0x40 || s.trayState (u - 0x40) != 2)

/-- A write of [a, a + n) reaches nothing but these bytes: no page of it lies in a mirror region, is lost, or is on a read-only tray
(R355, R356, R541). -/
def State.plainSpan (s : State) (a n : Nat) : Bool :=
  (pagesOf a n).all (fun p => (s.mirrorOf p).isNone && s.lostCheck p == .ok
    && (s.page p).all (fun g => (s.chunkUnits g.loc g.page).all s.takesWrites))

/-- The pages of [a, a + n) lie on units that take writes (R356). -/
def State.unitsTake (s : State) (a n : Nat) : Bool := (pagesOf a n).all (fun p => (s.page p).all (fun g => (s.chunkUnits g.loc g.page).all s.takesWrites))

/-- The parts of the state that a write of pool memory can change. -/
def storeParts : List Part := [.mem, .poison, .coh, .out, .tier, .flash]

/-- A write of [a, a + n) for context x is stored whole, and changes nothing but what it stores: no line of it is steered (R220). -/
abbrev State.plainFor (s : State) (x a n : Nat) : Prop := s.plainSpan a n = true ∧ s.steered x a n = []

/-- Queue q keeps no event log, or its next record goes to plain memory (R150). -/
abbrev State.logPlain (s : State) (q : Nat) : Prop :=
  s.fld (queueBlock q + 4) 27 4 = 0 ∨ s.plainFor (s.ffld (queueBlock q) 0 10) (logSlot s q) 16

/-- A program that runs one by one is at instruction `i` of this kind: it does something, and the lines it reads are good (R188, R193). -/
abbrev State.atInstr (s : State) (id : Nat) (o : Op) (i : BitVec 128) (code : Nat) (x : ScrIn) : Prop :=
  s.op id = some o ∧ o.phase = .stepping ∧ s.opHalted o = false ∧ s.quiet ∧ o.run.prog[o.run.pc]? = some i ∧ uop i.toNat = code
    ∧ uopEmpty i.toNat = false ∧ (readSpans i.toNat).any (fun p => (s.scrIn o.win x).scrBad o.win p.1 p.2) = false

/-- The program of operation `id` has gone one instruction further than in `o`, or has ended OK after its last. -/
def State.advanced (t : State) (id : Nat) (o : Op) : Prop :=
  (o.run.pc + 1 < o.run.prog.length → (t.op id).map (fun p => (p.phase, p.run.pc)) = some (.stepping, o.run.pc + 1))
    ∧ (o.run.prog.length = o.run.pc + 1 → t.ended id .ok)

/-- Accumulator tile a of operation `id`. -/
def State.tileOf (t : State) (id a : Nat) : Option Tile := (t.op id).bind (fun p => p.tile a)

/-- Byte b of a scratch window. -/
def State.scrByte (s : State) (w : Win) (b : Nat) : Byte := sget (fun _ => 0) s.scr (w.key b)

/-- What an operation's use of its scratch window counts: `ENG_PROGRESS`, `ENG_ERR`, corrected errors, and the poisoned lines of the engines
of its core (R195, R197). -/
def progressRegs (o : Op) : List Nat :=
  let e := o.engine.getD 0
  [8, 0x18, 0x1C].map (engineBlock e + ·) ++ [0, 1, 2, 3].map (fun k => engineBlock (e / 4 * 4 + k) + 0x24)

/-- Rows of a ROW_FILTER's input that match, in ascending order (R253). -/
def State.rowHits (s : State) (d : BitVec 512) : List Nat :=
  (List.range (rfCount d)).filter (fun i => rowMatch d (s.bytes (rfSrc d + i * rfRow d) (rfRow d)))

/-- The part of the state is the same in both, for every part not named; registers aside. -/
def sameBut (ps : List Part) (s t : State) : Prop := ∀ p : Part, p ∉ ps → p.same s t

/-- `REDUCE` status of engine e, its die's open count and duplicates, the cells that wait for reductions, and `ENG_STATE` (R195, R222, R229,
R230). -/
def redRegs (e : Nat) : List Nat :=
  [redReg e 0, redReg e 4, redReg e 8, redReg e 0xC, engineBlock e + 4] ++ [0x200, 0x204, 0x500, 0x504].map (dieReg (e / 64) ·)

-- Groups of registers that shared operations count or record in.

/-- `HM_LOG_WR`, `HM_LOG_LOST` and the error log (R546). -/
def errRegs : List Nat := 0x818 :: 0x820 :: (List.range 0x8000).map (fun i => 0x90000 + 4 * i)

/-- `COH_DIR_USED`, `COH_HOME_HELD` of the eight slices and `COH_DOM_LINES` of the domains (R435, R440). -/
def dirRegs : List Nat :=
  (List.range 8).flatMap (fun h => [dirReg h 0, dirReg h 8]) ++ [domReg 1 0x14, domReg 2 0x14, domReg 3 0x14]

/-- The step boundaries of every context (R517, R518). -/
def stepRegs : List Nat := (List.range 1024).flatMap (fun x => [healthReg x 4, healthReg x 8, healthReg x 12])

/-- What an add to counter c can change: its value, its notification, the step boundary of its context (R142, R147, R518). -/
def addRegs (c : Nat) : List Nat := [counterBlock c, counterBlock c + 4, counterBlock c + 0x1C] ++ stepRegs

/-- The standby state and `EPH_STANDBY_ID` of the dies; the active state and `EPH_ACTIVE_ID` (R112). -/
def standbyRegs : List Nat := (List.range 4).flatMap (fun d => [ephReg d 0, ephReg d 8])
def activeRegs : List Nat := (List.range 4).flatMap (fun d => [ephReg d 0, ephReg d 4])

/-- What pages held are counted in: `TIER_FREE_…`, abandoned moves and lost pages (R351), `CU_…` (R342) and `SL_USED_…` (R344). -/
def useRegs : List Nat :=
  [0x214, 0x218, 0x21C, 0x224, 0x228] ++ (List.range 1024).flatMap (fun x => [quotaReg x 0x0C, quotaReg x 0x10, quotaReg x 0x14])
    ++ (List.range 64).flatMap (fun l => [shareReg l 0x10, shareReg l 0x14, shareReg l 0x18])

/-- What an event record of queue q can change (R149, R150). -/
def evlogRegs (q : Nat) : List Nat := [queueBlock q + 0x1C, queueBlock q + 0x2C, queueBlock q + 0x34]

/-- What the arrival of a message of context x counts at die d: the switch core's counts (R321), combined requests (R440), unmatched Zenith
cells (R112), and the results of the context's policer (R325). -/
def State.switchRegs (s : State) (d x : Nat) : List Nat :=
  let p := nbits (s.frd (tmReg d x)).toNat 16 12
  [0x500, 0x504, 0x508, 0x50C, 0x510, 0x518, 0x51C, 0x780, 0x784].map (dieReg d ·) ++ [ephReg d 0x48] ++ [0x14, 0x18, 0x1C].map (polReg d p ·)

/-- A position of egress e of die d carries a cell, stays idle, or ends a message with a stomp. -/
def Out.atPosition (c : Out) (d e : Nat) : Bool :=
  match c with
  | .cell a b _ _ _ _ => a == d && b == e
  | .idleCell a b => a == d && b == e
  | .stomp a b => a == d && b == e
  | _ => false

/-- A register that only stores what is written under the access codes of its fields: no command of its own, no value that it refuses
(R11, R119, R326, R351, R402, R436-R438, R471, R509, R547, R568, R578). -/
def storesOnly (off : Nat) : Bool :=
  off % 4 == 0 && (match place off with
    | .glob o => !([0x100, 0x200, 0x20C, 0x22C, 0x248, 0x250, 0x304, 0x308, 0x30C, 0x310, 0x604, 0x608, 0x60C, 0x610, 0x618, 0x704, 0x720, 0x724,
        0x728, 0x72C, 0x734, 0x800, 0x808, 0x81C, 0x840, 0x850, 0x860, 0x870, 0x904, 0x928, 0xA1C] : List Nat).contains o
        && !(inRange 0x400 0x4BF o && o % 0x40 < 0xC) && !inRange 0x40000 0x4017F o && !(inRange 0x50000 0x57FFF o && o % 0x20 == 8)
        && !inRange 0x70000 0x71FFF o && !inRange 0x80000 0x87FFF o
    | .dieCtl _ o => !([0x530, 0x534, 0x538, 0x540] : List Nat).contains o && !inRange 0x400000 0x57FFFF o && !inRange 0x600000 0x601FFF o
        && !inRange 0x610000 0x63FFFF o
    | .eph d o => !(d == 0 && ([0x18, 0x20, 0x24] : List Nat).contains o)
    | .queue _ o => !([0, 4, 8, 0xC, 0x10, 0x14, 0x30, 0x40] : List Nat).contains o
    | .host _ o => o != 4 && !inRange 0x100 0x1FF o
    | .link _ o => o != 4
    | .engine _ _ => true
    | .counter _ _ => false
    | .reserved => false)

/-- The register after a write of v under the access codes of R11 by an owner port. -/
def codeValue (off : Nat) (cur v : Word) : Word :=
  let i := regInfo off
  (cur &&& ~~~(i.rw ||| i.rws ||| (v &&& i.w1c))) ||| (v &&& (i.rw ||| i.rws))

/-- What messages leaving on link ports count: `LP_RETRY`, `LP_REPLAY_USED` (R474), and Zenith cells without a copy (R112). -/
def linkRegs : List Nat :=
  (List.range 64).flatMap (fun l => [linkBlock l + 0x1C, linkBlock l + 0x34]) ++ (List.range 4).map (fun d => ephReg d 0x44)

/-- What the passing of time counts: no slot for a ready queue, no room for an ingress, a home slice that is full (R155, R294, R420). -/
def stallRegs : List Nat := (List.range 4).flatMap (fun d => [dieReg d 0x108, dieReg d 0x508]) ++ (List.range 8).map (fun h => dirReg h 0xC)

/-- The weight streams that counter c advances belong to contexts (R475). -/
abbrev State.streamsBound (s : State) (c : Nat) : Prop := ∀ w ∈ s.streamsOf c, w.ctx < 1024

/-- An MSI-X message to a vector of a host port leaves, waits while the vector is masked, or is not sent to a port that is not UP (R147). -/
def State.told (s t : State) (port vector : Nat) : Prop :=
  (s.hostUp port = false → t.out = s.out ∧ t.link = s.link)
    ∧ (s.hostUp port = true → (port, vector) ∉ s.link.masked → t.out = .msix port vector :: s.out ∧ t.link = s.link)
    ∧ (s.hostUp port = true → (port, vector) ∈ s.link.masked → t.out = s.out ∧ (port, vector) ∈ t.link.pend
        ∧ ({ t.link with pend := s.link.pend } : LinkS) = s.link)

/-- `ENG_STATE` of every engine (R196). -/
def engStateRegs : List Nat := (List.range 256).map (fun e => engineBlock e + 4)

/-- What a record of the trace ring counts (R516). -/
def traceRegs : List Nat := [0x730, 0x738]

/-- The oldest message of this kind that link port l brought is m; ports serve requests. -/
abbrev State.brought (s : State) (l kind : Nat) (m : Msg) : Prop :=
  s.ready = true ∧ s.pwr.state ≠ 2 ∧ l < 64 ∧ s.link.rx.find? (fun p => p.1 == l && p.2.kind == kind) = some (l, m)

/-- Tag and version of m pass on link port l (R467, R480). -/
abbrev State.passes (s : State) (l : Nat) (m : Msg) : Prop :=
  s.tagCheck l m.epoch.toNat m.ctx m.gen = (.ok, false) ∧ s.staleEpoch m = false

/-- A response to m has a way back, and it is numbered and kept there (R458, R463). -/
def State.answerable (s : State) (m : Msg) : Bool :=
  m.cls < 6 && ((s.linkTo m.epoch.toNat (s.unitIngress m.addr) m.src m.ctx m.cls m.label).isSome || (match s.destRoute m.epoch.toNat m.src with
    | .away _ => false
    | _ => true))

/-- A response to m is on its way, or waits to leave. -/
def State.answersTo (t : State) (m : Msg) (kind : Nat) (st : Status) (data : List Byte) : Prop :=
  ∃ r ∈ t.link.replay, r.msg.kind = kind ∧ r.msg.dst = m.src ∧ r.msg.sub = st.code ∧ r.msg.ctx = m.ctx ∧ r.msg.gen = m.gen
    ∧ r.msg.addr = m.addr ∧ r.msg.payload = data

/-- Nothing is at the home of line l, nor on its way to it, and its slice accepts requests. -/
abbrev State.homeFree (s : State) (l : Nat) : Prop :=
  s.coh.txns = [] ∧ s.coh.waitq = [] ∧ (∀ i ∈ s.coh.invals, i.line ≠ l) ∧ s.fld 0x10 (4 * (homeSlice l / 2)) 4 = 3

/-- The bytes of [a, a + n) read as `data` says, and every other byte as in s. -/
def State.holds (t s : State) (a : Nat) (data : List Byte) : Prop :=
  ∀ x, t.byte x = (if a ≤ x ∧ x < a + data.length then data.getD (x - a) 0 else s.byte x)

/-- No home records a line with host port n, nothing waits for its answer, and no request waits for a home. -/
abbrev State.hostClear (s : State) (n : Nat) : Prop :=
  (∀ e ∈ s.coh.dir, Agent.host n ∉ e.holders) ∧ (∀ t ∈ s.coh.txns, Agent.host n ∉ t.waits) ∧ (∀ i ∈ s.coh.invals, i.host ≠ n) ∧ s.coh.waitq = []

/-- `HP_STATUS`, `HP_EVENTS` of host port n and its bit in `DIE_HP_UP` (R50, R472). -/
def hostRegs (n : Nat) : List Nat := [hostBlock n, hostBlock n + 0xC, dieReg (n / 12) 0x14]

/-- Parts that a host port's end can change when it holds nothing. -/
def hostParts : List Part := [.mem, .poison, .coh, .out, .link, .tier]

/-- A host request of port n to address dpa of window w, for context x at pool address a, is admitted (R444, R446, R483). -/
abbrev State.admits (s : State) (n dpa w x a : Nat) : Prop :=
  s.serves = true ∧ s.hostUp n = true ∧ s.windowOf n dpa = some w ∧ x = s.windowCtx n w ∧ a = s.windowAddr n w dpa
    ∧ s.ctxCheck x = .ok ∧ s.portCheck (.host n) x 0 = .ok ∧ (s.routeOf s.version (a / 2 ^ 21)).isHere = true

/-- Context blocks' scrub fields: `SCRUB_BUSY`, pages to scrub, `SCRUB_DONE` (R476). -/
def scrubRegs : List Nat := (List.range 1024).flatMap (fun x => [ctxReg x 0, ctxReg x 0x10, ctxReg x 0x18])

/-- The block of the tray on link port l and `FL_EVENTS` (R402, R403). -/
def trayRegs (l : Nat) : List Nat := 0x314 :: (List.range 16).map (fun i => trayReg l (4 * i))

/-- No page is mirrored, no unit is a read-only tray, no reduction steers, and no service core holds data newer than memory: a write the context
may make to pages that are not lost succeeds. -/
def State.poolTakes (s : State) : Prop :=
  s.settled ∧ (∀ p, s.mirrorOf p = none) ∧ (∀ g ∈ s.tier.pages, (s.chunkUnits g.loc g.page).all s.takesWrites = true)
    ∧ (∀ x ∈ s.tier.units, s.takesWrites x.unit = true) ∧ ∀ r ∈ s.reds, r.steer = 0

/-- Each stripe of a tray has a number of its own, below the next one. -/
def Tray.numbered (y : Tray) : Prop := (y.stripes.map (·.no)).Nodup ∧ ∀ v ∈ y.stripes, v.no < y.nextStripe

/-- Stripe v of tray y can be emptied: it holds no valid unit, or each finds room in the group's main stripes and verifies. -/
def State.movable (s : State) (y : Tray) (v : FStripe) (verifyOk : Bool) : Prop :=
  v.live = [] ∨ (verifyOk = true
    ∧ ((y.setStripe v.close).copyUnits (s.mainPages y.pSlc) v.group (v.live.map (y.readCopy v))).2.2 = true)

/-- What is left of stripe v of the tray on link port l holds no valid unit, and each that v held is mapped to another stripe. -/
def State.emptied (t : State) (l : Nat) (v : FStripe) : Prop :=
  ∃ y, t.tray l = some y ∧ (∀ w ∈ y.stripes, w.no = v.no → w.live = [])
    ∧ ∀ c ∈ v.live, ∃ w ∈ y.stripes, w.no ≠ v.no ∧ ∃ k ∈ w.live, k.page = c.page ∧ k.unit = c.unit

/-- What a service request that succeeds can change besides its registers. -/
def serviceParts : List Part := storeParts ++ [.ops, .sec, .freeCtr]

/-- A request of a line that no cache holds: ports serve requests, its home is free and accepts it, the line is good, and a way is there. -/
abbrev State.homeTakes (s : State) (r : CReq) : Prop :=
  s.serves = true ∧ s.homeFree r.line ∧ s.reqCheck r = .ok ∧ s.dirEnt r.line = none ∧ s.poison.contains r.line = false ∧ s.needsWay r = false

/-- The one transaction of the homes is t, on line l, and it waits for agent a's answer alone. -/
abbrev State.awaitsOnly (s : State) (t : Txn) (l : Nat) (a : Agent) : Prop :=
  s.coh.txns = [t] ∧ s.coh.waitq = [] ∧ t.req.line = l ∧ t.req.via = .agent ∧ t.waits = [a] ∧ t.awaitWb = []

/-- Registers that Dark keeps (R545): reset cause, `ALM_STATUS`, `ALM_FLOOR`, shutdown cause, and what the trays' metadata say. -/
def darkKept (off : Nat) : Bool :=
  off == 0x80C || off == 0xA00 || off == 0xA08 || off == 0x92C || (0x30000 ≤ off && off < 0x31000 && off % 0x40 != 0)

/-- The module is Dark in t: of s the fuses, the NOR (unless an update was writing it), the trays and the latched registers are left;
everything else stands as at reset (R514, R545). Registers in `l` are said elsewhere. -/
def State.wentDark (s t : State) (l : List Nat) : Prop :=
  t.pwr.phase = .dark ∧ t.pending = s.pending ∧ t.mem = [] ∧ t.poison = [] ∧ t.scr = [] ∧ t.scrPoison = [] ∧ t.ops = [] ∧ t.heads = []
    ∧ t.reds = [] ∧ t.tier = .reset ∧ t.sw = .reset ∧ t.coh = .reset ∧ t.link = .reset ∧ t.flash = { s.flash with held := [] } ∧ t.ctx = .reset ∧ t.health = .reset
    ∧ t.eph = .reset ∧ t.time = .reset ∧ t.out = s.out ∧ t.sec.fuseSealed = s.sec.fuseSealed ∧ t.sec.bootEpoch = s.sec.bootEpoch
    ∧ t.sec.idCounter = s.sec.idCounter ∧ t.sec.almFloor = s.sec.almFloor ∧ (s.updState ≠ 3 → t.alm.nor = s.alm.nor)
    ∧ ∀ off, off ∉ l → t.rd off = if darkKept off then s.rd off else resetVal off

end Sys2Proof.Machine
end

