-- ==== Sys2Proof/Certificates/Slice0/Obligations.lean ====
section
/-! DEFINITION. The statements for the provers. A statement about a command says, for every state and operands that meet its hypotheses,
that the command answers a next state and what that state holds: what the rules say changes, and with `only` that nothing else does. -/

open Sys2Proof Sys2Proof.Machine

/-- R70, R71, R74. An accepted write of `MER_CTRL` takes the two fields and makes the change pending; a value outside the ranges of R70 is
discarded as a whole and sets `BAD_WRITE`. Nothing else changes. A read of `MER_FRAME_LO` answers the low word of the frame number and
captures the high word for the port, whose next read of `MER_FRAME_HI` answers it; the words captured for other ports stay. -/
def Obligations.MerCtrlIsCheckedAndFrameReadsCapture : Prop :=
  (∀ (s : State) (port : Nat) (v : Word), s.accepts port 0x100 = true →
    (8 ≤ nbits v.toNat 0 9 ∧ nbits v.toNat 0 9 ≤ 256 ∧ 4 ≤ nbits v.toNat 16 5 ∧ nbits v.toNat 16 5 ≤ 16 →
      ∃ t, exec (.merCtrlWrite port v) s = .next t ∧ onlyRegs [0x100, 0x104] s t
        ∧ nbits (t.rd 0x100).toNat 0 9 = nbits v.toNat 0 9 ∧ nbits (t.rd 0x100).toNat 16 5 = nbits v.toNat 16 5
        ∧ t.rd 0x104 = s.rd 0x104 ||| 4)
    ∧ (¬ (8 ≤ nbits v.toNat 0 9 ∧ nbits v.toNat 0 9 ≤ 256 ∧ 4 ≤ nbits v.toNat 16 5 ∧ nbits v.toNat 16 5 ≤ 16) →
      ∃ t, exec (.merCtrlWrite port v) s = .next t ∧ onlyRegs [0x114] s t ∧ t.rd 0x114 = s.rd 0x114 ||| 8))
  ∧ (∀ (s : State) (port : Nat), s.accepts port 0x108 = true →
    ∃ t, exec (.merFrameLoRead port) s = .next t ∧ only [.time, .out] [] s t
      ∧ t.out = .regData port (BitVec.ofNat 64 (s.time.frame % 2 ^ 32)) :: s.out
      ∧ { t.time with capture := s.time.capture } = s.time
      ∧ t.time.capture.find? (fun p => p.1 == port) = some (port, BitVec.ofNat 32 (s.time.frame / 2 ^ 32))
      ∧ (∀ n, n ≠ port → t.time.capture.find? (fun p => p.1 == n) = s.time.capture.find? (fun p => p.1 == n))
      ∧ ∀ frame, ({ t with time := { t.time with frame := frame } } : State).regRead (some port) 0x10C = s.time.frame / 2 ^ 32 % 2 ^ 32)

/-- R60, R61, R69, R75. A Sync of the configured domain and transport with its origin time, in one step or by its Follow_Up, is valid time: the
grid's offset from it, the mean path delay added, shows in `MER_OFFSET`, the time state leaves FREE and HOLDOVER for LOCKING (1) and reaches
LOCKED (2) from LOCKING once the offset is at most 100 ns, and a delay request leaves; its response sets the mean path delay. A message of
another domain or transport changes nothing, nor does a Follow_Up or a response that nothing awaits. 2 s without valid time after LOCKING or
LOCKED is HOLDOVER (3), and `LOST_TIME` is latched. That the state follows the offset at once is the model's choice
(notes/assumptions/10.md). -/
def Obligations.TimeStateFollowsNetworkTime : Prop :=
  (∀ (s : State) (d tr origin arr : Nat) (m : PtpMsg) (o : Int), s.ready = true → d = s.fld 0x118 0 7 → tr = s.fld 0x118 8 1 →
      (m = .sync false origin ∧ arr = s.localNs ∨ m = .followUp origin ∧ s.time.syncAt = some arr) →
      o = ((s.time.frame * s.periodNs + s.time.cycle * 5 / 9 : Nat) : Int) - (origin + s.time.delay + (s.localNs - arr) : Nat) →
    ∃ t, exec (.ptpMessage d tr m) s = .next t ∧ only [.time, .out] [0x104, 0x110, 0x114] s t
      ∧ t.out = .delayReq d tr :: s.out ∧ t.time.offset = o ∧ t.time.sync = some (origin, arr) ∧ t.time.syncAt = none
      ∧ t.timeState = (if (s.timeState = 1 ∨ s.timeState = 2) ∧ o.natAbs ≤ 100 then 2 else 1)
      ∧ (-2147483647 ≤ o → o ≤ 2147483647 → (t.rd 0x110).toInt = o))
  ∧ (∀ (s : State) (d tr origin : Nat), s.ready = true → d = s.fld 0x118 0 7 → tr = s.fld 0x118 8 1 →
    ∃ t, exec (.ptpMessage d tr (.sync true origin)) s = .next t ∧ only [.time] [] s t ∧ t.time.syncAt = some s.localNs)
  ∧ (∀ (s : State) (d tr received q : Nat) (r : Nat × Nat), s.ready = true → d = s.fld 0x118 0 7 → tr = s.fld 0x118 8 1 →
      s.time.sync = some r → s.time.reqAt = some q →
    ∃ t, exec (.ptpMessage d tr (.delayResp received)) s = .next t ∧ only [.time] [0x104, 0x110, 0x114] s t
      ∧ t.time.delay = pathDelay r.1 r.2 q received ∧ t.time.reqAt = none)
  ∧ (∀ (s : State) (d tr n : Nat) (m : PtpMsg), d ≠ s.fld 0x118 0 7 ∨ tr ≠ s.fld 0x118 8 1 ∨ m = .followUp n ∧ s.time.syncAt = none
      ∨ m = .delayResp n ∧ (s.time.sync = none ∨ s.time.reqAt = none) → exec (.ptpMessage d tr m) s = .next s)
  ∧ (∀ s : State, s.ready = true → s.timeState = 1 ∨ s.timeState = 2 →
    ∃ t, exec .holdoverTimeout s = .next t ∧ t.timeState = 3 ∧ t.rd 0x114 = s.rd 0x114 ||| 1 ∧ onlyRegs [0x104, 0x114] s t)

/-- R93, R107, R113, R114. LOAD_POOL and LOAD_LIBRARY start a load, which replaces an accepted or rejected standby image; while the standby
state is loading, checking or armed, and for a library index that is not there, the command is ignored and `CMD_IGNORED` is latched.
DISCARD_STANDBY empties the standby slot, whatever it holds, unless an arm stands whose boundary is less than 16 frames ahead; STOP_ACTIVE
sets the stop for the first epoch boundary at least 16 frames ahead and shows it on every die; without an active image it is ignored. It
rests on choices of the model in notes/assumptions/71.md. -/
def Obligations.StandbySlotIsLoadedAndDiscarded : Prop :=
  ((∀ (s : State) (port : Nat), s.accepts port (ephReg 0 0x18) = true →
    ∃ t, exec (.loadPool port) s = .next t
      ∧ (s.standbyState ≠ 1 ∧ s.standbyState ≠ 2 ∧ s.standbyState ≠ 5 →
          only [.eph] standbyRegs s t ∧ t.eph.active = s.eph.active ∧ t.standbyState = 1 ∧ t.eph.standby = none
            ∧ t.eph.source = some (.pool ((s.rd (ephReg 0 0x10)).toNat + 2 ^ 32 * (s.rd (ephReg 0 0x14)).toNat)))
      ∧ (s.standbyState = 1 ∨ s.standbyState = 2 ∨ s.standbyState = 5 →
          onlyRegs [ephReg 0 0x28] s t ∧ t.rd (ephReg 0 0x28) = s.rd (ephReg 0 0x28) ||| 0x40))
  ∧ (∀ (s : State) (port index : Nat), s.accepts port (ephReg 0 0x18) = true →
    ∃ t, exec (.loadLibrary port index) s = .next t
      ∧ (index < (s.rd (ephReg 0 0x4C)).toNat → s.standbyState ≠ 1 ∧ s.standbyState ≠ 2 ∧ s.standbyState ≠ 5 →
          only [.eph] standbyRegs s t ∧ t.eph.active = s.eph.active ∧ t.standbyState = 1 ∧ t.eph.standby = none
            ∧ t.eph.source = some (.library index))
      ∧ ((s.rd (ephReg 0 0x4C)).toNat ≤ index ∨ s.standbyState = 1 ∨ s.standbyState = 2 ∨ s.standbyState = 5 →
          onlyRegs [ephReg 0 0x28] s t ∧ t.rd (ephReg 0 0x28) = s.rd (ephReg 0 0x28) ||| 0x40)))
  ∧ ((∀ (s : State) (port : Nat), s.accepts port (ephReg 0 0x18) = true → s.standbyState ≠ 0 →
    (s.standbyState = 5 → ∀ e, s.eph.armed = some e → s.time.frame + 16 ≤ e * 2 ^ s.time.epochLog2) →
    ∃ t, exec (.discardStandby port) s = .next t ∧ only [.eph] ([0x604, ephReg 0 0x20] ++ standbyRegs) s t
      ∧ t.standbyState = 0 ∧ t.eph.standby = none ∧ t.eph.armed = none ∧ t.rd (ephReg 0 0x20) = 0 ∧ t.eph.active = s.eph.active)
  ∧ (∀ (s : State) (port : Nat) (g : Image), s.accepts port (ephReg 0 0x18) = true → s.eph.active = some g → s.eph.stopAt = none →
    ∃ t, exec (.stopActive port) s = .next t ∧ only [.eph] activeRegs s t ∧ t.eph.active = some g
      ∧ (∀ d, d < 4 → t.fld (ephReg d 0) 0 2 = 2)
      ∧ (∃ e, t.eph.stopAt = some (e * 2 ^ s.time.epochLog2) ∧ s.time.frame + 16 ≤ e * 2 ^ s.time.epochLog2
          ∧ ∀ k, s.time.frame + 16 ≤ k * 2 ^ s.time.epochLog2 → e ≤ k))
  ∧ (∀ (s : State) (port : Nat), s.accepts port (ephReg 0 0x18) = true → s.eph.active = none →
    ∃ t, exec (.stopActive port) s = .next t ∧ onlyRegs [ephReg 0 0x28] s t ∧ t.rd (ephReg 0 0x28) = s.rd (ephReg 0 0x28) ||| 0x40))

/-- R91, R93, R112. A read of the image that meets an error rejects it with `READ_FAULT` (0x12); a good one hands it to the check. The check
accepts the image or rejects it with its result code; it arms nothing but an accepted start image, for the first epoch boundary at least 16
frames ahead (R563). It rests on choices of the model in notes/assumptions/12.md, notes/assumptions/71.md, notes/assumptions/75.md. -/
def Obligations.ImageReadAndCheck : Prop :=
  (∀ (s : State) (ue : List Nat) (src : Source), s.eph.source = some src → s.standbyState = 1 →
    ∃ t, exec (.imageReadDone ue) s = .next t
      ∧ ((s.imageBytes src ue).2 = false → only [.eph] standbyRegs s t ∧ t.standbyState = 2 ∧ t.eph.bytes = (s.imageBytes src ue).1)
      ∧ ((s.imageBytes src ue).2 = true →
          only [.eph, .health, .out, .link, .freeCtr] ([0xA0C, ephReg 0 0x1C] ++ standbyRegs ++ errRegs) s t
            ∧ t.standbyState = 4 ∧ t.rd (ephReg 0 0x1C) = 0x12 ∧ t.eph.source = none ∧ t.eph.active = s.eph.active))
  ∧ (∀ (s : State) (src : Source), s.eph.source = some src → s.standbyState = 2 → s.eph.recheck = 0 →
    ∃ t, exec .admissionCheckDone s = .next t ∧ only [.eph] ([0xA0C, ephReg 0 0x1C, ephReg 0 0x20] ++ standbyRegs) s t
      ∧ t.eph.active = s.eph.active ∧ t.eph.source = none
      ∧ t.rd (ephReg 0 0x1C) = BitVec.ofNat 32 ((s.admission s.eph.bytes s.eph.readFault).1
          + 2 ^ 8 * (s.admission s.eph.bytes s.eph.readFault).2.1 + 2 ^ 10 * (s.admission s.eph.bytes s.eph.readFault).2.2)
      ∧ ((s.admission s.eph.bytes s.eph.readFault).1 = 0 → s.eph.startImage = false →
          t.standbyState = 3 ∧ t.eph.standby = some (parseImage s.eph.bytes) ∧ t.eph.armed = s.eph.armed)
      ∧ ((s.admission s.eph.bytes s.eph.readFault).1 = 0 → s.eph.startImage = true →
          t.standbyState = 5 ∧ t.eph.standby = some (parseImage s.eph.bytes) ∧ t.rd (ephReg 0 0x20) = 1
            ∧ ∃ e, t.eph.armed = some e ∧ s.time.frame + 16 ≤ e * 2 ^ s.time.epochLog2
              ∧ ∀ k, s.time.frame + 16 ≤ k * 2 ^ s.time.epochLog2 → e ≤ k)
      ∧ ((s.admission s.eph.bytes s.eph.readFault).1 ≠ 0 →
          t.standbyState = 4 ∧ t.eph.standby = s.eph.standby ∧ t.eph.armed = s.eph.armed))

/-- R102-R104, R106, R115. An accepted image is armed for the epoch of `EPH_ARM_EPOCH` when its boundary is at least 16 frames ahead, and `ARM`
reads 1; with `WITH_COMPOSITION` the flip of the composition map is armed for the same boundary, where R482 allows it and no other boundary
is armed; a nearer target sets `ARM_LATE` and arms nothing. A disarm takes the image back to accepted. The target is written freely while
nothing is armed, and not at all while something is. A re-check that fails rejects and disarms the image. It rests on choices of the model
in notes/assumptions/11.md, notes/assumptions/71.md. -/
def Obligations.ArmAndDisarm : Prop :=
  (∀ (s : State) (port : Nat), s.accepts port (ephReg 0 0x20) = true → s.standbyState = 3 → s.eph.armed = none →
    ∃ t, exec (.ephArm port false) s = .next t
      ∧ (s.time.frame + 16 ≤ s.targetEpoch (s.rd (ephReg 0 0x24)) * 2 ^ s.time.epochLog2 →
          only [.eph, .pwr] ([0x604, ephReg 0 0x20] ++ standbyRegs) s t ∧ t.eph.active = s.eph.active ∧ t.eph.standby = s.eph.standby
            ∧ t.eph.armed = some (s.targetEpoch (s.rd (ephReg 0 0x24))) ∧ t.standbyState = 5 ∧ t.rd (ephReg 0 0x20) = 1)
      ∧ (¬ s.time.frame + 16 ≤ s.targetEpoch (s.rd (ephReg 0 0x24)) * 2 ^ s.time.epochLog2 →
          onlyRegs [ephReg 0 0x20, ephReg 0 0x28] s t ∧ t.bit (ephReg 0 0x20) 0 = false
            ∧ t.rd (ephReg 0 0x28) = s.rd (ephReg 0 0x28) ||| 1))
  ∧ (∀ (s : State) (port e : Nat), s.accepts port (ephReg 0 0x20) = true → s.standbyState = 3 → s.eph.armed = none →
      e = s.targetEpoch (s.rd (ephReg 0 0x24)) → s.time.frame + 16 ≤ e * 2 ^ s.time.epochLog2 →
      s.eph.rtArm = none ∨ s.eph.rtArm = some e → s.compositionOk (1 - s.version) = true →
    ∃ t, exec (.ephArm port true) s = .next t ∧ only [.eph, .pwr] ([0x604, ephReg 0 0x20] ++ standbyRegs) s t
      ∧ t.eph.armed = some e ∧ t.eph.compArm = some e ∧ t.standbyState = 5 ∧ t.rd (ephReg 0 0x20) = 3 ∧ t.bit 0x604 1 = true
      ∧ t.eph.active = s.eph.active ∧ t.eph.standby = s.eph.standby)
  ∧ (∀ (s : State) (port e : Nat), s.accepts port (ephReg 0 0x20) = true → s.eph.armed = some e → s.eph.recheck = 0 →
      s.time.frame + 16 ≤ e * 2 ^ s.time.epochLog2 →
    ∃ t, exec (.ephDisarm port) s = .next t ∧ only [.eph] ([0x604, ephReg 0 0x20] ++ standbyRegs) s t
      ∧ t.eph.armed = none ∧ t.standbyState = 3 ∧ t.rd (ephReg 0 0x20) = 0 ∧ t.eph.standby = s.eph.standby
      ∧ t.eph.active = s.eph.active)
  ∧ (∀ (s : State) (port : Nat) (v : Word), s.accepts port (ephReg 0 0x24) = true →
    ∃ t, exec (.ephArmEpochWrite port v) s = .next t
      ∧ (s.eph.armed = none → onlyRegs [ephReg 0 0x24] s t ∧ t.rd (ephReg 0 0x24) = v)
      ∧ (s.eph.armed ≠ none → onlyRegs [ephReg 0 0x28] s t ∧ t.rd (ephReg 0 0x28) = s.rd (ephReg 0 0x28) ||| 0x40))
  ∧ (∀ (s : State) (g : Image), s.eph.standby = some g → s.eph.recheck ≠ 0 →
    ∃ t, exec .recheckDone s = .next t
      ∧ only [.eph] ([0x604, ephReg 0 0x1C, ephReg 0 0x20, ephReg 0 0x28] ++ standbyRegs) s t
      ∧ t.eph.recheck = 0 ∧ t.eph.active = s.eph.active
      ∧ (periodBad g s.time.units = none ∧ lengthBad g s.time.epochLog2 = none →
          t.standbyState = s.eph.recheck % 8 ∧ t.eph.armed = s.eph.armed)
      ∧ (periodBad g s.time.units ≠ none ∨ lengthBad g s.time.epochLog2 ≠ none →
          t.standbyState = 4 ∧ t.eph.armed = none ∧ t.rd (ephReg 0 0x28) = s.rd (ephReg 0 0x28) ||| 0x80))

/-- R122. A doorbell V of a queue that is not FENCED or ERROR is accepted when Q_TAIL − Q_HEAD ≤ V − Q_HEAD ≤ 2^RING_LOG2 modulo 2^32: `Q_TAIL`
becomes V, and nothing else of the queue changes; one equal to `Q_TAIL` has no effect. Any other doorbell leaves `Q_TAIL`, sets
`DOORBELL_RANGE` and counts; in FENCED and ERROR it counts alone. -/
def Obligations.DoorbellsMoveTheTail : Prop :=
  ∀ (s : State) (port q : Nat) (v : Word) (cycle : Nat), s.accepts port (queueBlock q + 0x40) = true → q < 16384 →
    (qState s q ≠ 3 → qState s q ≠ 4 →
      (s.rd (queueBlock q + 0x20) - s.rd (queueBlock q + 0x28)).toNat ≤ (v - s.rd (queueBlock q + 0x28)).toNat →
      (v - s.rd (queueBlock q + 0x28)).toNat ≤ 2 ^ s.fld (queueBlock q + 4) 8 5 →
      ∃ t, exec (.doorbell port q v cycle) s = .next t ∧ only [.time, .bells, .pwr] (stallRegs ++ [queueBlock q + 0x20]) s t
        ∧ t.rd (queueBlock q + 0x20) = v ∧ (v = s.rd (queueBlock q + 0x20) → only [.time] stallRegs s t))
    ∧ (qState s q ≠ 3 → qState s q ≠ 4 →
      ¬ ((s.rd (queueBlock q + 0x20) - s.rd (queueBlock q + 0x28)).toNat ≤ (v - s.rd (queueBlock q + 0x28)).toNat
          ∧ (v - s.rd (queueBlock q + 0x28)).toNat ≤ 2 ^ s.fld (queueBlock q + 4) 8 5) →
      ∃ t, exec (.doorbell port q v cycle) s = .next t ∧ only [.time] (stallRegs ++ [queueBlock q + 0x1C, queueBlock q + 0x38]) s t
        ∧ t.rd (queueBlock q + 0x1C) = s.rd (queueBlock q + 0x1C) ||| 1
        ∧ (t.rd (queueBlock q + 0x38)).toNat = min 0xFFFFFFFF ((s.rd (queueBlock q + 0x38)).toNat + 1))
    ∧ (qState s q = 3 ∨ qState s q = 4 →
      ∃ t, exec (.doorbell port q v cycle) s = .next t ∧ only [.time] (stallRegs ++ [queueBlock q + 0x38]) s t
        ∧ (t.rd (queueBlock q + 0x38)).toNat = min 0xFFFFFFFF ((s.rd (queueBlock q + 0x38)).toNat + 1))

/-- R117-R121, R128. A `Q_CFG` write of a STOPPED or ERROR queue stores the fields, where the context's quota holds the ring pages of a
scheduled queue and else sets `BAD_CFG`, and `ENABLE` 1 sets it RUNNING. One that changes a field in any other state, or stands in FENCED,
sets `CFG_LOCKED`, one with a reserved value `BAD_CFG`, one that is both sets both; all change nothing else. `ENABLE` written 1 makes a
queue RUNNING and leaves its indices; written 0 it makes a RUNNING queue DRAINING, or STOPPED when nothing is in flight, and changes no
other queue. In FENCED both are discarded with `CFG_LOCKED`. It rests on choices of the model in notes/assumptions/72.md. -/
def Obligations.QueuesAreConfiguredAndEnabled : Prop :=
  (∀ (s : State) (port q : Nat) (v : Word) (locked : Bool), s.accepts port (queueBlock q + 4) = true → q < 16384 →
      (locked = true ↔ qState s q = 3 ∨ (qState s q ≠ 0 ∧ qState s q ≠ 4 ∧ (v ^^^ s.rd (queueBlock q + 4)) &&& qCfgMask ≠ 0)) →
    (qCfgBad v = false → qState s q = 0 ∨ qState s q = 4 → qRingFits s q v = true → v.getLsbD 0 = true →
      ∃ t, exec (.qCfgWrite port q v) s = .next t ∧ only [.tier, .pwr] ([queueBlock q + 4, queueBlock q + 0x18] ++ useRegs) s t
        ∧ qState t q = 1 ∧ t.bit (queueBlock q + 4) 0 = true ∧ t.rd (queueBlock q + 4) &&& qCfgMask = v &&& qCfgMask)
    ∧ (qCfgBad v = false → qState s q = 0 ∨ qState s q = 4 → qRingFits s q v = true → v.getLsbD 0 = false →
      ∃ t, exec (.qCfgWrite port q v) s = .next t ∧ only [.tier] ([queueBlock q + 4] ++ useRegs) s t
        ∧ t.rd (queueBlock q + 4) &&& qCfgMask = v &&& qCfgMask)
    ∧ (qCfgBad v = false → qState s q = 0 ∨ qState s q = 4 → (v ^^^ s.rd (queueBlock q + 4)) &&& qCfgMask ≠ 0 → qRingFits s q v = false →
      ∃ t, exec (.qCfgWrite port q v) s = .next t ∧ onlyRegs [queueBlock q + 0x1C] s t
        ∧ t.rd (queueBlock q + 0x1C) = s.rd (queueBlock q + 0x1C) ||| 4)
    ∧ (locked = true ∨ qCfgBad v = true →
      ∃ t, exec (.qCfgWrite port q v) s = .next t ∧ onlyRegs [queueBlock q + 0x1C] s t
        ∧ t.rd (queueBlock q + 0x1C) = s.rd (queueBlock q + 0x1C) ||| ((if locked then 2 else 0) ||| (if qCfgBad v then 4 else 0))))
  ∧ (∀ (s : State) (port q : Nat), s.accepts port (queueBlock q + 4) = true → q < 16384 →
    (qState s q ≠ 3 →
      ∃ t, exec (.queueEnable port q) s = .next t ∧ only [.pwr] [queueBlock q + 4, queueBlock q + 0x18] s t
        ∧ qState t q = 1 ∧ t.rd (queueBlock q + 4) = s.rd (queueBlock q + 4) ||| 1)
    ∧ (qState s q = 1 →
      ∃ t, exec (.queueDisable port q) s = .next t ∧ onlyRegs [queueBlock q + 4, queueBlock q + 0x18] s t
        ∧ qState t q = (if (qOps s q).isEmpty then 0 else 2) ∧ t.rd (queueBlock q + 4) = s.rd (queueBlock q + 4) &&& ~~~1)
    ∧ (qState s q ≠ 1 → qState s q ≠ 3 → exec (.queueDisable port q) s = .next s)
    ∧ (qState s q = 3 → ∀ c ∈ [Sys2Proof.Instr.queueEnable port q, .queueDisable port q],
      ∃ t, exec c s = .next t ∧ onlyRegs [queueBlock q + 0x1C] s t ∧ t.rd (queueBlock q + 0x1C) = s.rd (queueBlock q + 0x1C) ||| 2))

/-- R127, R128. A write to `Q_RING_LO` while STOPPED or ERROR sets `Q_TAIL`, `Q_ISSUE` and `Q_HEAD` to zero; a write to `Q_RING_HI` leaves them.
In any other state both are discarded with `CFG_LOCKED` (R120). The ring pages of a scheduled queue are held in the stack tier. -/
def Obligations.RingBaseWriteClearsTheIndices : Prop :=
  (∀ (s : State) (port q : Nat) (v : Word), s.accepts port (queueBlock q + 8) = true → q < 16384 → qState s q = 0 ∨ qState s q = 4 →
    ∃ t, exec (.qRingLoWrite port q v) s = .next t
      ∧ only [.heads, .bells, .ops, .tier] ([queueBlock q + 8, queueBlock q + 0x20, queueBlock q + 0x24, queueBlock q + 0x28] ++ useRegs) s t
      ∧ (s.bit (queueBlock q + 4) 1 = false → t.tier = s.tier)
      ∧ (t.rd (queueBlock q + 8)).toNat / 4096 = v.toNat / 4096
      ∧ t.rd (queueBlock q + 0x20) = 0 ∧ t.rd (queueBlock q + 0x24) = 0 ∧ t.rd (queueBlock q + 0x28) = 0)
  ∧ (∀ (s : State) (port q : Nat) (v : Word), s.accepts port (queueBlock q + 8) = true → q < 16384 → qState s q ≠ 0 → qState s q ≠ 4 →
    ∀ c ∈ [Sys2Proof.Instr.qRingLoWrite port q v, .registerWrite port (queueBlock q + 0xC) v],
    ∃ t, exec c s = .next t ∧ onlyRegs [queueBlock q + 0x1C] s t ∧ t.rd (queueBlock q + 0x1C) = s.rd (queueBlock q + 0x1C) ||| 2)
  ∧ (∀ (s : State) (port q : Nat) (v : Word), q < 16384 → s.accepts port (queueBlock q + 0xC) = true → qState s q = 0 ∨ qState s q = 4 →
    ∃ t, exec (.registerWrite port (queueBlock q + 0xC) v) s = .next t ∧ only [.tier] ([queueBlock q + 0xC] ++ useRegs) s t
      ∧ t.rd (queueBlock q + 0xC) &&& 0xFFFFF = v &&& 0xFFFFF)

/-- R142, R150, R321, R516, R547. The read indices of the event log, the telemetry ring, the trace ring and the error log move only within what
has been written; any other value is discarded. A 4 B write to `C_VALUE` replaces its half and leaves the other, an 8 B write the whole; a
write to `C_ADD` adds the value shifted to its half modulo 2^64. Waits, the notification, the context's step boundary and the weight streams
that the counter advances may follow (R145, R147, R358, R518), and nothing else. -/
def Obligations.ReadIndicesAndCountersAreWrittenInBounds : Prop :=
  ((∀ (s : State) (port q : Nat) (v : Word), s.accepts port (queueBlock q + 0x30) = true →
    ∃ t, exec (.qLogRdWrite port q v) s = .next t ∧ onlyRegs [queueBlock q + 0x30] s t
      ∧ t.rd (queueBlock q + 0x30) = (if (v - s.rd (queueBlock q + 0x30)).toNat
          ≤ (s.rd (queueBlock q + 0x2C) - s.rd (queueBlock q + 0x30)).toNat then v else s.rd (queueBlock q + 0x30)))
  ∧ (∀ (s : State) (port d : Nat) (v : Word), s.accepts port (dieReg d 0x540) = true →
    ∃ t, exec (.tmTelemRdWrite port d v) s = .next t ∧ onlyRegs [dieReg d 0x540] s t
      ∧ t.rd (dieReg d 0x540) = (if (v - s.rd (dieReg d 0x540)).toNat ≤ (s.rd (dieReg d 0x53C) - s.rd (dieReg d 0x540)).toNat then v
          else s.rd (dieReg d 0x540)))
  ∧ (∀ (s : State) (port : Nat) (v : Word), s.accepts port 0x734 = true →
    ∃ t, exec (.dbgTraceRdWrite port v) s = .next t ∧ onlyRegs [0x734] s t
      ∧ t.rd 0x734 = (if (v - s.rd 0x734).toNat ≤ (s.rd 0x730 - s.rd 0x734).toNat then v else s.rd 0x734))
  ∧ (∀ (s : State) (port : Nat) (v : Word), s.accepts port 0x81C = true →
    ∃ t, exec (.hmLogRdWrite port v) s = .next t ∧ onlyRegs [0x81C] s t
      ∧ t.rd 0x81C = (if (v - s.rd 0x81C).toNat ≤ (s.rd 0x818 - s.rd 0x81C).toNat then v else s.rd 0x81C)))
  ∧ ((∀ (s : State) (port c : Nat) (v : Word64), s.accepts port (counterBlock c) = true → c < 65536 → s.streamsBound c →
    (∃ t, exec (.cValueWrite port c .lo v) s = .next t
      ∧ only [.heads, .out, .link, .pwr, .tier] ([counterBlock c, counterBlock c + 4, counterBlock c + 0x1C] ++ useRegs) s t
      ∧ t.ctrVal c = s.ctrVal c / 2 ^ 32 * 2 ^ 32 + v.toNat % 2 ^ 32)
    ∧ (∃ t, exec (.cValueWrite port c .hi v) s = .next t
      ∧ only [.heads, .out, .link, .pwr, .tier] ([counterBlock c, counterBlock c + 4, counterBlock c + 0x1C] ++ useRegs) s t
      ∧ t.ctrVal c = s.ctrVal c % 2 ^ 32 + v.toNat % 2 ^ 32 * 2 ^ 32)
    ∧ (∃ t, exec (.cValueWrite port c .both v) s = .next t
      ∧ only [.heads, .out, .link, .pwr, .tier] ([counterBlock c, counterBlock c + 4, counterBlock c + 0x1C] ++ useRegs) s t
      ∧ t.ctrVal c = v.toNat ∧ (s.streamsOf c = [] → t.tier = s.tier)))
  ∧ (∀ (s : State) (port c : Nat) (h : Half) (v : Word64), s.accepts port (counterBlock c + 8) = true → c < 65536 →
      s.streamsBound c →
    ∃ t, exec (.cAddWrite port c h v) s = .next t ∧ only [.heads, .out, .link, .pwr, .tier] (addRegs c ++ useRegs) s t ∧ (s.streamsOf c = [] → t.tier = s.tier)
      ∧ t.ctrVal c = (s.ctrVal c + (match h with
          | .lo => v.toNat % 2 ^ 32
          | .hi => v.toNat % 2 ^ 32 * 2 ^ 32
          | .both => v.toNat)) % 2 ^ 64))

/-- R14, R141, R143, R146, R147. A binding that repeats one of another counter, names a context that is not defined, or lies on a die outside
the context's slice is discarded and counted as a violation; any other is stored, and the bindings in force stay until the frame boundary.
Any write of `C_FAIL_CLR` clears `C_FAIL`. A write of `C_NOTIFY_CFG` or `C_NOTIFY_VALUE` that leaves the notification armed with its
condition holding clears `ARM`, sets `FIRED` and sends one MSI-X message to a host port that is UP, or keeps it pending while its vector is
masked; without `ARM`, or below the threshold, nothing is sent. -/
def Obligations.BindingsAreCheckedAndNotificationsFireOnce : Prop :=
  ((∀ (s : State) (port c : Nat) (v : Word), s.accepts port (counterBlock c + 0x10) = true →
    (v.getLsbD 31 = false ∨ (s.boundElsewhere c (v &&& 0x80FFFFFF) = false ∧ s.defined (nbits v.toNat 0 10) = true
        ∧ s.sliceDie (s.ctxSlice (nbits v.toNat 0 10)) (c / 16384) = true) → c < 65536 →
      ∃ t, exec (.cBindWrite port c v) s = .next t ∧ onlyRegs [counterBlock c + 0x10] s t ∧ t.force = s.force
        ∧ (t.rd (counterBlock c + 0x10)) &&& 0x80FFFFFF = v &&& 0x80FFFFFF)
    ∧ (v.getLsbD 31 = true → s.boundElsewhere c (v &&& 0x80FFFFFF) = true ∨ s.defined (nbits v.toNat 0 10) = false
        ∨ s.sliceDie (s.ctxSlice (nbits v.toNat 0 10)) (c / 16384) = false →
      ∃ t, exec (.cBindWrite port c v) s = .next t ∧ onlyRegs [pviolReg port] s t
        ∧ (t.rd (pviolReg port)).toNat = min 0xFFFFFFFF ((s.rd (pviolReg port)).toNat + 1)))
  ∧ (∀ (s : State) (port c : Nat) (v : Word), s.accepts port (counterBlock c + 0x18) = true →
    ∃ t, exec (.cFailClrWrite port c v) s = .next t ∧ onlyRegs [counterBlock c + 0x14] s t ∧ t.rd (counterBlock c + 0x14) = 0))
  ∧ ((∀ (s : State) (port c : Nat) (v : Word), s.accepts port (counterBlock c + 0x1C) = true → c < 65536 →
    ∃ t, exec (.cNotifyCfgWrite port c v) s = .next t ∧ only [.out, .link, .pwr] [counterBlock c + 0x1C] s t
      ∧ t.fld (counterBlock c + 0x1C) 8 6 = nbits v.toNat 8 6 ∧ t.fld (counterBlock c + 0x1C) 16 11 = nbits v.toNat 16 11
      ∧ (v.getLsbD 0 = true → s.rd64 (counterBlock c + 0x20) ≤ s.ctrVal c →
          t.bit (counterBlock c + 0x1C) 0 = false ∧ t.bit (counterBlock c + 0x1C) 1 = true
            ∧ s.told t (nbits v.toNat 8 6) (nbits v.toNat 16 11))
      ∧ (v.getLsbD 0 = false ∨ s.ctrVal c < s.rd64 (counterBlock c + 0x20) →
          t.bit (counterBlock c + 0x1C) 0 = v.getLsbD 0 ∧ t.out = s.out ∧ t.link = s.link
            ∧ t.bit (counterBlock c + 0x1C) 1 = (s.bit (counterBlock c + 0x1C) 1 && !v.getLsbD 1)))
  ∧ (∀ (s : State) (port c : Nat) (h : Half) (v : Word64), s.accepts port (counterBlock c + 0x20) = true → c < 65536 →
    ∃ t, exec (.cNotifyValueWrite port c h v) s = .next t
      ∧ only [.out, .link, .pwr] [counterBlock c + 0x1C, counterBlock c + 0x20, counterBlock c + 0x24] s t
      ∧ t.rd64 (counterBlock c + 0x20) = (match h with
          | .lo => s.rd64 (counterBlock c + 0x20) / 2 ^ 32 * 2 ^ 32 + v.toNat % 2 ^ 32
          | .hi => s.rd64 (counterBlock c + 0x20) % 2 ^ 32 + v.toNat % 2 ^ 32 * 2 ^ 32
          | .both => v.toNat)
      ∧ (s.bit (counterBlock c + 0x1C) 0 = true → t.rd64 (counterBlock c + 0x20) ≤ s.ctrVal c →
          t.bit (counterBlock c + 0x1C) 0 = false ∧ t.bit (counterBlock c + 0x1C) 1 = true
            ∧ s.told t (s.fld (counterBlock c + 0x1C) 8 6) (s.fld (counterBlock c + 0x1C) 16 11))
      ∧ (s.bit (counterBlock c + 0x1C) 0 = false ∨ s.ctrVal c < t.rd64 (counterBlock c + 0x20) →
          t.out = s.out ∧ t.link = s.link ∧ t.rd (counterBlock c + 0x1C) = s.rd (counterBlock c + 0x1C))))

/-- R138, R139. NOP ends OK and does nothing else. COUNTER_OP adds its operand to the target counter, or sets it, and ends OK; where the context
holds no such counter, or the code is reserved, it ends with PERMISSION and changes no counter. FILL writes its 8 B pattern over the
destination, and COPY the source bytes; every byte outside the destination reads as before. A descriptor that fails its own checks ends with
their code, and no byte of memory changes (R16). It rests on choices of the model in notes/assumptions/13.md. -/
def Obligations.GenericOperationsHaveTheirEffect : Prop :=
  ((∀ (s : State) (id : Nat) (o : Op), s.runsOp id o 0x00 →
    ∃ t, exec (.nop id) s = .next t ∧ only [.ops, .sec] [] s t ∧ t.ended id .ok)
  ∧ (∀ (s : State) (id c : Nat) (o : Op), s.runsOp id o 0x03 → s.ctr o.ctx (ctrTarget o.desc) = some c → ctrOp o.desc ≤ 1 →
      s.streamsBound c →
    ∃ t, exec (.counterOp id) s = .next t ∧ only [.ops, .sec, .heads, .out, .link, .pwr, .tier] (addRegs c ++ useRegs) s t ∧ t.ended id .ok
      ∧ (s.streamsOf c = [] → t.tier = s.tier)
      ∧ t.ctrVal c = (if ctrOp o.desc = 0 then (s.ctrVal c + ctrOperand o.desc) % 2 ^ 64 else ctrOperand o.desc))
  ∧ (∀ (s : State) (id : Nat) (o : Op), s.runsOp id o 0x03 → s.ctr o.ctx (ctrTarget o.desc) = none ∨ 1 < ctrOp o.desc →
    ∃ t, exec (.counterOp id) s = .next t ∧ only [.ops, .sec] [] s t ∧ t.ended id .permission))
  ∧ ((∀ (s : State) (id : Nat) (o : Op), s.runsOp id o 0x02 → s.fillCheck o.ctx o.desc = .ok →
      s.isAway (fillDst o.desc) (fillLen o.desc) = false → s.plainFor o.ctx (fillDst o.desc) (fillLen o.desc) → s.settled →
    ∃ t, exec (.fill id) s = .next t ∧ only (storeParts ++ [.ops, .sec]) dirRegs s t ∧ t.ended id .ok
      ∧ ∀ a, t.byte a = (if fillDst o.desc ≤ a ∧ a < fillDst o.desc + fillLen o.desc
          then BitVec.ofNat 8 (nbits (fillPattern o.desc) (8 * ((a - fillDst o.desc) % 8)) 8) else s.byte a))
  ∧ (∀ (s : State) (id : Nat) (o : Op) (ue : List Nat), s.runsOp id o 0x01 → s.copyCheck o.ctx o.desc = .ok →
      s.isAway (copySrc o.desc) (copyLen o.desc) = false → s.isAway (copyDst o.desc) (copyLen o.desc) = false →
      s.readCheck ue (copySrc o.desc) (copyLen o.desc) = .ok → s.plainFor o.ctx (copyDst o.desc) (copyLen o.desc) → s.settled →
    ∃ t, exec (.copy id ue) s = .next t ∧ only (storeParts ++ [.ops, .sec]) dirRegs s t ∧ t.ended id .ok
      ∧ ∀ a, t.byte a = (if copyDst o.desc ≤ a ∧ a < copyDst o.desc + copyLen o.desc
          then s.byte (copySrc o.desc + (a - copyDst o.desc)) else s.byte a))
  ∧ (∀ (s : State) (id : Nat) (o : Op), s.runsOp id o 0x02 → s.fillCheck o.ctx o.desc ≠ .ok →
    ∃ t, exec (.fill id) s = .next t ∧ only [.ops, .sec] [] s t ∧ t.ended id (s.fillCheck o.ctx o.desc))
  ∧ (∀ (s : State) (id : Nat) (o : Op) (ue : List Nat), s.runsOp id o 0x01 → s.copyCheck o.ctx o.desc ≠ .ok →
    ∃ t, exec (.copy id ue) s = .next t ∧ only [.ops, .sec] [] s t ∧ t.ended id (s.copyCheck o.ctx o.desc)))

/-- R123, R125, R126, R129, R144. The head descriptor of a RUNNING queue that meets R129 and needs no engine starts: it is in flight, and
`Q_ISSUE` moves on by one. A ring slot outside the context's mapping stops the queue in ERROR with `RING_FAULT`, and `Q_ISSUE` stays. A
completion adds 1 to the counter that the descriptor names and, when it failed, records its code there; the operation is in flight no more.
It rests on choices of the model in notes/assumptions/15.md, notes/assumptions/73.md. -/
def Obligations.HeadsStartAndCompletionsCount : Prop :=
  ((∀ (s s1 r : State) (q cycle : Nat) (ue : List Nat) (tf : Bool) (h : Head), s.ready = true → s.dieUp (q / 4096) = true → s.pwr.state = 0 →
      s1 = s.atCycle cycle → qState s1 q = 1 → qWaiting s1 q = none → s1.rd (queueBlock q + 0x20) ≠ s1.rd (queueBlock q + 0x24) → q < 16384 →
      qRead s1 q ue tf = (r, some h) → h.queue = q → r.runsDynamic q = true → (qOps r q).length ≤ qMax r q → (dFence h.desc = true → qOps r q = []) →
      h.met = true → r.suspect (r.newOp h true).ctx = false → r.dynFull (q / 4096) = false → r.slotTurn q = true →
      r.opCheck (r.newOp h true) = .ok → opEngine (dOpcode h.desc) = false → s.op s.nextOp = none →
    ∃ t, exec (.descriptorRead q cycle ue tf) s = .next t
      ∧ only [.mem, .poison, .coh, .out, .ops, .nextOp, .heads, .bells, .granted, .stalled, .time]
          ([queueBlock q + 0x24, dieReg (q / 4096) 0x100, dieReg (q / 4096) 0x104] ++ traceRegs ++ dirRegs ++ stallRegs) s t
      ∧ t.rd (queueBlock q + 0x24) = s.rd (queueBlock q + 0x24) + 1
      ∧ (t.op s.nextOp).map (fun o => (o.queue, o.index, o.desc, o.phase)) = some (q, h.index, h.desc, .running)
      ∧ (s.heads.all (fun k => k.queue != q) = true → h.desc = ringDesc s q (s.rd (queueBlock q + 0x24)).toNat))
  ∧ (∀ (s : State) (q cycle : Nat) (ue : List Nat) (tf : Bool), s.ready = true → s.dieUp (q / 4096) = true → s.pwr.state = 0 →
      qState s q = 1 → qWaiting s q = none → s.rd (queueBlock q + 0x20) ≠ s.rd (queueBlock q + 0x24) → q < 16384 →
      s.heads.find? (fun k => k.queue == q && k.index == (s.rd (queueBlock q + 0x24)).toNat) = none →
      s.mapCheck (s.ffld (queueBlock q) 0 10) false (ringSlot s q (s.rd (queueBlock q + 0x24)).toNat) 64 ≠ .ok →
    ∃ t, exec (.descriptorRead q cycle ue tf) s = .next t
      ∧ (s.logPlain q → only (storeParts ++ [.heads, .time]) ([queueBlock q + 0x18] ++ evlogRegs q ++ dirRegs ++ stallRegs) s t)
      ∧ qState t q = 4 ∧ t.bit (queueBlock q + 0x1C) 3 = true ∧ t.ops = s.ops ∧ t.rd (queueBlock q + 0x24) = s.rd (queueBlock q + 0x24)))
  ∧ (∀ (s : State) (id c : Nat) (o : Op) (st : Status), s.op id = some o → o.phase = .executed st → s.ctxState o.ctx ≠ 3 →
      s.mirrorBusy o.ctx = false → s.opAwaits id = false → s.cacheBusy o.ctx = false → s.invalBusy o.ctx = false →
      s.ctr o.ctx (dDone o.desc) = some c → s.streamsBound c → s.logPlain o.queue →
      (∀ p ∈ o.stats, p.1 ≠ counterBlock c ∧ p.1 ≠ counterBlock c + 4) → o.queue < 16384 → (o.engine.orElse (fun _ => o.placed)).all (· < 256) = true →
    ∃ t, exec (.operationComplete id) s = .next t ∧ t.op id = none ∧ t.ctrVal c = (s.ctrVal c + 1) % 2 ^ 64
      ∧ (st.success = false → t.fld (counterBlock c + 0x14) 0 8 = st.code)
      ∧ only (storeParts ++ [.ops, .heads, .link, .pwr, .health, .ctx, .freeCtr])
          (o.stats.map (·.1) ++ [counterBlock c + 0x14] ++ addRegs c ++ useRegs ++ evlogRegs o.queue ++ dirRegs ++ traceRegs
            ++ [queueBlock o.queue + 0x18, queueBlock o.queue + 0x28, dieReg (o.queue / 4096) 0x100, dieReg (o.queue / 4096) 0x104]
            ++ (o.engine.orElse (fun _ => o.placed)).elim [] (fun e => [4, 8, 0xC, 0x10, 0x18, 0x20].map (engineBlock e + ·))) s t)

/-- R94, R98, R131. At its `START` an engine entry starts the head of its queue on its engine and window, when the queue is RUNNING and the
descriptor is there, met and alone. An operation that still runs at the end of its entry is stopped, counted, and waits to start again. It
rests on choices of the model in notes/assumptions/18.md, notes/assumptions/73.md. -/
def Obligations.EntriesStartAndStopTheirOperation : Prop :=
  (∀ (s s1 r : State) (k : Nat) (ue : List Nat) (tf : Bool) (g : Image) (e : EngEntry) (h : Head), s.ready = true → s.pwr.state = 0 →
      s.eph.active = some g → g.eng[k]? = some e → e.frame = s.time.frame % g.period → s.overrunDue e.start = s → s1 = s.atCycle e.start →
      s1.engineOp e.engine = none → s1.entrySkipped e = false → s1.suspect e.ctx = false → qOps s1 e.queue = [] →
      (dieOps s1 (e.queue / 4096)).length < 65536 → s1.rd (queueBlock e.queue + 0x20) ≠ s1.rd (queueBlock e.queue + 0x24) →
      s1.bellOld e.queue = true → qRead s1 e.queue ue tf = (r, some h) → h.queue = e.queue → h.met = true → e.queue < 16384 → e.engine < 256 →
      opUnit (dOpcode h.desc) e.unit = true →
      (qTake r e.queue).opCheck (placeAt (r.newOp h false) k e) = .ok →
      dispatchCost + switchCost g.eng e + (qTake r e.queue).unitCost h.desc ≤ e.cost → s.op s.nextOp = none →
    ∃ t, exec (.entryStart k ue tf) s = .next t
      ∧ t.rd (queueBlock e.queue + 0x24) = s.rd (queueBlock e.queue + 0x24) + 1
      ∧ (t.op s.nextOp).map (fun o => (o.queue, o.desc, o.entry, o.engine, o.scr, o.gran, o.phase, o.dynamic)) =
          some (e.queue, h.desc, some k, some e.engine, e.scrBase, e.scrGran, .running, false)
      ∧ only [.mem, .poison, .coh, .out, .ops, .nextOp, .heads, .bells, .health, .time, .reds]
          ([queueBlock e.queue + 0x24, engineBlock e.engine + 4, dieReg (e.queue / 4096) 0x100, dieReg (e.queue / 4096) 0x104,
            dieReg (e.engine / 64) 0x500, dieReg (e.engine / 64) 0x504] ++ traceRegs ++ dirRegs ++ stallRegs) s t
      ∧ (isStream h.desc = false → t.reds = s.reds))
  ∧ (∀ (s : State) (k e : Nat) (o : Op), s.ops.find? (fun p => p.entry == some k && p.onEngine) = some o → o.engine = some e → e < 256 →
      (s.ctx.overruns.find? (fun p => p.1 == o.ctx)).elim 0 (·.2) ≠ 3 → s.op o.id = some o →
    ∃ t, exec (.frameOverrun k) s = .next t
      ∧ (t.op o.id).map (fun p => (p.phase, p.engine, p.desc)) = some (.restart, none, o.desc)
      ∧ (t.rd (ephReg (e / 64) 0x30)).toNat = min 0xFFFFFFFF ((s.rd (ephReg (e / 64) 0x30)).toNat + 1)
      ∧ t.rd (ephReg (e / 64) 0x34) = BitVec.ofNat 32 k ∧ t.eph = s.eph ∧ t.pending = s.pending)

/-- R179, R586. An ARRAY_PROGRAM that passes its checks and its decode holds its instructions, with empty accumulators, before the first; one
that fails ends at once with the code of R179, and neither memory nor scratch changes. -/
def Obligations.ArrayProgramIsDecodedFirst : Prop :=
  (∀ (s : State) (id : Nat) (o : Op) (ue : List Nat), s.runsOp id o 0x10 → s.apCheck o.ctx o.desc (if o.dynamic then 576 else o.gran) = .ok →
      s.readCheck ue (apProg o.desc) (16 * apCount o.desc) = .ok →
      (s.apDecode o.ctx o.desc (apGran o.desc) (s.apFetch o.desc)).1 = .ok →
    ∃ t, exec (.arrayProgram id true ue {}) s = .next t ∧ only [.ops, .sec, .tier] [] s t
      ∧ (t.op id).map (fun p => (p.phase, p.run.pc, p.run.acc0, p.run.acc1)) = some (.stepping, 0, none, none)
      ∧ (t.op id).map (fun p => p.run.prog.length) = some (apCount o.desc)
      ∧ ∀ k, k < apCount o.desc →
          (t.op id).bind (fun p => p.run.prog[k]?) = some (BitVec.ofNat 128 (leNat (s.bytes (apProg o.desc + 16 * k) 16))))
  ∧ (∀ (s : State) (id : Nat) (o : Op) (stepwise : Bool) (ue : List Nat), s.runsOp id o 0x10 →
      s.apCheck o.ctx o.desc (if o.dynamic then 576 else o.gran) = .ok → s.readCheck ue (apProg o.desc) (16 * apCount o.desc) = .ok →
      (s.apDecode o.ctx o.desc (apGran o.desc) (s.apFetch o.desc)).1 ≠ .ok →
    ∃ t, exec (.arrayProgram id stepwise ue {}) s = .next t ∧ only [.ops, .sec, .tier] [] s t
      ∧ t.ended id (s.apDecode o.ctx o.desc (apGran o.desc) (s.apFetch o.desc)).1 ∧ (t.op id).map (·.decodeFail) = some true)

/-- R182. LD brings its rows from pool memory into consecutive scratch lines of the window; every other byte of scratch stays, and so does pool
memory. ST writes consecutive scratch lines to its rows of pool memory, in ascending row order; a byte of no row stays, and so does scratch. -/
def Obligations.LdAndStMoveRowsBetweenPoolAndScratch : Prop :=
  (∀ (s : State) (id : Nat) (o : Op) (i : BitVec 128) (ue : List Nat) (x : ScrIn), s.atInstr id o i 0x01 x → o.engine.all (· < 256) = true →
      64 * (ldScr i.toNat + ldRows i.toNat * ldUnits i.toNat) ≤ 4096 * (576 - o.scr) → s.ldRead o.desc i.toNat ue = .ok →
    ∃ t, exec (.ld id ue x) s = .next t ∧ only [.scr, .scrPoison, .ops, .sec, .health, .tier] (progressRegs o) s t ∧ t.advanced id o
      ∧ (∀ r k, r < ldRows i.toNat → k < 64 * ldUnits i.toNat →
          t.scrByte o.win (64 * (ldScr i.toNat + r * ldUnits i.toNat) + k) = s.byte (ldBase o.desc i.toNat + r * ldStride i.toNat + k))
      ∧ (∀ y, (∀ b, 64 * ldScr i.toNat ≤ b → b < 64 * (ldScr i.toNat + ldRows i.toNat * ldUnits i.toNat) → y ≠ o.win.key b) →
          sget (fun _ => (0 : Byte)) t.scr y = sget (fun _ => (0 : Byte)) s.scr y))
  ∧ (∀ (s : State) (id : Nat) (o : Op) (i : BitVec 128) (x : ScrIn), s.atInstr id o i 0x02 x → s.settled →
      (∀ r, r < ldRows i.toNat → s.plainFor o.ctx (ldBase o.desc i.toNat + r * ldStride i.toNat) (64 * ldUnits i.toNat)) →
    ∃ t, exec (.st id x) s = .next t ∧ only (storeParts ++ [.ops, .sec, .health, .scrPoison]) (dirRegs ++ progressRegs o) s t ∧ t.advanced id o
      ∧ (∀ r k, r < ldRows i.toNat → k < 64 * ldUnits i.toNat →
          (∀ q, r < q → q < ldRows i.toNat → ¬ (ldBase o.desc i.toNat + q * ldStride i.toNat ≤ ldBase o.desc i.toNat + r * ldStride i.toNat + k
            ∧ ldBase o.desc i.toNat + r * ldStride i.toNat + k < ldBase o.desc i.toNat + q * ldStride i.toNat + 64 * ldUnits i.toNat)) →
          t.byte (ldBase o.desc i.toNat + r * ldStride i.toNat + k) =
            s.scrByte o.win (64 * (ldScr i.toNat + r * ldUnits i.toNat) + k))
      ∧ (∀ a, (∀ r, r < ldRows i.toNat → ¬ (ldBase o.desc i.toNat + r * ldStride i.toNat ≤ a
            ∧ a < ldBase o.desc i.toNat + r * ldStride i.toNat + 64 * ldUnits i.toNat)) → t.byte a = s.byte a))

/-- R174, R176, R184. MMA replaces the tile that its `ACC` names and nothing else: a float tile cell is the old cell (or +0 under `ZERO`) plus
the products of its row and column, group by group; an integer cell the old cell plus the whole dot product modulo 2^32. -/
def Obligations.MmaAccumulatesIntoItsTile : Prop :=
  (∀ (s : State) (id : Nat) (o : Op) (i : BitVec 128) (x : ScrIn), s.atInstr id o i 0x10 x →
    ∃ t, exec (.mma id x) s = .next t ∧ only [.ops, .sec, .health, .scrPoison] (progressRegs o) s t ∧ t.advanced id o
      ∧ t.tileOf id (1 - accOf i.toNat) = o.tile (1 - accOf i.toNat)
      ∧ t.tileOf id (accOf i.toNat) = some (s.mmaTile o.win i.toNat (o.tile (accOf i.toNat))))
  ∧ (∀ (s : State) (id : Nat) (o : Op) (i : BitVec 128) (x : ScrIn), s.atInstr id o i 0x10 x → fmtIsInt (mmaA i.toNat) = true →
    ∃ t, exec (.mma id x) s = .next t ∧ ∀ r c, r < 32 → c < 32 →
      (t.tileOf id (accOf i.toNat)).map (fun a => a.cells.getD (32 * r + c) 0) =
        some ((if nbits i.toNat 17 1 = 1 then 0 else ((o.tile (accOf i.toNat)).elim [] (·.cells)).getD (32 * r + c) 0)
          + BitVec.ofInt 32 (((List.range (mmaK i.toNat)).map (fun k =>
              (s.rowInts o.win (nbits i.toNat 32 16) (mmaA i.toNat) (mmaK i.toNat) r).getD k 0
                * (s.rowInts o.win (nbits i.toNat 48 16) (mmaB i.toNat) (mmaK i.toNat) c).getD k 0)).sum)))

/-- R185-R187. ACC_IN takes the 1,024 little-endian words of its source lines into its tile; ACC_OUT writes the converted tile to the lines it
writes, every other scratch byte stays, and the tiles stay. VOP writes its result lines and TRANSPOSE its destination, element (r, c) of the
source becoming element (c, r); no other scratch byte changes, and no tile or pool byte. It rests on choices of the model in
notes/assumptions/76.md. -/
def Obligations.AccumulatorMovesAndVectorStepsWriteTheirLines : Prop :=
  ((∀ (s : State) (id : Nat) (o : Op) (i : BitVec 128) (x : ScrIn), s.atInstr id o i 0x11 x →
    ∃ t, exec (.accIn id x) s = .next t ∧ only [.ops, .sec, .health, .scrPoison] (progressRegs o) s t ∧ t.advanced id o
      ∧ t.tileOf id (1 - accOf i.toNat) = o.tile (1 - accOf i.toNat)
      ∧ (t.tileOf id (accOf i.toNat)).map (·.int) = some (nbits i.toNat 8 4 == 0xC)
      ∧ ∀ c, c < 1024 → (t.tileOf id (accOf i.toNat)).bind (fun a => a.cells[c]?) =
          some (BitVec.ofNat 32 (leNat (s.scrBytes o.win (64 * nbits i.toNat 32 16 + 4 * c) 4))))
  ∧ (∀ (s : State) (id : Nat) (o : Op) (i : BitVec 128) (a : Tile) (x : ScrIn), s.atInstr id o i 0x12 x → o.tile (accOf i.toNat) = some a →
    ∃ t, exec (.accOut id x) s = .next t ∧ only [.scr, .scrPoison, .ops, .sec, .health] (progressRegs o) s t ∧ t.advanced id o
      ∧ t.tileOf id 0 = o.tile 0 ∧ t.tileOf id 1 = o.tile 1 ∧ t.scr = (s.accOutTo o.win i.toNat a).scr
      ∧ ∀ y, (∀ p ∈ writeSpans i.toNat, ∀ b, 64 * p.1 ≤ b → b < 64 * (p.1 + p.2) → y ≠ o.win.key b) →
          sget (fun _ => (0 : Byte)) t.scr y = sget (fun _ => (0 : Byte)) s.scr y))
  ∧ ((∀ (s : State) (id : Nat) (o : Op) (i : BitVec 128) (x : ScrIn), s.atInstr id o i 0x20 x →
    ∃ t, exec (.vop id x) s = .next t ∧ only [.scr, .scrPoison, .ops, .sec, .health] (progressRegs o) s t ∧ t.advanced id o
      ∧ t.tileOf id 0 = o.tile 0 ∧ t.tileOf id 1 = o.tile 1 ∧ t.scr = (s.vopRun o.win i.toNat).scr
      ∧ ∀ y, (∀ p ∈ writeSpans i.toNat, ∀ b, 64 * p.1 ≤ b → b < 64 * (p.1 + p.2) → y ≠ o.win.key b) →
          sget (fun _ => (0 : Byte)) t.scr y = sget (fun _ => (0 : Byte)) s.scr y)
  ∧ (∀ (s : State) (id : Nat) (o : Op) (i : BitVec 128) (x : ScrIn), s.atInstr id o i 0x21 x → nbits i.toNat 8 2 ≤ 2 → o.engine.all (· < 256) = true →
      64 * (nbits i.toNat 48 16 + 32 * rowLines (32 * 2 ^ (3 + nbits i.toNat 8 2))) ≤ 4096 * (576 - o.scr) →
    ∃ t, exec (.transpose id x) s = .next t ∧ only [.scr, .scrPoison, .ops, .sec, .health] (progressRegs o) s t ∧ t.advanced id o
      ∧ t.tileOf id 0 = o.tile 0 ∧ t.tileOf id 1 = o.tile 1
      ∧ (∀ r c k, r < 32 → c < 32 → k < 2 ^ nbits i.toNat 8 2 →
          t.scrByte o.win (64 * (nbits i.toNat 48 16 + c * rowLines (32 * 2 ^ (3 + nbits i.toNat 8 2))) + 2 ^ nbits i.toNat 8 2 * r + k) =
            s.scrByte o.win (64 * (nbits i.toNat 32 16 + r * rowLines (32 * 2 ^ (3 + nbits i.toNat 8 2))) + 2 ^ nbits i.toNat 8 2 * c + k))
      ∧ ∀ y, (∀ p ∈ writeSpans i.toNat, ∀ b, 64 * p.1 ≤ b → b < 64 * (p.1 + p.2) → y ≠ o.win.key b) →
          sget (fun _ => (0 : Byte)) t.scr y = sget (fun _ => (0 : Byte)) s.scr y))

/-- R205, R213, R214. A REDUCE in memory mode that passes its checks writes one result vector and ends OK; with OR on 32-bit integers every
element is the OR of the contributions' elements. Every byte outside the result reads as before; one that forwards its blocks to a parent
changes no byte at all. One that fails its checks ends with their code, and no byte changes. -/
def Obligations.ReduceWritesItsResultVector : Prop :=
  (∀ (s : State) (id : Nat) (o : Op) (ue : List Nat) (x : ScrIn), s.runsOp id o 0x20 → isStream o.desc = false →
      s.redMemCheck o.ctx o.desc o.limit = .ok → x.bad.any (· < min (rdLanes o.desc) (64 * rdGran o.desc)) = false →
      (∀ c, c < rdCount o.desc → ∀ a n, a + n ≤ rdVB o.desc → s.readCheck ue (rdSrc o.desc + c * rdStride o.desc + a) n = .ok) →
    (rdForward o.desc = false → s.settled → s.plainFor o.ctx (rdDst o.desc) (rdRB o.desc) →
      ∃ t, exec (.reduce id ue x) s = .next t
        ∧ only (storeParts ++ [.scr, .scrPoison, .ops, .sec]) (dirRegs ++ progressRegs o) s t ∧ t.ended id .ok
        ∧ (∀ a, a < rdDst o.desc ∨ rdDst o.desc + rdRB o.desc ≤ a → t.byte a = s.byte a)
        ∧ (rdOp o.desc = 4 → rdIn o.desc = 0xC → ∀ e, e < rdElems o.desc →
            leNat (t.bytes (rdDst o.desc + 4 * e) 4) =
              (List.range (rdCount o.desc)).foldl (fun x c => x ||| leNat (s.bytes (rdSrc o.desc + c * rdStride o.desc + 4 * e) 4)) 0))
    ∧ (rdForward o.desc = true →
      ∃ t, exec (.reduce id ue x) s = .next t ∧ t.ended id .ok ∧ t.mem = s.mem ∧ t.poison = s.poison ∧ t.coh = s.coh))
  ∧ (∀ (s : State) (id : Nat) (o : Op) (ue : List Nat), s.runsOp id o 0x20 → isStream o.desc = false → s.redMemCheck o.ctx o.desc o.limit ≠ .ok →
    ∃ t, exec (.reduce id ue {}) s = .next t ∧ only [.ops, .sec] [o.dieReg 0x210] s t ∧ t.ended id (s.redMemCheck o.ctx o.desc o.limit))

/-- R217-R223, R225. The first run of a stream REDUCE opens its reduction with identity lanes and parks; a run that finds all its inputs
absorbed ends it with the result in memory, or with its blocks on their way to the parent; any other run absorbs messages that waited at its
`START`, the oldest first, and parks. A whole-line write that falls into the slots of an open, steered reduction waits for its next run, and
pool memory stays; after the reduction finished it is dropped and counted as a duplicate. A poisoned one closes the reduction, and the
context is faulted with reason MEDIA. One that is not whole lines is discarded and counted. It rests on choices of the model in
notes/assumptions/25.md. -/
def Obligations.StreamReductionsTakeSteeredWritesAndFinish : Prop :=
  ((∀ (s : State) (id e : Nat) (o : Op), s.runsOp id o 0x20 → isStream o.desc = true → o.engine = some e → s.redOf o = none →
      s.redStreamCheck o.ctx o.desc o.limit o.dynamic = .ok →
    ∃ t r, exec (.reduceStreamRun id true {}) s = .next t
      ∧ only [.reds, .scr, .scrPoison, .ops, .sec, .ctx] (redRegs e ++ progressRegs o) s t
      ∧ (t.op id).map (·.phase) = some .parked ∧ t.openRed o.ctx (rdId o.desc) = some r ∧ t.redOf o = some r
      ∧ r.lanes = List.replicate (rdLanes o.desc) (laneIdentity (rdOp o.desc) (rdIn o.desc)) ∧ r.receipt = [] ∧ r.waiting = [] ∧ r.steer = 0)
  ∧ (∀ (s : State) (id e : Nat) (o : Op) (r : Stream) (x : ScrIn), s.runsOp id o 0x20 → isStream o.desc = true → o.engine = some e →
      s.redOf o = some r → r.invalid = false → r.engine = e → o.scr = r.scr → (s.scrIn o.win x).scrBad o.win 0 r.lines = false →
    (r.inputsDone ≠ rdCount o.desc →
      ∃ t, exec (.reduceStreamRun id true x) s = .next t
        ∧ only [.reds, .scr, .scrPoison, .ops, .sec, .ctx, .health] (redRegs e ++ progressRegs o) s t
        ∧ (t.op id).map (·.phase) = some .parked
        ∧ ∃ q ∈ t.reds, q.ctx = r.ctx ∧ q.redId = r.redId ∧ r.waiting.drop r.atStart <:+ q.waiting ∧ q.waiting <:+ r.waiting
          ∧ r.receipt <+: q.receipt)
    ∧ (r.inputsDone = rdCount o.desc → r.maxWeight ≤ 2 ^ 20 → rdForward o.desc = false → s.settled →
      s.plainFor o.ctx (rdDst o.desc) (laneResult o.desc 0 r.lanes).length →
      ∃ t, exec (.reduceStreamRun id true x) s = .next t
        ∧ only (storeParts ++ [.reds, .scrPoison, .ops, .sec]) (dirRegs ++ redRegs e ++ progressRegs o) s t ∧ t.ended id .ok
        ∧ (∀ k, k < (laneResult o.desc 0 r.lanes).length → t.byte (rdDst o.desc + k) = (laneResult o.desc 0 r.lanes).getD k 0)
        ∧ (∀ a, a < rdDst o.desc ∨ rdDst o.desc + (laneResult o.desc 0 r.lanes).length ≤ a → t.byte a = s.byte a)
        ∧ (t.rd (dieReg (e / 64) 0x204)).toNat =
            min 0xFFFFFFFF ((s.rd (dieReg (e / 64) 0x204)).toNat + (r.waiting.map RedMsg.groups).sum)
        ∧ t.openRed r.ctx r.redId = none)
    ∧ (r.inputsDone = rdCount o.desc → r.maxWeight ≤ 2 ^ 20 → rdForward o.desc = true →
      ∃ t, exec (.reduceStreamRun id true x) s = .next t ∧ t.ended id .ok ∧ t.mem = s.mem ∧ t.scr = s.scr ∧ t.openRed r.ctx r.redId = none)))
  ∧ ((∀ (s : State) (x a : Nat) (b : List Byte) (r : Stream), s.steered x a b.length = [r] → a % 64 = 0 → b.length % 64 = 0 → b ≠ [] →
      rdSrc r.desc ≤ a → a + b.length ≤ rdSrc r.desc + ingestLen r.desc →
      (∀ i, i < b.length / 64 → ∃ q, slotOf r.desc (a + 64 * i) = some q ∧ 64 * q.2 < rdVB r.desc) →
    (r.steer = 1 →
      ∃ t l, exec (.steeredWrite x a b false) s = .next t
        ∧ only [.reds, .pwr] [dieReg (r.engine / 64) 0x500, dieReg (r.engine / 64) 0x504] s t
        ∧ l.length = b.length / 64
        ∧ t.reds = s.reds.map (fun q => if q.ctx == r.ctx && q.redId == r.redId && q.isOpen then { r with waiting := r.waiting ++ [.raw l] } else q))
    ∧ (r.steer = 2 → ∀ poisoned,
      ∃ t, exec (.steeredWrite x a b poisoned) s = .next t ∧ only [.pwr] [dieReg (r.engine / 64) 0x204] s t
        ∧ (t.rd (dieReg (r.engine / 64) 0x204)).toNat =
            min 0xFFFFFFFF ((s.rd (dieReg (r.engine / 64) 0x204)).toNat + b.length / 64))
    ∧ (r.steer = 1 →
      ∃ t, exec (.steeredWrite x a b true) s = .next t ∧ t.mem = s.mem ∧ t.poison = s.poison
        ∧ { ctx := x, gen := t.ctxGen x, reason := 2 } ∈ t.ctx.faults
        ∧ ∀ q ∈ t.reds, q.ctx = r.ctx → q.redId = r.redId → q.isOpen = false))
  ∧ (∀ (s : State) (x a : Nat) (b : List Byte) (r : Stream) (rs : List Stream) (poisoned : Bool), s.steered x a b.length = r :: rs →
      a % 64 ≠ 0 ∨ b.length % 64 ≠ 0 →
    ∃ t, exec (.steeredWrite x a b poisoned) s = .next t ∧ only [.pwr] [dieReg (r.engine / 64) 0x208] s t
      ∧ (t.rd (dieReg (r.engine / 64) 0x208)).toNat = min 0xFFFFFFFF ((s.rd (dieReg (r.engine / 64) 0x208)).toNat + 1)))

/-- R233, R236, R241, R244-R248. GATHER copies the table row of each index to its place in the output, a zero row for an index past the table
when the descriptor asks for it; every byte outside the output reads as before. GATHER_REDUCE writes one pooled row for each bag, from the
table rows that the bag's indices name; every byte outside the output reads as before. A bag list that R248 refuses ends it with that code,
and nothing is written. -/
def Obligations.GathersWriteTheRowsTheirListsName : Prop :=
  ((∀ (s : State) (id : Nat) (o : Op) (ue : List Nat), s.runsOp id o 0x30 → s.gatherCheck o.ctx o.desc o.limit = .ok →
      s.gatherList o.desc = .ok → s.readCheck ue (gaIndex o.desc) (gaCount o.desc * gaIdx o.desc) = .ok →
      (∀ i, i < gaRows o.desc → s.readCheck ue (gaTable o.desc + i * gaStride o.desc) (gaRow o.desc) = .ok) → s.settled →
      s.plainFor o.ctx (gaDst o.desc) (gaCount o.desc * gaRow o.desc) →
    ∃ t, exec (.gather id ue) s = .next t ∧ only (storeParts ++ [.ops, .sec]) dirRegs s t ∧ t.ended id .ok
      ∧ (∀ i k, i < gaCount o.desc → k < gaRow o.desc →
          t.byte (gaDst o.desc + i * gaRow o.desc + k) =
            (let n := leNat (s.bytes (gaIndex o.desc + i * gaIdx o.desc) (gaIdx o.desc))
             if gaRows o.desc ≤ n then 0 else s.byte (gaTable o.desc + n * gaStride o.desc + k)))
      ∧ ∀ a, a < gaDst o.desc ∨ gaDst o.desc + gaCount o.desc * gaRow o.desc ≤ a → t.byte a = s.byte a)
  ∧ (∀ (s : State) (id : Nat) (o : Op) (ue : List Nat), s.runsOp id o 0x30 → s.gatherCheck o.ctx o.desc o.limit = .ok →
      s.readCheck ue (gaIndex o.desc) (gaCount o.desc * gaIdx o.desc) = .ok → s.gatherList o.desc ≠ .ok →
    ∃ t, exec (.gather id ue) s = .next t ∧ only [.ops, .sec] [] s t ∧ t.ended id .addrFault))
  ∧ ((∀ (s : State) (id : Nat) (o : Op) (ue : List Nat), s.runsOp id o 0x31 → s.gatherReduceCheck o.ctx o.desc o.limit = .ok →
      s.bagList o.desc = .ok → s.readCheck ue (grBags o.desc) (grOffs o.desc + 4 * grCount o.desc) = .ok →
      (∀ i, i < grRows o.desc → s.readCheck ue (grTable o.desc + i * grRow o.desc) (grRow o.desc) = .ok) → s.settled →
      s.plainFor o.ctx (grDst o.desc) (grBagCount o.desc * grOB o.desc) →
    ∃ t, exec (.gatherReduce id ue) s = .next t ∧ only (storeParts ++ [.ops, .sec]) dirRegs s t ∧ t.ended id .ok
      ∧ (∀ b, b < grBagCount o.desc → t.bytes (grDst o.desc + b * grOB o.desc) (grOB o.desc) =
          bagRow o.desc ((((((s.nums (grBags o.desc + grOffs o.desc) 4 (grCount o.desc)).drop
              (leNat (s.bytes (grBags o.desc + 4 * b) 4))).take
                (leNat (s.bytes (grBags o.desc + 4 * (b + 1)) 4) - leNat (s.bytes (grBags o.desc + 4 * b) 4))).filter (· < grRows o.desc)).map
                  (fun i => s.bytes (grTable o.desc + i * grRow o.desc) (grRow o.desc)))))
      ∧ ∀ a, a < grDst o.desc ∨ grDst o.desc + grBagCount o.desc * grOB o.desc ≤ a → t.byte a = s.byte a)
  ∧ (∀ (s : State) (id : Nat) (o : Op) (ue : List Nat), s.runsOp id o 0x31 → s.gatherReduceCheck o.ctx o.desc o.limit = .ok →
      s.readCheck ue (grBags o.desc) (grOffs o.desc + 4 * grCount o.desc) = .ok → s.bagList o.desc ≠ .ok →
    ∃ t, exec (.gatherReduce id ue) s = .next t ∧ only [.ops, .sec] [] s t ∧ t.ended id (s.bagList o.desc)))

/-- R253, R258-R264. ROW_FILTER writes its header (rows sent, rows that match), the numbers of the first matching rows, and their copies, as
`MODE` says; every byte outside the output's extent reads as before. SCORE_FILTER with readable inputs ends OK and writes within its
output's extent alone; its header's first word counts the blocks sent, at most out_max of them and at least the forced ones. A failing check
ends it with its code, and nothing is written. -/
def Obligations.FiltersSendWhatMatches : Prop :=
  (∀ (s : State) (id : Nat) (o : Op) (ue : List Nat), s.runsOp id o 0x32 → s.rowFilterCheck o.ctx o.desc o.limit = .ok →
      (∀ i, i < rfCount o.desc → s.readCheck ue (rfSrc o.desc + i * rfRow o.desc) (rfRow o.desc) = .ok) → s.settled →
      s.plainFor o.ctx (rfDst o.desc) (rfOutBytes o.desc) →
    ∃ t, exec (.rowFilter id ue) s = .next t ∧ only (storeParts ++ [.ops, .sec]) dirRegs s t ∧ t.ended id .ok
      ∧ leNat (t.bytes (rfDst o.desc) 4) = min (rfOmax o.desc) (s.rowHits o.desc).length
      ∧ leNat (t.bytes (rfDst o.desc + 4) 4) = (s.rowHits o.desc).length
      ∧ (rfMode o.desc = 1 ∨ rfMode o.desc = 2 → ∀ j, j < min (rfOmax o.desc) (s.rowHits o.desc).length →
          leNat (t.bytes (rfDst o.desc + 64 + 4 * j) 4) = (s.rowHits o.desc).getD j 0)
      ∧ (rfMode o.desc ≠ 1 → ∀ j k, j < min (rfOmax o.desc) (s.rowHits o.desc).length → k < rfRow o.desc →
          t.byte (rfDst o.desc + 64 + rfList o.desc + j * rfRow o.desc + k) =
            s.byte (rfSrc o.desc + (s.rowHits o.desc).getD j 0 * rfRow o.desc + k))
      ∧ ∀ a, a < rfDst o.desc ∨ rfDst o.desc + rfOutBytes o.desc ≤ a → t.byte a = s.byte a)
  ∧ ((∀ (s : State) (id : Nat) (o : Op), s.runsOp id o 0x33 → s.scoreFilterCheck o.ctx o.desc o.limit = .ok →
      s.blockList o.ctx o.desc = .ok → s.poison = [] → (∀ p, s.lostCheck p = .ok) → s.settled →
      s.plainFor o.ctx (sfDst o.desc) (sfOutBytes o.desc) →
    ∃ t, exec (.scoreFilter id []) s = .next t ∧ only (storeParts ++ [.ops, .sec]) dirRegs s t ∧ t.ended id .ok
      ∧ leNat (t.bytes (sfDst o.desc) 4) ≤ sfOutMax o.desc ∧ sfForced o.desc ≤ leNat (t.bytes (sfDst o.desc) 4)
      ∧ ∀ a, a < sfDst o.desc ∨ sfDst o.desc + sfOutBytes o.desc ≤ a → t.byte a = s.byte a)
  ∧ (∀ (s : State) (id : Nat) (o : Op) (ue : List Nat), s.runsOp id o 0x33 → s.scoreFilterCheck o.ctx o.desc o.limit ≠ .ok →
      s.scoreFilterCheck o.ctx o.desc o.limit ≠ .zeroLenNoop →
    ∃ t, exec (.scoreFilter id ue) s = .next t ∧ only [.ops, .sec] [] s t ∧ t.ended id (s.scoreFilterCheck o.ctx o.desc o.limit)))

/-- R270, R271, R273-R275. COMPRESS with a readable input ends OK, writes within its destination and its result line alone, and the result
line's first word is the length of the stream, at most the bound of R272. What the compressor writes for a block decodes to the block's
bytes: the payload of the method it chooses, padded to whole lines, yields exactly those bytes and no more. -/
def Obligations.CompressedStreamsHoldTheirBytes : Prop :=
  (∀ (s : State) (id : Nat) (o : Op) (ue : List Nat), s.runsOp id o 0x40 → s.compressCheck o.ctx o.desc o.limit = .ok →
      (∀ b, b < cdiv (cmRaw o.desc) 4096 →
        s.readCheck ue (cmSrc o.desc + 4096 * b) (min 4096 (cmRaw o.desc - 4096 * b)) = .ok) → s.settled →
      s.plainFor o.ctx (cmDst o.desc) (cmCap o.desc) → s.plainFor o.ctx (cmRes o.desc) 64 →
    ∃ t, exec (.compress id ue) s = .next t ∧ only (storeParts ++ [.ops, .sec]) dirRegs s t ∧ t.ended id .ok
      ∧ leNat (t.bytes (cmRes o.desc) 4) ≤ zCmax (cmRaw o.desc)
      ∧ leNat (t.bytes (cmRes o.desc + 4) 4) = cdiv (cmRaw o.desc) 4096
      ∧ leNat (t.bytes (cmDst o.desc) 2) = 0x475A
      ∧ ∀ a, (a < cmDst o.desc ∨ cmDst o.desc + cmCap o.desc ≤ a) → (a < cmRes o.desc ∨ cmRes o.desc + 64 ≤ a) → t.byte a = s.byte a)
  ∧ (∀ (es m : Nat) (l : List Byte), es = 1 ∨ es = 2 ∨ es = 4 → l.length % es = 0 → l.length ≤ 4096 →
    (zYield (zChoose es m l).1 es l.length (pad64 (zChoose es m l).2)).data = l
      ∧ (zYield (zChoose es m l).1 es l.length (pad64 (zChoose es m l).2)).excess = false)

/-- R278, R281, R282, R288. EXPAND to memory ends with a status and writes within its destination and its result line alone; a stream of one
good block ends OK with the block's bytes at the destination. EXPAND to the array starts its feed program, and each EXPAND_BLOCK_DECODE
takes one block further; a block that fails ends the operation with its status. It rests on choices of the model in notes/assumptions/16.md,
notes/assumptions/17.md, notes/assumptions/27.md. -/
def Obligations.ExpandDecodesBlocks : Prop :=
  (∀ (s : State) (id : Nat) (o : Op) (ue : List Nat), s.runsOp id o 0x41 → s.expandCheck o.ctx o.desc o.limit = .ok → exSink o.desc = false →
      s.settled → s.plainFor o.ctx (exDst o.desc) (cdiv (exDecl o.desc) 64 * 64) → s.plainFor o.ctx (exRes o.desc) 64 →
    ∃ t st, exec (.expand id ue) s = .next t ∧ t.ended id st
      ∧ ∀ a, (a < exDst o.desc ∨ exDst o.desc + cdiv (exDecl o.desc) 64 * 64 ≤ a) →
          (exResEn o.desc = true → a < exRes o.desc ∨ exRes o.desc + 64 ≤ a) → t.byte a = s.byte a)
  ∧ (∀ (s : State) (id : Nat) (o : Op) (ue : List Nat), s.runsOp id o 0x41 → s.expandCheck o.ctx o.desc o.limit = .ok → exSink o.desc = false →
      s.settled → s.plainFor o.ctx (exDst o.desc) (cdiv (exDecl o.desc) 64 * 64) → exResEn o.desc = false →
      s.readCheck ue (exSrc o.desc) (exComp o.desc) = .ok → 0 < exDecl o.desc →
      exComp o.desc = 64 + le (s.bytes (exSrc o.desc) 64) 6 2 → le (s.bytes (exSrc o.desc) 64) 4 2 = exDecl o.desc →
      (zDecode o.desc 0 0 (s.zHead o.desc 0) (s.zPay o.desc 0)).st = .ok →
    ∃ t, exec (.expand id ue) s = .next t ∧ only (storeParts ++ [.ops, .sec]) dirRegs s t ∧ t.ended id .ok
      ∧ t.bytes (exDst o.desc) (exDecl o.desc) = (zDecode o.desc 0 0 (s.zHead o.desc 0) (s.zPay o.desc 0)).data)
  ∧ (∀ (s : State) (id : Nat) (o : Op) (ue : List Nat), s.runsOp id o 0x41 → s.expandCheck o.ctx o.desc o.limit = .ok → exSink o.desc = true →
      s.readCheck ue (exProg o.desc) 64 = .ok → s.feedCheck o (s.feedRecord o.desc) = .ok → feedHead (s.feedRecord o.desc) = 0 →
      s.readCheck ue (apProg (s.feedRecord o.desc)) (16 * apCount (s.feedRecord o.desc)) = .ok →
      s.feedDecode o (s.feedRecord o.desc) (s.apFetch (s.feedRecord o.desc)) = .ok → exDecl o.desc ≠ 0 →
    ∃ t, exec (.expand id ue) s = .next t ∧ only [.ops, .sec, .tier] [] s t
      ∧ (t.op id).map (fun p => (p.phase, p.run.zgc.block)) = some (.stepping, 0))
  ∧ (∀ (s s1 : State) (id : Nat) (o : Op) (ue : List Nat) (x : ScrIn) (z : ZOut), s.op id = some o → o.phase = .stepping → dOpcode o.desc = 0x41 →
      s.opHalted o = false → s.quiet → s1 = s.scrIn o.win x → o.run.zgc.pos < exComp o.desc → s.zReadCheck ue o.desc o.run.zgc.block o.run.zgc.pos = .ok →
      z = zDecode o.desc o.run.zgc.block o.run.zgc.pos (s.zHead o.desc o.run.zgc.pos) (s.zPay o.desc o.run.zgc.pos) → z.st = .ok →
      o.run.zgc.block < feedBlocks o.desc → ¬ (exComp o.desc ≤ z.next ∧ feedBlocks o.desc ≤ o.run.zgc.block + 1) →
      ((s1.mark (exSrc o.desc + o.run.zgc.pos) 64).feedBlock o z.data ue).2.2 = .ok →
    ∃ t, exec (.expandBlockDecode id ue x) s = .next t ∧ (t.op id).map (·.run.zgc) = some (o.run.zgc.take z))
  ∧ (∀ (s s1 : State) (id : Nat) (o : Op) (ue : List Nat) (x : ScrIn) (z : ZOut), s.op id = some o → o.phase = .stepping → dOpcode o.desc = 0x41 →
      s.opHalted o = false → s.quiet → s1 = s.scrIn o.win x → o.run.zgc.pos < exComp o.desc → s.zReadCheck ue o.desc o.run.zgc.block o.run.zgc.pos = .ok →
      z = zDecode o.desc o.run.zgc.block o.run.zgc.pos (s.zHead o.desc o.run.zgc.pos) (s.zPay o.desc o.run.zgc.pos) → z.st = .expansionOverflow →
      exResEn o.desc = false →
    ∃ t, exec (.expandBlockDecode id ue x) s = .next t ∧ t.ended id .expansionOverflow ∧ t.mem = s.mem ∧ t.scr = s.scr)

/-- R293, R294, R296, R297, R303, R311, R314-R318. A message that its policer keeps, that finds room, and that joins no other waits at its
egress, under Nadir when demoted, with one more count of cut-through or of store and forward. One that the policer drops is counted and
waits nowhere; one that finds no room holds back its ingress and class. At every position that a valid egress has left in its slot exactly
one cell leaves, or the position stays idle, or a message whose next cell is not there ends with a stomp; with nothing queued at the egress
it stays idle. Credits of cells that left memory go back to an UP link port unless their class is held back, up to `LP_CREDIT_MAX` (R294,
R454). It rests on choices of the model in notes/assumptions/31.md. -/
def Obligations.MessagesQueueAndPositionsCarryOneCell : Prop :=
  (∀ (s : State) (d : Nat) (m : SwMsg) (dem : Bool), s.ready = true → s.dieUp d = true → s.enters d m = true → s.unmatched m = false →
      dem = ((s.police d m).2.2.1 || (ingressDie m.ingress != d && (s.pathHead d m).any (·.2.1))) →
    ((s.police d m).2.2.2 = false → s.noRoom d m dem = false → (dem = false → ((s.police d m).1.offPath d m).joins d m = none) →
      ∃ t i, exec (.messageIngress d m) s = .next t ∧ only [.sw] (s.switchRegs d m.ctx) s t ∧ t.sw.items = s.sw.items ++ [i]
        ∧ i.die = d ∧ i.sent = 0 ∧ i.demoted = dem ∧ i.m = { m with arrived := i.m.arrived, colour := (s.police d m).2.1 }
        ∧ (i.cut = false → i.m.arrived = m.cells)
        ∧ (t.rd (dieReg d (if i.cut then 0x50C else 0x510))).toNat =
            min 0xFFFFFFFF ((s.rd (dieReg d (if i.cut then 0x50C else 0x510))).toNat + 1))
    ∧ ((s.police d m).2.2.2 = true →
      ∃ t, exec (.messageIngress d m) s = .next t ∧ only [.sw] (s.switchRegs d m.ctx) s t ∧ t.sw.items = s.sw.items
        ∧ (t.rd (dieReg d 0x518)).toNat = min 0xFFFFFFFF ((s.rd (dieReg d 0x518)).toNat + 1))
    ∧ ((s.police d m).2.2.2 = false → s.noRoom d m dem = true →
      ∃ t, exec (.messageIngress d m) s = .next t ∧ only [.sw] [] s t ∧ t.sw.items = s.sw.items ∧ (d, m, dem) ∈ t.sw.stalled))
  ∧ ((∀ (s : State) (d e : Nat) (r : Bool), s.ready = true → s.dieUp d = true → validEgress d e = true →
    (s.usedPositions d e < s.egressRate d e →
      (∃ t c, exec (.egressPosition d e r) s = .next t ∧ t.out = c :: s.out ∧ c.atPosition d e = true
        ∧ t.usedPositions d e = s.usedPositions d e + 1
        ∧ only [.sw, .out, .health] [dieReg d 0x500, dieReg d 0x504, dieReg d 0x514] s t)
      ∧ (s.at d e = [] → ∃ t, exec (.egressPosition d e r) s = .next t ∧ only [.sw, .out] [] s t ∧ t.out = .idleCell d e :: s.out
        ∧ { t.sw with served := s.sw.served } = s.sw))
    ∧ (s.egressRate d e ≤ s.usedPositions d e → exec (.egressPosition d e r) s = .next s))
  ∧ (∀ (s : State) (l c n : Nat), s.ready = true → s.fld (linkBlock l) 0 3 = 2 → n ≠ 0 →
    ((∀ p ∈ s.sw.stalled, ¬ (p.2.1.ingress = 0x40 + l ∧ swKind p.2.1 = creditStream c)) →
      s.givenOf l (creditStream c) + n ≤ s.creditMax →
      ∃ t, exec (.creditReturn l c n) s = .next t ∧ only [.out, .link] [] s t ∧ t.out = .credit l (creditStream c) n :: s.out
        ∧ t.givenOf l (creditStream c) = s.givenOf l (creditStream c) + n)
    ∧ (∀ p ∈ s.sw.stalled, p.2.1.ingress = 0x40 + l → swKind p.2.1 = creditStream c → exec (.creditReturn l c n) s = .next s)))

/-- R57, R310, R313, R315. A slot boundary inside a frame ends one slot: every gate that runs has one slot less, every bucket gains, and the
frame stays. When the slots of a gate entry have run out, the next entry that has slots takes effect. `SWITCH` asks for the other list at
the first cycle start at least one frame later. It rests on choices of the model in notes/assumptions/32.md. -/
def Obligations.GatesFollowTheirLists : Prop :=
  (∀ s : State, s.ready = true → s.time.slot + 1 < s.time.units →
      (∀ x ∈ s.slotEntries s.time.frame (s.time.slot + 1), (portPlace x.port).1 < 4) →
    ∃ t, exec .slotBoundary s = .next t
      ∧ only [.sw, .time, .link] (stallRegs ++ (List.range 4).flatMap (fun d => [ephReg d 0x38, ephReg d 0x3C])) s t ∧ t.time.slot = s.time.slot + 1 ∧ t.time.frame = s.time.frame
      ∧ t.sw.items = s.sw.items ∧ t.sw.buckets = s.sw.buckets.map s.bucketGain
      ∧ t.sw.gates = s.sw.gates.map (fun g => if s.gateOn g.die g.e then { g with left := g.left - 1 } else g))
  ∧ (∀ (s : State) (d e i : Nat) (g : Gate), s.gate d e = some g → s.gateOn d e = true → g.left = 0 →
      s.gateAfter d e g.entry = some i →
    ∃ t, exec (.gateEntryExpiry d e) s = .next t ∧ only [.sw] [egReg d e 0x14] s t ∧ g.entry < i ∧ 0 < gwSlots (s.gateWord d e i)
      ∧ t.gate d e = some { g with entry := i, left := gwSlots (s.gateWord d e i) }
      ∧ t.rd (egReg d e 0x14) = BitVec.ofNat 32 (gwOpen (s.gateWord d e i) + 256 * i))
  ∧ (∀ (s : State) (port d e : Nat), s.accepts port (egReg d e 0x10) = true → validEgress d e = true →
    ∃ t, exec (.egGateSwitch port d e) s = .next t ∧ only [.sw] [egReg d e 0x10] s t
      ∧ t.rd (egReg d e 0x10) = s.rd (egReg d e 0x10) ||| 4
      ∧ ∃ f, (t.gate d e).bind (·.switchFrom) = some f ∧ s.time.frame + 1 ≤ f ∧ (s.time.cycle = 0 → f = s.time.frame + 1)
          ∧ (s.time.cycle ≠ 0 → f = s.time.frame + 2))

/-- R57, R60, R68, R573. A frame boundary begins the next frame: without network time, and short of an epoch boundary, the frame number goes up
by exactly one and the slot is 0 in every state in which the module still runs. With OFF pending the boundary takes the module to Dark. It
rests on choices of the model in notes/assumptions/7.md, notes/assumptions/8.md. -/
def Obligations.FrameBoundariesAdvanceTheFrame : Prop :=
  (∀ s : State, s.ready = true → s.pwr.cmd ≠ some 4 → s.timeState = 0 ∨ s.timeState = 3 → (s.time.frame + 1) % 2 ^ s.time.epochLog2 ≠ 0 →
    ∃ t, exec .frameBoundary s = .next t ∧ (t.ready = true →
      t.time.frame = s.time.frame + 1 ∧ t.time.slot = 0 ∧ t.time.units = s.time.units ∧ t.time.epochLog2 = s.time.epochLog2
        ∧ t.eph.active = s.eph.active ∧ s.pending <:+ t.pending))
  ∧ (∀ s : State, s.ready = true → s.pwr.cmd = some 4 →
    ∃ t, exec .frameBoundary s = .next t ∧ t.pwr.phase = .dark ∧ t.pwr.shutdown = 0 ∧ t.mem = [] ∧ t.ops = [] ∧ t.pending = s.pending
      ∧ t.rd 0x92C = 0)

/-- R9, R11, R13, R52-R54, R122, R142, R486. An owner's write of a register that only stores follows the access codes of its fields: RW and RW-S
bits take the value, W1C bits written 1 are cleared, the rest stay. Any other port changes no RW-S bit, is counted when it would have, and
reaches no register without one. A write of a register that acts is that register's command; one of a reserved offset is ignored. A
tenant-window access to a slot that is not mapped, or that the port may not use, is counted as a violation, and a read answers 0; one to a
queue's slot reads the queue's register, or rings its doorbell; a write to a counter's C_ADD adds, and one to its C_VALUE replaces the
value. A write to the reserved part of the window changes nothing, and a read of it answers 0. It rests on choices of the model in
notes/assumptions/60.md. -/
def Obligations.RegistersFollowAccessCodesAndWindows : Prop :=
  ((∀ (s : State) (port off : Nat) (v : Word), s.accepts port off = true → storesOnly off = true →
    ∃ t, exec (.registerWrite port off v) s = .next t ∧ onlyRegs [off] s t ∧ t.rd off = codeValue off (s.rd off) v)
  ∧ (∀ (s : State) (port off : Nat) (v : Word), s.accepts port off = true → place off = .reserved →
    exec (.registerWrite port off v) s = .next s)
  ∧ (∀ (s : State) (port off : Nat) (v : Word), s.serves = true → s.reach off = true → s.owner port = false → off % 4 = 0 →
    ∃ t, exec (.registerWrite port off v) s = .next t ∧ onlyRegs [off, pviolReg port] s t
      ∧ (off ≠ pviolReg port → t.rd off &&& (regInfo off).rws = s.rd off &&& (regInfo off).rws)
      ∧ ((regInfo off).rws = 0 ∨ (v ^^^ s.rd off) &&& (regInfo off).rws ≠ 0 → off ≠ pviolReg port →
          (t.rd (pviolReg port)).toNat = min 0xFFFFFFFF ((s.rd (pviolReg port)).toNat + 1)))
  ∧ (∀ (s : State) (port q c : Nat) (v : Word), q < 16384 → c < 65536 → s.serves = true → s.owner port = true → (∀ d, d < 4 → s.dieUp d = true) →
    exec (.registerWrite port 0x100 v) s = exec (.merCtrlWrite port v) s
      ∧ exec (.registerWrite port (queueBlock q + 4) v) s = exec (.qCfgWrite port q v) s
      ∧ exec (.registerWrite port (queueBlock q + 8) v) s = exec (.qRingLoWrite port q v) s
      ∧ exec (.registerWrite port (counterBlock c + 0x10) v) s = exec (.cBindWrite port c v) s
      ∧ exec (.registerWrite port (counterBlock c + 0x18) v) s = exec (.cFailClrWrite port c v) s
      ∧ exec (.registerWrite port (counterBlock c + 0x1C) v) s = exec (.cNotifyCfgWrite port c v) s
      ∧ exec (.registerWrite port 0x720 v) s = exec (.debugLevelRequest port v) s))
  ∧ (∀ (s : State) (port off : Nat) (h : Half) (v : Word64), s.serves = true →
    (s.slotAt port off = .closed →
      (∃ t, exec (.tenantWindowAccess port off false h v) s = .next t ∧ only [.out] [pviolReg port] s t ∧ t.out = .regData port 0 :: s.out
        ∧ (t.rd (pviolReg port)).toNat = min 0xFFFFFFFF ((s.rd (pviolReg port)).toNat + 1))
      ∧ (∃ t, exec (.tenantWindowAccess port off true h v) s = .next t ∧ onlyRegs [pviolReg port] s t
        ∧ (t.rd (pviolReg port)).toNat = min 0xFFFFFFFF ((s.rd (pviolReg port)).toNat + 1)))
    ∧ (off < 0x1000000 → (s.frd (qmapReg port (off / 0x1000))).getLsbD 31 = false → s.slotAt port off = .closed)
    ∧ (∀ q o, s.slotAt port off = .queue q o → s.reach (queueBlock q) = true →
      (h = .lo ∨ h = .hi → ∃ t, exec (.tenantWindowAccess port off false h v) s = .next t ∧ only [.out] [] s t
        ∧ t.out = .regData port (BitVec.ofNat 64 (s.rd (queueBlock q + o / 4 * 4)).toNat) :: s.out)
      ∧ (o = 0x40 → h = .lo → qState s q ≠ 3 → qState s q ≠ 4 →
        (s.rd (queueBlock q + 0x20) - s.rd (queueBlock q + 0x28)).toNat ≤ (v.setWidth 32 - s.rd (queueBlock q + 0x28)).toNat →
        (v.setWidth 32 - s.rd (queueBlock q + 0x28)).toNat ≤ 2 ^ s.fld (queueBlock q + 4) 8 5 →
        ∃ t, exec (.tenantWindowAccess port off true h v) s = .next t ∧ only [.bells, .pwr] [queueBlock q + 0x20] s t
          ∧ t.rd (queueBlock q + 0x20) = v.setWidth 32))
    ∧ (∀ c o, s.slotAt port off = .counter c o → s.reach (counterBlock c) = true → s.streamsBound c →
      (o = 8 → ∃ t, exec (.tenantWindowAccess port off true .both v) s = .next t
        ∧ only [.heads, .out, .link, .pwr, .tier] (addRegs c ++ useRegs) s t ∧ t.ctrVal c = (s.ctrVal c + v.toNat) % 2 ^ 64)
      ∧ (o = 0 → ∃ t, exec (.tenantWindowAccess port off true .both v) s = .next t
        ∧ only [.heads, .out, .link, .pwr, .tier] (addRegs c ++ useRegs) s t ∧ t.ctrVal c = v.toNat))
    ∧ (0x1100000 ≤ off → exec (.tenantWindowAccess port off true h v) s = .next s
      ∧ ∃ t, exec (.tenantWindowAccess port off false h v) s = .next t ∧ only [.out] [] s t ∧ t.out = .regData port 0 :: s.out))

/-- R13, R45, R486, R487. A management command of a port that is no owner port changes nothing but that port's violation count, which goes up by
one. It rests on choices of the model in notes/assumptions/60.md. -/
def Obligations.OnlyOwnerPortsManageTheModule : Prop :=
  ∀ (s : State) (port q c d x : Nat) (v : Word) (w : Word64) (h : Half) (n : Nat), s.serves = true → s.owner port = false →
    ∀ p ∈ ([(.loadPool port, ephReg 0 0x18), (.loadLibrary port n, ephReg 0 0x18), (.discardStandby port, ephReg 0 0x18),
        (.stopActive port, ephReg 0 0x18), (.doorbell port q v n, queueBlock q + 0x40), (.qLogRdWrite port q v, queueBlock q + 0x30),
        (.cValueWrite port c h w, counterBlock c), (.cAddWrite port c h w, counterBlock c + 8), (.cFailClrWrite port c v, counterBlock c + 0x18),
        (.cNotifyValueWrite port c h w, counterBlock c + 0x20), (.map port, 0x250), (.unmap port, 0x250), (.setFlags port, 0x250),
        (.query port, 0x250), (.define port x n, ctxReg x 8), (.occult port x, ctxReg x 8), (.release port x, ctxReg x 8),
        (.seal port n, 0x704), (.maintEnter port n, 0x704), (.dbgTraceRdWrite port v, 0x734), (.faultCtx port x, 0x808),
        (.abortCtx port x, 0x808), (.dieReset port d n, 0x808), (.moduleReset port n, 0x808), (.retrainStack port d n, 0x808),
        (.hmLogRdWrite port v, 0x81C), (.verify port n, 0xA1C), (.write port n, 0xA1C), (.abort port n, 0xA1C), (.full port, 0x904),
        (.idle port, 0x904), (.retain port, 0x904), (.off port n, 0x904), (.tmTelemRdWrite port d v, dieReg d 0x540),
        (.merFrameLoRead port, 0x108)] : List (Sys2Proof.Instr × Nat)), s.reach p.2 = true →
    ∃ t, exec p.1 s = .next t ∧ onlyRegs [pviolReg port] s t
      ∧ (t.rd (pviolReg port)).toNat = min 0xFFFFFFFF ((s.rd (pviolReg port)).toNat + 1)

/-- R453, R457-R460, R471. A slot that comes without alignment takes the port to RETRAINING; one whose record fails its tag gives nothing and is
counted; a good message with the expected `SEQ` is accepted once, and its ACK names the next one; one whose check fails is not accepted.
Without a kept copy a timeout of the end-to-end layer does nothing; else the oldest copy is sent again, while retries are left. It rests on
choices of the model in notes/assumptions/33.md, notes/assumptions/38.md. -/
def Obligations.LinkMessagesAreTakenInSequenceAndSentAgain : Prop :=
  (∀ (s : State) (l : Nat) (g : Bool) (fc fu : Nat), s.ready = true → l < 64 → s.lpState l = 2 →
    (∀ cs as ms, ∃ t, exec (.linkSlotReceive l g false cs as ms fc fu) s = .next t ∧ t.lpState l = 3 ∧ t.bit (linkBlock l + 8) 0 = true
      ∧ (t.port l).trainings = (s.port l).trainings + 1 ∧ t.link.rx = s.link.rx
      ∧ only [.mem, .poison, .coh, .out, .link, .tier]
          ([linkBlock l, linkBlock l + 8, linkBlock l + 0xC, linkBlock l + 0x10] ++ traceRegs ++ dirRegs ++ useRegs) s t)
    ∧ (∀ cs as ms, s.ztl l = false → ∃ t, exec (.linkSlotReceive l false true cs as ms fc fu) s = .next t
      ∧ only [.link] [linkBlock l + 8, linkBlock l + 0xC, linkBlock l + 0x10, linkBlock l + 0x14] s t ∧ t.link.rx = s.link.rx
      ∧ t.bit (linkBlock l + 8) 3 = true
      ∧ (t.rd (linkBlock l + 0x14)).toNat = min 0xFFFFFFFF ((s.rd (linkBlock l + 0x14)).toNat + 1))
    ∧ (∀ m, kindOk (s.ztl l) m.kind = true → m.mcast = true ∨ m.dst = s.moduleNo ∨ s.ztl l = true → m.stream ≠ 7 →
        m.seq = (s.lane (if s.ztl l then 0x100 + l else m.src) m.stream).rxNext → m.seq < 2 ^ 24 →
      (m.crc = msgCrc m →
        ∃ t, exec (.linkSlotReceive l true true [] [] [m] fc fu) s = .next t
          ∧ only [.link, .out, .health, .pwr] ([linkBlock l + 0xC, linkBlock l + 0x10] ++ linkRegs) s t
          ∧ t.link.rx = s.link.rx ++ [(l, m)]
          ∧ (t.lane (if s.ztl l then 0x100 + l else m.src) m.stream).rxNext = (m.seq + 1) % 2 ^ 24
          ∧ Out.ack l { acker := s.moduleNo, sender := m.src, seq := (m.seq + 1) % 2 ^ 24, stream := m.stream, type := 1 } ∈ t.out)
      ∧ (m.crc ≠ msgCrc m →
        ∃ t, exec (.linkSlotReceive l true true [] [] [m] fc fu) s = .next t ∧ t.link.rx = s.link.rx
          ∧ (t.lane (if s.ztl l then 0x100 + l else m.src) m.stream).rxNext = m.seq
          ∧ (t.rd (linkBlock l + 0x18)).toNat = min 0xFFFFFFFF ((s.rd (linkBlock l + 0x18)).toNat + 1))))
  ∧ (∀ (s : State) (l peer st : Nat), s.ready = true →
    (s.kept (s.peerKey l peer) st = [] → exec (.e2eTimeout l peer st) s = .next s)
    ∧ (∀ r rest, s.kept (s.peerKey l peer) st = r :: rest → r.retries < s.e2eRetry → s.carries r.link r.msg.kind = true →
      ∃ t, exec (.e2eTimeout l peer st) s = .next t ∧ (∃ w, Out.msg r.link r.msg w ∈ t.out)
        ∧ only [.link, .out] (s.link.replay.map (fun q => linkBlock q.link + 0x1C)) s t
        ∧ t.link.rx = s.link.rx ∧ t.link.replay.map (·.msg) = s.link.replay.map (·.msg) ∧ t.link.awaits = s.link.awaits))

/-- R456, R467, R480. A request over ZFL whose tag and version pass and whose bytes this module serves to the context is carried out and
answered OK: RD with the bytes, WR after its write, MIRROR_WR of a partner likewise, ATOMIC with the old value. A write that finds no room
in a write cache stays where it is (R385). One under another generation than the context's is answered CTX_FENCED and counted as stale. -/
def Obligations.ZflRequestsAreServed : Prop :=
  (∀ (s : State) (l : Nat) (m : Msg) (ue : List Nat), s.brought l 0x01 m → s.passes l m → s.answerable m = true →
      wholeLines m.addr m.sub = .ok → m.mcast = false → s.routedHere m.epoch.toNat m.addr m.sub = .ok →
      s.mapCheck m.ctx false m.addr m.sub = .ok → s.readCheck ue m.addr m.sub = .ok → s.quiet →
    ∃ t, exec (.rd l ue) s = .next t ∧ only [.link, .out, .health, .tier] linkRegs s t
      ∧ t.answersTo m 0x02 .ok (s.bytes m.addr m.sub) ∧ t.link.rx = s.link.rx.erase (l, m))
  ∧ (∀ (s : State) (l : Nat) (m : Msg), s.brought l 0x03 m → s.passes l m → s.answerable m = true →
      wholeLines m.addr m.payload.length = .ok → m.mcast = false → m.posted = false →
      s.routedHere m.epoch.toNat m.addr m.payload.length = .ok → s.mapCheck m.ctx true m.addr m.payload.length = .ok →
      s.settled → s.plainFor m.ctx m.addr m.payload.length →
    (s.cacheFull m.addr m.payload.length = none →
      ∃ t, exec (.wr l) s = .next t ∧ only (storeParts ++ [.link, .health]) (dirRegs ++ linkRegs) s t
      ∧ t.answersTo m 0x04 .ok [] ∧ t.holds s m.addr m.payload)
    ∧ (s.cacheFull m.addr m.payload.length ≠ none → ∃ t, exec (.wr l) s = .next t ∧ only [.link] [] s t
      ∧ t.link.rx = (l, m) :: s.link.rx.erase (l, m)))
  ∧ (∀ (s : State) (l : Nat) (m : Msg), s.brought l 0x08 m → s.passes l m → s.answerable m = true →
      wholeLines m.addr m.payload.length = .ok → m.mcast = false → m.posted = false →
      s.routedHere m.epoch.toNat m.addr m.payload.length = .ok → s.mirrorInto m m.addr m.ctx m.payload.length = .ok → s.settled →
      s.unitsTake m.addr m.payload.length = true → s.cacheFull m.addr m.payload.length = none →
    ∃ t, exec (.mirrorWr l) s = .next t ∧ only (storeParts ++ [.link, .health]) (dirRegs ++ linkRegs) s t
      ∧ t.answersTo m 0x04 .ok [] ∧ t.holds s m.addr m.payload)
  ∧ (∀ (s : State) (l : Nat) (m : Msg) (a : Atomic), s.brought l 0x05 m → s.passes l m → s.answerable m = true → m.mcast = false →
      m.posted = false → a = { code := nbits m.sub 0 4, size := nbits m.sub 4 5, operand := leNat (m.payload.take 16),
                               swap := leNat ((m.payload.drop 16).take 16), posted := false } →
      s.routedHere m.epoch.toNat m.addr 1 = .ok → s.homeFree (m.addr / 64) → s.dirEnt (m.addr / 64) = none → s.poison.contains (m.addr / 64) = false →
      s.reqCheck { line := m.addr / 64, agent := .zfl l, ctx := m.ctx, kind := .atom (m.addr % 64) a, via := .msg m } = .ok →
      s.settled → s.plainFor m.ctx m.addr a.size →
    ∃ t, exec (.atomic l) s = .next t
      ∧ only (storeParts ++ [.link, .health]) (dirRegs ++ [dirReg (homeSlice (m.addr / 64)) 0x1C, dirReg (homeSlice (m.addr / 64)) 0x20] ++ linkRegs) s t
      ∧ t.answersTo m 0x06 .ok (leBytes a.size (leNat (s.bytes m.addr a.size)))
      ∧ t.holds s m.addr (leBytes a.size (atomNew a (leNat (s.bytes m.addr a.size)))))
  ∧ (∀ (s : State) (l : Nat) (m : Msg) (c : Sys2Proof.Instr) (k r : Nat),
      s.quiet → (c, k, r) ∈ [(Sys2Proof.Instr.rd l [], 0x01, 0x02), (.wr l, 0x03, 0x04), (.mirrorWr l, 0x08, 0x04), (.atomic l, 0x05, 0x06)] →
      s.brought l k m → s.answerable m = true → m.posted = false → s.defined m.ctx = true → m.gen ≠ s.ctxGen m.ctx → m.ctx < 1024 →
    ∃ t, exec c s = .next t ∧ only [.link, .out, .health] ([ctxReg m.ctx 0x14, 0x73C] ++ linkRegs) s t ∧ t.answersTo m r .ctxFenced []
      ∧ (t.rd (ctxReg m.ctx 0x14)).toNat = min 0xFFFFFFFF ((s.rd (ctxReg m.ctx 0x14)).toNat + 1))

/-- R227, R446, R456, R480. A RED_PARTIAL that fits an open reduction waits for its next run; one that meets no open reduction, or does not fit,
is counted and dropped. One whose data are poisoned closes the reduction, and faults its context with MEDIA (R225). It has no response. A
response is taken off its port and given to the oldest request it answers, which waits no more; a read of a host ends with the data. A
response that answers nothing, or fails the tag check, changes no request. It rests on choices of the model in notes/assumptions/37.md,
notes/assumptions/74.md. -/
def Obligations.ResponsesAndPartialsReachTheirOwner : Prop :=
  (∀ (s : State) (l : Nat) (m : Msg), s.brought l 0x07 m → s.passes l m →
    (∀ r, s.openRed m.ctx (nbits m.addr 0 16) = some r → s.partRefused m.ctx (nbits m.addr 0 16) (nbits m.addr 16 12) (nbits m.addr 28 16) = false →
        m.sub % 256 = 0 → nbits m.addr 44 4 = rdOp r.desc → nbits m.addr 48 4 = rdIn r.desc →
      (∃ t, exec (.redPartial l false) s = .next t
        ∧ only [.link, .reds, .pwr] [dieReg (r.engine / 64) 0x500, dieReg (r.engine / 64) 0x504] s t ∧ t.link.rx = s.link.rx.erase (l, m)
        ∧ t.openRed m.ctx (nbits m.addr 0 16) =
            some { r with waiting := r.waiting ++ [.part (nbits m.addr 16 12) (nbits m.addr 28 16) (nbits m.addr 44 4) (nbits m.addr 48 4) 0 m.payload] })
      ∧ (rdForward r.desc = false → ∃ t, exec (.redPartial l true) s = .next t ∧ t.openRed m.ctx (nbits m.addr 0 16) = none
        ∧ ∃ f ∈ t.ctx.faults, f.ctx = m.ctx ∧ f.reason = 2))
    ∧ (s.partRefused m.ctx (nbits m.addr 0 16) (nbits m.addr 16 12) (nbits m.addr 28 16) = true →
      ∀ bad, ∃ t, exec (.redPartial l bad) s = .next t ∧ only [.link, .pwr] [dieReg (l / 16) 0x20C] s t
        ∧ (t.rd (dieReg (l / 16) 0x20C)).toNat = min 0xFFFFFFFF ((s.rd (dieReg (l / 16) 0x20C)).toNat + 1)))
  ∧ (∀ (s : State) (l k : Nat) (c : Sys2Proof.Instr) (m : Msg),
    (k, c) ∈ [(0x02, Sys2Proof.Instr.rdData l), (0x04, .wrResp l), (0x06, .atomicResp l), (0x21, .tRdData l), (0x23, .tWrResp l), (0x25, .tAtomicResp l)] →
    s.brought l k m → s.ztl l = true ∨ (s.tagCheck l m.epoch.toNat m.ctx m.gen).1 = .ok →
    (∀ a, s.link.awaits.find? (fun a => a.peer == (if s.ztl l then 0x100 + l else m.src) && (answers m.kind).contains a.kind && a.ctx == m.ctx
          && a.addr == m.addr) = some a →
      (∃ t, exec c s = .next t ∧ t.link.rx = s.link.rx.erase (l, m) ∧ (a.who = .tray ∨ a.who = .core 0 →
          t.link.awaits = s.link.awaits.erase a ∧ only [.link, .poison] [] s t))
      ∧ (∀ port dpa w, a.who = .host port dpa w 0 → (∀ b ∈ s.link.awaits.erase a, b.who ≠ a.who) → a.st = .ok → m.sub % 256 = 0 →
        ∃ t, exec c s = .next t ∧ only [.link, .out, .health] [] s t ∧ t.link.awaits = s.link.awaits.erase a
          ∧ (s.hostUp port = true → t.out = .memData port m.payload false (s.devLoad port) :: s.out)))
    ∧ (s.link.awaits.find? (fun a => a.peer == (if s.ztl l then 0x100 + l else m.src) && (answers m.kind).contains a.kind && a.ctx == m.ctx
          && a.addr == m.addr) = none →
      ∃ t, exec c s = .next t ∧ only [.link] [] s t ∧ t.link.awaits = s.link.awaits))

/-- R466, R536-R538. An ABORT_NOTICE of an (`ORIGIN`, `SERIAL`) not seen before is kept for the next boundary with the tags that pass R480; one
seen before changes nothing. An EPOCH_NOTICE that differs from the flip armed here sets `RT_EVENTS.EPOCH_MISMATCH`, and an equal one
nothing. It rests on choices of the model in notes/assumptions/69.md. -/
def Obligations.NoticesAreActedOnOnce : Prop :=
  (∀ (s : State) (l : Nat) (m : Msg), s.ready = true → s.link.rx.find? (fun p => p.1 == l && p.2.kind == 0x10) = some (l, m) →
      1 ≤ leNat ((m.payload.drop 11).take 1) → leNat ((m.payload.drop 11).take 1) ≤ 48 →
    ((∀ a ∈ s.ctx.aborts, a.origin = leNat ((m.payload.drop 8).take 1) → a.serial ≠ leNat ((m.payload.drop 12).take 4)) →
      ∃ t a, exec (.abortNotice l) s = .next t ∧ t.ctx.aborts = s.ctx.aborts ++ [a] ∧ a.origin = leNat ((m.payload.drop 8).take 1)
        ∧ a.serial = leNat ((m.payload.drop 12).take 4) ∧ a.acted = false ∧ a.from? = some l
        ∧ a.tags = ((List.range (leNat ((m.payload.drop 11).take 1))).map (tagAt m.payload)).filter (fun t =>
            (s.tagCheck l m.epoch.toNat t.1 t.2).1 == .ok)
        ∧ only [.link, .ctx] (0x73C :: (List.range 1024).map (fun x => ctxReg x 0x14)) s t ∧ t.link.rx = s.link.rx.erase (l, m))
    ∧ ((∃ a ∈ s.ctx.aborts, a.origin = leNat ((m.payload.drop 8).take 1) ∧ a.serial = leNat ((m.payload.drop 12).take 4)) →
      ∃ t, exec (.abortNotice l) s = .next t ∧ only [.link] [] s t))
  ∧ (∀ (s : State) (l : Nat) (m : Msg), s.ready = true → s.link.rx.find? (fun p => p.1 == l && p.2.kind == 0x11) = some (l, m) →
    (s.flipArmed.map (fun f => (f.1, f.2.toNat)) = some (leNat (m.payload.take 8), leNat ((m.payload.drop 8).take 4)) →
      ∃ t, exec (.epochNotice l) s = .next t ∧ only [.link] [] s t)
    ∧ (s.flipArmed.map (fun f => (f.1, f.2.toNat)) ≠ some (leNat (m.payload.take 8), leNat ((m.payload.drop 8).take 4)) →
      ∃ t, exec (.epochNotice l) s = .next t ∧ only [.link] [0x614] s t ∧ t.rd 0x614 = s.rd 0x614 ||| 8))

/-- R450, R454, R469, R474, R495. A training port that hears the peer it expects notes it; another peer holds it UNSUPPORTED. Trained at four or
eight lanes after that, it is UP with its lanes, its measured round trip and its peer, and holds the training grant of credits. A port that
loses its link retrains, with `LINK_DOWN` latched. It rests on choices of the model in notes/assumptions/33.md. -/
def Obligations.PortsTrainWithTheExpectedPeer : Prop :=
  (∀ (s : State) (l : Nat) (h : Hello), s.pwr.phase ≠ .dark → l < 64 → s.lpState l = 1 ∨ s.lpState l = 3 ∨ s.lpState l = 5 →
    ∃ t, exec (.hello l h) s = .next t ∧ only [.link] [linkBlock l, linkBlock l + 8, 0x718] s t ∧ (t.port l).hello = some h
      ∧ (s.expects l h = true → h.ztl = true → t.lpState l = s.lpState l)
      ∧ (s.expects l h = false → t.lpState l = 5))
  ∧ (∀ (s : State) (l lanes rtt : Nat) (nonce : List Byte) (h : Hello), s.pwr.phase ≠ .dark → l < 64 → s.lpState l = 1 ∨ s.lpState l = 3 →
      (s.port l).hello = some h → h.ztl = false → h.module < 256 → lanes = 4 ∨ lanes = 8 → s.link.replay.all (fun r => r.link != l || r.sent) = true →
    ∃ t, exec (.linkTrained l lanes rtt nonce) s = .next t ∧ t.lpState l = 2 ∧ t.fld (linkBlock l) 4 4 = lanes ∧ t.fld (linkBlock l) 16 8 = h.module
      ∧ t.rd (linkBlock l + 0x28) = BitVec.ofNat 32 rtt ∧ (t.port l).peer = some (h.module, h.serial)
      ∧ (∀ c, c < 6 → t.creditOf l c = 64) ∧ (∀ c, 8 ≤ c → c ≤ 12 → t.creditOf l c = 16)
      ∧ only [.link, .mem, .poison, .coh, .out] ([0, 8, 0x28, 0x2C, 0x30, 0x34].map (linkBlock l + ·) ++ traceRegs ++ dirRegs) s t)
  ∧ (∀ (s : State) (l : Nat) (lane : Bool), s.ready = true → l < 64 → s.lpState l = 2 ∨ s.lpState l = 5 →
    ∃ t, exec (.linkDown l lane) s = .next t ∧ t.lpState l = 3 ∧ t.bit (linkBlock l + 8) 0 = true ∧ (lane = true → t.bit (linkBlock l + 8) 2 = true)
      ∧ only [.mem, .poison, .coh, .out, .link, .tier] ([linkBlock l, linkBlock l + 8] ++ traceRegs ++ dirRegs ++ useRegs) s t)

/-- R379, R390, R431, R451, R493. For bytes on a DRAM tray that the context may reach, T_RD sends the request, T_WR the ciphertext of what the
pool then holds, and T_ATOMIC leaves the new value; each is awaited, and a request outside the context's rights sends nothing. T_FL_CMD
sends its page command to a flash tray, and a read is remembered with its level. T_FL_RESP of a good read counts a read of the unit's block;
an unreadable page is read again at the next level, up to level 8, and a unit that its row does not give back either is lost. It rests on
choices of the model in notes/assumptions/39.md. -/
def Obligations.TraysAreAskedOverZtl : Prop :=
  (∀ (s : State) (l a n x : Nat), wholeLines a n = .ok →
    (s.onDramTray l a n = true → s.mapCheck x false a n = .ok →
      ∃ t, exec (.tRd l a n x) s = .next t ∧ only [.link, .out, .health] linkRegs s t
        ∧ t.link.awaits = s.link.awaits ++ [{ peer := 0x100 + l, kind := 0x20, ctx := x, gen := s.ctxGen x, addr := a, who := .tray, len := n }])
    ∧ (s.mapCheck x false a n ≠ .ok → exec (.tRd l a n x) s = .next s))
  ∧ (∀ (s : State) (l a x : Nat) (d : List Byte), wholeLines a d.length = .ok → s.settled →
    (s.onDramTray l a d.length = true → s.mapCheck x true a d.length = .ok →
      ∃ t, exec (.tWr l a x d) s = .next t ∧ only (storeParts ++ [.link, .health]) (dirRegs ++ linkRegs) s t ∧ t.holds s a d
        ∧ t.link.awaits.length = s.link.awaits.length + 1)
    ∧ (s.mapCheck x true a d.length ≠ .ok → exec (.tWr l a x d) s = .next s))
  ∧ (∀ (s : State) (l a x : Nat) (op : Atomic), s.settled → s.onDramTray l a op.size = true → s.mapCheck x true a op.size = .ok →
      atomOk (a % 64) op = true →
    ∃ t, exec (.tAtomic l a x op) s = .next t ∧ only (storeParts ++ [.link, .health]) (dirRegs ++ linkRegs) s t
      ∧ t.holds s a (leBytes op.size (atomNew op (leNat (s.bytes a op.size)))))
  ∧ (∀ (s : State) (l cmd lv die blk pg : Nat), s.ready = true → s.linkUp l = true → s.fld (linkBlock l) 9 2 = 2 →
    ∃ t, exec (.tFlCmd l cmd lv die blk pg) s = .next t ∧ only [.out, .health, .flash] [] s t ∧ t.out = .flashCmd l cmd lv die blk pg :: s.out
      ∧ (cmd ≠ 0 → t.flash = s.flash)
      ∧ (cmd = 0 → ∀ y, s.tray l = some y → t.tray l = some { y with reading := y.reading ++ [lv] }))
  ∧ (∀ (s : State) (l p u lv : Nat) (ok rowOk verifyOk : Bool) (y : Tray) (v : FStripe) (c : FCopy) (rest : List Nat), s.ready = true →
      s.linkUp l = true → s.tray l = some y → y.reading = lv :: rest → y.find p u = some (v, c) →
    ∃ t, exec (.tFlResp l p u ok rowOk verifyOk) s = .next t
      ∧ (ok = true → only [.flash] [] s t ∧ t.tray l = some (({ y with reading := rest } : Tray).setStripe
          { v with blocks := v.blocks.set c.pos ((v.blocks.getD c.pos none).map (fun b => { b with reads := b.reads + 1 })) }))
      ∧ (ok = false → lv < 8 → 16 * v.group + c.pos ∉ y.failed → only [.flash, .out, .health] [] s t
          ∧ t.out = .flashCmd l 0 (lv + 1) (16 * v.group + c.pos) v.no c.row :: s.out
          ∧ (t.tray l).map (·.reading) = some (rest ++ [lv + 1]))
      ∧ (ok = false → 8 ≤ lv → rowOk = false → t.bit 0x314 2 = true))

/-- R26, R32, R48, R49, R465, R471, R482. A flip is armed for the epoch of `RT_ARM_EPOCH` when its boundary is at least 16 frames ahead and the
version it would make active is a legal composition; a nearer target sets `ARM_LATE`, a drain below 2 `BAD_WRITE`, and neither arms. A
disarm at least 16 frames ahead ends the arm. The target is written while no arm through `RT_CTRL` is held. A clock condition that is lost
reads 0 and is latched when it was there; one that returns reads 1. Without its reference clock a group's host ports are DOWN, but for those
DISABLED; with it again those that may train start to. In Dark the reference is remembered, and the next start finds it missing or there. It
rests on choices of the model in notes/assumptions/11.md, notes/assumptions/28.md. -/
def Obligations.FlipsAreArmedAndClocksAreWatched : Prop :=
  ((∀ (s : State) (port : Nat) (v : Word), s.accepts port 0x604 = true → s.eph.rtArm = none → s.eph.compArm = none →
    (2 ≤ nbits v.toNat 8 8 → s.time.frame + 16 ≤ s.targetEpoch (s.rd 0x608) * 2 ^ s.time.epochLog2 → s.compositionOk (1 - s.version) = true →
      ∃ t, exec (.rtArm port v) s = .next t ∧ only [.eph] [0x604] s t ∧ t.eph = { s.eph with rtArm := some (s.targetEpoch (s.rd 0x608)) }
        ∧ t.bit 0x604 1 = true ∧ t.fld 0x604 8 8 = nbits v.toNat 8 8 ∧ t.version = s.version)
    ∧ (2 ≤ nbits v.toNat 8 8 → ¬ s.time.frame + 16 ≤ s.targetEpoch (s.rd 0x608) * 2 ^ s.time.epochLog2 →
      ∃ t, exec (.rtArm port v) s = .next t ∧ onlyRegs [0x604, 0x614] s t ∧ t.rd 0x614 = s.rd 0x614 ||| 2)
    ∧ (nbits v.toNat 8 8 < 2 →
      ∃ t, exec (.rtArm port v) s = .next t ∧ onlyRegs [0x614] s t ∧ t.rd 0x614 = s.rd 0x614 ||| 4))
  ∧ (∀ (s : State) (port e : Nat) (v : Word), s.accepts port 0x604 = true → s.eph.rtArm = some e → 2 ≤ nbits v.toNat 8 8 →
    (s.time.frame + 16 ≤ e * 2 ^ s.time.epochLog2 →
      ∃ t, exec (.rtDisarm port v) s = .next t ∧ only [.eph] [0x604] s t ∧ t.eph = { s.eph with rtArm := none }
        ∧ t.bit 0x604 1 = s.eph.compArm.isSome)
    ∧ (¬ s.time.frame + 16 ≤ e * 2 ^ s.time.epochLog2 →
      ∃ t, exec (.rtDisarm port v) s = .next t ∧ onlyRegs [0x614] s t ∧ t.rd 0x614 = s.rd 0x614 ||| 4))
  ∧ (∀ (s : State) (port : Nat) (v : Word), s.accepts port 0x608 = true →
    ∃ t, exec (.rtArmEpochWrite port v) s = .next t
      ∧ (s.eph.rtArm = none → onlyRegs [0x608] s t ∧ t.rd 0x608 = v)
      ∧ (s.eph.rtArm ≠ none → onlyRegs [0x614] s t ∧ t.rd 0x614 = s.rd 0x614 ||| 4)))
  ∧ ((∀ (s : State) (k : Nat), s.pwr.phase ≠ .dark → k < 32 →
    (∃ t, exec (.pllLockLoss k) s = .next t ∧ onlyRegs [0x14, 0x18] s t ∧ t.bit 0x14 k = false ∧ (s.bit 0x14 k = true → t.bit 0x18 k = true)
      ∧ ∀ j, j ≠ k → t.bit 0x14 j = s.bit 0x14 j ∧ t.bit 0x18 j = s.bit 0x18 j)
    ∧ (∃ t, exec (.pllRelock k) s = .next t ∧ onlyRegs [0x14] s t ∧ t.bit 0x14 k = true ∧ ∀ j, j ≠ k → t.bit 0x14 j = s.bit 0x14 j))
  ∧ (∀ (s : State) (g : Nat), s.pwr.phase ≠ .dark → g < 12 →
    ((∀ n ∈ groupPorts g, s.hostClear n) →
      ∃ t, exec (.hrefLoss g) s = .next t ∧ t.bit 0x14 (12 + g) = false
        ∧ (∀ n ∈ groupPorts g, t.fld (hostBlock n) 0 3 = (if s.fld (hostBlock n) 0 3 = 5 then 5 else 0))
        ∧ t.pwr.hrefGone.contains g = true ∧ only (.pwr :: hostParts) ([0x14, 0x18] ++ (groupPorts g).flatMap hostRegs ++ traceRegs ++ dirRegs ++ useRegs) s t)
    ∧ (∃ t, exec (.hrefRestore g) s = .next t ∧ only [.pwr] (0x14 :: (groupPorts g).map hostBlock) s t
        ∧ t.bit 0x14 (12 + g) = true ∧ t.pwr.hrefGone.contains g = false
        ∧ ∀ n ∈ groupPorts g, s.fld (hostBlock n) 0 3 = 0 → s.hostRate n ≠ 0 → s.bit (hostBlock n + 4) 0 = false → s.dieTrains (n / 12) = true →
            t.fld (hostBlock n) 0 3 = (if s.downstream n then 4 else 1)))
  ∧ (∀ (s : State) (g : Nat), s.pwr.phase = .dark →
    (∃ t, exec (.hrefLoss g) s = .next t ∧ only [.pwr] [] s t ∧ t.pwr = { s.pwr with hrefGone := g :: s.pwr.hrefGone.filter (· != g) })
    ∧ (∃ t, exec (.hrefRestore g) s = .next t ∧ only [.pwr] [] s t ∧ t.pwr = { s.pwr with hrefGone := s.pwr.hrefGone.filter (· != g) })))

/-- R441, R445, R447, R449, R472-R474. `DISABLE` takes a link port DOWN and a host port DISABLED, with `LINK_DOWN` latched; `RETRAIN` starts the
training of a port that may train and then reads 0. A trained host port is UP with what it negotiated, its HDM size is in force and
`TRAINED` is latched; one that goes down is DOWN and has lost its IDE key. An IDE key takes effect on CXL 2.0 and 3.1. A lost expander is
out of the pool's units, to be acted on at the next boundary; a device below a downstream port joins them when it is trained. Before
MOD_READY a configuration request completes with retry status (R561); later it masks or unmasks a vector, and a message that is pending
leaves when its vector is unmasked (R147). -/
def Obligations.PortsComeAndGo : Prop :=
  ((∀ (s : State) (port n : Nat), s.accepts port (linkBlock n + 4) = true → n < 64 →
    (s.lpState n ≠ 0 → ∃ t, exec (.lpDisable port n) s = .next t ∧ t.lpState n = 0 ∧ t.rd (linkBlock n + 4) = 1
      ∧ t.bit (linkBlock n + 8) 0 = true
      ∧ only [.mem, .poison, .coh, .out, .tier] ([linkBlock n, linkBlock n + 4, linkBlock n + 8] ++ traceRegs ++ dirRegs ++ useRegs) s t)
    ∧ (s.lpState n = 0 → ∃ t, exec (.lpDisable port n) s = .next t ∧ onlyRegs [linkBlock n + 4] s t ∧ t.rd (linkBlock n + 4) = 1)
    ∧ (s.bit 0x828 0 = true → (s.alm.linkWords.getD n 0).getLsbD 0 = true → s.dieTrains (n / 16) = true →
      ∃ t, exec (.lpRetrain port n) s = .next t ∧ t.rd (linkBlock n + 4) = 0 ∧ (t.port n).trainings = (s.port n).trainings + 1
        ∧ t.lpState n = (if s.lpState n = 2 ∨ s.lpState n = 5 then 3 else 1)
        ∧ only [.mem, .poison, .coh, .out, .tier, .link] ([linkBlock n, linkBlock n + 4, linkBlock n + 8] ++ traceRegs ++ dirRegs ++ useRegs) s t))
  ∧ (∀ (s : State) (port n : Nat), s.accepts port (hostBlock n + 4) = true → n < 48 → s.hostClear n →
    (s.fld (hostBlock n) 0 3 ≠ 5 → ∃ t, exec (.hpDisable port n) s = .next t ∧ t.fld (hostBlock n) 0 3 = 5 ∧ t.rd (hostBlock n + 4) = 1
      ∧ t.bit (hostBlock n + 0xC) 1 = true ∧ (∀ p ∈ t.link.ide, p.1 ≠ n)
      ∧ only hostParts ((hostBlock n + 4) :: hostRegs n ++ traceRegs ++ dirRegs ++ useRegs) s t)
    ∧ (s.hostRate n ≠ 0 → s.bit 0x14 (12 + n / 4) = true → s.dieTrains (n / 12) = true →
      ∃ t, exec (.hpRetrain port n) s = .next t ∧ t.rd (hostBlock n + 4) = 0 ∧ t.fld (hostBlock n) 0 3 = (if s.downstream n then 4 else 1)
        ∧ only hostParts ((hostBlock n + 4) :: hostRegs n ++ traceRegs ++ dirRegs ++ useRegs) s t)))
  ∧ ((∀ (s : State) (n : Nat) (l : HostLink), s.pwr.phase ≠ .dark → n < 48 → s.hpMayTrain n = true → hostLinkOk l = true →
      s.fld (hostBlock n) 0 3 = 1 ∨ s.fld (hostBlock n) 0 3 = 0 → s.downstream n = false →
    ∃ t, exec (.hostPortTrained n l) s = .next t ∧ t.hostUp n = true ∧ t.fld (hostBlock n) 3 2 = l.gen ∧ t.fld (hostBlock n) 5 3 = l.rate
      ∧ t.fld (hostBlock n) 8 5 = l.width ∧ t.bit (hostBlock n) 13 = s.bit (hostBlock n) 13 ∧ t.bit (hostBlock n + 0xC) 0 = true
      ∧ t.link.hdm.find? (fun p => p.1 == n) = some (n, s.fld (hostBlock n + 8) 0 16)
      ∧ only [.link, .mem, .poison, .coh, .out] (hostRegs n ++ traceRegs ++ dirRegs) s t)
  ∧ (∀ (s : State) (n : Nat) (l : HostLink), s.pwr.phase ≠ .dark → n < 48 → s.hpMayTrain n = true → hostLinkOk l = true →
      s.fld (hostBlock n) 0 3 = 4 → 2 ≤ l.gen → s.downstream n = true → s.tier.units.any (fun x => x.unit == 0x80 + n) = false →
    ∃ t, exec (.hostPortTrained n l) s = .next t ∧ t.fld (hostBlock n) 0 3 = 4 ∧ t.bit (hostBlock n + 0xC) 0 = true
      ∧ t.tier.units = s.tier.units ++ [newExpander n l]
      ∧ only [.link, .mem, .poison, .coh, .out, .tier] (hostRegs n ++ traceRegs ++ dirRegs ++ useRegs) s t)
  ∧ (∀ (s : State) (n : Nat), s.hostUp n = true → s.hostClear n →
    ∃ t, exec (.hostPortDown n) s = .next t ∧ t.fld (hostBlock n) 0 3 = 0 ∧ t.bit (hostBlock n + 0xC) 1 = true ∧ (∀ p ∈ t.link.ide, p.1 ≠ n)
      ∧ only hostParts (hostRegs n ++ traceRegs ++ dirRegs) s t)
  ∧ (∀ (s : State) (n : Nat) (k : BitVec 256), s.hostUp n = true → 2 ≤ s.fld (hostBlock n) 3 2 →
    ∃ t, exec (.ideKeyProgram n k) s = .next t ∧ only [.link] [hostBlock n] s t ∧ t.bit (hostBlock n) 14 = true
      ∧ t.link.ide.find? (fun p => p.1 == n) = some (n, k))
  ∧ (∀ (s : State) (n : Nat), s.ready = true → s.fld (hostBlock n) 0 3 = 4 → n < 48 →
      s.tier.units.any (fun x => x.unit == 0x80 + n) = true → s.tier.lostUnits.contains (0x80 + n) = false →
    ∃ t, exec (.expanderLoss n) s = .next t ∧ only [.tier] ((hostBlock n + 0xC) :: useRegs) s t ∧ t.bit (hostBlock n + 0xC) 1 = true
      ∧ t.tier.lostUnits = s.tier.lostUnits ++ [0x80 + n] ∧ t.tier.units = s.tier.units.filter (fun x => x.unit != 0x80 + n)
      ∧ t.tier.pages = s.tier.pages)
  ∧ (∀ (s : State) (n : Nat) (m : Option (Nat × Bool)), s.pwr.phase = .starting → s.fld (hostBlock n) 0 3 = 2 →
    ∃ t, exec (.configRequest n m) s = .next t ∧ only [.out] [] s t ∧ t.out = .retryStatus n :: s.out)
  ∧ (∀ (s : State) (n v : Nat), s.ready = true → s.hostUp n = true →
    (∃ t, exec (.configRequest n (some (v, true))) s = .next t ∧ only [.link] [] s t ∧ t.link.pend = s.link.pend
      ∧ ∀ k, k ∈ t.link.masked ↔ k = (n, v) ∨ k ∈ s.link.masked)
    ∧ (∃ t, exec (.configRequest n (some (v, false))) s = .next t ∧ only [.link, .out] [] s t ∧ (n, v) ∉ t.link.pend
      ∧ (∀ k, k ∈ t.link.masked ↔ k ≠ (n, v) ∧ k ∈ s.link.masked)
      ∧ t.out = (if (n, v) ∈ s.link.pend then .msix n v :: s.out else s.out))))

/-- R443, R444, R446. A read through a window completes with the 64 bytes of pool memory; a write stores its enabled bytes and completes, or
waits for room in a write cache (R385); FetchAdd, Swap and CAS leave their new value and return the old one. An address in no window is
recorded and answered as a failure, and another AtomicOp as an Unsupported Request. It rests on choices of the model in
notes/assumptions/40.md. -/
def Obligations.HostRequestsReachTheirWindow : Prop :=
  (∀ (s : State) (n dpa w x a : Nat) (ide : Bool) (ue : List Nat), s.admits n dpa w x a → s.bit (hostBlock n) 14 = false ∨ ide = true →
      s.lineDom (a / 64) = 0 → s.mapCheck x false a 64 = .ok → s.readCheck ue a 64 = .ok →
    ∃ t, exec (.memRead n dpa ide ue) s = .next t ∧ only [.out, .tier, .health] [] s t
      ∧ t.out = .memData n (s.bytes a 64) false (s.devLoad n) :: s.out)
  ∧ (∀ (s : State) (n dpa w x a : Nat) (ide : Bool) (d : List Byte) (en : BitVec 64), s.admits n dpa w x a →
      s.bit (hostBlock n) 14 = false ∨ ide = true → s.windowRo n w = false → s.lineDom (a / 64) = 0 → s.mapCheck x true a 64 = .ok →
      d.length = 64 → s.settled → s.plainFor x a 64 → en = BitVec.allOnes 64 ∨ s.poison.contains (a / 64) = false →
    (s.cacheFull a 64 = none →
      ∃ t, exec (.memWrite n dpa d en ide) s = .next t ∧ only (storeParts ++ [.health]) dirRegs s t
        ∧ t.holds s a (if en = BitVec.allOnes 64 then d else maskLine en d (s.bytes a 64)) ∧ t.out.head? = some (.cmp n (s.devLoad n)))
    ∧ (∀ k, s.cacheFull a 64 = some k →
      ∃ t, exec (.memWrite n dpa d en ide) s = .next t ∧ only [.flash] [] s t
        ∧ t.flash = { s.flash with held := s.flash.held ++ [(k.1, k.2.1, k.2.2, .memWrite n dpa d en ide)] }))
  ∧ (∀ (s : State) (n dpa w x a : Nat) (op : Atomic), s.admits n dpa w x a → s.windowRo n w = false → op.posted = false →
      op.code = 0 ∨ op.code = 8 ∨ op.code = 9 → s.homeFree (a / 64) → s.dirEnt (a / 64) = none → s.poison.contains (a / 64) = false →
      s.reqCheck { line := a / 64, agent := .host n, ctx := x, kind := .atom (a % 64) op, via := .host dpa w } = .ok → s.settled →
      s.plainFor x a op.size → s.cacheFull a 1 = none →
    ∃ t, exec (.atomicOp n dpa op) s = .next t
      ∧ only (storeParts ++ [.health]) (dirRegs ++ [dirReg (homeSlice (a / 64)) 0x1C, dirReg (homeSlice (a / 64)) 0x20]) s t
      ∧ t.holds s a (leBytes op.size (atomNew op (leNat (s.bytes a op.size))))
      ∧ t.out.head? = some (.atomicCpl n (some (leNat (s.bytes a op.size)))))
  ∧ (∀ (s : State) (n dpa : Nat) (ide : Bool) (ue : List Nat), s.serves = true → s.hostUp n = true → s.bit (hostBlock n) 14 = false ∨ ide = true →
      s.windowOf n dpa = none →
    ∃ t, exec (.memRead n dpa ide ue) s = .next t ∧ only [.out, .health] ([0xC, 0x10, 0x14, 0x18, 0x1C].map (hostBlock n + ·)) s t
      ∧ t.bit (hostBlock n + 0xC) 4 = true ∧ t.fld (hostBlock n + 0x10) 0 8 = Status.addrFault.code
      ∧ t.out = .memData n (List.replicate 64 0) true (s.devLoad n) :: s.out)
  ∧ (∀ (s : State) (n dpa : Nat) (op : Atomic), s.serves = true → s.hostUp n = true → (op.code ≠ 0 ∧ op.code ≠ 8 ∧ op.code ≠ 9) ∨ op.posted = true →
    ∃ t, exec (.atomicOp n dpa op) s = .next t ∧ only [.out] [pviolReg n] s t ∧ t.out = .unsupported n :: s.out)

/-- R338-R340, R351. A pool-map command whose checks pass takes effect on the map as a whole and holds `BUSY`: MAP maps every page of its range
with the entry written, UNMAP leaves none mapped, SET_FLAGS replaces pin, domain and `RO`, QUERY shows the first page's entry; rights stay
until a frame boundary, and accesses find an unmapped page by its old record until then. One that fails leaves the map as it was and reports
its code. A command written while one is busy is discarded. Its completion clears `BUSY` and shows the code. It rests on choices of the
model in notes/assumptions/66.md. -/
def Obligations.PoolMapCommandsAreAllOrNothing : Prop :=
  ∀ (s : State) (port : Nat), s.accepts port 0x250 = true →
    (s.tier.cmd = none →
      (s.pmapMap.2 = .ok →
        ∃ t, exec (.map port) s = .next t ∧ only [.tier] (0x254 :: useRegs) s t ∧ t.bit 0x254 0 = true ∧ t.tier.rights = s.tier.rights
          ∧ t.tier.cmd = some (.ok, s.pmapFirst, s.pmapCount)
          ∧ (∀ p ∈ s.pmapPages, (t.page p).map (·.entry) = some (s.pmapEntry &&& 0x007FFFFF)) ∧ ∀ p, p ∉ s.pmapPages → t.page p = s.page p)
      ∧ (s.pmapMap.2 ≠ .ok →
        ∃ t, exec (.map port) s = .next t ∧ only [.tier] [0x254, quotaReg (entryCtx s.pmapEntry) 0x1C] s t
          ∧ t.tier.cmd = some (s.pmapMap.2, s.pmapFirst, s.pmapCount) ∧ t.tier.pages = s.tier.pages ∧ t.tier.rights = s.tier.rights)
      ∧ (s.pmapUnmap.2 = .ok →
        ∃ t, exec (.unmap port) s = .next t ∧ only [.tier] ([0x254, 0x224, 0x318] ++ useRegs ++ scrubRegs) s t ∧ t.bit 0x254 0 = true
          ∧ t.tier.rights = s.tier.rights ∧ (∀ p ∈ s.pmapPages, t.page p = none)
          ∧ (∀ p ∈ s.pmapPages, ∀ g, s.page p = some g → g.isNew = false → ∃ h ∈ t.tier.gone, h.page = p)
          ∧ ∀ p, p ∉ s.pmapPages → t.page p = s.page p)
      ∧ (s.pmapUnmap.2 ≠ .ok →
        ∃ t, exec (.unmap port) s = .next t ∧ only [.tier] [0x254] s t
          ∧ t.tier = { s.tier with cmd := some (s.pmapUnmap.2, s.pmapFirst, s.pmapCount) })
      ∧ (s.pmapSetFlags.2 = .ok →
        ∃ t, exec (.setFlags port) s = .next t ∧ only [.tier] [0x254] s t ∧ t.bit 0x254 0 = true ∧ t.tier.rights = s.tier.rights
          ∧ (∀ p ∈ s.pmapPages, (t.page p).map (·.entry) = (s.page p).map (fun g => flagsOf g.entry s.pmapEntry))
          ∧ ∀ p, p ∉ s.pmapPages → t.page p = s.page p)
      ∧ (s.pmapSetFlags.2 ≠ .ok →
        ∃ t, exec (.setFlags port) s = .next t ∧ only [.tier] [0x254, quotaReg (entryCtx s.pmapEntry) 0x1C] s t
          ∧ t.tier = { s.tier with cmd := some (s.pmapSetFlags.2, s.pmapFirst, s.pmapCount) })
      ∧ (∃ t, exec (.query port) s = .next t ∧ only [.tier] [0x254, 0x258, 0x25C] s t ∧ t.tier.pages = s.tier.pages
          ∧ t.rd 0x258 = (s.page s.pmapFirst).elim 0 (·.entry)))
    ∧ (s.tier.cmd ≠ none → ∀ c ∈ [Sys2Proof.Instr.map port, .unmap port, .setFlags port, .query port],
      ∃ t, exec c s = .next t ∧ onlyRegs [0x22C] s t ∧ t.rd 0x22C = s.rd 0x22C ||| 8)
    ∧ (∀ st a n, s.tier.cmd = some (st, a, n) →
      ∃ t, exec .pmapCommandDone s = .next t ∧ only [.tier] [0x254] s t ∧ t.rd 0x254 = BitVec.ofNat 32 (256 * st.code)
        ∧ t.tier = { s.tier with cmd := none, cmdDone := true })

/-- R348-R350, R507. A chunk copied brings the move of its page one chunk on, and its uncorrectable lines are poisoned; a copy that fails ends
the move, and the page stays where it was. The source of a finished move waits for scrub. Scrub fills the bytes of its unmapped page with
zeros and no others; at its end the backing leaves the scrub list, and the last one of a context latches `SCRUB_DONE`. It rests on choices
of the model in notes/assumptions/66.md. -/
def Obligations.PagesMoveAndAreScrubbed : Prop :=
  (∀ (s : State) (p : Nat) (w : Option Nat) (g : Page) (m : Move) (ue : List Nat), s.page p = some g → g.move = some m → g.lost = false →
      m.done < 32 → w.all (fun i => s.windowOk i (s.chunkUnit g.loc p m.done) (s.chunkUnit m.loc p m.done)) = true →
      (s.chunkFlash g m).any (fun k => (s.tray k.1).any (fun y => !y.room k.2.1 k.2.2)) = false →
    (∃ t, exec (.migrationChunkCopy p w true ue) s = .next t
      ∧ only [.tier, .poison, .flash, .freeCtr, .health, .link, .out] errRegs s t
      ∧ t.page p = some { g with move := some { m with done := m.done + 1 } } ∧ (∀ q, q ≠ p → t.page q = s.page q)
      ∧ ∀ l, l ∈ t.poison ↔ l ∈ s.poison ∨ l ∈ chunkLines p m.done ue)
    ∧ (∃ t, exec (.migrationChunkCopy p w false ue) s = .next t ∧ only [.tier] (0x224 :: useRegs) s t ∧ t.page p = some { g with move := none }
      ∧ (∀ q, q ≠ p → t.page q = s.page q) ∧ (t.rd 0x224).toNat = min 0xFFFFFFFF ((s.rd 0x224).toNat + 1)))
  ∧ (∀ (s : State) (p : Nat) (f : Freed), s.tier.freed.find? (fun f => f.page == p) = some f → f.ctx < 1024 →
    ∃ t, exec (.sourceFree p) s = .next t ∧ only [.tier] (0x318 :: scrubRegs ++ useRegs) s t ∧ t.tier.freed = s.tier.freed.erase f
      ∧ t.tier.scrubs = s.tier.scrubs ++ [{ page := p, ctx := f.ctx, tier := f.tier, unit := f.unit, group := f.group, started := false }])
  ∧ (∀ (s : State) (p : Nat) (r : Scrub), s.tier.scrubs.find? (fun r => r.page == p && r.tier != 2 && !r.started) = some r → s.page p = none →
      s.settled → s.atBoundary = true → (∀ g ∈ s.tier.gone, g.page ≠ p) →
    ∃ t, exec (.pageScrub p) s = .next t ∧ only [.tier, .mem, .poison] [] s t ∧ t.tier.pages = s.tier.pages
      ∧ (∀ a, t.byte a = (if a / 2 ^ 21 = p then 0 else s.byte a)))
  ∧ (∀ (s : State) (p : Nat) (r : Scrub), s.tier.scrubs.find? (fun r => r.page == p && r.started) = some r → r.ctx < 1024 →
    ∃ t, exec (.pageScrubComplete p) s = .next t ∧ only [.tier] (scrubRegs ++ useRegs) s t ∧ t.tier.scrubs = s.tier.scrubs.erase r
      ∧ t.tier.pages = s.tier.pages
      ∧ t.rd (ctxReg r.ctx 0x10) = BitVec.ofNat 32 ((s.tier.scrubs.erase r).filter (fun q => q.ctx == r.ctx)).length
      ∧ ((s.tier.scrubs.erase r).all (fun q => q.ctx != r.ctx) = true → t.bit (ctxReg r.ctx 0x18) 1 = true))

/-- R357-R360. WS_OPEN with a good table opens one stream over its layers under an unused number, answers the number, and zeroes both counters.
WS_CLOSE of the context's stream marks it closing and ends OK; that of no stream of the context completes PERMISSION. A position whose layer
is not staged yet takes a stage copy on a stack, within the window; its chunks are copied in order, and an uncorrectable or lost one stops
the stream's staging. When all are there, or the layer is there already, the position counts as staged and `READY_CTR` rises by one. It
rests on choices of the model in notes/assumptions/20.md, notes/assumptions/21.md. -/
def Obligations.WeightStreamsAreOpenedStagedAndClosed : Prop :=
  (∀ (s : State) (id : Nat) (o : Op) (ue : List Nat), s.runsOp id o 0x58 → s.wsOwn o.ctx o.desc = .ok →
      s.readCheck ue (wsTable o.desc) (16 * wsLayers o.desc) = .ok → s.wsLayerCheck o.ctx o.desc (s.layerTable o.desc) = .ok →
      s.settled → s.plainFor o.ctx (svRes o.desc) 64 → s.tier.streams.length ≤ 256 → o.ctx < 1024 →
      (∀ h ∈ [wsAdv o.desc, wsReady o.desc], ∀ c, s.ctr o.ctx h = some c → s.streamsOf c = []) →
    ∃ t w, exec (.wsOpen id ue) s = .next t ∧ t.ended id .ok ∧ t.tier.streams = s.tier.streams ++ [w] ∧ w.ctx = o.ctx ∧ w.layers = s.layerTable o.desc
      ∧ w.window = wsWindow o.desc ∧ w.staged = 0 ∧ w.copies = [] ∧ (∀ v ∈ s.tier.streams, v.id ≠ w.id)
      ∧ (∀ h ∈ [wsAdv o.desc, wsReady o.desc], ∀ c, s.ctr o.ctx h = some c → t.ctrVal c = 0)
      ∧ t.bytes (svRes o.desc) 64 = leBytes 4 w.id ++ List.replicate 60 0 ∧ (∀ a, a < svRes o.desc ∨ svRes o.desc + 64 ≤ a → t.byte a = s.byte a)
      ∧ only (serviceParts ++ [.heads, .pwr, .link]) (0x290 :: dirRegs ++ useRegs ++ ([wsAdv o.desc, wsReady o.desc].flatMap (fun h =>
          (s.ctr o.ctx h).elim [] (fun c => [counterBlock c, counterBlock c + 4, counterBlock c + 0x1C])))) s t)
  ∧ (∀ (s : State) (id : Nat) (o : Op), s.runsOp id o 0x59 →
    (∀ w, s.wsFind (db o.desc 16 4) = some w → w.ctx = o.ctx → s.resCheck o.ctx o.desc = .ok → s.settled → s.plainFor o.ctx (svRes o.desc) 64 →
      ∃ t, exec (.wsClose id) s = .next t ∧ t.ended id .ok ∧ only (storeParts ++ [.ops, .sec]) (0x290 :: dirRegs) s t ∧ t.wsFind w.id = none
        ∧ t.holds s (svRes o.desc) (leBytes 4 (db o.desc 16 4) ++ List.replicate 60 0))
    ∧ ((∀ w, s.wsFind (db o.desc 16 4) = some w → w.ctx ≠ o.ctx) →
      ∃ t, exec (.wsClose id) s = .next t ∧ t.ended id .permission ∧ only [.ops, .sec] [] s t))
  ∧ (∀ (s : State) (n : Nat) (w : WStream), s.wsFind n = some w → w.stopped = false → w.staging = none →
      w.staged < s.wsAdvance w + w.window → w.layers ≠ [] → w.ctx < 1024 →
    (∀ k, (∀ c ∈ w.copies, c.1 ≠ w.staged % w.layers.length) →
        s.use w.ctx 0 + (w.layers.getD (w.staged % w.layers.length) (0, 0)).2 ≤ (s.frd (quotaReg w.ctx 0)).toNat →
        s.copyStack w.ctx (w.layers.getD (w.staged % w.layers.length) (0, 0)).2 = some k →
      ∃ t, exec (.wsStage n) s = .next t ∧ only [.tier] useRegs s t
        ∧ t.wsFind n = some { w with staging := some w.staged, chunks := 0, copies := w.copies ++ [(w.staged % w.layers.length, k)] })
    ∧ (∀ c, (∃ k ∈ w.copies, k.1 = w.staged % w.layers.length) → s.ctr w.ctx w.ready = some c → s.streamsOf c = [] →
      ∃ t, exec (.wsStage n) s = .next t ∧ only [.tier, .heads, .out, .link, .pwr] (useRegs ++ addRegs c) s t
        ∧ t.wsFind n = some { w with staged := w.staged + 1 } ∧ t.ctrVal c = (s.ctrVal c + 1) % 2 ^ 64))
  ∧ (∀ (s : State) (p q : Nat) (w : WStream) (g : Page) (v : Option Nat) (ue : List Nat), s.page p = some g → g.move = none →
      s.stager p = some (w, q) → w.ctx < 1024 →
      v.all (fun i => s.windowOk i (s.chunkUnit g.loc p (w.chunks % 32))
        ((w.copies.find? (fun c => c.1 == q % max 1 w.layers.length)).getD (0, 0)).2) = true →
    (s.lostCheck p = .ok → chunkLines p (w.chunks % 32) (s.poison ++ ue) = [] →
      ∃ t, exec (.migrationChunkCopy p v true ue) s = .next t ∧ only [.tier] [] s t ∧ t.wsFind w.id = some { w with chunks := w.chunks + 1 })
    ∧ (s.lostCheck p ≠ .ok ∨ chunkLines p (w.chunks % 32) (s.poison ++ ue) ≠ [] →
      ∃ t, exec (.migrationChunkCopy p v true ue) s = .next t
        ∧ only [.tier, .freeCtr, .health, .link, .out] (useRegs ++ errRegs) s t
        ∧ (t.wsFind w.id).map (fun u => (u.stopped, u.staging)) = some (true, none)))
  ∧ (∀ (s : State) (n q c : Nat) (w : WStream), s.wsFind n = some w → w.staging = some q → w.chunks = 32 * (w.layer q).2.2 → w.ctx < 1024 →
      s.ctr w.ctx w.ready = some c → s.streamsOf c = [] →
    ∃ t, exec (.wsStageDone n) s = .next t ∧ only [.tier, .heads, .out, .link, .pwr] (useRegs ++ addRegs c) s t
      ∧ t.wsFind n = some { w with staged := w.staged + 1, staging := none } ∧ t.ctrVal c = (s.ctrVal c + 1) % 2 ^ 64)

/-- R361-R376. CP_OPEN within its limits opens one more empty sequence in PREFILL for its context, under a slot no open sequence has; CP_APPEND
adds its tokens to one layer; CP_SEAL takes the sequence to DECODE, or waits for the frame boundary that hands it to another context;
CP_STATUS changes no sequence; CP_REPLAY of a lost one cuts it back to the tokens its token names; CP_CLOSE ends it. Each ends OK. A handle
that is not open for the context completes PERMISSION. A missing metadata mirror is rebuilt on a DRAM tray of another group of the slice. It
rests on choices of the model in notes/assumptions/20.md, notes/assumptions/21.md, notes/assumptions/72.md. -/
def Obligations.CachePoolRequestsKeepTheirSequence : Prop :=
  (∀ (s : State) (id : Nat) (o : Op), s.runsOp id o 0x50 → s.poolTakes → (∀ p, s.lostCheck p = .ok) → coBad o.desc = false →
      s.resCheck o.ctx o.desc = .ok → coMax o.desc ≠ 0 →
      (s.tier.seqs.filter (fun q => q.owner == o.ctx)).length < s.ffld (quotaReg o.ctx 0x18) 0 16 → s.tier.seqs.length < 2 ^ 16 → o.ctx < 1024 →
      s.use o.ctx 1 + ((s.mirrorTrays (s.ctxSlice o.ctx) (coSeq o.desc o.ctx 0 0 0 []).metaPages []).take 2).length
        * (coSeq o.desc o.ctx 0 0 0 []).metaPages ≤ (s.frd (quotaReg o.ctx 4)).toNat →
      (s.svcPages o.ctx (coSeq o.desc o.ctx 0 0 0 []).metaPages).2.1 = .ok →
    ∃ t q, exec (.cpOpen id) s = .next t ∧ t.ended id .ok ∧ t.tier.seqs = s.tier.seqs ++ [q] ∧ q.owner = o.ctx ∧ q.phase = 1
      ∧ q.maxTokens = coMax o.desc ∧ (∀ n ∈ q.tokens, n = 0) ∧ (∀ r ∈ s.tier.seqs, r.slot ≠ q.slot) ∧ q.serial = s.tier.serial + 1
      ∧ only serviceParts ([0x22C, 0x280, 0x284] ++ dirRegs ++ useRegs) s t)
  ∧ (∀ (s : State) (id : Nat) (o : Op) (q : Seq) (ue : List Nat), s.runsOp id o 0x51 → s.poolTakes → (∀ p, s.lostCheck p = .ok) →
      s.cpSeq o = some q → q.handoff = none → s.cpBehind o = false →
      q.phase ≠ 3 → caLayer o.desc < q.layersN → caFirst o.desc = q.tokens.getD (caLayer o.desc) 0 → caBuf o.desc % 64 = 0 → o.ctx < 1024 →
      s.resCheck o.ctx o.desc = .ok → caCount o.desc ≠ 0 → caFirst o.desc + caCount o.desc ≤ q.maxTokens →
      s.mapCheck o.ctx false (caBuf o.desc) (caBytes q o.desc) = .ok → s.readCheck ue (caBuf o.desc) (caBytes q o.desc) = .ok →
      (∀ n, n = cdiv ((newBlocks q o.desc 0).length * (q.kb + q.vby)) (2 ^ 21) → n ≠ 0 → (s.svcPages o.ctx n).2.1 = .ok) →
    ∃ t, exec (.cpAppend id ue) s = .next t ∧ t.ended id .ok ∧ only serviceParts (dirRegs ++ useRegs) s t
      ∧ (t.cpSeq o).map (fun r => (r.phase, r.tokens)) =
          some (q.phase, (indexed q.tokens).map (fun p => if p.1 = caLayer o.desc then p.2 + caCount o.desc else p.2)))
  ∧ (∀ (s : State) (id : Nat) (o : Op) (q : Seq), s.settled → s.plainFor o.ctx (svRes o.desc) 64 → s.cpSeq o = some q → q.handoff = none →
      s.cpBehind o = false → s.resCheck o.ctx o.desc = .ok → o.ctx < 1024 →
    (s.runsOp id o 0x52 → q.phase = 1 → csHandoff o.desc = false →
      ∃ t, exec (.cpSeal id) s = .next t ∧ t.ended id .ok ∧ only (storeParts ++ [.ops, .sec]) dirRegs s t ∧ t.cpSeq o = some { q with phase := 2 })
    ∧ (s.runsOp id o 0x52 → q.phase = 1 → csHandoff o.desc = true → s.handoffCheck q (csTo o.desc) = .ok →
      ∃ t, exec (.cpSeal id) s = .next t ∧ (t.op id).map (·.phase) = some .boundary ∧ only [.tier, .ops, .sec] [] s t
        ∧ t.cpSeq o = some { q with handoff := some (csTo o.desc, o.id) })
    ∧ (s.runsOp id o 0x53 → q.phase ≠ 3 →
      ∃ t, exec (.cpStatus id) s = .next t ∧ t.ended id .ok ∧ only (storeParts ++ [.ops, .sec]) dirRegs s t ∧ t.tier.seqs = s.tier.seqs)
    ∧ (∀ n, s.runsOp id o 0x54 → q.phase = 3 → n = le (leBytes 16 (db o.desc 40 16)) 8 4 → n ≤ q.replayFrom →
        (crc32c ((leBytes 16 (db o.desc 40 16)).take 14)).toNat % 2 ^ 16 = le (leBytes 16 (db o.desc 40 16)) 14 2 →
        le (leBytes 16 (db o.desc 40 16)) 0 8 = db o.desc 16 8 → s.poolTakes → (s.cpRehome q).2 = .ok →
        (((s.cpRehome q).1.cpCut q n).1.cpPublish ((s.cpRehome q).1.cpCut q n).2 (List.range q.layersN)).2 = .ok →
      ∃ t, exec (.cpReplay id) s = .next t ∧ t.ended id .ok
        ∧ only serviceParts ([0x224, 0x280, 0x284, 0x288, 0x318] ++ dirRegs ++ useRegs ++ scrubRegs) s t
        ∧ (t.cpSeq o).map (fun r => (r.phase, r.tokens)) = some (1, q.tokens.map (min n)))
    ∧ (s.runsOp id o 0x55 →
      ∃ t, exec (.cpClose id) s = .next t ∧ t.ended id .ok ∧ t.cpSeq o = none
        ∧ only (storeParts ++ [.ops, .sec]) ([0x224, 0x280, 0x284, 0x318] ++ dirRegs ++ useRegs ++ scrubRegs) s t))
  ∧ (∀ (s : State) (id k : Nat) (o : Op) (c : Sys2Proof.Instr),
      (k, c) ∈ [(0x51, Sys2Proof.Instr.cpAppend id []), (0x52, .cpSeal id), (0x53, .cpStatus id), (0x54, .cpReplay id), (0x55, .cpClose id)] →
      s.runsOp id o k → s.cpSeq o = none → s.resCheck o.ctx o.desc = .ok → s.settled → s.plainFor o.ctx (svRes o.desc) 64 →
    ∃ t, exec c s = .next t ∧ t.ended id .permission ∧ t.tier.seqs = s.tier.seqs ∧ only serviceParts dirRegs s t)
  ∧ (∀ (s : State) (h y g : Nat) (q : Seq), s.tier.seqs.find? (fun q => q.handle == h) = some q → q.mirrors.length < 2 → q.owner < 1024 →
      s.trayGroup y = some g → s.groupKind g = 1 → s.groupSlice g = s.ctxSlice q.owner → (∀ l ∈ q.mirrors, s.trayGroup l ≠ some g) →
      s.unitUp (0x40 + y) = true → 32 * q.metaPages ≤ s.unitFree (0x40 + y) →
    ∃ t, exec (.mirrorRebuild h y) s = .next t ∧ only [.tier] ([0x22C, 0x28C] ++ useRegs) s t
      ∧ (t.tier.seqs.find? (fun q => q.handle == h)).map (·.mirrors) = some (q.mirrors ++ [y])
      ∧ (t.rd 0x28C).toNat = min 0xFFFFFFFF ((s.rd 0x28C).toNat + 1))

/-- R38, R385-R388, R390-R397. A unit that a write waits for is taken into its tray's write cache, and the commands that waited go ahead;
destaging programs the oldest dirty unit and leaves it clean. At a frame boundary folding, collection, wear levelling and read refresh empty
their stripe, when there is room and the copies verify, and every unit it held is still mapped. No byte of the pool changes. A die that
fails is out of its tray for good, with `DIE_FAILED` latched, and no stripe uses it any more; a unit of it that is rewritten, from a frame
boundary on, awaits rebuild no more. A secure discard leaves no copy of its page on the tray; once every tray is done the page's backing is
free, and it awaits discard no more. It rests on choices of the model in notes/assumptions/23.md. -/
def Obligations.FlashKeepsUnitsAndDropsDiscardedPages : Prop :=
  ((∀ (s : State) (l p u : Nat) (y : Tray), s.tray l = some y → s.unitHere l p u = true → s.trayWorks l = true → y.room p u = true →
    ∃ t z, exec (.writeCacheFill l p u) s = .next t ∧ only [.flash, .pending] [] s t ∧ t.tray l = some z
      ∧ (∃ c ∈ z.cache, c.page = p ∧ c.unit = u ∧ ((∃ w ∈ y.waits, w.page = p ∧ w.unit = u) → c.dirty = true))
      ∧ (∀ c ∈ y.cache, c.dirty = true → c ∈ z.cache) ∧ (∀ w ∈ z.waits, ¬(w.page = p ∧ w.unit = u))
      ∧ t.pending = (s.flash.held.filter (fun h => h.1 == l && h.2.1 == p && h.2.2.1 == u)).map (·.2.2.2) ++ s.pending)
  ∧ (∀ (s : State) (l : Nat) (y z : Tray) (c : CUnit), s.tray l = some y → y.cache.find? (·.dirty) = some c →
      s.unitHere l c.page c.unit = true → s.trayWorks l = true →
      (s.groupFor y true c.page c.unit).orElse (fun _ => s.groupFor y false c.page c.unit) = some z →
    ∃ t, exec (.destage l) s = .next t ∧ only [.flash, .tier] (trayRegs l) s t
      ∧ t.tray l = some (({ z with cache := z.cache.map (fun k => if k == c then { k with dirty := false } else k) } : Tray).settle).1
      ∧ z.cache = y.cache
      ∧ t.rd64 (trayReg l 0x20) = min (2 ^ 64 - 1) (s.rd64 (trayReg l 0x20) + 1)
      ∧ t.rd64 (trayReg l 0x28) = min (2 ^ 64 - 1) (s.rd64 (trayReg l 0x28) + 1))
  ∧ (∀ (s : State) (l : Nat) (b : Bool) (y : Tray) (v : FStripe), s.tray l = some y → s.trayWorks l = true → s.atBoundary = true → y.numbered →
      s.movable y v b →
    (y.stripes.find? (fun v => v.buffer && v.leaving.isNone) = some v →
      ∃ t, exec (.folding l b) s = .next t ∧ only [.flash, .tier] (trayRegs l) s t ∧ t.emptied l v)
    ∧ (∀ g, g < y.groups → y.minFree g < (s.frd 0x30C).toNat → s.discardFirst y = false → s.victim y g = some v →
      ∃ t, exec (.garbageCollection l g b) s = .next t ∧ only [.flash, .tier] (trayRegs l) s t ∧ t.emptied l v)
    ∧ (∀ d, (y.dieWears d).foldl min ((y.dieWears d).headD 0) + (s.frd 0x310).toNat < (y.dieWears d).foldl max 0 →
        y.stripes.find? (fun v => v.group == d / 16 && v.leaving.isNone
          && (v.blocks.getD (d % 16) none).any (fun k => k.erases == (y.dieWears d).foldl min ((y.dieWears d).headD 0))) = some v →
      ∃ t, exec (.wearLevelling l d b) s = .next t ∧ only [.flash, .tier] (trayRegs l) s t ∧ t.emptied l v)
    ∧ (∀ n, y.stripe n = some v → v.leaving = none → (∃ k, some k ∈ v.blocks ∧ 100000 ≤ k.reads) →
      ∃ t, exec (.readRefresh l n b) s = .next t ∧ only [.flash, .tier] (trayRegs l) s t ∧ t.emptied l v)))
  ∧ ((∀ (s : State) (l d : Nat) (y : Tray), s.tray l = some y → d < y.dies → y.failed = [] → y.rebuild = [] → (∀ g ∈ s.tier.pages, g.lost = false) →
      (∀ x ∈ s.tierCtxs, x < 1024) →
      (offered y.dies (trayData y.blocks) (s.mainPages y.pSlc) - offered (y.dies - 1) (trayData y.blocks) (s.mainPages y.pSlc)) * 32
        ≤ s.unitFree (0x40 + l) →
    ∃ t z, exec (.flashDieFailure l d) s = .next t ∧ only [.flash, .tier] (trayRegs l ++ useRegs) s t ∧ t.tray l = some z ∧ z.failed = [d]
      ∧ z.rebuild = y.unitsOn d ∧ (∀ v ∈ z.stripes, v.group = d / 16 → v.blocks.getD (d % 16) none = none) ∧ t.bit 0x314 1 = true
      ∧ t.tier.pages = s.tier.pages)
  ∧ (∀ (s : State) (l p u : Nat) (y z : Tray) (v : FStripe) (c : FCopy) (b : List Host.Cell) (at_ : Nat × Nat), s.tray l = some y →
      (p, u) ∈ y.rebuild → s.trayWorks l = true → s.atBoundary = true → y.find p u = some (v, c) → v.rebuilt c = some b →
      y.program (s.mainPages y.pSlc) v.group false c.page c.unit b = some (z, at_) →
    ∃ t, exec (.flashDieRebuild l p u true) s = .next t ∧ only [.flash, .tier] (trayRegs l) s t
      ∧ t.tray l = some (({ z with rebuild := z.rebuild.erase (p, u) } : Tray).settle).1 ∧ z.rebuild = y.rebuild
      ∧ (t.rd (trayReg l 0x38)).toNat = min 0xFFFFFFFF ((s.rd (trayReg l 0x38)).toNat + 1))
  ∧ (∀ (s : State) (l p : Nat) (y : Tray), s.tray l = some y → s.toDiscard y p = true → s.atBoundary = true → (∀ g ∈ s.tier.gone, g.page ≠ p) →
      y.numbered → (s.discardAll y p true true).2.2 = true →
    ∃ t z, exec (.secureDiscard l p true true) s = .next t ∧ only [.flash, .tier] (trayRegs l) s t ∧ t.tray l = some z ∧ p ∈ z.discards
      ∧ (∀ v ∈ z.stripes, ∀ c ∈ v.copies, c.page ≠ p) ∧ (∀ c ∈ z.cache, c.page ≠ p))
  ∧ (∀ (s : State) (l p : Nat) (r : Scrub), s.tier.scrubs.find? (fun r => r.page == p && r.tier == 2) = some r → r.ctx < 1024 →
      (s.chunkUnits { tier := r.tier, unit := r.unit, group := r.group } p).contains (0x40 + l) = true →
      (∀ u ∈ s.chunkUnits { tier := r.tier, unit := r.unit, group := r.group } p, ∀ y, s.tray (u - 0x40) = some y → p ∈ y.discards) →
    ∃ t, exec (.secureDiscardComplete l p) s = .next t ∧ only [.flash, .tier] (0x318 :: scrubRegs ++ useRegs) s t
      ∧ t.tier.scrubs = s.tier.scrubs.erase r ∧ t.rd 0x318 = BitVec.ofNat 32 ((s.rd 0x318).toNat - 1)
      ∧ ∀ y ∈ t.flash.trays, p ∉ y.discards))

/-- R409, R416, R419, R427-R431, R434. A request for a line that no cache holds, accepted at a free home, is served from memory at once: RdCur
changes nothing, RdS grants E, RdOwn and Upgrade grant M, and each of these three records the requester alone; WrLine and WrPart write; an
atomic leaves its new value and returns the old; a combined ADD adds every operand and returns to each member the value before it. A request
that fails its checks changes no copy, and one of a lost page faults its context. An entry with an uncorrectable error sets `DIR_UE`, and
every agent of the domain is snooped for its line. It rests on choices of the model in notes/assumptions/34.md. -/
def Obligations.HomesServeLinesThatNoCacheHolds : Prop :=
  (∀ (s : State) (a : Agent) (x l : Nat) (ue : Bool), s.homeTakes { line := l, agent := a, ctx := x, kind := .rdCur, via := .agent, dirUe := ue } →
    ∃ t, exec (.rdCur a x l ue) s = .next t ∧ only [.out, .tier] [] s t ∧ t.out = .reply a l 0 (some (s.lineMem l)) .ok :: s.out)
  ∧ (∀ (s : State) (a : Agent) (x l g : Nat) (ue : Bool) (c : Sys2Proof.Instr) (k : ReqKind),
      (c, k, g) ∈ [(Sys2Proof.Instr.rdS a x l ue, ReqKind.rdS, 2), (.rdOwn a x l ue, .rdOwn, 3), (.upgrade a x l, .upgrade, 3)] →
      s.tracks (s.lineDom l) a = true → s.homeTakes { line := l, agent := a, ctx := x, kind := k, via := .agent, dirUe := ue } →
    ∃ t, exec c s = .next t ∧ only [.coh, .out, .tier] dirRegs s t ∧ t.out = .reply a l g (some (s.lineMem l)) .ok :: s.out
      ∧ t.dirEnt l = some { line := l, dom := s.lineDom l, st := .em, holders := [a], alloc := s.coh.clock }
      ∧ (∀ m, m ≠ l → t.dirEnt m = s.dirEnt m)
      ∧ (∀ n, a = .core n → t.coh.flight = s.coh.flight ++ [{ core := n, line := l, state := g, data := some (s.lineMem l) }]))
  ∧ (∀ (s : State) (a : Agent) (x p : Nat) (d : List Byte) (ue : Bool) (c : Sys2Proof.Instr) (k : ReqKind),
      (c, k) = (Sys2Proof.Instr.wrPart a x p d, ReqKind.wrPart (p % 64) d)
        ∨ (p % 64 = 0 ∧ (c, k) = (Sys2Proof.Instr.wrLine a x (p / 64) d ue, ReqKind.wrLine d)) →
      s.homeTakes { line := p / 64, agent := a, ctx := x, kind := k, via := .agent, dirUe := ue } → s.settled → s.plainFor x p d.length →
    ∃ t, exec c s = .next t ∧ only storeParts (dirReg (homeSlice (p / 64)) 0x1C :: dirRegs) s t ∧ t.holds s p d
      ∧ t.out.head? = some (.reply a (p / 64) 0 none .ok))
  ∧ (∀ (s : State) (a : Agent) (x p : Nat) (op : Atomic),
      s.homeTakes { line := p / 64, agent := a, ctx := x, kind := .atom (p % 64) op, via := .agent } → s.settled → s.plainFor x p op.size →
    ∃ t, exec (.homeAtomic a x p op) s = .next t
      ∧ only storeParts (dirReg (homeSlice (p / 64)) 0x1C :: dirReg (homeSlice (p / 64)) 0x20 :: dirRegs) s t
      ∧ t.holds s p (leBytes op.size (atomNew op (leNat (s.bytes p op.size))))
      ∧ (op.posted = false → t.out.head? = some (.value a (leNat (s.bytes p op.size)) .ok)))
  ∧ (∀ (s : State) (x p z : Nat) (m : AddMember) (ms : List AddMember),
      s.homeTakes { line := p / 64, agent := m.agent, ctx := x, kind := .cadd (p % 64) z (m :: ms), via := .agent } → s.settled →
      s.plainFor x p z →
    ∃ t, exec (.combinedAdd x p z (m :: ms)) s = .next t
      ∧ only storeParts (dirReg (homeSlice (p / 64)) 0x1C :: dirReg (homeSlice (p / 64)) 0x20 :: dirRegs) s t
      ∧ t.holds s p (leBytes z ((leNat (s.bytes p z) + ((m :: ms).map (·.operand)).sum) % 2 ^ (8 * z)))
      ∧ ∀ i n, (m :: ms)[i]? = some n → n.posted = false →
          Out.value n.agent ((leNat (s.bytes p z) + (((m :: ms).take i).map (·.operand)).sum) % 2 ^ (8 * z)) .ok ∈ t.out)
  ∧ (∀ (s : State) (a : Agent) (x l : Nat) (d : List Byte) (ue : Bool) (c : Sys2Proof.Instr) (k : ReqKind) (st : Status),
      (c, k) ∈ [(Sys2Proof.Instr.rdCur a x l ue, ReqKind.rdCur), (.rdS a x l ue, .rdS), (.rdOwn a x l ue, .rdOwn), (.upgrade a x l, .upgrade),
                (.wrLine a x l d ue, .wrLine d)] →
      s.serves = true → s.homeFree l → st = s.reqCheck { line := l, agent := a, ctx := x, kind := k, via := .agent, dirUe := ue } → st ≠ .ok →
      s.needsWay { line := l, agent := a, ctx := x, kind := k, via := .agent, dirUe := ue } = false →
    ∃ t, exec c s = .next t ∧ t.coh.dir = s.coh.dir ∧ t.out.head? = some (.reply a l 0 none st)
      ∧ (st ≠ .mediaUncorrectable → only [.coh, .out] [] s t ∧ t.out = .reply a l 0 none st :: s.out)
      ∧ (st = .mediaUncorrectable → only [.coh, .out, .ctx, .health, .link]
            (dirReg (homeSlice l) 0x18 :: domReg (s.lineDom l) 0x10 :: errRegs) s t ∧ ∃ f ∈ t.ctx.faults, f.ctx = x ∧ f.reason = 2))
  ∧ (∀ (s : State) (a : Agent) (x l : Nat) (d : List Byte) (c : Sys2Proof.Instr) (k : ReqKind) (e : DirEnt),
      (c, k) ∈ [(Sys2Proof.Instr.rdCur a x l true, ReqKind.rdCur), (.rdS a x l true, .rdS), (.rdOwn a x l true, .rdOwn),
                (.wrLine a x l d true, .wrLine d)] →
      s.serves = true → s.homeFree l → s.reqCheck { line := l, agent := a, ctx := x, kind := k, via := .agent, dirUe := true } = .ok →
      s.lineDom l ≠ 0 → s.dirEnt l = some e → e.st ≠ .h → s.domAgents (s.lineDom l) ≠ [] →
    ∃ t u, exec c s = .next t ∧ only [.coh, .out] (domReg (s.lineDom l) 0x10 :: dirRegs) s t ∧ t.bit (domReg (s.lineDom l) 0x10) 3 = true
      ∧ t.dirEnt l = none ∧ t.coh.txns = [u] ∧ u.req.line = l ∧ u.waits = s.domAgents (s.lineDom l)
      ∧ ∀ b ∈ s.domAgents (s.lineDom l), Out.snoop b 2 l ∈ t.out)

/-- R413, R416, R423-R426, R428. A snoop answered RspI or BIRsp takes the copy out of the directory and the requester is served, with the data
an owner gave if it gave any; what a host gives back for a line that a unit has written keeps the written bytes; RspS leaves a sharer, or an
owner in O when its data are dirty. A stale response is discarded; a recorded owner's RspI without data waits for its write-back. Evictions
take the holder out, dirty data go to memory, and one that crosses a snoop stands for its response. A host silent for too long goes FAILED
and its owned lines are poisoned. RECALL ends when the last recalled line is back. It rests on choices of the model in
notes/assumptions/35.md. -/
def Obligations.SnoopsAndEvictionsEndCopies : Prop :=
  (∀ (s : State) (c l : Nat) (r : Snoop) (u : Txn), s.coh.rsps.find? (fun r => r.core == c && r.line == l && r.kind == 0) = some r →
    (r.stale = true → ∃ t, exec (.rspI (.core c) l) s = .next t ∧ only [.coh] [] s t ∧ t.coh.txns = s.coh.txns ∧ t.coh.dir = s.coh.dir)
    ∧ (r.stale = false → s.awaitsOnly u l (.core c) → (s.dirEnt l).any (fun e => e.owner == some (.core c)) = true → u.data = none →
      ∃ t, exec (.rspI (.core c) l) s = .next t ∧ only [.coh] [] s t ∧ t.coh.dir = s.coh.dir
        ∧ t.coh.txns = [{ u with waits := [], awaitWb := [.core c] }])
    ∧ (r.stale = false → s.awaitsOnly u l (.core c) → (s.dirEnt l).any (fun e => e.owner == some (.core c)) = false ∨ u.data ≠ none →
        u.req.dirUe = false → s.poison.contains l = false → u.req.kind = .rdOwn → s.plainSpan (64 * l) 64 = true →
      ∃ t, exec (.rspI (.core c) l) s = .next t ∧ only storeParts dirRegs s t ∧ t.coh.txns = []
        ∧ t.out.head? = some (.reply u.req.agent l 3 (some (u.data.getD (s.lineMem l))) .ok)
        ∧ (t.dirEnt l).map (fun e => (e.st, e.holders)) = some (.em, [u.req.agent])))
  ∧ (∀ (s : State) (c l : Nat) (r : Snoop) (u : Txn) (e : DirEnt),
      s.coh.rsps.find? (fun r => r.core == c && r.line == l && r.kind == 1) = some r → r.stale = false → s.awaitsOnly u l (.core c) →
      u.req.kind = .rdS → u.shared = true → s.dirEnt l = some e → .core c ∈ e.holders → u.req.agent ≠ .core c → s.poison.contains l = false →
      s.plainSpan (64 * l) 64 = true →
    ∃ t, exec (.rspS (.core c) l) s = .next t ∧ only storeParts dirRegs s t ∧ t.coh.txns = []
      ∧ t.out.head? = some (.reply u.req.agent l 1 (some (u.data.getD (s.lineMem l))) .ok)
      ∧ t.dirEnt l = some { e with st := if u.dirty then .o else .s, holders := e.holders.filter (· != u.req.agent) ++ [u.req.agent] })
  ∧ (∀ (s : State) (h l n : Nat) (d : Option (List Byte)) (u : Txn), s.awaitsOnly u l (.host h) → u.req.kind = .rdOwn → u.req.agent = .core n →
      u.data = none → s.poison.contains l = false → (∀ b, d = some b → b.length = 64) →
      (∀ i ∈ s.coh.invals, i.line ≠ l) → s.plainSpan (64 * l) 64 = true →
    ∃ t, exec (.biRsp h l d) s = .next t ∧ only (.health :: storeParts) dirRegs s t ∧ t.coh.txns = []
      ∧ t.out.head? = some (.reply (.core n) l 3 (some (d.getD (s.lineMem l))) .ok) ∧ t.lineMem l = d.getD (s.lineMem l)
      ∧ (∀ m, m ≠ l → t.lineMem m = s.lineMem m) ∧ (t.dirEnt l).map (fun e => (e.st, e.holders)) = some (.em, [.core n]))
  ∧ (∀ (s : State) (h l : Nat) (d : Option (List Byte)) (i : Inval), s.coh.invals.find? (fun i => i.host == h && i.line == l) = some i →
      s.coh.waitq = [] → s.plainSpan (64 * l) 64 = true → (∀ b, d = some b → b.length = 64) →
    ∃ t, exec (.biRsp h l d) s = .next t ∧ only (.health :: storeParts) (dirReg (homeSlice l) 0x1C :: dirRegs) s t
      ∧ t.coh.invals = s.coh.invals.erase i ∧ t.coh.txns = s.coh.txns ∧ (∀ m, m ≠ l → t.lineMem m = s.lineMem m)
      ∧ t.lineMem l = d.elim (s.lineMem l) (fun b => i.writes.foldl (fun old w => overlay l w.1 w.2 old) b))
  ∧ (∀ (s : State) (a : Agent) (l : Nat) (d : List Byte), d.length = 64 → (∀ u ∈ s.coh.txns, u.req.line ≠ l) →
      s.plainSpan (64 * l) 64 = true →
    ((∃ n, a = .core n ∧ s.coh.evicting.find? (fun e => e.1 == n && e.2.1 == l) = some (n, l, some d))
        ∨ (∃ h, a = .host h ∧ (s.dirEnt l).any (fun e => e.holders.contains a) = true) →
      ∃ t, exec (.dirtyEvict a l d) s = .next t ∧ only storeParts (dirReg (homeSlice l) 0x1C :: dirRegs) s t ∧ t.lineMem l = d
        ∧ (∀ m, m ≠ l → t.lineMem m = s.lineMem m) ∧ ((s.dirEnt l).all (fun e => e.holders.Nodup) = true → (t.dirEnt l).all (fun e => !e.holders.contains a) = true))
    ∧ ((∃ n, a = .core n ∧ s.coh.evicting.find? (fun e => e.1 == n && e.2.1 == l) = some (n, l, none))
        ∨ (∃ h, a = .host h ∧ (s.dirEnt l).any (fun e => e.holders.contains a) = true) →
      ∃ t, exec (.cleanEvict a l) s = .next t ∧ only [.coh] dirRegs s t
        ∧ ((s.dirEnt l).all (fun e => e.holders.Nodup) = true → (t.dirEnt l).all (fun e => !e.holders.contains a) = true)))
  ∧ (∀ (s : State) (n l h : Nat) (d : List Byte) (u : Txn) (e : DirEnt), s.awaitsOnly u l (.core n) → u.req.kind = .rdS → u.req.agent = .host h → u.shared = true →
      u.data = none → u.dirty = false → s.coh.evicting.find? (fun e => e.1 == n && e.2.1 == l) = some (n, l, some d) → d.length = 64 →
      s.dirEnt l = some e → e.holders = [.core n] → e.st ≠ .h → s.plainSpan (64 * l) 64 = true →
    ∃ t, exec (.dirtyEvict (.core n) l d) s = .next t
      ∧ only storeParts (dirReg (homeSlice l) 0x1C :: dirReg (homeSlice l) 0x10 :: dirRegs) s t ∧ t.coh.txns = []
      ∧ t.out.head? = some (.reply (.host h) l 1 (some d) .ok) ∧ t.lineMem l = d ∧ (t.dirEnt l).map (fun e => (e.st, e.holders)) = some (.s, [.host h])
      ∧ (t.rd (dirReg (homeSlice l) 0x10)).toNat = min 0xFFFFFFFF ((s.rd (dirReg (homeSlice l) 0x10)).toNat + 1))
  ∧ (∀ (s : State) (h l : Nat) (u : Txn) (e : DirEnt), h < 48 → s.bit 0x72C 0 = false → s.awaitsOnly u l (.host h) → u.req.kind = .rdCur → u.data = none →
      s.coh.dir = [e] → e.line = l → e.st = .em → e.holders = [.host h] → e.dom = s.lineDom l → e.dom < 4 →
      (∀ i ∈ s.coh.invals, i.host ≠ h) → (∀ q ∈ s.coh.curs, q.host ≠ h) →
    ∃ t, exec (.biSnpTimeout h) s = .next t ∧ t.fld (hostBlock h) 0 3 = 3 ∧ t.bit (hostBlock h + 0xC) 2 = true ∧ t.poison.contains l = true
      ∧ (∀ f ∈ t.coh.dir, .host h ∉ f.holders) ∧ t.coh.txns = [] ∧ Out.reply u.req.agent l 0 none .mediaUncorrectable ∈ t.out
      ∧ only [.poison, .coh, .out, .link, .ctx, .health]
          (hostRegs h ++ errRegs ++ dirRegs ++ [dirReg (homeSlice l) 0x14, dirReg (homeSlice l) 0x18, domReg e.dom 0x10]) s t)
  ∧ (∀ (s : State) (d : Nat), s.bit (domReg d 0xC) 5 = true → s.recalling d = false →
    ∃ t, exec (.recallDone d) s = .next t ∧ onlyRegs [domReg d 0xC] s t ∧ t.bit (domReg d 0xC) 5 = false)

/-- R415, R423. A snooped service core changes its line's state by the table, supplies from M, O and E, and answers RspS while it keeps a copy,
else RspI; an evicted line leaves the cache, dirty from M and O. A local access that hits changes at most E to M and stores; one that misses
asks for the line, and a store to S or O for its upgrade. A grant sets the state that the home granted, and the store it waited with is
done. -/
def Obligations.ServiceCoresFollowTheirStateTable : Prop :=
  (∀ (s : State) (c l k : Nat) (cmd : Sys2Proof.Instr) (p : Snoop), (k, cmd) ∈ [(0, Sys2Proof.Instr.snpCur c l), (1, .snpData c l), (2, .snpInv c l)] →
      s.coh.snoops.find? (fun p => p.core == c && p.line == l && p.kind == k) = some p → s.coh.flight.any (fun f => f.core == c && f.line == l) = false →
    (s.cacheLine c l = none → ∃ t, exec cmd s = .next t ∧ only [.coh, .out] [] s t ∧ t.out = .rsp c l 0 :: s.out
        ∧ t.coh.rsps = s.coh.rsps ++ [{ core := c, line := l, kind := 0, stale := p.stale }] ∧ t.coh.caches = s.coh.caches)
    ∧ (∀ x, s.cacheLine c l = some x → ∃ t, exec cmd s = .next t ∧ only [.coh, .out] [] s t
        ∧ t.out = .rsp c l (if k = 2 then 0 else 1) :: (if x.st = .s then s.out else .supply c l x.data :: s.out)
        ∧ t.coh.rsps = s.coh.rsps ++ [{ core := c, line := l, kind := if k = 2 then 0 else 1, stale := p.stale }]
        ∧ (k = 2 → t.cacheLine c l = none) ∧ (k = 0 → (t.cacheLine c l).map (·.st) = some x.st)
        ∧ (k = 1 → (t.cacheLine c l).map (·.st) = some (if x.st = .m ∨ x.st = .o then .o else .s))))
  ∧ (∀ (s : State) (c l : Nat) (x : CacheLine), s.cacheLine c l = some x → s.coh.pending.any (fun p => p.1 == c && p.2.1 == l) = false →
    ∃ t d, exec (.serviceCoreEviction c l) s = .next t ∧ only [.coh, .out] [] s t ∧ t.cacheLine c l = none
      ∧ d = (if x.st = .m ∨ x.st = .o then some x.data else none) ∧ t.out = .evict c l d :: s.out ∧ t.coh.evicting = s.coh.evicting ++ [(c, l, d)])
  ∧ (∀ (s : State) (c x l : Nat) (w : Option (List Byte)), s.coreRuns c = true → s.lineDom l ≠ 0 →
      s.coh.pending.any (fun p => p.1 == c && p.2.1 == l) = false → s.sec.steps.contains (256 + c) = false →
      ((s.ctxCheck x).worst (s.pageCheck x (l / 2 ^ 15) w.isSome false)).worst (s.lostCheck (l / 2 ^ 15)) = .ok →
    ∃ t, exec (.serviceCoreAccess c x l w) s = .next t ∧ only [.coh, .out] [] s t
      ∧ (s.cacheLine c l = none → t.coh.caches = s.coh.caches ∧ t.out = .request c l (if w = none then 0 else 1) :: s.out
          ∧ t.coh.pending = s.coh.pending ++ [(c, l, w)])
      ∧ (∀ y, s.cacheLine c l = some y → w = none → t = s)
      ∧ (∀ y d, s.cacheLine c l = some y → w = some d → y.st = .m ∨ y.st = .e →
          t.cacheLine c l = some { core := c, line := l, st := .m, data := d } ∧ t.out = s.out)
      ∧ (∀ y d, s.cacheLine c l = some y → w = some d → y.st = .o ∨ y.st = .s →
          t.coh.caches = s.coh.caches ∧ t.out = .request c l 2 :: s.out ∧ t.coh.pending = s.coh.pending ++ [(c, l, w)]))
  ∧ (∀ (s : State) (c l g : Nat) (d : Option (List Byte)) (f : Flight), 1 ≤ g → g ≤ 3 →
      s.coh.flight.find? (fun f => f.core == c && f.line == l && f.state == g && f.data == d) = some f →
    ∃ t y, exec (.grant c l g d) s = .next t ∧ only [.coh] [] s t ∧ t.cacheLine c l = some y ∧ t.coh.flight = s.coh.flight.erase f
      ∧ (∀ p ∈ t.coh.pending, ¬ (p.1 = c ∧ p.2.1 = l))
      ∧ ((s.coh.pending.find? (fun p => p.1 == c && p.2.1 == l)).bind (·.2.2) = none → (∀ b, d = some b → y.data = b)
          ∧ y.st = (if g = 1 then .s else if g = 2 then .e else .m))
      ∧ (∀ b, (s.coh.pending.find? (fun p => p.1 == c && p.2.1 == l)).bind (·.2.2) = some b → 2 ≤ g → y.data = b ∧ y.st = .m))

/-- R478, R479, R485, R506. A command of `CTX_CMD` that its context's state, its slice and its target generation allow awaits the next boundary
with that target; DEFINE from FREE, OCCULT and RELEASE from LIVE and FAULTED; from generation 0x3F_FFFF the last two await it without a
target. Any other is refused. A context under Occultation has its held messages released. It rests on choices of the model in
notes/assumptions/43.md. -/
def Obligations.ContextCommandsAwaitTheirBoundary : Prop :=
  (∀ (s : State) (p x sl op : Nat) (c : Sys2Proof.Instr), (op, c) ∈ [(1, Sys2Proof.Instr.define p x sl), (2, .occult p x), (3, .release p x)] →
      s.accepts p (ctxReg x 8) = true → s.ctx.cmds.any (fun k => k.ctx == x) = false →
    ((if op = 1 then s.ctxState x = 0 ∧ s.sliceValid sl = true ∧ s.brokenDomains x sl = [] else s.ctxState x = 1 ∨ s.ctxState x = 2) →
        s.ctxGen x < s.ctxTarget x → s.ctxTarget x ≤ 0x3FFFFF →
      ∃ t, exec c s = .next t ∧ only [.ctx] [] s t
        ∧ t.ctx.cmds = s.ctx.cmds ++ [{ ctx := x, op := op, slice := if op = 1 then sl else 0, target := some (s.ctxTarget x) }])
    ∧ (op ≠ 1 → s.ctxState x = 1 ∨ s.ctxState x = 2 → s.ctxGen x = 0x3FFFFF →
      ∃ t, exec c s = .next t ∧ only [.ctx] [] s t ∧ t.ctx.cmds = s.ctx.cmds ++ [{ ctx := x, op := op, slice := 0, target := none }])
    ∧ ((if op = 1 then s.ctxState x ≠ 0 ∨ s.sliceValid sl = false ∨ s.ctxTarget x ≤ s.ctxGen x ∨ 0x3FFFFF < s.ctxTarget x
        else s.ctxState x ≠ 1 ∧ s.ctxState x ≠ 2) →
      ∃ t, exec c s = .next t ∧ onlyRegs [ctxReg x 0x18] s t ∧ t.rd (ctxReg x 0x18) = s.rd (ctxReg x 0x18) ||| 4))
  ∧ (∀ (s : State) (l x : Nat),
    (s.ready = true → s.ctxState x = 3 → (∀ r ∈ s.link.replay, r.link = l → r.msg.ctx = x → r.sent = true → r.retries < s.e2eRetry) →
      ∃ t, exec (.replayStoreRelease l x) s = .next t ∧ only [.link] [linkBlock l + 0x34] s t
        ∧ t.link.replay = s.link.replay.filter (fun r => !(r.link == l && r.msg.ctx == x)))
    ∧ (s.ctxState x ≠ 3 → exec (.replayStoreRelease l x) s = .next s))

/-- R509-R511. SEAL in Factory burns its fuse, and the state does not change before the next start; MAINT_ENTER in Sealed begins an entry of
Maintenance; each needs `CONFIRM` 0xA5C3, and another command is discarded with `BAD_WRITE`. A debug level between Closed and Observe is
kept for the boundary; Intrusive is refused in Sealed, and no level is lowered from Intrusive. It rests on choices of the model in
notes/assumptions/56.md. -/
def Obligations.SecurityStateMovesOneWay : Prop :=
  (∀ (s : State) (p cf : Nat), s.accepts p 0x704 = true →
    (cf = 0xA5C3 → s.secState = 0 → ∃ t, exec (.seal p cf) s = .next t ∧ only [.sec] [] s t ∧ t.sec = { s.sec with fuseSealed := true })
    ∧ (cf = 0xA5C3 → s.secState = 1 → s.sec.entering = none →
      ∃ t, exec (.maintEnter p cf) s = .next t ∧ only [.sec] [] s t ∧ t.sec = { s.sec with entering := some 4 })
    ∧ (∀ c st, (c, st) ∈ [(Sys2Proof.Instr.seal p cf, 0), (.maintEnter p cf, 1)] → cf ≠ 0xA5C3 ∨ s.secState ≠ st →
      ∃ t, exec c s = .next t ∧ onlyRegs [0x718] s t ∧ t.rd 0x718 = s.rd 0x718 ||| 0x40))
  ∧ (∀ (s : State) (p : Nat) (v : Word), s.accepts p 0x720 = true →
    (nbits v.toNat 0 2 ≤ 1 → s.dbgLevel ≠ 2 → s.sec.entering.any (· % 10 == 2) = false →
      ∃ t, exec (.debugLevelRequest p v) s = .next t ∧ onlyRegs [0x720] s t ∧ t.rd 0x720 = v &&& 3)
    ∧ (nbits v.toNat 0 2 = 2 → s.secState ≠ 1 → s.dbgLevel ≠ 2 → s.sec.entering = none →
      ∃ t, exec (.debugLevelRequest p v) s = .next t ∧ only [.sec] [0x720] s t ∧ t.rd 0x720 = v &&& 3 ∧ t.sec = { s.sec with entering := some 2 })
    ∧ (nbits v.toNat 0 2 = 2 ∧ s.secState = 1 ∨ nbits v.toNat 0 2 < 2 ∧ s.dbgLevel = 2 →
      ∃ t, exec (.debugLevelRequest p v) s = .next t ∧ onlyRegs [0x718] s t ∧ t.rd 0x718 = s.rd 0x718 ||| 0x40))

/-- R498, R500-R503. Each new attestation key raises `SEC_ATT_SERIAL` and takes one identity index for its certificate; without an index left
there is none. GET_IDENTITY answers the identity key, GET_ATT_KEY the certificate, GET_REPORT a report signed with the next index of the
key, whose last signature ends it; without a certified key the last two answer BUSY, in Retain every command answers POWER, malformed ones
MALFORMED. It rests on choices of the model in notes/assumptions/56.md. -/
def Obligations.AttestationAnswersWithItsKeys : Prop :=
  (∀ (s : State), s.pwr.phase ≠ .dark → s.pwr.state ≠ 2 → s.sec.attReady = false →
    (s.sec.idCounter < 1048576 →
      (∃ t, exec (.attestationKeyMade true) s = .next t ∧ only [.sec, .alm] [0x70C, 0x710, 0x714, 0x718] s t ∧ t.rd 0x710 = s.rd 0x710 + 1 ∧ t.rd 0x714 = 0
        ∧ t.sec = { s.sec with idCounter := s.sec.idCounter + 1, attReady := true, certMsg := t.certMessage,
                               certSig := Config.xmssSign Config.idSeed 20 s.sec.idCounter t.certMessage })
      ∧ (∃ t, exec (.attestationKeyMade false) s = .next t ∧ only [.sec, .alm, .freeCtr] [0x70C, 0x710, 0x714, 0x718] s t
        ∧ t.sec = { s.sec with idCounter := s.sec.idCounter + 1 }))
    ∧ (∀ b, 1048576 ≤ s.sec.idCounter →
      ∃ t, exec (.attestationKeyMade b) s = .next t ∧ onlyRegs [0x710, 0x714, 0x718] s t ∧ t.rd 0x718 = s.rd 0x718 ||| 8))
  ∧ (∀ (s : State) (i : Bool) (p : Nat), s.pwr.phase ≠ .dark → i = true ∨ (s.hostUp p = true ∧ s.owner p = true) →
    (s.pwr.state = 2 → ∀ b n, ∀ c ∈ [Sys2Proof.Instr.getIdentity i p b, .getAttKey i p b, .getReport i p n],
      ∃ t, exec c s = .next t ∧ only [.out] [] s t ∧ t.out = .mctp i p 2 [] :: s.out)
    ∧ (s.pwr.state ≠ 2 →
      (∀ n, n.length ≠ 32 → ∀ c ∈ [Sys2Proof.Instr.getIdentity i p false, .getAttKey i p false, .getReport i p n],
        ∃ t, exec c s = .next t ∧ only [.out] [] s t ∧ t.out = .mctp i p 4 [] :: s.out)
      ∧ (∃ t, exec (.getIdentity i p true) s = .next t ∧ only [.out] [] s t
        ∧ t.out = .mctp i p 0 (Config.xmssPublic Config.idSeed 20 ++ modSerial ++ leBytes 4 0x4800) :: s.out)
      ∧ (s.sec.attReady = true → ∃ t, exec (.getAttKey i p true) s = .next t ∧ only [.out] [] s t
        ∧ t.out = .mctp i p 0 (s.sec.certMsg ++ s.sec.certSig) :: s.out)
      ∧ (s.sec.attReady = false → s.sec.idCounter < 1048576 → ∀ n, n.length = 32 → ∀ c ∈ [Sys2Proof.Instr.getAttKey i p true, .getReport i p n],
        ∃ t, exec c s = .next t ∧ only [.out] [] s t ∧ t.out = .mctp i p 1 [] :: s.out)
      ∧ (∀ n, s.sec.attReady = true → n.length = 32 → (s.rd 0x714).toNat < 65536 →
        ∃ t, exec (.getReport i p n) s = .next t ∧ only [.out, .sec] [0x714] s t ∧ t.rd 0x714 = s.rd 0x714 + 1
          ∧ t.out = .mctp i p 0 (s.report n ++ Config.xmssSign s.attSeed 16 (s.rd 0x714).toNat (s.report n)) :: s.out
          ∧ t.sec = { s.sec with attReady := decide ((s.rd 0x714).toNat ≠ 65535) })))

/-- R519, R520, R522, R534, R536, R543, R547. FAULT_CTX faults its context with reason 7 at the next boundary; ABORT_CTX of a LIVE or FAULTED
context starts an abort with reason 8 and its tag, and of another does nothing. DIE_RESET and RETRAIN_STACK with `CONFIRM` 0xC3 await the
next boundary, MODULE_RESET starts over with cause 1; with another `CONFIRM` each is discarded. (That `UNIT` of a die reset is 1 to 3 is the
model's reading.) An admit entry armed anew waits for the HELLO of its module, one disarmed is idle, and one armed again for the same module
keeps its state. A page of a region in RESYNC that is left to copy is sent to the partner, and awaited; a lost one has nothing to send, and
is left no more. It rests on choices of the model in notes/assumptions/42.md, notes/assumptions/47.md. -/
def Obligations.RecoveryCommandsAndAdmissionAct : Prop :=
  ((∀ (s : State) (p x u cf : Nat), s.accepts p 0x808 = true →
    (∃ t, exec (.faultCtx p x) s = .next t ∧ only [.ctx] [] s t ∧ t.ctx = { s.ctx with faults := s.ctx.faults ++ [{ ctx := x, gen := s.ctxGen x, reason := 7 }] })
    ∧ (s.serving x = true → ∃ t a, exec (.abortCtx p x) s = .next t ∧ only [.ctx] [] s t ∧ t.ctx.aborts = s.ctx.aborts ++ [a] ∧ a.reason = 8
        ∧ a.tags = [(x, s.ctxGen x)] ∧ a.origin = s.moduleNo ∧ a.serial = s.ctx.abortSerial ∧ a.acted = false ∧ t.ctx.abortSerial = s.ctx.abortSerial + 1)
    ∧ (s.serving x = false → exec (.abortCtx p x) s = .next s)
    ∧ (cf = 0xC3 → 1 ≤ u → u ≤ 3 →
      ∃ t, exec (.dieReset p u cf) s = .next t ∧ only [.health] [] s t ∧ t.health = { s.health with dieCmds := s.health.dieCmds.filter (· != u) ++ [u] })
    ∧ (cf = 0xC3 → ∃ t, exec (.retrainStack p u cf) s = .next t ∧ only [.health] [] s t
        ∧ t.health = { s.health with stackCmds := s.health.stackCmds.filter (· != u) ++ [u] })
    ∧ (cf = 0xC3 → ∃ t, exec (.moduleReset p cf) s = .next t ∧ s.wentDark t [0x80C] ∧ t.rd 0x80C = 1 ∧ t.pwr.resetCause = 1)
    ∧ (∀ c ∈ [Sys2Proof.Instr.dieReset p u cf, .retrainStack p u cf, .moduleReset p cf], cf ≠ 0xC3 →
      ∃ t, exec c s = .next t ∧ onlyRegs [0x804] s t ∧ t.rd 0x804 = s.rd 0x804 ||| 0x1000)))
  ∧ ((∀ (s : State) (p k : Nat) (v : Word), k < 4 → s.accepts p (0x840 + 16 * k) = true →
    ∃ t, exec (.admitArm p k v) s = .next t ∧ onlyRegs [0x840 + 16 * k] s t ∧ t.fld (0x840 + 16 * k) 0 8 = nbits v.toNat 0 8
      ∧ t.bit (0x840 + 16 * k) 8 = v.getLsbD 8
      ∧ t.fld (0x840 + 16 * k) 9 2 = (if v.getLsbD 8 = false then 0 else if s.bit (0x840 + 16 * k) 8 = true ∧ s.fld (0x840 + 16 * k) 0 8 = nbits v.toNat 0 8
          then s.fld (0x840 + 16 * k) 9 2 else 1))
  ∧ (∀ (s : State) (r p : Nat), s.ready = true → r < 16 → s.mirrorValid r = true → s.mirrorState r = 2 →
    ((s.resyncLeft r).contains p = true → s.link.awaits.any (fun a => a.who == .mirror (0x100 + r) && a.addr / 2 ^ 21 == p) = false →
      ((s.page p).any (·.lost) = false → (∀ l ∈ s.poison, l / 2 ^ 15 ≠ p) →
        ∃ t, exec (.mirrorResync r p) s = .next t ∧ only [.link, .out, .health] linkRegs s t
          ∧ ∃ a ∈ t.link.awaits, a.who = .mirror (0x100 + r) ∧ a.addr / 2 ^ 21 = p)
      ∧ ((s.page p).any (·.lost) = true →
        ∃ t, exec (.mirrorResync r p) s = .next t ∧ only [.health] [mirrorReg r 0xC] s t ∧ (t.resyncLeft r).contains p = false))
    ∧ ((s.resyncLeft r).contains p = false → exec (.mirrorResync r p) s = .next s)))

/-- R527, R529, R530, R532-R534. A suspect whose replay ran through is released and the next one is up; when none is left the engine is marked
faulty and stays quarantined, and its search is over. A stack back from its retrain is up with what its pages leave free; one whose retrain
is late is tried again, and after a second failure without DIE_ESCALATE stays out. A link port's late retrain takes it FAILED. A die back
from its reset operates, with its paths up and its stacks in service; one that does not come back, or die 0 losing a path, takes a module
reset; a path failing between two other dies takes both out of service. It rests on choices of the model in notes/assumptions/47.md,
notes/assumptions/48.md. -/
def Obligations.ReplaysAndRetrainsEndOrEscalate : Prop :=
  (∀ (s : State) (e x : Nat) (rest : List Nat) (h : Search), s.health.searches = [h] → h.engine = e → e < 256 → h.replaying = true → h.suspects = x :: rest →
      x ∉ rest → (∀ y ∈ h.suspects, y < 1024) →
    (rest ≠ [] → ∃ t, exec (.replayFinished e) s = .next t ∧ only [.health] [engineBlock e + 4, healthReg x 4, 0x814] s t
      ∧ t.health.searches = [{ h with suspects := rest, replaying := false, left := 0 }] ∧ t.bit (healthReg x 4) 4 = false)
    ∧ (rest = [] → ∃ t, exec (.replayFinished e) s = .next t
      ∧ only [.health, .out, .link] (errRegs ++ [engineBlock e + 4, healthReg x 4, 0x814, 0x804, dieReg (e / 64) (0x808 + e % 64 / 32 * 4)]) s t
      ∧ t.health.searches = [] ∧ t.bit (dieReg (e / 64) (0x808 + e % 64 / 32 * 4)) (e % 32) = true ∧ t.rd 0x804 = s.rd 0x804 ||| 0x20
      ∧ t.bit (healthReg x 4) 4 = false ∧ t.rd 0x814 = 0))
  ∧ ((∀ (s : State) (k : Nat), s.ready = true → s.health.stackRetraining = [k] →
    (∀ g, s.tier.pages = [] → s.tier.seqs = [] → s.tier.scrubs = [] → s.tier.units.find? (fun x => x.unit == k) = some g →
      ∃ t, exec (.stackRetrainDone k) s = .next t ∧ t.health = { s.health with stackRetraining := [] }
        ∧ t.tier.units.find? (fun x => x.unit == k) = some { g with free := stackChunks - s.usedOn k, up := true } ∧ t.tier.pages = []
        ∧ only [.health, .tier] useRegs s t)
    ∧ ((s.health.stackTries.find? (fun p => p.1 == k)).elim 0 (·.2) < 2 → ∃ t, exec (.retrainTimeout true k) s = .next t ∧ only [.health] [] s t
        ∧ t.health.stackCmds = s.health.stackCmds.filter (· != k) ++ [k] ∧ t.health.stackRetraining = [])
    ∧ (2 ≤ (s.health.stackTries.find? (fun p => p.1 == k)).elim 0 (·.2) → s.bit 0x800 17 = false → ∃ t, exec (.retrainTimeout true k) s = .next t
        ∧ only [.health] [] s t ∧ k ∈ t.health.stackOut ∧ t.health.stackRetraining = []))
  ∧ (∀ (s : State) (l : Nat), s.ready = true → l < 64 → s.lpState l = 1 ∨ s.lpState l = 3 →
    ∃ t, exec (.retrainTimeout false l) s = .next t ∧ t.lpState l = 4
      ∧ only [.mem, .poison, .coh, .out, .link, .tier] ([linkBlock l, linkBlock l + 8] ++ traceRegs ++ dirRegs ++ useRegs) s t)
  ∧ (∀ (s : State) (d : Nat), s.ready = true → 1 ≤ d → d ≤ 3 → d ∈ s.health.resetting →
    (s.fld 0x10 (4 * d) 4 = 2 → s.coh.dir = [] → s.coh.waitq = [] → s.coh.txns = [] →
      ∃ t, exec (.dieResetDone d) s = .next t ∧ t.fld 0x10 (4 * d) 4 = 3 ∧ d ∉ t.health.resetting
        ∧ (∀ k ∈ t.health.stackOut, k / 2 ≠ d) ∧ t.tier = { s.tier with units := t.tier.units }
        ∧ (∀ u ∈ t.tier.units, u.unit ∈ s.health.stackOut → u.unit / 2 = d → u.up = true)
        ∧ (∀ u ∈ s.tier.units, (u.unit ∈ s.health.stackOut → u.unit / 2 ≠ d) → u ∈ t.tier.units)
        ∧ only [.health, .tier] ((0x10 :: dieReg d 0x100 :: dieReg d 0x104 :: (List.range 4).map (dieReg · 8)
          ++ (List.range 12).map (fun n => hostBlock (12 * d + n))) ++ useRegs) s t
        ∧ ((∀ k ∈ s.health.stackOut, k / 2 ≠ d) → only [.health] (0x10 :: dieReg d 0x100 :: dieReg d 0x104 :: (List.range 4).map (dieReg · 8)
          ++ (List.range 12).map (fun n => hostBlock (12 * d + n))) s t)
        ∧ (∀ p, p < 4 → p ≠ d → s.dieUp p = true → t.bit (dieReg d 8) p = true ∧ t.bit (dieReg p 8) d = true))
    ∧ (∃ t, exec (.dieResetTimeout d) s = .next t ∧ s.wentDark t [0x80C] ∧ t.rd 0x80C = 3 ∧ t.pwr.resetCause = 3))
  ∧ (∀ (s : State) (a b : Nat), s.ready = true → a < 4 → b < 4 → a ≠ b → s.bit (dieReg a 8) b = true →
    (a ≠ 0 → b ≠ 0 → ∃ t, exec (.d2dPathFailure a b) s = .next t ∧ t.fld 0x10 (4 * a) 4 = 5 ∧ t.fld 0x10 (4 * b) 4 = 5 ∧ a ∈ t.health.dieCmds
      ∧ b ∈ t.health.dieCmds ∧ t.bit (dieReg a 0xC) b = true ∧ t.bit (dieReg b 0xC) a = true
      ∧ only [.health] [0x10, dieReg a 8, dieReg a 0xC, dieReg b 8, dieReg b 0xC] s t)
    ∧ (a = 0 ∨ b = 0 → ∃ t, exec (.d2dPathFailure a b) s = .next t ∧ s.wentDark t [0x80C] ∧ t.rd 0x80C = 4 ∧ t.pwr.resetCause = 4)))

/-- R32, R545, R552, R553, R556-R558, R560-R564. With the input at or above 59.0 V, `NOR_REQ_N` high and nothing holding it, a module in Dark
starts. When SYSCLK, the boot epoch, the NOR or the Almanac fails its check, it stays in Dark with the first reason latched and `FAULT_N`
low; when all pass, the boot epoch has advanced, and the Almanac's fabric words, slices, identity and protocol, and the dies' state, stand
in the registers and are in force, and `MOD_CLK_LOCK` shows the host references that are there. A starting module that is ready raises
`MOD_READY`, reports its self-test, holds every stack, empty, and has every register in force; one that is late goes Dark with reason
START_TIMEOUT. The start image is loaded once, when the timebase is LOCKED, or with LOCK_TIMEOUT when it is not. It rests on choices of the
model in notes/assumptions/51.md, notes/assumptions/52.md. -/
def Obligations.StartChecksTheAlmanacAndEndsReadyOrDark : Prop :=
  ((∀ (s : State) (v : Nat) (a b c d : Bool), s.pwr.phase ≠ .dark ∨ v < 59000 ∨ s.pwr.norReqN = false ∨ s.pwr.refused = true →
    exec (.moduleStart v a b c d) s = .next s)
  ∧ (∀ (s : State) (v r e : Nat) (a b c d : Bool), s.pwr.phase = .dark → 59000 ≤ v → s.pwr.norReqN = true → s.pwr.refused = false →
    ((a = false ∧ r = 8 ∧ e = s.sec.bootEpoch) ∨ (a = true ∧ s.sec.bootEpoch = 0xFFFFFFFF ∧ r = 7 ∧ e = s.sec.bootEpoch)
        ∨ (a = true ∧ s.sec.bootEpoch ≠ 0xFFFFFFFF ∧ b = false ∧ r = 1 ∧ e = s.sec.bootEpoch + 1)
        ∨ (a = true ∧ s.sec.bootEpoch ≠ 0xFFFFFFFF ∧ b = true ∧ r = almCheck s.norByte s.sec.almFloor c d ∧ r ≠ 0 ∧ e = s.sec.bootEpoch + 1) →
      ∃ t, exec (.moduleStart v a b c d) s = .next t ∧ t.pwr.phase = .dark ∧ t.pwr.failReason = r ∧ t.pwr.refused = true ∧ t.pwr.faultN = false
        ∧ t.rd 0xA00 = BitVec.ofNat 32 r ∧ t.sec.bootEpoch = e ∧ t.flash = { s.flash with held := [] } ∧ t.pending = s.pending ∧ t.out = s.out)
    ∧ (a = true → s.sec.bootEpoch ≠ 0xFFFFFFFF → b = true → almCheck s.norByte s.sec.almFloor c d = 0 →
      ∃ t, exec (.moduleStart v a b c d) s = .next t ∧ sameBut [.force, .time, .health, .sec, .alm, .pwr, .out, .freeCtr] s t
        ∧ t.pwr.phase = .starting ∧ t.pwr.faultN = true ∧ t.sec.bootEpoch = s.sec.bootEpoch + 1 ∧ t.alm.nor = s.alm.nor
        ∧ t.rd 0x708 = BitVec.ofNat 32 (s.sec.bootEpoch + 1) ∧ t.rd 0x700 = (if s.sec.fuseSealed then 1 else 0) ∧ t.rd 0x10 = 0x3333
        ∧ (∀ g, g < 12 → t.bit 0x14 (12 + g) = !s.pwr.hrefGone.contains g) ∧ (∀ k, k < 12 → t.bit 0x14 k = true)
        ∧ t.rd 0x80C = BitVec.ofNat 32 (if s.pwr.shutdown ≠ 0 then 5 else s.pwr.resetCause) ∧ t.rd 0x100 = merInit s.norByte
        ∧ t.time.units = nbits (merInit s.norByte).toNat 0 9 ∧ t.time.epochLog2 = nbits (merInit s.norByte).toNat 16 5
        ∧ (∀ n, n < 48 → t.owner n = (hostWord s.norByte n).testBit 0) ∧ (∀ l, l < 64 → t.ztl l = (linkWord s.norByte l).testBit 1)
        ∧ (∀ w sl i, w < 2 → sl < 64 → i < 7 → t.rd (sliceReg w sl (4 * i)) = sliceWord s.norByte sl i)
        ∧ (∀ w i, w < 2 → i < 4096 → t.rd (routeReg w (4 * i)) = routeWord s.norByte i)
        ∧ t.alm.library.length = libCount s.norByte ∧ t.alm.startImage = startImageOf s.norByte ∧ t.alm.lockWait = lockWaitOf s.norByte)))
  ∧ ((∀ (s : State) (w : Word), s.pwr.phase = .starting →
    ∃ t, exec (.modReady w) s = .next t ∧ sameBut [.force, .tier, .link, .health, .pwr] s t ∧ t.ready = true ∧ t.pwr.modReady = true
      ∧ t.rd 0x828 = w &&& 0xFFF1 ∧ t.force = t.regs ∧ (∀ k, k < 8 → (t.tier.units.find? (fun x => x.unit == k)).map (fun x => (x.tier, x.free)) =
          some (0, 2064384))
      ∧ (w.getLsbD 0 = false → ∀ l, l < 64 → t.rd (linkBlock l) = s.rd (linkBlock l)))
  ∧ (∀ (s : State), s.pwr.phase = .starting → ∃ t, exec .startTimeout s = .next t ∧ s.wentDark t [0xA00] ∧ t.rd 0xA00 = 9 ∧ t.pwr.failReason = 9
      ∧ t.pwr.faultN = false)
  ∧ (∀ (s : State) (b : Bool), s.ready = true → s.alm.startImage ≠ 0xFF →
    (b = true ↔ s.timeState = 2) → s.standbyState ≠ 1 ∧ s.standbyState ≠ 2 ∧ s.standbyState ≠ 5 →
    ∃ t, exec (.startImageLoad b) s = .next t ∧ only [.eph, .alm] (0xA0C :: standbyRegs) s t ∧ t.alm.startImage = 0xFF ∧ t.standbyState = 1
      ∧ t.eph.source = some (.library s.alm.startImage) ∧ t.eph.active = s.eph.active
      ∧ t.rd 0xA0C = (if b then s.rd 0xA0C else s.rd 0xA0C ||| 2)))

/-- R534, R545, R560, R564, R565, R569, R581, R582. PWR_EN or RESET_N low, a loss of SYSCLK or of standby power takes a module to Dark, and each
reports the cause the spec gives (for SYSCLK the model leaves it open). The NOR is granted in Dark, the request waits during a start and is
ignored after it; on its release the pins are driven again, and the NOR holds what the programmer wrote. It rests on choices of the model in
notes/assumptions/51.md, notes/assumptions/54.md, notes/assumptions/55.md. -/
def Obligations.PinsTakeTheModuleToDarkAndLendTheNor : Prop :=
  (∀ (s : State), s.pwr.phase ≠ .dark →
    (∃ t, exec .pwrEnLow s = .next t ∧ s.wentDark t [] ∧ t.pwr.pwrEn = false ∧ t.pwr.refused = false ∧ t.pwr.resetCause = 0)
    ∧ (∃ t, exec .resetNLow s = .next t ∧ s.wentDark t [0x80C] ∧ t.rd 0x80C = 0 ∧ t.pwr.resetN = false ∧ t.pwr.refused = false)
    ∧ (∃ t, exec .sysclkLoss s = .next t ∧ s.wentDark t [0x80C] ∧ t.rd 0x80C = BitVec.ofNat 32 ((Config.freeWord s.freeCtr).toNat % 16)))
  ∧ (∀ (s : State), s.pwr.phase = .dark →
    (∃ t, exec .pwrEnLow s = .next t ∧ only [.pwr] [] s t ∧ t.pwr = { s.pwr with pwrEn := false, refused := false })
    ∧ (∃ t, exec .resetNLow s = .next t ∧ only [.pwr] [] s t ∧ t.pwr = { s.pwr with resetN := false, refused := false })
    ∧ exec .sysclkLoss s = .next s
    ∧ (∃ t, exec .norRequest s = .next t ∧ only [.pwr] [] s t ∧ t.pwr = { s.pwr with norReqN := false, norGrantN := false, xspiDriven := false }))
  ∧ (∀ (s : State), ∃ t, exec .standbyPowerLoss s = .next t ∧ s.wentDark t [0x80C, 0xA00, 0x92C] ∧ t.pwr.standby = false
      ∧ ∀ off ∈ [0x80C, 0xA00, 0x92C], t.rd off = resetVal off)
  ∧ (∀ (s : State), s.pwr.phase = .starting → ∃ t, exec .norRequest s = .next t ∧ only [.pwr] [] s t ∧ t.pwr = { s.pwr with norReqN := false })
  ∧ (∀ (s : State), s.pwr.phase = .ready → ∃ t, exec .norRequest s = .next t ∧ only [.pwr] [0xA0C] s t ∧ t.rd 0xA0C = s.rd 0xA0C ||| 0x10)
  ∧ (∀ (s : State) (ws : List (Nat × Byte)), ∃ t, exec (.norRelease ws) s = .next t ∧ only [.pwr, .alm] [] s t
      ∧ t.pwr = { s.pwr with norReqN := true, norGrantN := true, xspiDriven := true }
      ∧ (s.pwr.norGrantN = true → t.alm = s.alm)
      ∧ (s.pwr.norGrantN = false → (ws.map (·.1)).Nodup → (∀ w ∈ ws, t.norByte w.1 = w.2) ∧ ∀ a, a ∉ ws.map (·.1) → t.norByte a = s.norByte a))

/-- R566, R567. VERIFY copies the source and checks it; a copy that passes is VERIFIED, another FAILED with the reason. WRITE of a VERIFIED copy
programs it: afterwards the NOR holds the copy, with its last sector erased behind it and the rest as it was; a failed read-back is FAILED.
ABORT leaves VERIFYING for IDLE and ends WRITING as FAILED. A wrong `CONFIRM`, or WRITE of a copy not VERIFIED, sets `BAD_WRITE`. It rests
on choices of the model in notes/assumptions/53.md. -/
def Obligations.AlmanacUpdateVerifiesThenWrites : Prop :=
  (∀ (s : State) (p cf : Nat), s.accepts p 0xA1C = true →
    (∀ c ∈ [Sys2Proof.Instr.verify p cf, .write p cf, .abort p cf], cf ≠ 0xC3 →
      ∃ t, exec c s = .next t ∧ onlyRegs [0xA0C] s t ∧ t.rd 0xA0C = s.rd 0xA0C ||| 0x20)
    ∧ (cf = 0xC3 → s.rd 0xA18 ≠ 0 → (s.rd 0xA18).toNat ≤ 0x0FF00000 →
      (s.updState ≠ 1 → s.updState ≠ 3 → ∃ t, exec (.verify p cf) s = .next t ∧ only [.alm] [0xA20] s t ∧ t.updState = 1
        ∧ (s.readCheck [] ((s.rd 0xA10).toNat + 2 ^ 32 * (s.rd 0xA14).toNat) (s.rd 0xA18).toNat = .ok →
            t.alm = { s.alm with copy := s.bytes ((s.rd 0xA10).toNat + 2 ^ 32 * (s.rd 0xA14).toNat) (s.rd 0xA18).toNat }))
      ∧ (s.updState = 2 → ∃ t, exec (.write p cf) s = .next t ∧ onlyRegs [0xA20] s t ∧ t.updState = 3)
      ∧ (s.updState ≠ 2 → ∃ t, exec (.write p cf) s = .next t ∧ onlyRegs [0xA0C] s t ∧ t.rd 0xA0C = s.rd 0xA0C ||| 0x20)
      ∧ (s.updState = 1 → ∃ t, exec (.abort p cf) s = .next t ∧ onlyRegs [0xA20] s t ∧ t.updState = 0)
      ∧ (s.updState = 3 → ∃ t, exec (.abort p cf) s = .next t ∧ only [.alm, .freeCtr] [0xA20, 0xA0C] s t ∧ t.updState = 5)
      ∧ (s.updState ≠ 1 → s.updState ≠ 3 → exec (.abort p cf) s = .next s)))
  ∧ (∀ (s : State) (a b : Bool), s.ready = true → s.updState = 1 → ∀ r,
      r = (if s.alm.copy.length < almLen (fun i => s.alm.copy.getD i 0) + 2820 then 2 else almCheck (fun i => s.alm.copy.getD i 0) s.sec.almFloor a b) →
    ∃ t, exec (.verifyDone a b) s = .next t ∧ onlyRegs [0xA20, 0xA0C] s t
      ∧ (r = 0 → t.updState = 2 ∧ t.rd 0xA0C = s.rd 0xA0C ||| 4) ∧ (r ≠ 0 → t.updState = 5 ∧ t.fld 0xA20 4 4 = r ∧ t.rd 0xA0C = s.rd 0xA0C ||| 8))
  ∧ (∀ (s : State), s.ready = true → s.updState = 3 →
    (∃ t, exec (.writeDone true) s = .next t ∧ only [.alm] [0xA20, 0xA0C] s t ∧ t.updState = 4 ∧ t.rd 0xA0C = s.rd 0xA0C ||| 4
      ∧ ∀ a, t.norByte a = (if a < s.alm.copy.length then s.alm.copy.getD a 0 else if a < 65536 * s.copySectors then 0xFF else s.norByte a))
    ∧ (∃ t, exec (.writeDone false) s = .next t ∧ only [.alm, .freeCtr] [0xA20, 0xA0C] s t ∧ t.updState = 5 ∧ t.fld 0xA20 4 4 = 2
      ∧ ∀ a, 65536 * max 1 s.copySectors ≤ a → t.norByte a = s.norByte a))

/-- R570, R573-R575, R578. A sample that decides a shutdown takes the module to Dark with the lowest cause latched and `FAULT_N` low; any other
leaves what it measured. A power command of an owner port awaits the next boundary, and OFF needs its `CONFIRM`. A transition that completes
is reported, and Full serves the held requests first and lets the engines' clocks run again. It rests on choices of the model in
notes/assumptions/50.md, notes/assumptions/52.md. -/
def Obligations.PowerFollowsSamplesAndCommands : Prop :=
  (∀ (s : State) (x : Sample), s.pwr.standby = true → s.pwr.phase ≠ .dark →
    (∀ c, shutdownCause x ((s.pwr.runs.zip (sampleBad x)).map (fun p => if p.2 then p.1 + 1 else 0)) = some c →
      ∃ t, exec (.powerSample x) s = .next t ∧ s.wentDark t [0x92C] ∧ t.rd 0x92C = BitVec.ofNat 32 c ∧ t.pwr.shutdown = c ∧ t.pwr.resetCause = 5
        ∧ t.pwr.faultN = false)
    ∧ (shutdownCause x ((s.pwr.runs.zip (sampleBad x)).map (fun p => if p.2 then p.1 + 1 else 0)) = none →
      ∃ t, exec (.powerSample x) s = .next t ∧ only [.pwr] [0x908, 0x90C, 0x910, 0x914, 0x918, 0x91C, 0x920, 0x924] s t
        ∧ (t.rd 0x90C).toNat = x.vinMv % 2 ^ 18 ∧ (t.rd 0x910).toNat = x.iinMa % 2 ^ 17
        ∧ (57000 ≤ x.vinMv ∧ x.vinMv < 60000 ∨ 67200 < x.vinMv ∧ x.vinMv ≤ 70000 → t.bit 0x908 2 = true)))
  ∧ (∀ (s : State) (p cf k : Nat) (c : Sys2Proof.Instr), (c, k) ∈ [(Sys2Proof.Instr.full p, 1), (.idle p, 2), (.retain p, 3), (.off p cf, 4)] →
      s.accepts p 0x904 = true →
    (k = 4 → cf = 0xC3) → ∃ t, exec c s = .next t ∧ only [.pwr] [0x900] s t ∧ t.pwr = { s.pwr with cmd := some k } ∧ t.rd 0x900 = s.rd 0x900 ||| 4)
  ∧ (∀ (s : State) (p cf : Nat), s.accepts p 0x904 = true → cf ≠ 0xC3 →
    ∃ t, exec (.off p cf) s = .next t ∧ onlyRegs [0x908] s t ∧ t.rd 0x908 = s.rd 0x908 ||| 0x10)
  ∧ (∀ (s : State), s.pwr.going = some 0 → ∃ t, exec .powerTransitionDone s = .next t ∧ only [.pwr, .pending] ([0x10, 0x900] ++ engStateRegs) s t
      ∧ t.pending = s.pwr.held ++ s.pending ∧ t.pwr = { s.pwr with going := none, state := 0, held := [] } ∧ t.fld 0x900 0 2 = 0)
  ∧ (∀ (s : State) (g : Nat), s.pwr.going = some g → 1 ≤ g → g ≤ 2 → ∃ t, exec .powerTransitionDone s = .next t ∧ only [.pwr] [0x10, 0x900] s t
      ∧ t.pwr = { s.pwr with going := none } ∧ t.fld 0x900 0 2 = g)

/-- R512, R513, R583. IDCODE and SEC_STATUS shift out the module's code and `SEC_STATE`; BYPASS holds one bit; nothing but the reset of the port
acts in Dark. The instructions of Intrusive act as BYPASS at any other level and are counted. At Intrusive EXTEST and SAMPLE_PRELOAD take
the value shifted in, and DEBUG_ACCESS halts, releases and steps engines and cores, and reads and writes registers, scratch and pool memory.
It rests on choices of the model in notes/assumptions/57.md. -/
def Obligations.TestPortOpensAtIntrusiveOnly : Prop :=
  (∀ (s : State), ∃ t, exec .tapReset s = .next t ∧ only [.pwr] [] s t ∧ t.pwr = { s.pwr with tapIr := 1, tapData := 0 })
  ∧ (∀ (s : State) (v : Nat) (d : DebugAct), s.pwr.phase = .dark →
    ∀ c ∈ [Sys2Proof.Instr.extest v, .idcode, .samplePreload v, .secStatus, .debugAccess d, .bypass], exec c s = .next s)
  ∧ (∀ (s : State), s.pwr.phase ≠ .dark →
    (∃ t n, exec .idcode s = .next t ∧ only [.pwr, .out] [] s t ∧ t.pwr = { s.pwr with tapIr := 1, tapData := n } ∧ t.out = .tdo n :: .tdo 1 :: s.out
      ∧ n % 2 = 1 ∧ nbits n 1 11 = 0x2B5 ∧ nbits n 12 16 = 0x4800)
    ∧ (∃ t, exec .secStatus s = .next t ∧ only [.pwr, .out] [] s t ∧ t.pwr = { s.pwr with tapIr := 0x10, tapData := (s.rd 0x700).toNat }
      ∧ t.out = .tdo (s.rd 0x700).toNat :: .tdo 1 :: s.out)
    ∧ (∃ t, exec .bypass s = .next t ∧ only [.pwr, .out] [] s t ∧ t.pwr = { s.pwr with tapIr := 0xFF, tapData := 0 } ∧ t.out = .tdo 1 :: s.out))
  ∧ (∀ (s : State) (v : Nat) (d : DebugAct), s.pwr.phase ≠ .dark → s.ready = false ∨ s.dbgLevel ≠ 2 ∨ s.pwr.state = 2 →
    ∀ c ∈ [Sys2Proof.Instr.extest v, .samplePreload v, .debugAccess d],
      ∃ t, exec c s = .next t ∧ only [.pwr, .out] [pviolReg 0x82] s t ∧ t.pwr = { s.pwr with tapIr := 0xFF, tapData := 0 }
        ∧ (t.rd (pviolReg 0x82)).toNat = min 0xFFFFFFFF ((s.rd (pviolReg 0x82)).toNat + 1))
  ∧ (∀ (s : State), s.ready = true → s.dbgLevel = 2 → s.pwr.state ≠ 2 →
    (∀ c k v, (c, k) ∈ [(Sys2Proof.Instr.extest v, 0), (.samplePreload v, 2)] →
      ∃ t, exec c s = .next t ∧ only [.pwr, .out, .freeCtr] [] s t ∧ t.pwr = { s.pwr with tapIr := k, tapData := v }
        ∧ t.out = .tdo (Config.scanCells s.freeCtr) :: .tdo 1 :: s.out)
    ∧ (∀ e, (∃ t, exec (.debugAccess (.haltEngine e)) s = .next t ∧ only [.pwr, .out, .sec] [] s t ∧ e ∈ t.sec.haltedEngines)
      ∧ (∃ t, exec (.debugAccess (.releaseEngine e)) s = .next t ∧ only [.pwr, .out, .sec] [] s t ∧ e ∉ t.sec.haltedEngines)
      ∧ (e ∈ s.sec.haltedEngines → ∃ t, exec (.debugAccess (.stepEngine e)) s = .next t ∧ only [.pwr, .out, .sec] [] s t ∧ e ∈ t.sec.steps)
      ∧ (∃ t, exec (.debugAccess (.haltCore e)) s = .next t ∧ only [.pwr, .out, .sec] [] s t ∧ e ∈ t.sec.haltedCores)
      ∧ (∃ t, exec (.debugAccess (.releaseCore e)) s = .next t ∧ only [.pwr, .out, .sec] [] s t ∧ e ∉ t.sec.haltedCores)
      ∧ (e ∈ s.sec.haltedCores → ∃ t, exec (.debugAccess (.stepCore e)) s = .next t ∧ only [.pwr, .out, .sec] [] s t ∧ 256 + e ∈ t.sec.steps))
    ∧ (∀ o, ∃ t, exec (.debugAccess (.readReg o)) s = .next t ∧ only [.pwr, .out] [] s t ∧ t.out = .tdo (s.regRead none o) :: .tdo 1 :: s.out)
    ∧ (∀ a, ∃ t, exec (.debugAccess (.readPool a)) s = .next t ∧ only [.pwr, .out] [] s t ∧ t.out = .tdo (s.byte a).toNat :: .tdo 1 :: s.out)
    ∧ (∀ sp b, scratchByte sp b = true → ∃ t, exec (.debugAccess (.readScratch sp b)) s = .next t ∧ only [.pwr, .out] [] s t
      ∧ t.out = .tdo (sget (fun _ => (0 : Byte)) s.scr (sp * 2 ^ 22 + b)).toNat :: .tdo 1 :: s.out)
    ∧ (∀ sp b v, scratchByte sp b = true → ∃ t, exec (.debugAccess (.writeScratch sp b v)) s = .next t ∧ only [.pwr, .out, .scr] [] s t
      ∧ ∀ k, sget (fun _ => (0 : Byte)) t.scr k = if k = sp * 2 ^ 22 + b then v else sget (fun _ => (0 : Byte)) s.scr k)
    ∧ (∀ a v, s.settled → ∃ t, exec (.debugAccess (.writePool a v)) s = .next t ∧ only [.pwr, .out, .mem, .poison, .coh] dirRegs s t
      ∧ ∀ x, t.byte x = if x = a then v else s.byte x))

/-- The block serves its commands first in, first out: a step takes the command at the front of the queue and is its effect on the state with
the rest of the queue. With no command waiting the block idles (the model's choice, notes/assumptions/6.md). -/
def Obligations.StepServesTheFrontCommand : Prop :=
  (∀ (s : State) (c : Sys2Proof.Instr) (rest : List Sys2Proof.Instr), s.pending = c :: rest → step s = exec c { s with pending := rest })
  ∧ ∀ (s : State), s.pending = [] → step s = .next s

/-- After reset the module is in Dark, no command waits, nothing is stored, every register reads its reset value, and every store is in its
canonical form. It rests on choices of the model in notes/assumptions/4.md, notes/assumptions/58.md. -/
def Obligations.ResetIsDarkAndEmpty : Prop :=
  State.reset.wf = true ∧ State.reset.pending = [] ∧ State.reset.pwr.phase = .dark ∧ State.reset.ops = [] ∧ State.reset.out = []
    ∧ (∀ a, State.reset.byte a = 0) ∧ (∀ off, State.reset.rd off = resetVal off)
    ∧ State.reset.rd 0x400 = 8 ∧ State.reset.rd 0x800 = 0x20100

/-- In every state a step keeps the canonical form of memory, scratch and registers. It rests on choices of the model in
notes/assumptions/58.md. -/
def Obligations.StepKeepsCanonicalForm : Prop :=
  ∀ (s t : State), s.wf = true → step s = .next t → t.wf = true

/-- R416, R418, R428. A store to pool memory writes its bytes and no other, wherever they lie, and clears the poison of every line that it
covers whole. It rests on choices of the model in notes/assumptions/30.md. -/
def Obligations.StoreWritesItsBytesAlone : Prop :=
  ∀ (s : State) (a : Nat) (d : List Byte), s.settled →
    (s.store a d).holds s a d ∧ (s.store a d).bytes a d.length = d ∧ only [.mem, .poison, .coh, .out, .tier] dirRegs s (s.store a d)
      ∧ (∀ l, coveredLine a d.length l = true → d ≠ [] → (s.store a d).poison.contains l = false)

/-- The rules give every command an effect, and the model stops on none: each of them, with any operands, answers a next state in every state.
What that state holds, the other statements say. -/
def Obligations.EveryCommandAnswersANextState : Prop :=
  ∀ (c : Sys2Proof.Instr) (s : State), ∃ t, exec c s = .next t
end

