-- ==== Sys2Proof/Laws/Sparse.lean ====
section
/-! SUPPORT. Laws of sparse data: a read after a write, writes to other keys, the canonical form, and that it is kept. -/

namespace Sys2Proof.Machine

variable {α : Type} {d : Nat → α}

theorem sget_nil (k : Nat) : sget d [] k = d k := rfl

theorem sget_cons (p : Nat × α) (m : List (Nat × α)) (k : Nat) : sget d (p :: m) k = if p.1 = k then p.2 else sget d m k := by
  unfold sget
  rw [List.find?_cons]
  by_cases h : p.1 = k
  · simp [h]
  · simp [h, beq_eq_false_iff_ne.2 h]

theorem sget_filter_same (m : List (Nat × α)) (k : Nat) : sget d (m.filter (fun p => p.1 != k)) k = d k := by
  induction m with
  | nil => rfl
  | cons p m ih => by_cases h : p.1 = k <;> simp [h, sget_cons, ih]

theorem sget_filter_ne (m : List (Nat × α)) (k j : Nat) (hj : j ≠ k) : sget d (m.filter (fun p => p.1 != k)) j = sget d m j := by
  induction m with
  | nil => rfl
  | cons p m ih =>
    by_cases h : p.1 = k
    · have : ¬ p.1 = j := fun e => hj (e.symm.trans h)
      simp [h, sget_cons, ih]
      intro e; exact absurd e.symm hj
    · simp [h, sget_cons, ih]

theorem sget_sins_same (m : List (Nat × α)) (k : Nat) (v : α) (h : ∀ p ∈ m, p.1 ≠ k) : sget d (sins k v m) k = v := by
  induction m with
  | nil => simp [sins, sget_cons]
  | cons p m ih =>
    have hp := h p (by simp)
    unfold sins
    split
    · simp [sget_cons]
    · simp [sget_cons, hp, ih (fun q hq => h q (by simp [hq]))]

theorem sget_sins_ne (m : List (Nat × α)) (k j : Nat) (v : α) (hj : j ≠ k) : sget d (sins k v m) j = sget d m j := by
  induction m with
  | nil => simp [sins, sget_cons, hj.symm]
  | cons p m ih =>
    unfold sins
    split
    · rw [sget_cons, if_neg (Ne.symm hj)]
    · simp [sget_cons, ih]

variable [DecidableEq α]

/-- A read after a write of the same key gives the value written. -/
@[simp] theorem sget_sset_same (m : List (Nat × α)) (k : Nat) (v : α) : sget d (sset d m k v) k = v := by
  unfold sset
  split
  · rename_i h; simp [sget_filter_same, h]
  · exact sget_sins_same _ _ _ (by simp)

/-- A write leaves every other key alone. -/
@[simp] theorem sget_sset_ne (m : List (Nat × α)) (k j : Nat) (v : α) (hj : j ≠ k) : sget d (sset d m k v) j = sget d m j := by
  unfold sset
  split
  · exact sget_filter_ne _ _ _ hj
  · rw [sget_sins_ne _ _ _ _ hj, sget_filter_ne _ _ _ hj]

theorem sget_sset (m : List (Nat × α)) (k j : Nat) (v : α) : sget d (sset d m k v) j = if j = k then v else sget d m j := by
  split
  · subst_vars; simp
  · simp [*]

/-- The canonical form, entry by entry. -/
theorem swf_cons (p : Nat × α) (m : List (Nat × α)) :
    swf d (p :: m) = true ↔ p.2 ≠ d p.1 ∧ (∀ q ∈ m, p.1 < q.1) ∧ swf d m = true := by
  induction m generalizing p with
  | nil => simp [swf]
  | cons q m ih =>
    simp only [swf, Bool.and_eq_true, decide_eq_true_eq, List.mem_cons, forall_eq_or_imp]
    constructor
    · rintro ⟨⟨h1, h2⟩, h3⟩
      exact ⟨h1, ⟨h2, fun r hr => h2.trans (((ih q).1 h3).2.1 r hr)⟩, h3⟩
    · rintro ⟨h1, ⟨h2, _⟩, h3⟩
      exact ⟨⟨h1, h2⟩, h3⟩

theorem swf_nil : swf d ([] : List (Nat × α)) = true := rfl

/-- Leaving entries out keeps the form. -/
theorem swf_filter (f : Nat × α → Bool) (m : List (Nat × α)) (h : swf d m = true) : swf d (m.filter f) = true := by
  induction m with
  | nil => rfl
  | cons p m ih =>
    obtain ⟨h1, h2, h3⟩ := (swf_cons p m).1 h
    rw [List.filter_cons]
    split
    · exact (swf_cons _ _).2 ⟨h1, fun q hq => h2 q (List.mem_filter.1 hq).1, ih h3⟩
    · exact ih h3

omit [DecidableEq α] in
theorem mem_sins (k : Nat) (v : α) (m : List (Nat × α)) (q : Nat × α) : q ∈ sins k v m → q = (k, v) ∨ q ∈ m := by
  induction m with
  | nil => simp [sins]
  | cons p m ih =>
    unfold sins
    split
    · simp
    · simp only [List.mem_cons]
      rintro (h | h)
      · exact Or.inr (Or.inl h)
      · exact (ih h).imp id Or.inr

theorem swf_sins (k : Nat) (v : α) (m : List (Nat × α)) (hv : v ≠ d k) (hm : ∀ p ∈ m, p.1 ≠ k) (h : swf d m = true) :
    swf d (sins k v m) = true := by
  induction m with
  | nil => simp [sins, swf, hv]
  | cons p m ih =>
    obtain ⟨h1, h2, h3⟩ := (swf_cons p m).1 h
    unfold sins
    split
    · rename_i hk
      exact (swf_cons _ _).2 ⟨hv, fun q hq => by
        rcases List.mem_cons.1 hq with rfl | hq
        · exact hk
        · exact hk.trans (h2 q hq), h⟩
    · rename_i hk
      have hp := hm p (by simp)
      refine (swf_cons _ _).2 ⟨h1, fun q hq => ?_, ih (fun q hq => hm q (by simp [hq])) h3⟩
      rcases mem_sins k v m q hq with rfl | hq
      · exact lt_of_le_of_ne (not_lt.1 hk) hp
      · exact h2 q hq

/-- A write keeps the canonical form. -/
@[simp] theorem swf_sset (m : List (Nat × α)) (k : Nat) (v : α) (h : swf d m = true) : swf d (sset d m k v) = true := by
  unfold sset
  split
  · exact swf_filter _ _ h
  · exact swf_sins _ _ _ ‹_› (by simp) (swf_filter _ _ h)

end Sys2Proof.Machine
end

