-- ==== Sys2Proof/Laws/State.lean ====
section
/-! SUPPORT. One lemma per field per update of the register operations, and what a register reads after them. -/

namespace Sys2Proof.Machine

variable (s : State)

-- `wr` changes registers alone
@[simp] theorem State.wr_pending (o : Nat) (v : Word) : (s.wr o v).pending = s.pending := rfl
@[simp] theorem State.wr_force (o : Nat) (v : Word) : (s.wr o v).force = s.force := rfl
@[simp] theorem State.wr_mem (o : Nat) (v : Word) : (s.wr o v).mem = s.mem := rfl
@[simp] theorem State.wr_poison (o : Nat) (v : Word) : (s.wr o v).poison = s.poison := rfl
@[simp] theorem State.wr_scr (o : Nat) (v : Word) : (s.wr o v).scr = s.scr := rfl
@[simp] theorem State.wr_scrPoison (o : Nat) (v : Word) : (s.wr o v).scrPoison = s.scrPoison := rfl
@[simp] theorem State.wr_time (o : Nat) (v : Word) : (s.wr o v).time = s.time := rfl
@[simp] theorem State.wr_eph (o : Nat) (v : Word) : (s.wr o v).eph = s.eph := rfl
@[simp] theorem State.wr_ops (o : Nat) (v : Word) : (s.wr o v).ops = s.ops := rfl
@[simp] theorem State.wr_heads (o : Nat) (v : Word) : (s.wr o v).heads = s.heads := rfl
@[simp] theorem State.wr_bells (o : Nat) (v : Word) : (s.wr o v).bells = s.bells := rfl
@[simp] theorem State.wr_nextOp (o : Nat) (v : Word) : (s.wr o v).nextOp = s.nextOp := rfl
@[simp] theorem State.wr_granted (o : Nat) (v : Word) : (s.wr o v).granted = s.granted := rfl
@[simp] theorem State.wr_stalled (o : Nat) (v : Word) : (s.wr o v).stalled = s.stalled := rfl
@[simp] theorem State.wr_reds (o : Nat) (v : Word) : (s.wr o v).reds = s.reds := rfl
@[simp] theorem State.wr_tier (o : Nat) (v : Word) : (s.wr o v).tier = s.tier := rfl
@[simp] theorem State.wr_sw (o : Nat) (v : Word) : (s.wr o v).sw = s.sw := rfl
@[simp] theorem State.wr_coh (o : Nat) (v : Word) : (s.wr o v).coh = s.coh := rfl
@[simp] theorem State.wr_link (o : Nat) (v : Word) : (s.wr o v).link = s.link := rfl
@[simp] theorem State.wr_flash (o : Nat) (v : Word) : (s.wr o v).flash = s.flash := rfl
@[simp] theorem State.wr_ctx (o : Nat) (v : Word) : (s.wr o v).ctx = s.ctx := rfl
@[simp] theorem State.wr_health (o : Nat) (v : Word) : (s.wr o v).health = s.health := rfl
@[simp] theorem State.wr_sec (o : Nat) (v : Word) : (s.wr o v).sec = s.sec := rfl
@[simp] theorem State.wr_alm (o : Nat) (v : Word) : (s.wr o v).alm = s.alm := rfl
@[simp] theorem State.wr_pwr (o : Nat) (v : Word) : (s.wr o v).pwr = s.pwr := rfl
@[simp] theorem State.wr_out (o : Nat) (v : Word) : (s.wr o v).out = s.out := rfl
@[simp] theorem State.wr_freeCtr (o : Nat) (v : Word) : (s.wr o v).freeCtr = s.freeCtr := rfl

-- `wrn` changes registers alone
@[simp] theorem State.wrn_pending (o n : Nat) : (s.wrn o n).pending = s.pending := rfl
@[simp] theorem State.wrn_force (o n : Nat) : (s.wrn o n).force = s.force := rfl
@[simp] theorem State.wrn_mem (o n : Nat) : (s.wrn o n).mem = s.mem := rfl
@[simp] theorem State.wrn_poison (o n : Nat) : (s.wrn o n).poison = s.poison := rfl
@[simp] theorem State.wrn_scr (o n : Nat) : (s.wrn o n).scr = s.scr := rfl
@[simp] theorem State.wrn_scrPoison (o n : Nat) : (s.wrn o n).scrPoison = s.scrPoison := rfl
@[simp] theorem State.wrn_time (o n : Nat) : (s.wrn o n).time = s.time := rfl
@[simp] theorem State.wrn_eph (o n : Nat) : (s.wrn o n).eph = s.eph := rfl
@[simp] theorem State.wrn_ops (o n : Nat) : (s.wrn o n).ops = s.ops := rfl
@[simp] theorem State.wrn_heads (o n : Nat) : (s.wrn o n).heads = s.heads := rfl
@[simp] theorem State.wrn_bells (o n : Nat) : (s.wrn o n).bells = s.bells := rfl
@[simp] theorem State.wrn_nextOp (o n : Nat) : (s.wrn o n).nextOp = s.nextOp := rfl
@[simp] theorem State.wrn_granted (o n : Nat) : (s.wrn o n).granted = s.granted := rfl
@[simp] theorem State.wrn_stalled (o n : Nat) : (s.wrn o n).stalled = s.stalled := rfl
@[simp] theorem State.wrn_reds (o n : Nat) : (s.wrn o n).reds = s.reds := rfl
@[simp] theorem State.wrn_tier (o n : Nat) : (s.wrn o n).tier = s.tier := rfl
@[simp] theorem State.wrn_sw (o n : Nat) : (s.wrn o n).sw = s.sw := rfl
@[simp] theorem State.wrn_coh (o n : Nat) : (s.wrn o n).coh = s.coh := rfl
@[simp] theorem State.wrn_link (o n : Nat) : (s.wrn o n).link = s.link := rfl
@[simp] theorem State.wrn_flash (o n : Nat) : (s.wrn o n).flash = s.flash := rfl
@[simp] theorem State.wrn_ctx (o n : Nat) : (s.wrn o n).ctx = s.ctx := rfl
@[simp] theorem State.wrn_health (o n : Nat) : (s.wrn o n).health = s.health := rfl
@[simp] theorem State.wrn_sec (o n : Nat) : (s.wrn o n).sec = s.sec := rfl
@[simp] theorem State.wrn_alm (o n : Nat) : (s.wrn o n).alm = s.alm := rfl
@[simp] theorem State.wrn_pwr (o n : Nat) : (s.wrn o n).pwr = s.pwr := rfl
@[simp] theorem State.wrn_out (o n : Nat) : (s.wrn o n).out = s.out := rfl
@[simp] theorem State.wrn_freeCtr (o n : Nat) : (s.wrn o n).freeCtr = s.freeCtr := rfl

-- `wrFld` changes registers alone
@[simp] theorem State.wrFld_pending (o l w v : Nat) : (s.wrFld o l w v).pending = s.pending := rfl
@[simp] theorem State.wrFld_force (o l w v : Nat) : (s.wrFld o l w v).force = s.force := rfl
@[simp] theorem State.wrFld_mem (o l w v : Nat) : (s.wrFld o l w v).mem = s.mem := rfl
@[simp] theorem State.wrFld_poison (o l w v : Nat) : (s.wrFld o l w v).poison = s.poison := rfl
@[simp] theorem State.wrFld_scr (o l w v : Nat) : (s.wrFld o l w v).scr = s.scr := rfl
@[simp] theorem State.wrFld_scrPoison (o l w v : Nat) : (s.wrFld o l w v).scrPoison = s.scrPoison := rfl
@[simp] theorem State.wrFld_time (o l w v : Nat) : (s.wrFld o l w v).time = s.time := rfl
@[simp] theorem State.wrFld_eph (o l w v : Nat) : (s.wrFld o l w v).eph = s.eph := rfl
@[simp] theorem State.wrFld_ops (o l w v : Nat) : (s.wrFld o l w v).ops = s.ops := rfl
@[simp] theorem State.wrFld_heads (o l w v : Nat) : (s.wrFld o l w v).heads = s.heads := rfl
@[simp] theorem State.wrFld_bells (o l w v : Nat) : (s.wrFld o l w v).bells = s.bells := rfl
@[simp] theorem State.wrFld_nextOp (o l w v : Nat) : (s.wrFld o l w v).nextOp = s.nextOp := rfl
@[simp] theorem State.wrFld_granted (o l w v : Nat) : (s.wrFld o l w v).granted = s.granted := rfl
@[simp] theorem State.wrFld_stalled (o l w v : Nat) : (s.wrFld o l w v).stalled = s.stalled := rfl
@[simp] theorem State.wrFld_reds (o l w v : Nat) : (s.wrFld o l w v).reds = s.reds := rfl
@[simp] theorem State.wrFld_tier (o l w v : Nat) : (s.wrFld o l w v).tier = s.tier := rfl
@[simp] theorem State.wrFld_sw (o l w v : Nat) : (s.wrFld o l w v).sw = s.sw := rfl
@[simp] theorem State.wrFld_coh (o l w v : Nat) : (s.wrFld o l w v).coh = s.coh := rfl
@[simp] theorem State.wrFld_link (o l w v : Nat) : (s.wrFld o l w v).link = s.link := rfl
@[simp] theorem State.wrFld_flash (o l w v : Nat) : (s.wrFld o l w v).flash = s.flash := rfl
@[simp] theorem State.wrFld_ctx (o l w v : Nat) : (s.wrFld o l w v).ctx = s.ctx := rfl
@[simp] theorem State.wrFld_health (o l w v : Nat) : (s.wrFld o l w v).health = s.health := rfl
@[simp] theorem State.wrFld_sec (o l w v : Nat) : (s.wrFld o l w v).sec = s.sec := rfl
@[simp] theorem State.wrFld_alm (o l w v : Nat) : (s.wrFld o l w v).alm = s.alm := rfl
@[simp] theorem State.wrFld_pwr (o l w v : Nat) : (s.wrFld o l w v).pwr = s.pwr := rfl
@[simp] theorem State.wrFld_out (o l w v : Nat) : (s.wrFld o l w v).out = s.out := rfl
@[simp] theorem State.wrFld_freeCtr (o l w v : Nat) : (s.wrFld o l w v).freeCtr = s.freeCtr := rfl

-- `set` changes registers alone
@[simp] theorem State.set_pending (o : Nat) (m : Word) : (s.set o m).pending = s.pending := rfl
@[simp] theorem State.set_force (o : Nat) (m : Word) : (s.set o m).force = s.force := rfl
@[simp] theorem State.set_mem (o : Nat) (m : Word) : (s.set o m).mem = s.mem := rfl
@[simp] theorem State.set_poison (o : Nat) (m : Word) : (s.set o m).poison = s.poison := rfl
@[simp] theorem State.set_scr (o : Nat) (m : Word) : (s.set o m).scr = s.scr := rfl
@[simp] theorem State.set_scrPoison (o : Nat) (m : Word) : (s.set o m).scrPoison = s.scrPoison := rfl
@[simp] theorem State.set_time (o : Nat) (m : Word) : (s.set o m).time = s.time := rfl
@[simp] theorem State.set_eph (o : Nat) (m : Word) : (s.set o m).eph = s.eph := rfl
@[simp] theorem State.set_ops (o : Nat) (m : Word) : (s.set o m).ops = s.ops := rfl
@[simp] theorem State.set_heads (o : Nat) (m : Word) : (s.set o m).heads = s.heads := rfl
@[simp] theorem State.set_bells (o : Nat) (m : Word) : (s.set o m).bells = s.bells := rfl
@[simp] theorem State.set_nextOp (o : Nat) (m : Word) : (s.set o m).nextOp = s.nextOp := rfl
@[simp] theorem State.set_granted (o : Nat) (m : Word) : (s.set o m).granted = s.granted := rfl
@[simp] theorem State.set_stalled (o : Nat) (m : Word) : (s.set o m).stalled = s.stalled := rfl
@[simp] theorem State.set_reds (o : Nat) (m : Word) : (s.set o m).reds = s.reds := rfl
@[simp] theorem State.set_tier (o : Nat) (m : Word) : (s.set o m).tier = s.tier := rfl
@[simp] theorem State.set_sw (o : Nat) (m : Word) : (s.set o m).sw = s.sw := rfl
@[simp] theorem State.set_coh (o : Nat) (m : Word) : (s.set o m).coh = s.coh := rfl
@[simp] theorem State.set_link (o : Nat) (m : Word) : (s.set o m).link = s.link := rfl
@[simp] theorem State.set_flash (o : Nat) (m : Word) : (s.set o m).flash = s.flash := rfl
@[simp] theorem State.set_ctx (o : Nat) (m : Word) : (s.set o m).ctx = s.ctx := rfl
@[simp] theorem State.set_health (o : Nat) (m : Word) : (s.set o m).health = s.health := rfl
@[simp] theorem State.set_sec (o : Nat) (m : Word) : (s.set o m).sec = s.sec := rfl
@[simp] theorem State.set_alm (o : Nat) (m : Word) : (s.set o m).alm = s.alm := rfl
@[simp] theorem State.set_pwr (o : Nat) (m : Word) : (s.set o m).pwr = s.pwr := rfl
@[simp] theorem State.set_out (o : Nat) (m : Word) : (s.set o m).out = s.out := rfl
@[simp] theorem State.set_freeCtr (o : Nat) (m : Word) : (s.set o m).freeCtr = s.freeCtr := rfl

-- `clr` changes registers alone
@[simp] theorem State.clr_pending (o : Nat) (m : Word) : (s.clr o m).pending = s.pending := rfl
@[simp] theorem State.clr_force (o : Nat) (m : Word) : (s.clr o m).force = s.force := rfl
@[simp] theorem State.clr_mem (o : Nat) (m : Word) : (s.clr o m).mem = s.mem := rfl
@[simp] theorem State.clr_poison (o : Nat) (m : Word) : (s.clr o m).poison = s.poison := rfl
@[simp] theorem State.clr_scr (o : Nat) (m : Word) : (s.clr o m).scr = s.scr := rfl
@[simp] theorem State.clr_scrPoison (o : Nat) (m : Word) : (s.clr o m).scrPoison = s.scrPoison := rfl
@[simp] theorem State.clr_time (o : Nat) (m : Word) : (s.clr o m).time = s.time := rfl
@[simp] theorem State.clr_eph (o : Nat) (m : Word) : (s.clr o m).eph = s.eph := rfl
@[simp] theorem State.clr_ops (o : Nat) (m : Word) : (s.clr o m).ops = s.ops := rfl
@[simp] theorem State.clr_heads (o : Nat) (m : Word) : (s.clr o m).heads = s.heads := rfl
@[simp] theorem State.clr_bells (o : Nat) (m : Word) : (s.clr o m).bells = s.bells := rfl
@[simp] theorem State.clr_nextOp (o : Nat) (m : Word) : (s.clr o m).nextOp = s.nextOp := rfl
@[simp] theorem State.clr_granted (o : Nat) (m : Word) : (s.clr o m).granted = s.granted := rfl
@[simp] theorem State.clr_stalled (o : Nat) (m : Word) : (s.clr o m).stalled = s.stalled := rfl
@[simp] theorem State.clr_reds (o : Nat) (m : Word) : (s.clr o m).reds = s.reds := rfl
@[simp] theorem State.clr_tier (o : Nat) (m : Word) : (s.clr o m).tier = s.tier := rfl
@[simp] theorem State.clr_sw (o : Nat) (m : Word) : (s.clr o m).sw = s.sw := rfl
@[simp] theorem State.clr_coh (o : Nat) (m : Word) : (s.clr o m).coh = s.coh := rfl
@[simp] theorem State.clr_link (o : Nat) (m : Word) : (s.clr o m).link = s.link := rfl
@[simp] theorem State.clr_flash (o : Nat) (m : Word) : (s.clr o m).flash = s.flash := rfl
@[simp] theorem State.clr_ctx (o : Nat) (m : Word) : (s.clr o m).ctx = s.ctx := rfl
@[simp] theorem State.clr_health (o : Nat) (m : Word) : (s.clr o m).health = s.health := rfl
@[simp] theorem State.clr_sec (o : Nat) (m : Word) : (s.clr o m).sec = s.sec := rfl
@[simp] theorem State.clr_alm (o : Nat) (m : Word) : (s.clr o m).alm = s.alm := rfl
@[simp] theorem State.clr_pwr (o : Nat) (m : Word) : (s.clr o m).pwr = s.pwr := rfl
@[simp] theorem State.clr_out (o : Nat) (m : Word) : (s.clr o m).out = s.out := rfl
@[simp] theorem State.clr_freeCtr (o : Nat) (m : Word) : (s.clr o m).freeCtr = s.freeCtr := rfl

-- `sat` changes registers alone
@[simp] theorem State.sat_pending (o n : Nat) : (s.sat o n).pending = s.pending := rfl
@[simp] theorem State.sat_force (o n : Nat) : (s.sat o n).force = s.force := rfl
@[simp] theorem State.sat_mem (o n : Nat) : (s.sat o n).mem = s.mem := rfl
@[simp] theorem State.sat_poison (o n : Nat) : (s.sat o n).poison = s.poison := rfl
@[simp] theorem State.sat_scr (o n : Nat) : (s.sat o n).scr = s.scr := rfl
@[simp] theorem State.sat_scrPoison (o n : Nat) : (s.sat o n).scrPoison = s.scrPoison := rfl
@[simp] theorem State.sat_time (o n : Nat) : (s.sat o n).time = s.time := rfl
@[simp] theorem State.sat_eph (o n : Nat) : (s.sat o n).eph = s.eph := rfl
@[simp] theorem State.sat_ops (o n : Nat) : (s.sat o n).ops = s.ops := rfl
@[simp] theorem State.sat_heads (o n : Nat) : (s.sat o n).heads = s.heads := rfl
@[simp] theorem State.sat_bells (o n : Nat) : (s.sat o n).bells = s.bells := rfl
@[simp] theorem State.sat_nextOp (o n : Nat) : (s.sat o n).nextOp = s.nextOp := rfl
@[simp] theorem State.sat_granted (o n : Nat) : (s.sat o n).granted = s.granted := rfl
@[simp] theorem State.sat_stalled (o n : Nat) : (s.sat o n).stalled = s.stalled := rfl
@[simp] theorem State.sat_reds (o n : Nat) : (s.sat o n).reds = s.reds := rfl
@[simp] theorem State.sat_tier (o n : Nat) : (s.sat o n).tier = s.tier := rfl
@[simp] theorem State.sat_sw (o n : Nat) : (s.sat o n).sw = s.sw := rfl
@[simp] theorem State.sat_coh (o n : Nat) : (s.sat o n).coh = s.coh := rfl
@[simp] theorem State.sat_link (o n : Nat) : (s.sat o n).link = s.link := rfl
@[simp] theorem State.sat_flash (o n : Nat) : (s.sat o n).flash = s.flash := rfl
@[simp] theorem State.sat_ctx (o n : Nat) : (s.sat o n).ctx = s.ctx := rfl
@[simp] theorem State.sat_health (o n : Nat) : (s.sat o n).health = s.health := rfl
@[simp] theorem State.sat_sec (o n : Nat) : (s.sat o n).sec = s.sec := rfl
@[simp] theorem State.sat_alm (o n : Nat) : (s.sat o n).alm = s.alm := rfl
@[simp] theorem State.sat_pwr (o n : Nat) : (s.sat o n).pwr = s.pwr := rfl
@[simp] theorem State.sat_out (o n : Nat) : (s.sat o n).out = s.out := rfl
@[simp] theorem State.sat_freeCtr (o n : Nat) : (s.sat o n).freeCtr = s.freeCtr := rfl

-- `wrap` changes registers alone
@[simp] theorem State.wrap_pending (o n : Nat) : (s.wrap o n).pending = s.pending := rfl
@[simp] theorem State.wrap_force (o n : Nat) : (s.wrap o n).force = s.force := rfl
@[simp] theorem State.wrap_mem (o n : Nat) : (s.wrap o n).mem = s.mem := rfl
@[simp] theorem State.wrap_poison (o n : Nat) : (s.wrap o n).poison = s.poison := rfl
@[simp] theorem State.wrap_scr (o n : Nat) : (s.wrap o n).scr = s.scr := rfl
@[simp] theorem State.wrap_scrPoison (o n : Nat) : (s.wrap o n).scrPoison = s.scrPoison := rfl
@[simp] theorem State.wrap_time (o n : Nat) : (s.wrap o n).time = s.time := rfl
@[simp] theorem State.wrap_eph (o n : Nat) : (s.wrap o n).eph = s.eph := rfl
@[simp] theorem State.wrap_ops (o n : Nat) : (s.wrap o n).ops = s.ops := rfl
@[simp] theorem State.wrap_heads (o n : Nat) : (s.wrap o n).heads = s.heads := rfl
@[simp] theorem State.wrap_bells (o n : Nat) : (s.wrap o n).bells = s.bells := rfl
@[simp] theorem State.wrap_nextOp (o n : Nat) : (s.wrap o n).nextOp = s.nextOp := rfl
@[simp] theorem State.wrap_granted (o n : Nat) : (s.wrap o n).granted = s.granted := rfl
@[simp] theorem State.wrap_stalled (o n : Nat) : (s.wrap o n).stalled = s.stalled := rfl
@[simp] theorem State.wrap_reds (o n : Nat) : (s.wrap o n).reds = s.reds := rfl
@[simp] theorem State.wrap_tier (o n : Nat) : (s.wrap o n).tier = s.tier := rfl
@[simp] theorem State.wrap_sw (o n : Nat) : (s.wrap o n).sw = s.sw := rfl
@[simp] theorem State.wrap_coh (o n : Nat) : (s.wrap o n).coh = s.coh := rfl
@[simp] theorem State.wrap_link (o n : Nat) : (s.wrap o n).link = s.link := rfl
@[simp] theorem State.wrap_flash (o n : Nat) : (s.wrap o n).flash = s.flash := rfl
@[simp] theorem State.wrap_ctx (o n : Nat) : (s.wrap o n).ctx = s.ctx := rfl
@[simp] theorem State.wrap_health (o n : Nat) : (s.wrap o n).health = s.health := rfl
@[simp] theorem State.wrap_sec (o n : Nat) : (s.wrap o n).sec = s.sec := rfl
@[simp] theorem State.wrap_alm (o n : Nat) : (s.wrap o n).alm = s.alm := rfl
@[simp] theorem State.wrap_pwr (o n : Nat) : (s.wrap o n).pwr = s.pwr := rfl
@[simp] theorem State.wrap_out (o n : Nat) : (s.wrap o n).out = s.out := rfl
@[simp] theorem State.wrap_freeCtr (o n : Nat) : (s.wrap o n).freeCtr = s.freeCtr := rfl

-- `wr64` changes registers alone
@[simp] theorem State.wr64_pending (o n : Nat) : (s.wr64 o n).pending = s.pending := rfl
@[simp] theorem State.wr64_force (o n : Nat) : (s.wr64 o n).force = s.force := rfl
@[simp] theorem State.wr64_mem (o n : Nat) : (s.wr64 o n).mem = s.mem := rfl
@[simp] theorem State.wr64_poison (o n : Nat) : (s.wr64 o n).poison = s.poison := rfl
@[simp] theorem State.wr64_scr (o n : Nat) : (s.wr64 o n).scr = s.scr := rfl
@[simp] theorem State.wr64_scrPoison (o n : Nat) : (s.wr64 o n).scrPoison = s.scrPoison := rfl
@[simp] theorem State.wr64_time (o n : Nat) : (s.wr64 o n).time = s.time := rfl
@[simp] theorem State.wr64_eph (o n : Nat) : (s.wr64 o n).eph = s.eph := rfl
@[simp] theorem State.wr64_ops (o n : Nat) : (s.wr64 o n).ops = s.ops := rfl
@[simp] theorem State.wr64_heads (o n : Nat) : (s.wr64 o n).heads = s.heads := rfl
@[simp] theorem State.wr64_bells (o n : Nat) : (s.wr64 o n).bells = s.bells := rfl
@[simp] theorem State.wr64_nextOp (o n : Nat) : (s.wr64 o n).nextOp = s.nextOp := rfl
@[simp] theorem State.wr64_granted (o n : Nat) : (s.wr64 o n).granted = s.granted := rfl
@[simp] theorem State.wr64_stalled (o n : Nat) : (s.wr64 o n).stalled = s.stalled := rfl
@[simp] theorem State.wr64_reds (o n : Nat) : (s.wr64 o n).reds = s.reds := rfl
@[simp] theorem State.wr64_tier (o n : Nat) : (s.wr64 o n).tier = s.tier := rfl
@[simp] theorem State.wr64_sw (o n : Nat) : (s.wr64 o n).sw = s.sw := rfl
@[simp] theorem State.wr64_coh (o n : Nat) : (s.wr64 o n).coh = s.coh := rfl
@[simp] theorem State.wr64_link (o n : Nat) : (s.wr64 o n).link = s.link := rfl
@[simp] theorem State.wr64_flash (o n : Nat) : (s.wr64 o n).flash = s.flash := rfl
@[simp] theorem State.wr64_ctx (o n : Nat) : (s.wr64 o n).ctx = s.ctx := rfl
@[simp] theorem State.wr64_health (o n : Nat) : (s.wr64 o n).health = s.health := rfl
@[simp] theorem State.wr64_sec (o n : Nat) : (s.wr64 o n).sec = s.sec := rfl
@[simp] theorem State.wr64_alm (o n : Nat) : (s.wr64 o n).alm = s.alm := rfl
@[simp] theorem State.wr64_pwr (o n : Nat) : (s.wr64 o n).pwr = s.pwr := rfl
@[simp] theorem State.wr64_out (o n : Nat) : (s.wr64 o n).out = s.out := rfl
@[simp] theorem State.wr64_freeCtr (o n : Nat) : (s.wr64 o n).freeCtr = s.freeCtr := rfl

-- `wrf` changes registers and the registers in force
@[simp] theorem State.wrf_pending (o : Nat) (v : Word) : (s.wrf o v).pending = s.pending := rfl
@[simp] theorem State.wrf_mem (o : Nat) (v : Word) : (s.wrf o v).mem = s.mem := rfl
@[simp] theorem State.wrf_poison (o : Nat) (v : Word) : (s.wrf o v).poison = s.poison := rfl
@[simp] theorem State.wrf_scr (o : Nat) (v : Word) : (s.wrf o v).scr = s.scr := rfl
@[simp] theorem State.wrf_scrPoison (o : Nat) (v : Word) : (s.wrf o v).scrPoison = s.scrPoison := rfl
@[simp] theorem State.wrf_time (o : Nat) (v : Word) : (s.wrf o v).time = s.time := rfl
@[simp] theorem State.wrf_eph (o : Nat) (v : Word) : (s.wrf o v).eph = s.eph := rfl
@[simp] theorem State.wrf_ops (o : Nat) (v : Word) : (s.wrf o v).ops = s.ops := rfl
@[simp] theorem State.wrf_heads (o : Nat) (v : Word) : (s.wrf o v).heads = s.heads := rfl
@[simp] theorem State.wrf_bells (o : Nat) (v : Word) : (s.wrf o v).bells = s.bells := rfl
@[simp] theorem State.wrf_nextOp (o : Nat) (v : Word) : (s.wrf o v).nextOp = s.nextOp := rfl
@[simp] theorem State.wrf_granted (o : Nat) (v : Word) : (s.wrf o v).granted = s.granted := rfl
@[simp] theorem State.wrf_stalled (o : Nat) (v : Word) : (s.wrf o v).stalled = s.stalled := rfl
@[simp] theorem State.wrf_reds (o : Nat) (v : Word) : (s.wrf o v).reds = s.reds := rfl
@[simp] theorem State.wrf_tier (o : Nat) (v : Word) : (s.wrf o v).tier = s.tier := rfl
@[simp] theorem State.wrf_sw (o : Nat) (v : Word) : (s.wrf o v).sw = s.sw := rfl
@[simp] theorem State.wrf_coh (o : Nat) (v : Word) : (s.wrf o v).coh = s.coh := rfl
@[simp] theorem State.wrf_link (o : Nat) (v : Word) : (s.wrf o v).link = s.link := rfl
@[simp] theorem State.wrf_flash (o : Nat) (v : Word) : (s.wrf o v).flash = s.flash := rfl
@[simp] theorem State.wrf_ctx (o : Nat) (v : Word) : (s.wrf o v).ctx = s.ctx := rfl
@[simp] theorem State.wrf_health (o : Nat) (v : Word) : (s.wrf o v).health = s.health := rfl
@[simp] theorem State.wrf_sec (o : Nat) (v : Word) : (s.wrf o v).sec = s.sec := rfl
@[simp] theorem State.wrf_alm (o : Nat) (v : Word) : (s.wrf o v).alm = s.alm := rfl
@[simp] theorem State.wrf_pwr (o : Nat) (v : Word) : (s.wrf o v).pwr = s.pwr := rfl
@[simp] theorem State.wrf_out (o : Nat) (v : Word) : (s.wrf o v).out = s.out := rfl
@[simp] theorem State.wrf_freeCtr (o : Nat) (v : Word) : (s.wrf o v).freeCtr = s.freeCtr := rfl

-- `emit` adds to what leaves the module
@[simp] theorem State.emit_regs (e : Out) : (s.emit e).regs = s.regs := rfl
@[simp] theorem State.emit_pending (e : Out) : (s.emit e).pending = s.pending := rfl
@[simp] theorem State.emit_force (e : Out) : (s.emit e).force = s.force := rfl
@[simp] theorem State.emit_mem (e : Out) : (s.emit e).mem = s.mem := rfl
@[simp] theorem State.emit_poison (e : Out) : (s.emit e).poison = s.poison := rfl
@[simp] theorem State.emit_scr (e : Out) : (s.emit e).scr = s.scr := rfl
@[simp] theorem State.emit_scrPoison (e : Out) : (s.emit e).scrPoison = s.scrPoison := rfl
@[simp] theorem State.emit_time (e : Out) : (s.emit e).time = s.time := rfl
@[simp] theorem State.emit_eph (e : Out) : (s.emit e).eph = s.eph := rfl
@[simp] theorem State.emit_ops (e : Out) : (s.emit e).ops = s.ops := rfl
@[simp] theorem State.emit_heads (e : Out) : (s.emit e).heads = s.heads := rfl
@[simp] theorem State.emit_bells (e : Out) : (s.emit e).bells = s.bells := rfl
@[simp] theorem State.emit_nextOp (e : Out) : (s.emit e).nextOp = s.nextOp := rfl
@[simp] theorem State.emit_granted (e : Out) : (s.emit e).granted = s.granted := rfl
@[simp] theorem State.emit_stalled (e : Out) : (s.emit e).stalled = s.stalled := rfl
@[simp] theorem State.emit_reds (e : Out) : (s.emit e).reds = s.reds := rfl
@[simp] theorem State.emit_tier (e : Out) : (s.emit e).tier = s.tier := rfl
@[simp] theorem State.emit_sw (e : Out) : (s.emit e).sw = s.sw := rfl
@[simp] theorem State.emit_coh (e : Out) : (s.emit e).coh = s.coh := rfl
@[simp] theorem State.emit_link (e : Out) : (s.emit e).link = s.link := rfl
@[simp] theorem State.emit_flash (e : Out) : (s.emit e).flash = s.flash := rfl
@[simp] theorem State.emit_ctx (e : Out) : (s.emit e).ctx = s.ctx := rfl
@[simp] theorem State.emit_health (e : Out) : (s.emit e).health = s.health := rfl
@[simp] theorem State.emit_sec (e : Out) : (s.emit e).sec = s.sec := rfl
@[simp] theorem State.emit_alm (e : Out) : (s.emit e).alm = s.alm := rfl
@[simp] theorem State.emit_pwr (e : Out) : (s.emit e).pwr = s.pwr := rfl
@[simp] theorem State.emit_freeCtr (e : Out) : (s.emit e).freeCtr = s.freeCtr := rfl
@[simp] theorem State.emit_out (e : Out) : (s.emit e).out = e :: s.out := rfl

-- what a register reads

theorem State.rd_wr (o j : Nat) (v : Word) : (s.wr o v).rd j = if j = o then v else s.rd j := sget_sset _ _ _ _
@[simp] theorem State.rd_wr_same (o : Nat) (v : Word) : (s.wr o v).rd o = v := sget_sset_same _ _ _
@[simp] theorem State.rd_wr_ne (o j : Nat) (v : Word) (h : j ≠ o) : (s.wr o v).rd j = s.rd j := sget_sset_ne _ _ _ _ h
theorem State.rd_wrf (o j : Nat) (v : Word) : (s.wrf o v).rd j = if j = o then v else s.rd j := sget_sset _ _ _ _
theorem State.frd_wrf (o j : Nat) (v : Word) : (s.wrf o v).frd j = if j = o then v else s.frd j := sget_sset _ _ _ _
@[simp] theorem State.frd_wr (o j : Nat) (v : Word) : (s.wr o v).frd j = s.frd j := rfl
theorem State.rd_wrn (o j n : Nat) : (s.wrn o n).rd j = if j = o then BitVec.ofNat 32 n else s.rd j := sget_sset _ _ _ _
@[simp] theorem State.rd_wrn_ne (o j n : Nat) (h : j ≠ o) : (s.wrn o n).rd j = s.rd j := sget_sset_ne _ _ _ _ h
@[simp] theorem State.rd_wrn_same (o n : Nat) : (s.wrn o n).rd o = BitVec.ofNat 32 n := sget_sset_same _ _ _
theorem State.rd_set (o j : Nat) (m : Word) : (s.set o m).rd j = if j = o then s.rd o ||| m else s.rd j := sget_sset _ _ _ _
@[simp] theorem State.rd_set_ne (o j : Nat) (m : Word) (h : j ≠ o) : (s.set o m).rd j = s.rd j := sget_sset_ne _ _ _ _ h
@[simp] theorem State.rd_set_same (o : Nat) (m : Word) : (s.set o m).rd o = s.rd o ||| m := sget_sset_same _ _ _
theorem State.rd_clr (o j : Nat) (m : Word) : (s.clr o m).rd j = if j = o then s.rd o &&& ~~~m else s.rd j := sget_sset _ _ _ _
@[simp] theorem State.rd_clr_ne (o j : Nat) (m : Word) (h : j ≠ o) : (s.clr o m).rd j = s.rd j := sget_sset_ne _ _ _ _ h
@[simp] theorem State.rd_clr_same (o : Nat) (m : Word) : (s.clr o m).rd o = s.rd o &&& ~~~m := sget_sset_same _ _ _
@[simp] theorem State.rd_wrFld_ne (o j l w v : Nat) (h : j ≠ o) : (s.wrFld o l w v).rd j = s.rd j := sget_sset_ne _ _ _ _ h
@[simp] theorem State.rd_wrFld_same (o l w v : Nat) : (s.wrFld o l w v).rd o = BitVec.ofNat 32 (nput (s.rd o).toNat l w v) :=
  sget_sset_same _ _ _
@[simp] theorem State.rd_sat_ne (o j n : Nat) (h : j ≠ o) : (s.sat o n).rd j = s.rd j := sget_sset_ne _ _ _ _ h
@[simp] theorem State.rd_sat_same (o n : Nat) : (s.sat o n).rd o = BitVec.ofNat 32 (min 0xFFFFFFFF ((s.rd o).toNat + n)) :=
  sget_sset_same _ _ _
@[simp] theorem State.rd_wrap_ne (o j n : Nat) (h : j ≠ o) : (s.wrap o n).rd j = s.rd j := sget_sset_ne _ _ _ _ h
@[simp] theorem State.rd_wrap_same (o n : Nat) : (s.wrap o n).rd o = BitVec.ofNat 32 ((s.rd o).toNat + n) := sget_sset_same _ _ _
@[simp] theorem State.rd_emit (e : Out) (j : Nat) : (s.emit e).rd j = s.rd j := rfl
@[simp] theorem State.frd_emit (e : Out) (j : Nat) : (s.emit e).frd j = s.frd j := rfl

@[simp] theorem State.when_true (f : State → State) : s.when true f = f s := rfl
@[simp] theorem State.when_false (f : State → State) : s.when false f = s := rfl
@[simp] theorem State.each_nil {α : Type} (f : α → State → State) : s.each [] f = s := rfl
@[simp] theorem State.each_cons {α : Type} (a : α) (l : List α) (f : α → State → State) : s.each (a :: l) f = (f a s).each l f := rfl

end Sys2Proof.Machine
end

