-- ==== Sys2Proof/Laws/Frame.lean ====
section
/-! SUPPORT. What the shared operations leave alone: for each, the parts of the state and the registers it may change. -/

namespace Sys2Proof.Machine

theorem only_refl (ps : List Part) (l : List Nat) (s : State) : only ps l s s :=
  ⟨fun p _ => by cases p <;> rfl, fun _ _ => rfl⟩

theorem only_trans {ps : List Part} {l : List Nat} {s t u : State} (h : only ps l s t) (k : only ps l t u) : only ps l s u := by
  refine ⟨fun p hp => ?_, fun o ho => (k.2 o ho).trans (h.2 o ho)⟩
  have a := h.1 p hp
  have b := k.1 p hp
  cases p <;> exact Eq.trans b a

theorem only_mono {ps qs : List Part} {l m : List Nat} {s t : State} (h : only ps l s t) (hp : ∀ p ∈ ps, p ∈ qs) (hl : ∀ o ∈ l, o ∈ m) :
    only qs m s t :=
  ⟨fun p k => h.1 p (fun e => k (hp p e)), fun o k => h.2 o (fun e => k (hl o e))⟩

-- one field put anew
theorem only_put_pending {ps : List Part} (l : List Nat) (s : State) (v : List Instr) (h : Part.pending ∈ ps) : only ps l s { s with pending := v } :=
  ⟨fun p hp => by cases p <;> first | rfl | exact absurd h hp, fun _ _ => rfl⟩

theorem only_put_force {ps : List Part} (l : List Nat) (s : State) (v : List (Nat × Word)) (h : Part.force ∈ ps) : only ps l s { s with force := v } :=
  ⟨fun p hp => by cases p <;> first | rfl | exact absurd h hp, fun _ _ => rfl⟩

theorem only_put_mem {ps : List Part} (l : List Nat) (s : State) (v : List Host.Cell) (h : Part.mem ∈ ps) : only ps l s { s with mem := v } :=
  ⟨fun p hp => by cases p <;> first | rfl | exact absurd h hp, fun _ _ => rfl⟩

theorem only_put_poison {ps : List Part} (l : List Nat) (s : State) (v : List Nat) (h : Part.poison ∈ ps) : only ps l s { s with poison := v } :=
  ⟨fun p hp => by cases p <;> first | rfl | exact absurd h hp, fun _ _ => rfl⟩

theorem only_put_scr {ps : List Part} (l : List Nat) (s : State) (v : List (Nat × Byte)) (h : Part.scr ∈ ps) : only ps l s { s with scr := v } :=
  ⟨fun p hp => by cases p <;> first | rfl | exact absurd h hp, fun _ _ => rfl⟩

theorem only_put_scrPoison {ps : List Part} (l : List Nat) (s : State) (v : List Nat) (h : Part.scrPoison ∈ ps) : only ps l s { s with scrPoison := v } :=
  ⟨fun p hp => by cases p <;> first | rfl | exact absurd h hp, fun _ _ => rfl⟩

theorem only_put_time {ps : List Part} (l : List Nat) (s : State) (v : TimeS) (h : Part.time ∈ ps) : only ps l s { s with time := v } :=
  ⟨fun p hp => by cases p <;> first | rfl | exact absurd h hp, fun _ _ => rfl⟩

theorem only_put_eph {ps : List Part} (l : List Nat) (s : State) (v : EphS) (h : Part.eph ∈ ps) : only ps l s { s with eph := v } :=
  ⟨fun p hp => by cases p <;> first | rfl | exact absurd h hp, fun _ _ => rfl⟩

theorem only_put_ops {ps : List Part} (l : List Nat) (s : State) (v : List Op) (h : Part.ops ∈ ps) : only ps l s { s with ops := v } :=
  ⟨fun p hp => by cases p <;> first | rfl | exact absurd h hp, fun _ _ => rfl⟩

theorem only_put_heads {ps : List Part} (l : List Nat) (s : State) (v : List Head) (h : Part.heads ∈ ps) : only ps l s { s with heads := v } :=
  ⟨fun p hp => by cases p <;> first | rfl | exact absurd h hp, fun _ _ => rfl⟩

theorem only_put_bells {ps : List Part} (l : List Nat) (s : State) (v : List Bell) (h : Part.bells ∈ ps) : only ps l s { s with bells := v } :=
  ⟨fun p hp => by cases p <;> first | rfl | exact absurd h hp, fun _ _ => rfl⟩

theorem only_put_nextOp {ps : List Part} (l : List Nat) (s : State) (v : Nat) (h : Part.nextOp ∈ ps) : only ps l s { s with nextOp := v } :=
  ⟨fun p hp => by cases p <;> first | rfl | exact absurd h hp, fun _ _ => rfl⟩

theorem only_put_granted {ps : List Part} (l : List Nat) (s : State) (v : List (Nat × Nat)) (h : Part.granted ∈ ps) : only ps l s { s with granted := v } :=
  ⟨fun p hp => by cases p <;> first | rfl | exact absurd h hp, fun _ _ => rfl⟩

theorem only_put_stalled {ps : List Part} (l : List Nat) (s : State) (v : List Nat) (h : Part.stalled ∈ ps) : only ps l s { s with stalled := v } :=
  ⟨fun p hp => by cases p <;> first | rfl | exact absurd h hp, fun _ _ => rfl⟩

theorem only_put_reds {ps : List Part} (l : List Nat) (s : State) (v : List Stream) (h : Part.reds ∈ ps) : only ps l s { s with reds := v } :=
  ⟨fun p hp => by cases p <;> first | rfl | exact absurd h hp, fun _ _ => rfl⟩

theorem only_put_tier {ps : List Part} (l : List Nat) (s : State) (v : TierS) (h : Part.tier ∈ ps) : only ps l s { s with tier := v } :=
  ⟨fun p hp => by cases p <;> first | rfl | exact absurd h hp, fun _ _ => rfl⟩

theorem only_put_sw {ps : List Part} (l : List Nat) (s : State) (v : SwS) (h : Part.sw ∈ ps) : only ps l s { s with sw := v } :=
  ⟨fun p hp => by cases p <;> first | rfl | exact absurd h hp, fun _ _ => rfl⟩

theorem only_put_coh {ps : List Part} (l : List Nat) (s : State) (v : CohS) (h : Part.coh ∈ ps) : only ps l s { s with coh := v } :=
  ⟨fun p hp => by cases p <;> first | rfl | exact absurd h hp, fun _ _ => rfl⟩

theorem only_put_link {ps : List Part} (l : List Nat) (s : State) (v : LinkS) (h : Part.link ∈ ps) : only ps l s { s with link := v } :=
  ⟨fun p hp => by cases p <;> first | rfl | exact absurd h hp, fun _ _ => rfl⟩

theorem only_put_flash {ps : List Part} (l : List Nat) (s : State) (v : FlashS) (h : Part.flash ∈ ps) : only ps l s { s with flash := v } :=
  ⟨fun p hp => by cases p <;> first | rfl | exact absurd h hp, fun _ _ => rfl⟩

theorem only_put_ctx {ps : List Part} (l : List Nat) (s : State) (v : CtxS) (h : Part.ctx ∈ ps) : only ps l s { s with ctx := v } :=
  ⟨fun p hp => by cases p <;> first | rfl | exact absurd h hp, fun _ _ => rfl⟩

theorem only_put_health {ps : List Part} (l : List Nat) (s : State) (v : HealthS) (h : Part.health ∈ ps) : only ps l s { s with health := v } :=
  ⟨fun p hp => by cases p <;> first | rfl | exact absurd h hp, fun _ _ => rfl⟩

theorem only_put_sec {ps : List Part} (l : List Nat) (s : State) (v : SecS) (h : Part.sec ∈ ps) : only ps l s { s with sec := v } :=
  ⟨fun p hp => by cases p <;> first | rfl | exact absurd h hp, fun _ _ => rfl⟩

theorem only_put_alm {ps : List Part} (l : List Nat) (s : State) (v : AlmS) (h : Part.alm ∈ ps) : only ps l s { s with alm := v } :=
  ⟨fun p hp => by cases p <;> first | rfl | exact absurd h hp, fun _ _ => rfl⟩

theorem only_put_pwr {ps : List Part} (l : List Nat) (s : State) (v : PwrS) (h : Part.pwr ∈ ps) : only ps l s { s with pwr := v } :=
  ⟨fun p hp => by cases p <;> first | rfl | exact absurd h hp, fun _ _ => rfl⟩

theorem only_put_out {ps : List Part} (l : List Nat) (s : State) (v : List Out) (h : Part.out ∈ ps) : only ps l s { s with out := v } :=
  ⟨fun p hp => by cases p <;> first | rfl | exact absurd h hp, fun _ _ => rfl⟩

theorem only_put_freeCtr {ps : List Part} (l : List Nat) (s : State) (v : Nat) (h : Part.freeCtr ∈ ps) : only ps l s { s with freeCtr := v } :=
  ⟨fun p hp => by cases p <;> first | rfl | exact absurd h hp, fun _ _ => rfl⟩

theorem only_wr (ps : List Part) {l : List Nat} (s : State) {o : Nat} (v : Word) (ho : o ∈ l) : only ps l s (s.wr o v) :=
  ⟨fun p _ => by cases p <;> rfl, fun j hj => State.rd_wr_ne _ _ _ _ (fun e => hj (e ▸ ho))⟩

theorem only_wrn (ps : List Part) {l : List Nat} (s : State) {o : Nat} (n : Nat) (ho : o ∈ l) : only ps l s (s.wrn o n) :=
  only_wr ps s _ ho

theorem only_wrFld (ps : List Part) {l : List Nat} (s : State) {o : Nat} (a w v : Nat) (ho : o ∈ l) : only ps l s (s.wrFld o a w v) :=
  only_wr ps s _ ho

theorem only_set (ps : List Part) {l : List Nat} (s : State) {o : Nat} (m : Word) (ho : o ∈ l) : only ps l s (s.set o m) :=
  only_wr ps s _ ho

theorem only_clr (ps : List Part) {l : List Nat} (s : State) {o : Nat} (m : Word) (ho : o ∈ l) : only ps l s (s.clr o m) :=
  only_wr ps s _ ho

theorem only_sat (ps : List Part) {l : List Nat} (s : State) {o : Nat} (n : Nat) (ho : o ∈ l) : only ps l s (s.sat o n) :=
  only_wr ps s _ ho

theorem only_wrap (ps : List Part) {l : List Nat} (s : State) {o : Nat} (n : Nat) (ho : o ∈ l) : only ps l s (s.wrap o n) :=
  only_wr ps s _ ho

theorem only_wr64 (ps : List Part) {l : List Nat} (s : State) {o : Nat} (n : Nat) (ho : o ∈ l) (ho' : o + 4 ∈ l) :
    only ps l s (s.wr64 o n) :=
  only_trans (only_wrn ps s n ho) (only_wrn ps _ _ ho')

theorem only_when {ps : List Part} {l : List Nat} (s : State) (c : Bool) {f : State → State} (h : c = true → only ps l s (f s)) :
    only ps l s (s.when c f) := by
  cases c with
  | true => exact h rfl
  | false => exact only_refl _ _ _

theorem only_each {α : Type} {ps : List Part} {l : List Nat} (as : List α) {f : α → State → State}
    (h : ∀ a ∈ as, ∀ t, only ps l t (f a t)) : ∀ s : State, only ps l s (s.each as f) := by
  induction as with
  | nil => exact fun s => only_refl _ _ s
  | cons a as ih =>
    intro s
    exact only_trans (h a (by simp) s) (ih (fun b hb => h b (by simp [hb])) (f a s))

theorem only_emit {ps : List Part} (l : List Nat) (s : State) (o : Out) (h : Part.out ∈ ps) : only ps l s (s.emit o) :=
  ⟨fun p hp => by cases p <;> first | rfl | exact absurd h hp, fun _ _ => rfl⟩

theorem only_msix {ps : List Part} (l : List Nat) (s : State) (a b : Nat) (h : Part.out ∈ ps) (h' : Part.link ∈ ps) :
    only ps l s (s.msix a b) := by
  unfold State.msix
  split
  · exact only_refl _ _ _
  · split
    · exact ⟨fun p hp => by cases p <;> first | rfl | exact absurd h' hp, fun _ _ => rfl⟩
    · exact only_emit l s _ h

theorem only_pviol (ps : List Part) {l : List Nat} (s : State) {i : Nat} (h : pviolReg i ∈ l) : only ps l s (s.pviol i) :=
  only_sat ps s 1 h

theorem only_wakeIdle {ps : List Part} (l : List Nat) (s : State) (h : Part.pwr ∈ ps) : only ps l s s.wakeIdle := by
  unfold State.wakeIdle
  split
  · exact ⟨fun p hp => by cases p <;> first | rfl | exact absurd h hp, fun _ _ => rfl⟩
  · exact only_refl _ _ _

theorem only_fault {ps : List Part} (l : List Nat) (s : State) (x r : Nat) (h : Part.ctx ∈ ps) : only ps l s (s.fault x r) :=
  ⟨fun p hp => by cases p <;> first | rfl | exact absurd h hp, fun _ _ => rfl⟩

theorem only_recheck {ps : List Part} (l : List Nat) (s : State) (c : Nat) (h : Part.heads ∈ ps) : only ps l s (s.recheck c) :=
  ⟨fun p hp => by cases p <;> first | rfl | exact absurd h hp, fun _ _ => rfl⟩

theorem only_setOp {ps : List Part} (l : List Nat) (s : State) (o : Op) (h : Part.ops ∈ ps) : only ps l s (s.setOp o) :=
  ⟨fun p hp => by cases p <;> first | rfl | exact absurd h hp, fun _ _ => rfl⟩

theorem only_done {ps : List Part} (l : List Nat) (s : State) (o : Op) (st : Status) (h : Part.ops ∈ ps) : only ps l s (s.done o st) :=
  only_setOp l s _ h

theorem only_mark {ps : List Part} (l : List Nat) (s : State) (a n : Nat) (h : Part.tier ∈ ps) : only ps l s (s.mark a n) :=
  ⟨fun p hp => by cases p <;> first | rfl | exact absurd h hp, fun _ _ => rfl⟩

theorem only_progress {ps : List Part} (l : List Nat) (s : State) (u : HUnit) (h : Part.health ∈ ps) : only ps l s (s.progress u) :=
  ⟨fun p hp => by cases p <;> first | rfl | exact absurd h hp, fun _ _ => rfl⟩

theorem only_flushLine {ps : List Part} (l : List Nat) (s : State) (k : Nat) (h : Part.mem ∈ ps) : only ps l s (s.flushLine k) := by
  unfold State.flushLine
  split
  · exact ⟨fun p hp => by cases p <;> first | rfl | exact absurd h hp, fun _ _ => rfl⟩
  · exact only_refl _ _ _

theorem mem_errRegs (i j : Nat) (hi : i < 4096) (hj : j < 8) : logReg i (4 * j) ∈ errRegs := by
  simp only [errRegs, logReg, List.mem_cons, List.mem_map, List.mem_range]
  exact .inr (.inr ⟨8 * i + j, by omega, by omega⟩)

theorem only_errLog {ps : List Part} {l : List Nat} (s : State) (k st so x a d : Nat) (h1 : Part.health ∈ ps) (h2 : Part.out ∈ ps)
    (h' : Part.link ∈ ps) (hl : ∀ o ∈ errRegs, o ∈ l) : only ps l s (s.errLog k st so x a d) := by
  unfold State.errLog
  split
  · exact only_sat ps s 1 (hl _ (by simp [errRegs]))
  · extract_lets slot tag ws s1 s2
    have h12 : only ps l s s2 := by
      refine only_trans (only_each _ (fun p hp t => only_wrn ps t _ (hl _ ?_)) s) (only_wrap ps s1 1 (hl 0x818 (by simp [errRegs])))
      exact mem_errRegs _ _ (Nat.mod_lt _ (by decide)) (List.mem_range.1 (List.of_mem_zip hp).2)
    refine only_trans h12 ?_
    split
    · exact only_refl _ _ _
    · exact only_trans (only_put_health l s2 _ h1) (only_when _ _ (fun _ => only_msix _ _ _ _ h2 h'))

theorem only_fresh {ps : List Part} (l : List Nat) (s : State) (h : Part.freeCtr ∈ ps) : only ps l s s.fresh.2 :=
  ⟨fun p hp => by cases p <;> first | rfl | exact absurd h hp, fun _ _ => rfl⟩

theorem only_errLogOpen {ps : List Part} {l : List Nat} (s : State) (k x a d : Nat) (h1 : Part.health ∈ ps) (h2 : Part.out ∈ ps)
    (h3 : Part.freeCtr ∈ ps) (h' : Part.link ∈ ps) (hl : ∀ o ∈ errRegs, o ∈ l) : only ps l s (s.errLogOpen k x a d) :=
  only_trans (only_fresh l s h3) (only_errLog _ _ _ _ _ _ _ h1 h2 h' hl)

theorem only_dirSync {ps : List Part} {l : List Nat} (s : State) (hl : ∀ o ∈ dirRegs, o ∈ l) : only ps l s s.dirSync := by
  unfold State.dirSync
  refine only_trans (only_each _ (fun h hh t => only_trans (only_wrn ps t _ (hl _ ?_)) (only_wrn ps _ _ (hl _ ?_))) s)
    (only_each _ (fun d hd t => only_wrn ps t _ (hl _ ?_)) _)
  · exact List.mem_append_left _ (List.mem_flatMap.2 ⟨h, hh, by simp⟩)
  · exact List.mem_append_left _ (List.mem_flatMap.2 ⟨h, hh, by simp⟩)
  · simp only [List.mem_cons, List.not_mem_nil, or_false] at hd
    apply List.mem_append_right
    rcases hd with rfl | rfl | rfl <;> simp

theorem only_dropCopies {ps : List Part} {l : List Nat} (s : State) (a : Nat) (d : List Byte) (h1 : Part.coh ∈ ps) (h2 : Part.out ∈ ps)
    (hl : ∀ o ∈ dirRegs, o ∈ l) : only ps l s (s.dropCopies a d) := by
  simp only [State.dropCopies]
  split
  · refine only_trans ?_ (only_dirSync _ hl)
    exact ⟨fun p hp => by cases p <;> first | rfl | exact absurd h1 hp | exact absurd h2 hp, fun _ _ => rfl⟩
  · exact only_refl _ _ _

theorem only_write {ps : List Part} {l : List Nat} (s : State) (a : Nat) (d : List Byte) (h1 : Part.coh ∈ ps) (h2 : Part.out ∈ ps)
    (h3 : Part.mem ∈ ps) (h4 : Part.poison ∈ ps) (hl : ∀ o ∈ dirRegs, o ∈ l) : only ps l s (s.write a d) := by
  refine only_trans (only_dropCopies s a d h1 h2 hl) ?_
  exact ⟨fun p hp => by cases p <;> first | rfl | exact absurd h1 hp | exact absurd h3 hp | exact absurd h4 hp, fun _ _ => rfl⟩

theorem only_store {ps : List Part} {l : List Nat} (s : State) (a : Nat) (d : List Byte) (h1 : Part.coh ∈ ps) (h2 : Part.out ∈ ps)
    (h3 : Part.mem ∈ ps) (h4 : Part.poison ∈ ps) (h5 : Part.tier ∈ ps) (hl : ∀ o ∈ dirRegs, o ∈ l) : only ps l s (s.store a d) := by
  unfold State.store
  split
  · exact only_refl _ _ _
  · exact only_trans (only_each _ (fun k _ t => only_flushLine l t k h3) s)
      (only_trans (only_write _ a d h1 h2 h3 h4 hl) (only_mark l _ _ _ h5))

theorem only_trace {ps : List Part} {l : List Nat} (s : State) (k so x st : Nat) (h1 : Part.coh ∈ ps) (h2 : Part.out ∈ ps)
    (h3 : Part.mem ∈ ps) (h4 : Part.poison ∈ ps) (hl : ∀ o ∈ dirRegs, o ∈ l) (hr : 0x730 ∈ l) (hr' : 0x738 ∈ l) :
    only ps l s (s.trace k so x st) := by
  simp only [State.trace]
  split
  · split
    · exact only_sat ps s 1 hr'
    · refine only_trans ?_ (only_wrap ps _ 1 hr)
      split
      · exact only_write s _ _ h1 h2 h3 h4 hl
      · exact only_refl _ _ _
  · exact only_refl _ _ _

theorem only_notify {ps : List Part} {l : List Nat} (s : State) (c : Nat) (h1 : Part.out ∈ ps) (h' : Part.link ∈ ps) (h2 : Part.pwr ∈ ps)
    (hl : counterBlock c + 0x1C ∈ l) : only ps l s (s.notify c) := by
  simp only [State.notify]
  split
  · refine only_trans (only_wr ps s _ hl) (only_trans (only_msix l _ _ _ h1 h') (only_when _ _ (fun _ => ?_)))
    exact ⟨fun p hp => by cases p <;> first | rfl | exact absurd h2 hp, fun _ _ => rfl⟩
  · exact only_refl _ _ _

theorem only_ctrPut {ps : List Part} {l : List Nat} (s : State) (c v : Nat) (h1 : Part.out ∈ ps) (h' : Part.link ∈ ps) (h2 : Part.pwr ∈ ps)
    (h3 : Part.heads ∈ ps) (hl : ∀ o ∈ [counterBlock c, counterBlock c + 4, counterBlock c + 0x1C], o ∈ l) :
    only ps l s (((s.wr64 (counterBlock c) (v % 2 ^ 64)).recheck c).notify c) :=
  only_trans (only_wr64 ps s (v % 2 ^ 64) (hl _ (by simp)) (hl _ (by simp)))
    (only_trans (only_recheck l _ c h3) (only_notify _ c h1 h' h2 (hl _ (by simp))))

theorem tier_of_only {ps : List Part} {l : List Nat} {s t : State} (h : only ps l s t) (hp : Part.tier ∉ ps) : t.tier = s.tier := h.1 .tier hp

theorem streamsOf_nil (s : State) (c : Nat) (h : s.tier.streams = []) : s.streamsOf c = [] := by simp [State.streamsOf, h]

theorem ctrPut_streams (s : State) (c v : Nat) (h : s.tier.streams = []) :
    (((s.wr64 (counterBlock c) (v % 2 ^ 64)).recheck c).notify c).tier.streams = [] := by
  rw [tier_of_only (only_ctrPut (ps := [.out, .link, .pwr, .heads]) s c v (by simp) (by simp) (by simp) (by simp) (fun _ h => h)) (by simp)]
  exact h

theorem only_each_nil {α : Type} {ps : List Part} {l : List Nat} {s u : State} (f : α → State → State) {k : List α} (h : only ps l s u)
    (hk : k = []) : only ps l s (u.each k f) := by
  subst hk
  exact h

/-- A counter takes its value and what waits for it sees it; where there is no weight stream, none lets go of a copy (R145, R358). -/
theorem only_ctrSet {ps : List Part} {l : List Nat} (s : State) (c v : Nat) (h0 : s.tier.streams = []) (h1 : Part.out ∈ ps)
    (h' : Part.link ∈ ps) (h2 : Part.pwr ∈ ps) (h3 : Part.heads ∈ ps)
    (hl : ∀ o ∈ [counterBlock c, counterBlock c + 4, counterBlock c + 0x1C], o ∈ l) : only ps l s (s.ctrSet c v) := by
  unfold State.ctrSet
  exact only_each_nil _ (only_ctrPut s c v h1 h' h2 h3 hl) (streamsOf_nil _ c (ctrPut_streams s c v h0))

theorem only_stepMark {ps : List Part} {l : List Nat} (s : State) (x : Nat) (hl : ∀ o ∈ [healthReg x 4, healthReg x 8, healthReg x 12], o ∈ l) :
    only ps l s (s.stepMark x) :=
  only_trans (only_wrn ps s _ (hl _ (by simp))) (only_trans (only_wrn ps _ _ (hl _ (by simp))) (only_clr ps _ _ (hl _ (by simp))))

theorem only_ctrAdd {ps : List Part} {l : List Nat} (s : State) (c n : Nat) (h0 : s.tier.streams = []) (h1 : Part.out ∈ ps) (h' : Part.link ∈ ps) (h2 : Part.pwr ∈ ps) (h3 : Part.heads ∈ ps)
    (hl : ∀ o ∈ addRegs c, o ∈ l) : only ps l s (s.ctrAdd c n) := by
  refine only_trans (only_ctrSet s c _ h0 h1 h' h2 h3 (fun o ho => hl o (List.mem_append_left _ ho))) (only_when _ _ (fun _ => ?_))
  refine only_when _ _ (fun _ => only_stepMark _ _ (fun o ho => hl o (List.mem_append_right _ ?_)))
  exact List.mem_flatMap.2 ⟨_, List.mem_range.2 (Nat.mod_lt _ (by decide)), ho⟩

theorem only_ctrFail {ps : List Part} {l : List Nat} (s : State) (c : Nat) (st : Status) (hl : counterBlock c + 0x14 ∈ l) :
    only ps l s (s.ctrFail c st) := only_wrn ps s _ hl

theorem only_poisonMet {ps : List Part} {l : List Nat} (s : State) (a : Nat)
    (hp : ∀ o ∈ [domReg (s.lineDom (a / 64)) 0x10, dirReg (homeSlice (a / 64)) 0x18], o ∈ l) : only ps l s (s.poisonMet a) :=
  only_when s _ (fun _ => only_trans (only_set ps s _ (hp _ (by simp))) (only_sat ps _ 1 (hp _ (by simp))))

theorem only_media {ps : List Part} {l : List Nat} (s : State) (o : Op) (a : Nat) (h1 : Part.health ∈ ps) (h2 : Part.out ∈ ps)
    (h3 : Part.ctx ∈ ps) (h' : Part.link ∈ ps) (hl : ∀ o ∈ errRegs, o ∈ l)
    (hp : ∀ d, ∀ o ∈ [domReg d 0x10, dirReg (homeSlice (a / 64)) 0x18], o ∈ l) : only ps l s (s.media o a) :=
  only_trans (only_errLog s _ _ _ _ _ _ h1 h2 h' hl) (only_trans (only_poisonMet _ a (hp _)) (only_fault l _ _ _ h3))

theorem only_finish {ps : List Part} {l : List Nat} (s : State) (o : Op) (st : Status) (a : Nat) (h0 : Part.ops ∈ ps) (h1 : Part.health ∈ ps)
    (h2 : Part.out ∈ ps) (h3 : Part.ctx ∈ ps) (h' : Part.link ∈ ps) (hl : ∀ o ∈ errRegs, o ∈ l)
    (hp : ∀ d, ∀ o ∈ [domReg d 0x10, dirReg (homeSlice (a / 64)) 0x18], o ∈ l) : only ps l s (s.finish o st a) :=
  only_trans (only_done l s o st h0) (only_when _ _ (fun _ => only_media _ o a h1 h2 h3 h' hl hp))

end Sys2Proof.Machine
end

