-- ==== Sys2Proof/Laws/Access.lean ====
section
/-! SUPPORT. What an accepted command of an owner port does (R486), what a write under access codes stores (R11), fields read back,
and the standby slot's registers. -/

namespace Sys2Proof.Machine

theorem reg_accepts {s : State} {port off : Nat} (h : s.accepts port off = true) (i : Sys2Proof.Instr) (f : State → State) :
    s.reg i port off f = f s := by
  simp [State.accepts, State.serves, State.ready] at h
  obtain ⟨⟨⟨h1, h2⟩, h3⟩, h4⟩ := h
  simp [State.reg, State.served, State.ready, h1, h2, h3, h4]

theorem regS_accepts {s : State} {port off : Nat} (h : s.accepts port off = true) (i : Sys2Proof.Instr) (v : Word) (f : State → State) :
    s.regS i port off v f = f s := by
  simp [State.accepts, State.serves, State.ready] at h
  obtain ⟨⟨⟨h1, h2⟩, h3⟩, h4⟩ := h
  simp [State.regS, State.served, State.ready, h1, h2, h3, h4]

theorem accepts_owner {s : State} {port off : Nat} (h : s.accepts port off = true) : s.owner port = true := by
  simp [State.accepts] at h
  exact h.2

theorem plain_rest {s : State} {port off : Nat} (h : s.owner port = true) (v : Word) : ∃ w, s.plainWrite port off v = s.wr off w := by
  simp only [State.plainWrite, State.codeWrite, h]
  exact ⟨_, rfl⟩

/-- What a register reads after a write of an owner port. -/
theorem rd_plain {s : State} {port off : Nat} (h : s.owner port = true) (v : Word) :
    (s.plainWrite port off v).rd off =
      (s.rd off &&& ~~~(((regInfo off).rw ||| (regInfo off).rws) ||| (v &&& (regInfo off).w1c)))
        ||| (v &&& ((regInfo off).rw ||| (regInfo off).rws)) := by
  simp [State.plainWrite, State.codeWrite, h, State.when]

theorem plain_ne {s : State} {port off j : Nat} (h : s.owner port = true) (v : Word) (hj : j ≠ off) :
    (s.plainWrite port off v).rd j = s.rd j := by
  obtain ⟨w, hw⟩ := plain_rest (off := off) h v
  rw [hw]
  simp [hj]

theorem only_plain (ps : List Part) {l : List Nat} {s : State} {port off : Nat} (h : s.owner port = true) (v : Word) (ho : off ∈ l) :
    only ps l s (s.plainWrite port off v) := by
  obtain ⟨w, hw⟩ := plain_rest (off := off) h v
  rw [hw]
  exact only_wr ps s w ho

theorem nbits_ext (x : Word) (lo w : Nat) : nbits x.toNat lo w = (x.extractLsb' lo w).toNat := by
  simp [nbits, BitVec.extractLsb'_toNat, Nat.shiftRight_eq_div_pow]

theorem find_filter_ne {β : Type} (l : List (Nat × β)) (p n : Nat) (h : n ≠ p) :
    (l.filter (fun q => q.1 != p)).find? (fun q => q.1 == n) = l.find? (fun q => q.1 == n) := by
  induction l with
  | nil => rfl
  | cons a l ih =>
    by_cases ha : a.1 = p
    · simp [ha, ih, beq_eq_false_iff_ne.2 (fun e : p = n => h e.symm)]
    · simp [ha, ih, List.find?_cons]

theorem fld_of_rd {s t : State} {j : Nat} (h : t.rd j = s.rd j) (lo w : Nat) : t.fld j lo w = s.fld j lo w := by simp [State.fld, h]

theorem fld_wrFld (s : State) (o lo w v : Nat) (hv : v < 2^w) (hw : lo + w ≤ 32) : (s.wrFld o lo w v).fld o lo w = v := by
  simp only [State.fld, State.rd_wrFld_same, nbits, nput, BitVec.toNat_ofNat]
  have h1 := (s.rd o).isLt
  generalize (s.rd o).toNat = x at *
  have e : 2^32 = 2^lo * (2^w * 2^(32-lo-w)) := by rw [← Nat.pow_add, ← Nat.pow_add]; congr 1; omega
  have hp : 0 < 2^lo := Nat.pos_of_ne_zero (by positivity)
  rw [e, Nat.mod_mul_right_div_self, Nat.mod_mul_right_mod, Nat.mod_eq_of_lt hv]
  have hx : x / 2^lo % 2^w * 2^lo ≤ x := by
    have := Nat.div_mul_le_self x (2^lo); have := Nat.mod_le (x / 2^lo) (2^w); nlinarith
  have h3 : x - x / 2^lo % 2^w * 2^lo + v * 2^lo = (x % 2^lo) + 2^lo * ((2^w * (x / 2^lo / 2^w)) + v) := by
    have a := Nat.div_add_mod x (2^lo)
    have b := Nat.div_add_mod (x / 2^lo) (2^w)
    have : x = 2^lo * (2^w * (x / 2^lo / 2^w) + x / 2^lo % 2^w) + x % 2^lo := by rw [b]; exact a.symm
    have c : x - x / 2^lo % 2^w * 2^lo = 2^lo * (2^w * (x / 2^lo / 2^w)) + x % 2^lo := by
      apply Nat.sub_eq_of_eq_add; nlinarith
    rw [c]; ring
  rw [h3, Nat.add_mul_div_left _ _ hp, Nat.div_eq_of_lt (Nat.mod_lt _ hp), Nat.zero_add, Nat.mul_add_mod, Nat.mod_eq_of_lt hv]
theorem ephReg_inj (d e a b : Nat) (ha : a < 0x100) (hb : b < 0x100) (h : ephReg d a = ephReg e b) : d = e ∧ a = b := by
  simp [ephReg, dieReg, dieBase] at h; omega
@[simp] theorem setStandby_eph (s : State) (a b : Nat) : (s.setStandby a b).eph = s.eph := rfl
@[simp] theorem setStandbyState_eph (s : State) (a : Nat) : (s.setStandbyState a).eph = s.eph := rfl
theorem setStandby_state (s : State) (a b : Nat) (h : a < 8) : (s.setStandby a b).standbyState = a := by
  simp only [State.setStandby, State.standbyState, List.range, List.range.loop, State.each_cons, State.each_nil]
  have : ∀ (t : State), t.rd (ephReg 0 0) = ((s.wrFld (ephReg 0 0) 4 3 a)).rd (ephReg 0 0) → t.fld (ephReg 0 0) 4 3 = a := by
    intro t ht; rw [fld_of_rd ht, fld_wrFld _ _ _ _ _ h (by decide)]
  apply this
  simp (disch := decide) only [State.rd_wrn_ne, State.rd_wrFld_ne]
theorem setStandbyState_state (s : State) (a : Nat) (h : a < 8) : (s.setStandbyState a).standbyState = a := by
  simp only [State.setStandbyState, State.standbyState, List.range, List.range.loop, State.each_cons, State.each_nil]
  have : ∀ (t : State), t.rd (ephReg 0 0) = ((s.wrFld (ephReg 0 0) 4 3 a)).rd (ephReg 0 0) → t.fld (ephReg 0 0) 4 3 = a := by
    intro t ht; rw [fld_of_rd ht, fld_wrFld _ _ _ _ _ h (by decide)]
  apply this
  simp (disch := decide) only [State.rd_wrn_ne, State.rd_wrFld_ne]
theorem setStandbyState_rd (s : State) (a j : Nat) (h : ∀ d, d < 4 → j ≠ ephReg d 0) : (s.setStandbyState a).rd j = s.rd j := by
  simp only [State.setStandbyState, List.range, List.range.loop, State.each_cons, State.each_nil]
  simp (disch := simp [h]) only [State.rd_wrFld_ne]
theorem setStandby_rd (s : State) (a b j : Nat) (h : ∀ d, d < 4 → j ≠ ephReg d 0) (h' : ∀ d, d < 4 → j ≠ ephReg d 8) : (s.setStandby a b).rd j = s.rd j := by
  simp only [State.setStandby, List.range, List.range.loop, State.each_cons, State.each_nil]
  simp (disch := simp [h, h']) only [State.rd_wrFld_ne, State.rd_wrn_ne]

theorem only_setStandby (ps : List Part) {l : List Nat} (s : State) (a b : Nat) (hl : ∀ d, d < 4 → ephReg d 0 ∈ l ∧ ephReg d 8 ∈ l) :
    only ps l s (s.setStandby a b) :=
  only_each _ (fun d hd t => only_trans (only_wrFld ps t _ _ _ (hl d (List.mem_range.1 hd)).1)
    (only_wrn ps _ _ (hl d (List.mem_range.1 hd)).2)) s

theorem only_setStandbyState (ps : List Part) {l : List Nat} (s : State) (a : Nat) (hl : ∀ d, d < 4 → ephReg d 0 ∈ l) :
    only ps l s (s.setStandbyState a) :=
  only_each _ (fun d hd t => only_wrFld ps t _ _ _ (hl d (List.mem_range.1 hd))) s

theorem only_setActive (ps : List Part) {l : List Nat} (s : State) (a b : Nat) (hl : ∀ d, d < 4 → ephReg d 0 ∈ l ∧ ephReg d 4 ∈ l) :
    only ps l s (s.setActive a b) :=
  only_each _ (fun d hd t => only_trans (only_wrFld ps t _ _ _ (hl d (List.mem_range.1 hd)).1)
    (only_wrn ps _ _ (hl d (List.mem_range.1 hd)).2)) s

end Sys2Proof.Machine
end

