-- ==== Sys2Proof/Laws/Keep.lean ====
section
/-! SUPPORT. Every shared operation keeps the stores of the state in their canonical form. -/

namespace Sys2Proof.Machine

variable {s : State}

/-- A record update is canonical when its four stores are. -/
theorem wf_mk (a : List Sys2Proof.Instr) (b c : List (Nat × Word)) (m p scr sp t e ops hd bl n g st r ti sw co li fl cx he se al pw ou fr) :
    State.wf (State.mk a b c m p scr sp t e ops hd bl n g st r ti sw co li fl cx he se al pw ou fr) = true ↔
      ((swf resetVal b = true ∧ swf resetVal c = true) ∧ swf (fun _ => 0#8) m = true) ∧ swf (fun _ => 0#8) scr = true := by
  simp [State.wf, Memory.wf]

theorem wf_iff : s.wf = true ↔ swf resetVal s.regs = true ∧ swf resetVal s.force = true ∧ swf (fun _ => 0#8) s.mem = true
    ∧ swf (fun _ => 0#8) s.scr = true := by
  simp [State.wf, Memory.wf, and_assoc]

@[simp] theorem wf_regs (h : s.wf = true) : swf resetVal s.regs = true := (wf_iff.1 h).1
@[simp] theorem wf_force (h : s.wf = true) : swf resetVal s.force = true := (wf_iff.1 h).2.1
@[simp] theorem wf_mem (h : s.wf = true) : swf (fun _ => 0#8) s.mem = true := (wf_iff.1 h).2.2.1
@[simp] theorem wf_scr (h : s.wf = true) : swf (fun _ => 0#8) s.scr = true := (wf_iff.1 h).2.2.2

@[simp] theorem wf_wr (h : s.wf = true) (o : Nat) (v : Word) : (s.wr o v).wf = true := by
  simp [State.wr, wf_mk, h]
@[simp] theorem wf_wrf (h : s.wf = true) (o : Nat) (v : Word) : (s.wrf o v).wf = true := by
  simp [State.wrf, wf_mk, h]
@[simp] theorem wf_wrn (h : s.wf = true) (o n : Nat) : (s.wrn o n).wf = true := wf_wr h _ _
@[simp] theorem wf_wrFld (h : s.wf = true) (o l w v : Nat) : (s.wrFld o l w v).wf = true := wf_wr h _ _
@[simp] theorem wf_set (h : s.wf = true) (o : Nat) (m : Word) : (s.set o m).wf = true := wf_wr h _ _
@[simp] theorem wf_clr (h : s.wf = true) (o : Nat) (m : Word) : (s.clr o m).wf = true := wf_wr h _ _
@[simp] theorem wf_sat (h : s.wf = true) (o n : Nat) : (s.sat o n).wf = true := wf_wr h _ _
@[simp] theorem wf_wrap (h : s.wf = true) (o n : Nat) : (s.wrap o n).wf = true := wf_wr h _ _
@[simp] theorem wf_wr64 (h : s.wf = true) (o n : Nat) : (s.wr64 o n).wf = true := wf_wr (wf_wr h _ _) _ _
@[simp] theorem wf_emit (h : s.wf = true) (e : Out) : (s.emit e).wf = true := h

@[simp] theorem wf_when (h : s.wf = true) (c : Bool) (f : State → State) (hf : (f s).wf = true) : (s.when c f).wf = true := by
  cases c
  · exact h
  · exact hf

theorem wf_each {α : Type} (l : List α) (f : α → State → State) (hf : ∀ a t, t.wf = true → (f a t).wf = true) (h : s.wf = true) :
    (s.each l f).wf = true := by
  induction l generalizing s with
  | nil => exact h
  | cons a l ih => exact ih (hf a s h)

@[simp] theorem wf_each' {α : Type} (l : List α) (f : α → State → State) (h : s.wf = true) (hf : ∀ a t, t.wf = true → (f a t).wf = true) :
    (s.each l f).wf = true := wf_each l f hf h

@[simp] theorem wf_ite (c : Prop) [Decidable c] (a b : State) (ha : a.wf = true) (hb : b.wf = true) : (if c then a else b).wf = true := by
  split <;> assumption

theorem wf_foldl {α : Type} (l : List α) (f : State → α → State) (h : s.wf = true) (hf : ∀ t a, t.wf = true → (f t a).wf = true) :
    (l.foldl f s).wf = true := by
  induction l generalizing s with
  | nil => exact h
  | cons a l ih => exact ih (hf s a h)

theorem wf_foldl1 {α β : Type} (l : List α) (f : State × β → α → State × β) (x : State × β) (h : x.1.wf = true)
    (hf : ∀ t a, t.1.wf = true → (f t a).1.wf = true) : (l.foldl f x).1.wf = true := by
  induction l generalizing x with
  | nil => exact h
  | cons a l ih => exact ih _ (hf x a h)

theorem wf_foldl2 {α β : Type} (l : List α) (f : β × State → α → β × State) (x : β × State) (h : x.2.wf = true)
    (hf : ∀ t a, t.2.wf = true → (f t a).2.wf = true) : (l.foldl f x).2.wf = true := by
  induction l generalizing x with
  | nil => exact h
  | cons a l ih => exact ih _ (hf x a h)

theorem wf_ite1 {β : Type} (c : Prop) [Decidable c] (a b : State × β) (ha : a.1.wf = true) (hb : b.1.wf = true) :
    (if c then a else b).1.wf = true := by
  split <;> assumption

theorem wf_ite2 {β : Type} (c : Prop) [Decidable c] (a b : β × State) (ha : a.2.wf = true) (hb : b.2.wf = true) :
    (if c then a else b).2.wf = true := by
  split <;> assumption

theorem wf_elim {α : Type} (o : Option α) (a : State) (f : α → State) (h : a.wf = true) (hf : ∀ x, (f x).wf = true) : (o.elim a f).wf = true := by
  cases o
  · exact h
  · exact hf _

/-- What a match takes out of an answer is what the answer holds. -/
theorem wf_of_snd {α : Type} {p : α × State} {a : α} {t : State} (h : p = (a, t)) (hp : p.2.wf = true) : t.wf = true := by
  subst h
  exact hp
theorem wf_of_fst {α : Type} {p : State × α} {a : α} {t : State} (h : p = (t, a)) (hp : p.1.wf = true) : t.wf = true := by
  subst h
  exact hp

/-- A stretch of memory written keeps the form. -/
@[simp] theorem wf_putBytes (m : List Host.Cell) (a : Nat) (d : List Byte) (h : swf (fun _ => 0#8) m = true) :
    swf (fun _ => 0#8) (putBytes m a d) = true := by
  induction d generalizing m a with
  | nil => exact h
  | cons b d ih => exact ih _ _ (swf_sset _ _ _ h)

end Sys2Proof.Machine
end

