-- ==== Sys2Proof/Laws/KeepOps.lean ====
section
/-! SUPPORT. Every operation of Machine/Ops.lean keeps the stores of the state in their canonical form. -/

namespace Sys2Proof.Machine

variable {s : State}

theorem wf_State_pviol (h : s.wf = true) (i : Nat) :
    (State.pviol s i).wf = true := by
  unfold State.pviol
  repeat' first | with_reducible assumption | with_reducible apply wf_sat

theorem wf_State_served (h : s.wf = true) (i : Instr) (f : State → State) (hf_f : ∀ t : State, t.wf = true → (f t).wf = true) :
    (State.served s i f).wf = true := by
  unfold State.served
  repeat' first | with_reducible assumption | with_reducible apply hf_f | with_reducible apply wf_ite | with_reducible apply wf_ite1 | with_reducible apply wf_ite2 | with_reducible apply wf_regs | with_reducible apply wf_force | with_reducible apply wf_mem | with_reducible apply wf_scr | (simp only [wf_mk]; refine ⟨⟨⟨?_, ?_⟩, ?_⟩, ?_⟩)

theorem wf_State_wakeIdle (h : s.wf = true) :
    (State.wakeIdle s).wf = true := by
  unfold State.wakeIdle
  repeat' first | with_reducible assumption  | with_reducible apply wf_ite | with_reducible apply wf_ite1 | with_reducible apply wf_ite2 | with_reducible apply wf_regs | with_reducible apply wf_force | with_reducible apply wf_mem | with_reducible apply wf_scr | (simp only [wf_mk]; refine ⟨⟨⟨?_, ?_⟩, ?_⟩, ?_⟩)

theorem wf_State_codeWrite (h : s.wf = true) (own : Bool) (port : Nat) (off : Nat) (v : Word) :
    (State.codeWrite s own port off v).wf = true := by
  unfold State.codeWrite
  try dsimp only
  repeat' first | with_reducible assumption | (intro _) | with_reducible apply wf_wr | with_reducible apply wf_when | with_reducible apply wf_State_pviol | with_reducible apply wf_ite | with_reducible apply wf_ite1 | with_reducible apply wf_ite2 | (dsimp only) | (refine wf_of_snd (by with_reducible assumption) ?_) | (refine wf_of_fst (by with_reducible assumption) ?_) | split

theorem wf_State_plainWrite (h : s.wf = true) (port : Nat) (off : Nat) (v : Word) :
    (State.plainWrite s port off v).wf = true := by
  unfold State.plainWrite
  repeat' first | with_reducible assumption | with_reducible apply wf_State_codeWrite

theorem wf_State_reg (h : s.wf = true) (i : Instr) (port : Nat) (off : Nat) (f : State → State) (hf_f : ∀ t : State, t.wf = true → (f t).wf = true) :
    (State.reg s i port off f).wf = true := by
  unfold State.reg
  repeat' first | with_reducible assumption | (intro _) | with_reducible apply hf_f | with_reducible apply wf_State_served | with_reducible apply wf_State_pviol | with_reducible apply wf_ite | with_reducible apply wf_ite1 | with_reducible apply wf_ite2

theorem wf_State_regS (h : s.wf = true) (i : Instr) (port : Nat) (off : Nat) (v : Word) (f : State → State) (hf_f : ∀ t : State, t.wf = true → (f t).wf = true) :
    (State.regS s i port off v f).wf = true := by
  unfold State.regS
  repeat' first | with_reducible assumption | (intro _) | with_reducible apply hf_f | with_reducible apply wf_State_served | with_reducible apply wf_State_plainWrite | with_reducible apply wf_ite | with_reducible apply wf_ite1 | with_reducible apply wf_ite2

theorem wf_State_dirSync (h : s.wf = true) :
    (State.dirSync s).wf = true := by
  unfold State.dirSync
  try dsimp only
  repeat' first | with_reducible assumption | (intro _) | with_reducible apply wf_each | with_reducible apply wf_wrn

theorem wf_State_dropCopies (h : s.wf = true) (a : Nat) (d : List Byte) :
    (State.dropCopies s a d).wf = true := by
  unfold State.dropCopies
  try dsimp only
  repeat' first | with_reducible assumption | (intro _) | with_reducible apply wf_State_dirSync | with_reducible apply wf_ite | with_reducible apply wf_ite1 | with_reducible apply wf_ite2 | with_reducible apply wf_regs | with_reducible apply wf_force | with_reducible apply wf_mem | with_reducible apply wf_scr | (simp only [wf_mk]; refine ⟨⟨⟨?_, ?_⟩, ?_⟩, ?_⟩) | (dsimp only) | (refine wf_of_snd (by with_reducible assumption) ?_) | (refine wf_of_fst (by with_reducible assumption) ?_) | split

theorem wf_State_write (h : s.wf = true) (a : Nat) (d : List Byte) :
    (State.write s a d).wf = true := by
  unfold State.write
  try dsimp only
  repeat' first | with_reducible assumption | (intro _) | with_reducible apply wf_State_dropCopies | with_reducible apply wf_ite | with_reducible apply wf_ite1 | with_reducible apply wf_ite2 | with_reducible apply wf_regs | with_reducible apply wf_force | with_reducible apply wf_mem | with_reducible apply wf_scr | with_reducible apply swf_sset | with_reducible apply wf_putBytes | with_reducible apply swf_filter | (simp only [wf_mk]; refine ⟨⟨⟨?_, ?_⟩, ?_⟩, ?_⟩)

theorem wf_State_mark (h : s.wf = true) (a : Nat) (n : Nat) :
    (State.mark s a n).wf = true := by
  unfold State.mark
  repeat' first | with_reducible assumption | (intro _)  | with_reducible apply wf_ite | with_reducible apply wf_ite1 | with_reducible apply wf_ite2 | with_reducible apply wf_regs | with_reducible apply wf_force | with_reducible apply wf_mem | with_reducible apply wf_scr | (simp only [wf_mk]; refine ⟨⟨⟨?_, ?_⟩, ?_⟩, ?_⟩)

theorem wf_State_flushLine (h : s.wf = true) (line : Nat) :
    (State.flushLine s line).wf = true := by
  unfold State.flushLine
  repeat' first | with_reducible assumption  | with_reducible apply wf_regs | with_reducible apply wf_force | with_reducible apply wf_mem | with_reducible apply wf_scr | with_reducible apply swf_sset | with_reducible apply wf_putBytes | with_reducible apply swf_filter | (simp only [wf_mk]; refine ⟨⟨⟨?_, ?_⟩, ?_⟩, ?_⟩) | (dsimp only) | (refine wf_of_snd (by with_reducible assumption) ?_) | (refine wf_of_fst (by with_reducible assumption) ?_) | split

theorem wf_State_store (h : s.wf = true) (a : Nat) (d : List Byte) :
    (State.store s a d).wf = true := by
  unfold State.store
  try dsimp only
  repeat' first | with_reducible assumption | (intro _) | with_reducible apply wf_each | with_reducible apply wf_State_flushLine | with_reducible apply wf_State_write | with_reducible apply wf_State_mark | with_reducible apply wf_ite | with_reducible apply wf_ite1 | with_reducible apply wf_ite2

theorem wf_State_setPoison (h : s.wf = true) (e : Nat) (l : List Nat) :
    (State.setPoison s e l).wf = true := by
  unfold State.setPoison
  repeat' first | with_reducible assumption | (intro _) | with_reducible apply wf_each | with_reducible apply wf_wrn | with_reducible apply wf_ite | with_reducible apply wf_ite1 | with_reducible apply wf_ite2 | with_reducible apply wf_regs | with_reducible apply wf_force | with_reducible apply wf_mem | with_reducible apply wf_scr | (simp only [wf_mk]; refine ⟨⟨⟨?_, ?_⟩, ?_⟩, ?_⟩)

theorem wf_State_msix (h : s.wf = true) (port : Nat) (vector : Nat) :
    (State.msix s port vector).wf = true := by
  unfold State.msix
  repeat' first | with_reducible assumption | (intro _) | with_reducible apply wf_emit | with_reducible apply wf_ite | with_reducible apply wf_ite1 | with_reducible apply wf_ite2 | with_reducible apply wf_regs | with_reducible apply wf_force | with_reducible apply wf_mem | with_reducible apply wf_scr | (simp only [wf_mk]; refine ⟨⟨⟨?_, ?_⟩, ?_⟩, ?_⟩)

theorem wf_State_errLog (h : s.wf = true) (kind : Nat) (st : Nat) (source : Nat) (ctx : Nat) (addr : Nat) (detail : Nat) :
    (State.errLog s kind st source ctx addr detail).wf = true := by
  unfold State.errLog
  try dsimp only
  repeat' first | with_reducible assumption | (intro _) | with_reducible apply wf_sat | with_reducible apply wf_each | with_reducible apply wf_wrn | with_reducible apply wf_wrap | with_reducible apply wf_when | with_reducible apply wf_State_msix | with_reducible apply wf_ite | with_reducible apply wf_ite1 | with_reducible apply wf_ite2 | with_reducible apply wf_regs | with_reducible apply wf_force | with_reducible apply wf_mem | with_reducible apply wf_scr | (simp only [wf_mk]; refine ⟨⟨⟨?_, ?_⟩, ?_⟩, ?_⟩)

theorem wf_State_fresh (h : s.wf = true) :
    (State.fresh s).2.wf = true := by
  unfold State.fresh
  repeat' first | with_reducible assumption  | with_reducible apply wf_regs | with_reducible apply wf_force | with_reducible apply wf_mem | with_reducible apply wf_scr | (simp only [wf_mk]; refine ⟨⟨⟨?_, ?_⟩, ?_⟩, ?_⟩)

theorem wf_State_errLogOpen (h : s.wf = true) (kind : Nat) (ctx : Nat) (addr : Nat) (detail : Nat) :
    (State.errLogOpen s kind ctx addr detail).wf = true := by
  unfold State.errLogOpen
  repeat' first | with_reducible assumption | with_reducible apply wf_State_fresh | with_reducible apply wf_State_errLog

theorem wf_State_trace (h : s.wf = true) (kind : Nat) (source : Nat) (ctx : Nat) (st : Nat) :
    (State.trace s kind source ctx st).wf = true := by
  unfold State.trace
  try dsimp only
  repeat' first | with_reducible assumption | (intro _) | with_reducible apply wf_sat | with_reducible apply wf_State_write | with_reducible apply wf_wrap | with_reducible apply wf_ite | with_reducible apply wf_ite1 | with_reducible apply wf_ite2 | (dsimp only) | (refine wf_of_snd (by with_reducible assumption) ?_) | (refine wf_of_fst (by with_reducible assumption) ?_) | split

theorem wf_State_progress (h : s.wf = true) (u : HUnit) :
    (State.progress s u).wf = true := by
  unfold State.progress
  try dsimp only
  repeat' first | with_reducible assumption | (intro _)  | with_reducible apply wf_elim | with_reducible apply wf_regs | with_reducible apply wf_force | with_reducible apply wf_mem | with_reducible apply wf_scr | (simp only [wf_mk]; refine ⟨⟨⟨?_, ?_⟩, ?_⟩, ?_⟩)

theorem wf_State_fault (h : s.wf = true) (x : Nat) (reason : Nat) :
    (State.fault s x reason).wf = true := by
  unfold State.fault
  repeat' first | with_reducible assumption  | with_reducible apply wf_regs | with_reducible apply wf_force | with_reducible apply wf_mem | with_reducible apply wf_scr | (simp only [wf_mk]; refine ⟨⟨⟨?_, ?_⟩, ?_⟩, ?_⟩)

theorem wf_State_recheck (h : s.wf = true) (c : Nat) :
    (State.recheck s c).wf = true := by
  unfold State.recheck
  repeat' first | with_reducible assumption | (intro _)  | with_reducible apply wf_ite | with_reducible apply wf_ite1 | with_reducible apply wf_ite2 | with_reducible apply wf_regs | with_reducible apply wf_force | with_reducible apply wf_mem | with_reducible apply wf_scr | (simp only [wf_mk]; refine ⟨⟨⟨?_, ?_⟩, ?_⟩, ?_⟩)

theorem wf_State_notify (h : s.wf = true) (c : Nat) :
    (State.notify s c).wf = true := by
  unfold State.notify
  try dsimp only
  repeat' first | with_reducible assumption | (intro _) | with_reducible apply wf_wr | with_reducible apply wf_State_msix | with_reducible apply wf_when | with_reducible apply wf_ite | with_reducible apply wf_ite1 | with_reducible apply wf_ite2 | with_reducible apply wf_regs | with_reducible apply wf_force | with_reducible apply wf_mem | with_reducible apply wf_scr | (simp only [wf_mk]; refine ⟨⟨⟨?_, ?_⟩, ?_⟩, ?_⟩) | (dsimp only) | (refine wf_of_snd (by with_reducible assumption) ?_) | (refine wf_of_fst (by with_reducible assumption) ?_) | split

theorem wf_State_stepMark (h : s.wf = true) (x : Nat) :
    (State.stepMark s x).wf = true := by
  unfold State.stepMark
  repeat' first | with_reducible assumption | with_reducible apply wf_wrn | with_reducible apply wf_clr

theorem wf_State_stepCheck (h : s.wf = true) (c : Nat) :
    (State.stepCheck s c).wf = true := by
  unfold State.stepCheck
  try dsimp only
  repeat' first | with_reducible assumption | (intro _) | with_reducible apply wf_when | with_reducible apply wf_State_stepMark

theorem wf_qSetState (h : s.wf = true) (q : Nat) (v : Nat) :
    (qSetState s q v).wf = true := by
  unfold qSetState
  repeat' first | with_reducible assumption | with_reducible apply wf_wrn

theorem wf_qHeadUpdate (h : s.wf = true) (q : Nat) :
    (qHeadUpdate s q).wf = true := by
  unfold qHeadUpdate
  try dsimp only
  repeat' first | with_reducible assumption | (intro _) | with_reducible apply wf_wr | with_reducible apply wf_foldl | with_reducible apply wf_foldl1 | with_reducible apply wf_foldl2

theorem wf_qDisable (h : s.wf = true) (q : Nat) :
    (qDisable s q).wf = true := by
  unfold qDisable
  repeat' first | with_reducible assumption | with_reducible apply wf_qSetState | with_reducible apply wf_clr | with_reducible apply wf_ite | with_reducible apply wf_ite1 | with_reducible apply wf_ite2

theorem wf_State_setOp (h : s.wf = true) (o : Op) :
    (State.setOp s o).wf = true := by
  unfold State.setOp
  repeat' first | with_reducible assumption | (intro _)  | with_reducible apply wf_ite | with_reducible apply wf_ite1 | with_reducible apply wf_ite2 | with_reducible apply wf_regs | with_reducible apply wf_force | with_reducible apply wf_mem | with_reducible apply wf_scr | (simp only [wf_mk]; refine ⟨⟨⟨?_, ?_⟩, ?_⟩, ?_⟩) | (simp only [id_eq]; assumption)

theorem wf_State_done (h : s.wf = true) (o : Op) (st : Status) :
    (State.done s o st).wf = true := by
  unfold State.done
  repeat' first | with_reducible assumption | with_reducible apply wf_State_setOp | with_reducible apply wf_regs | with_reducible apply wf_force | with_reducible apply wf_mem | with_reducible apply wf_scr | (simp only [wf_mk]; refine ⟨⟨⟨?_, ?_⟩, ?_⟩, ?_⟩)

theorem wf_State_poisonMet (h : s.wf = true) (a : Nat) :
    (State.poisonMet s a).wf = true := by
  unfold State.poisonMet
  try dsimp only
  repeat' first | with_reducible assumption | (intro _) | with_reducible apply wf_when | with_reducible apply wf_set | with_reducible apply wf_sat

theorem wf_State_media (h : s.wf = true) (o : Op) (addr : Nat) :
    (State.media s o addr).wf = true := by
  unfold State.media
  repeat' first | with_reducible assumption | with_reducible apply wf_State_errLog | with_reducible apply wf_State_poisonMet | with_reducible apply wf_State_fault | with_reducible apply wf_regs | with_reducible apply wf_force | with_reducible apply wf_mem | with_reducible apply wf_scr | (simp only [wf_mk]; refine ⟨⟨⟨?_, ?_⟩, ?_⟩, ?_⟩) | (dsimp only) | (refine wf_of_snd (by with_reducible assumption) ?_) | (refine wf_of_fst (by with_reducible assumption) ?_) | split

theorem wf_State_finish (h : s.wf = true) (o : Op) (st : Status) (addr : Nat) :
    (State.finish s o st addr).wf = true := by
  unfold State.finish
  repeat' first | with_reducible assumption | (intro _) | with_reducible apply wf_State_done | with_reducible apply wf_when | with_reducible apply wf_State_media

end Sys2Proof.Machine
end

