-- ==== Sys2Proof/Laws/KeepOperands.lean ====
section
/-! SUPPORT. Every operation of Machine/Operands.lean keeps the stores of the state in their canonical form. -/

namespace Sys2Proof.Machine

variable {s : State}

theorem wf_State_stepped (h : s.wf = true) (o : Op) :
    (State.stepped s o).wf = true := by
  unfold State.stepped
  repeat' first | with_reducible assumption  | with_reducible apply wf_ite | with_reducible apply wf_ite1 | with_reducible apply wf_ite2 | with_reducible apply wf_regs | with_reducible apply wf_force | with_reducible apply wf_mem | with_reducible apply wf_scr | (simp only [wf_mk]; refine ⟨⟨⟨?_, ?_⟩, ?_⟩, ?_⟩) | (dsimp only) | (refine wf_of_snd (by with_reducible assumption) ?_) | (refine wf_of_fst (by with_reducible assumption) ?_) | split

theorem wf_State_askOwners (h : s.wf = true) (r : Reader) (l : List (Nat × Nat)) :
    (State.askOwners s r l).wf = true := by
  unfold State.askOwners
  repeat' first | with_reducible assumption | (intro _) | with_reducible apply wf_State_done | with_reducible apply wf_regs | with_reducible apply wf_force | with_reducible apply wf_mem | with_reducible apply wf_scr | (simp only [wf_mk]; refine ⟨⟨⟨?_, ?_⟩, ?_⟩, ?_⟩)

theorem wf_State_coherent (h : s.wf = true) (r : Reader) (f : State → State) (hf_f : ∀ t : State, t.wf = true → (f t).wf = true) :
    (State.coherent s r f).wf = true := by
  unfold State.coherent
  try dsimp only
  repeat' first | with_reducible assumption | (intro _) | with_reducible apply hf_f | with_reducible apply wf_State_askOwners | with_reducible apply wf_State_done | with_reducible apply wf_ite | with_reducible apply wf_ite1 | with_reducible apply wf_ite2 | with_reducible apply wf_regs | with_reducible apply wf_force | with_reducible apply wf_mem | with_reducible apply wf_scr | (simp only [wf_mk]; refine ⟨⟨⟨?_, ?_⟩, ?_⟩, ?_⟩) | (dsimp only) | (refine wf_of_snd (by with_reducible assumption) ?_) | (refine wf_of_fst (by with_reducible assumption) ?_) | split

theorem wf_State_onOp (h : s.wf = true) (id : Nat) (code : Nat → Bool) (f : State → Op → State) (hf_f : ∀ (t : State) x0, t.wf = true → (f t x0).wf = true) :
    (State.onOp s id code f).wf = true := by
  unfold State.onOp
  repeat' first | with_reducible assumption | (intro _) | with_reducible apply hf_f | with_reducible apply wf_State_coherent | with_reducible apply wf_State_stepped | with_reducible apply wf_ite | with_reducible apply wf_ite1 | with_reducible apply wf_ite2 | with_reducible apply wf_regs | with_reducible apply wf_force | with_reducible apply wf_mem | with_reducible apply wf_scr | (simp only [wf_mk]; refine ⟨⟨⟨?_, ?_⟩, ?_⟩, ?_⟩) | (simp only [id_eq]; assumption) | (dsimp only) | (refine wf_of_snd (by with_reducible assumption) ?_) | (refine wf_of_fst (by with_reducible assumption) ?_) | split

end Sys2Proof.Machine
end

