-- ==== Sys2Proof/Laws/KeepSteer.lean ====
section
/-! SUPPORT. Every operation of Machine/Steer.lean keeps the stores of the state in their canonical form. -/

namespace Sys2Proof.Machine

variable {s : State}

theorem wf_State_cellSync (h : s.wf = true) (d : Nat) :
    (State.cellSync s d).wf = true := by
  unfold State.cellSync
  try dsimp only
  repeat' first | with_reducible assumption | (intro _) | with_reducible apply wf_wrn | with_reducible apply wf_foldl | with_reducible apply wf_foldl1 | with_reducible apply wf_foldl2

theorem wf_State_setRed (h : s.wf = true) (r : Stream) :
    (State.setRed s r).wf = true := by
  unfold State.setRed
  repeat' first | with_reducible assumption | (intro _) | with_reducible apply wf_State_cellSync | with_reducible apply wf_ite | with_reducible apply wf_ite1 | with_reducible apply wf_ite2 | with_reducible apply wf_regs | with_reducible apply wf_force | with_reducible apply wf_mem | with_reducible apply wf_scr | (simp only [wf_mk]; refine ⟨⟨⟨?_, ?_⟩, ?_⟩, ?_⟩)

theorem wf_State_steerTo (h : s.wf = true) (r : Stream) (lines : List (Nat × List Byte)) (keep : Bool) :
    (State.steerTo s r lines keep).wf = true := by
  unfold State.steerTo
  try dsimp only
  repeat' first | with_reducible assumption | (intro _) | with_reducible apply wf_sat | with_reducible apply wf_when | with_reducible apply wf_State_setRed | with_reducible apply wf_ite | with_reducible apply wf_ite1 | with_reducible apply wf_ite2 | with_reducible apply wf_regs | with_reducible apply wf_force | with_reducible apply wf_mem | with_reducible apply wf_scr | (simp only [wf_mk]; refine ⟨⟨⟨?_, ?_⟩, ?_⟩, ?_⟩)

theorem wf_State_steerWrite (h : s.wf = true) (x : Nat) (a : Nat) (b : List Byte) (keep : Bool) :
    (State.steerWrite s x a b keep).1.wf = true := by
  unfold State.steerWrite
  try dsimp only
  repeat' first | with_reducible assumption | (intro _) | with_reducible apply wf_sat | with_reducible apply wf_each | with_reducible apply wf_State_steerTo | with_reducible apply wf_ite | with_reducible apply wf_ite1 | with_reducible apply wf_ite2 | with_reducible apply wf_regs | with_reducible apply wf_force | with_reducible apply wf_mem | with_reducible apply wf_scr | (simp only [wf_mk]; refine ⟨⟨⟨?_, ?_⟩, ?_⟩, ?_⟩) | (dsimp only) | (refine wf_of_snd (by with_reducible assumption) ?_) | (refine wf_of_fst (by with_reducible assumption) ?_) | split

end Sys2Proof.Machine
end

