-- ==== Sys2Proof/Laws/KeepWire.lean ====
section
/-! SUPPORT. Every operation of Machine/Wire.lean keeps the stores of the state in their canonical form. -/

namespace Sys2Proof.Machine

variable {s : State}

theorem wf_State_setPort (h : s.wf = true) (p : LinkPort) :
    (State.setPort s p).wf = true := by
  unfold State.setPort
  repeat' first | with_reducible assumption | (intro _)  | with_reducible apply wf_regs | with_reducible apply wf_force | with_reducible apply wf_mem | with_reducible apply wf_scr | (simp only [wf_mk]; refine ⟨⟨⟨?_, ?_⟩, ?_⟩, ?_⟩)

theorem wf_State_setLane (h : s.wf = true) (x : Lane2) :
    (State.setLane s x).wf = true := by
  unfold State.setLane
  repeat' first | with_reducible assumption | (intro _)  | with_reducible apply wf_regs | with_reducible apply wf_force | with_reducible apply wf_mem | with_reducible apply wf_scr | (simp only [wf_mk]; refine ⟨⟨⟨?_, ?_⟩, ?_⟩, ?_⟩)

theorem wf_State_setCredit (h : s.wf = true) (l : Nat) (stream : Nat) (n : Nat) :
    (State.setCredit s l stream n).wf = true := by
  unfold State.setCredit
  repeat' first | with_reducible assumption | (intro _)  | with_reducible apply wf_regs | with_reducible apply wf_force | with_reducible apply wf_mem | with_reducible apply wf_scr | (simp only [wf_mk]; refine ⟨⟨⟨?_, ?_⟩, ?_⟩, ?_⟩)

theorem wf_State_setGiven (h : s.wf = true) (l : Nat) (stream : Nat) (n : Nat) :
    (State.setGiven s l stream n).wf = true := by
  unfold State.setGiven
  repeat' first | with_reducible assumption | (intro _)  | with_reducible apply wf_regs | with_reducible apply wf_force | with_reducible apply wf_mem | with_reducible apply wf_scr | (simp only [wf_mk]; refine ⟨⟨⟨?_, ?_⟩, ?_⟩, ?_⟩)

theorem wf_State_replaySync (h : s.wf = true) (l : Nat) :
    (State.replaySync s l).wf = true := by
  unfold State.replaySync
  repeat' first | with_reducible assumption | (intro _) | with_reducible apply wf_wrn | with_reducible apply wf_foldl | with_reducible apply wf_foldl1 | with_reducible apply wf_foldl2

theorem wf_State_keep (h : s.wf = true) (r : Replay) :
    (State.keep s r).wf = true := by
  unfold State.keep
  try dsimp only
  repeat' first | with_reducible assumption | (intro _)  | with_reducible apply wf_ite | with_reducible apply wf_ite1 | with_reducible apply wf_ite2 | with_reducible apply wf_regs | with_reducible apply wf_force | with_reducible apply wf_mem | with_reducible apply wf_scr | (simp only [wf_mk]; refine ⟨⟨⟨?_, ?_⟩, ?_⟩, ?_⟩)

theorem wf_State_sendOut (h : s.wf = true) (l : Nat) (m : Msg) :
    (State.sendOut s l m).wf = true := by
  unfold State.sendOut
  repeat' first | with_reducible assumption | with_reducible apply wf_emit

theorem wf_State_leave (h : s.wf = true) (r : Replay) :
    (State.leave s r).wf = true := by
  unfold State.leave
  try dsimp only
  repeat' first | with_reducible assumption | (intro _) | with_reducible apply wf_State_sendOut | with_reducible apply wf_State_progress | with_reducible apply wf_State_setCredit | with_reducible apply wf_State_keep | with_reducible apply wf_sat | with_reducible apply wf_ite | with_reducible apply wf_ite1 | with_reducible apply wf_ite2 | with_reducible apply wf_regs | with_reducible apply wf_force | with_reducible apply wf_mem | with_reducible apply wf_scr | (simp only [wf_mk]; refine ⟨⟨⟨?_, ?_⟩, ?_⟩, ?_⟩)

theorem wf_State_pump (h : s.wf = true) (l : Nat) :
    (State.pump s l).wf = true := by
  unfold State.pump
  try dsimp only
  repeat' first | with_reducible assumption | (intro _) | with_reducible apply wf_State_leave | with_reducible apply wf_State_replaySync | with_reducible apply wf_ite | with_reducible apply wf_ite1 | with_reducible apply wf_ite2 | with_reducible apply wf_foldl | with_reducible apply wf_foldl1 | with_reducible apply wf_foldl2

theorem wf_State_sendOn (h : s.wf = true) (l : Nat) (m : Msg) (ingress : Nat := 0x80) :
    (State.sendOn s l m ingress).wf = true := by
  unfold State.sendOn
  try dsimp only
  repeat' first | with_reducible assumption | (intro _) | with_reducible apply wf_when | with_reducible apply wf_State_sendOut | with_reducible apply wf_State_setLane | with_reducible apply wf_State_pump | with_reducible apply wf_ite | with_reducible apply wf_ite1 | with_reducible apply wf_ite2 | with_reducible apply wf_regs | with_reducible apply wf_force | with_reducible apply wf_mem | with_reducible apply wf_scr | (simp only [wf_mk]; refine ⟨⟨⟨?_, ?_⟩, ?_⟩, ?_⟩)

theorem wf_State_sendTo (h : s.wf = true) (v : Nat) (ingress : Nat) (m : Msg) :
    (State.sendTo s v ingress m).wf = true := by
  unfold State.sendTo
  repeat' first | with_reducible assumption | with_reducible apply wf_State_sendOn | with_reducible apply wf_regs | with_reducible apply wf_force | with_reducible apply wf_mem | with_reducible apply wf_scr | (simp only [wf_mk]; refine ⟨⟨⟨?_, ?_⟩, ?_⟩, ?_⟩) | (dsimp only) | (refine wf_of_snd (by with_reducible assumption) ?_) | (refine wf_of_fst (by with_reducible assumption) ?_) | split

theorem wf_State_ask (h : s.wf = true) (v : Nat) (ingress : Nat) (m : Msg) (who : Who) :
    (State.ask s v ingress m who).wf = true := by
  unfold State.ask
  try dsimp only
  repeat' first | with_reducible assumption | (intro _) | with_reducible apply wf_State_sendTo | with_reducible apply wf_ite | with_reducible apply wf_ite1 | with_reducible apply wf_ite2 | with_reducible apply wf_regs | with_reducible apply wf_force | with_reducible apply wf_mem | with_reducible apply wf_scr | (simp only [wf_mk]; refine ⟨⟨⟨?_, ?_⟩, ?_⟩, ?_⟩)

theorem wf_State_setMirror (h : s.wf = true) (r : Nat) (v : Nat) :
    (State.setMirror s r v).wf = true := by
  unfold State.setMirror
  repeat' first | with_reducible assumption | with_reducible apply wf_wrFld

theorem wf_State_degrade (h : s.wf = true) (r : Nat) :
    (State.degrade s r).wf = true := by
  unfold State.degrade
  repeat' first | with_reducible assumption | (intro _) | with_reducible apply wf_when | with_reducible apply wf_State_setMirror | with_reducible apply wf_set | with_reducible apply wf_State_errLogOpen | (dsimp only) | (refine wf_of_snd (by with_reducible assumption) ?_) | (refine wf_of_fst (by with_reducible assumption) ?_) | split

theorem wf_State_markDirty (h : s.wf = true) (r : Nat) (p : Nat) :
    (State.markDirty s r p).wf = true := by
  unfold State.markDirty
  try dsimp only
  repeat' first | with_reducible assumption | (intro _) | with_reducible apply wf_wrap | with_reducible apply wf_ite | with_reducible apply wf_ite1 | with_reducible apply wf_ite2 | with_reducible apply wf_regs | with_reducible apply wf_force | with_reducible apply wf_mem | with_reducible apply wf_scr | (simp only [wf_mk]; refine ⟨⟨⟨?_, ?_⟩, ?_⟩, ?_⟩)

theorem wf_State_mirrorSend (h : s.wf = true) (r : Nat) (a : Nat) (n : Nat) (who : Who) (sub : Nat) :
    (State.mirrorSend s r a n who sub).wf = true := by
  unfold State.mirrorSend
  try dsimp only
  repeat' first | with_reducible assumption | (intro _) | with_reducible apply wf_each | with_reducible apply wf_State_ask | with_reducible apply wf_elim

theorem wf_State_mirrorWrite (h : s.wf = true) (a : Nat) (n : Nat) (who : Who) :
    (State.mirrorWrite s a n who).wf = true := by
  unfold State.mirrorWrite
  try dsimp only
  repeat' first | with_reducible assumption | (intro _) | with_reducible apply wf_each | with_reducible apply wf_State_mirrorSend | with_reducible apply wf_State_markDirty | with_reducible apply wf_ite | with_reducible apply wf_ite1 | with_reducible apply wf_ite2 | with_reducible apply wf_regs | with_reducible apply wf_force | with_reducible apply wf_mem | with_reducible apply wf_scr | (simp only [wf_mk]; refine ⟨⟨⟨?_, ?_⟩, ?_⟩, ?_⟩) | (dsimp only) | (refine wf_of_snd (by with_reducible assumption) ?_) | (refine wf_of_fst (by with_reducible assumption) ?_) | split

theorem wf_State_abortStart (h : s.wf = true) (x : Nat) (reason : Nat) :
    (State.abortStart s x reason).wf = true := by
  unfold State.abortStart
  try dsimp only
  repeat' first | with_reducible assumption | (intro _)  | with_reducible apply wf_regs | with_reducible apply wf_force | with_reducible apply wf_mem | with_reducible apply wf_scr | (simp only [wf_mk]; refine ⟨⟨⟨?_, ?_⟩, ?_⟩, ?_⟩)

theorem wf_State_respond (h : s.wf = true) (l : Nat) (q : Msg) (kind : Nat) (st : Status) (data : List Byte) :
    (State.respond s l q kind st data).wf = true := by
  unfold State.respond
  try dsimp only
  repeat' first | with_reducible assumption | (intro _) | with_reducible apply wf_State_sendTo | with_reducible apply wf_State_sendOn | with_reducible apply wf_regs | with_reducible apply wf_force | with_reducible apply wf_mem | with_reducible apply wf_scr | (simp only [wf_mk]; refine ⟨⟨⟨?_, ?_⟩, ?_⟩, ?_⟩) | (dsimp only) | (refine wf_of_snd (by with_reducible assumption) ?_) | (refine wf_of_fst (by with_reducible assumption) ?_) | split

end Sys2Proof.Machine
end

