-- ==== Sys2Proof/Laws/KeepTiers.lean ====
section
/-! SUPPORT. Every operation of Machine/Tiers.lean keeps the stores of the state in their canonical form. -/

namespace Sys2Proof.Machine

variable {s : State}

theorem wf_State_locTake (h : s.wf = true) (l : Loc) (p : Nat) :
    (State.locTake s l p).wf = true := by
  unfold State.locTake
  try dsimp only
  repeat' first | with_reducible assumption | (intro _)  | with_reducible apply wf_regs | with_reducible apply wf_force | with_reducible apply wf_mem | with_reducible apply wf_scr | (simp only [wf_mk]; refine ⟨⟨⟨?_, ?_⟩, ?_⟩, ?_⟩)

theorem wf_State_locGive (h : s.wf = true) (l : Loc) (p : Nat) :
    (State.locGive s l p).wf = true := by
  unfold State.locGive
  try dsimp only
  repeat' first | with_reducible assumption | (intro _)  | with_reducible apply wf_regs | with_reducible apply wf_force | with_reducible apply wf_mem | with_reducible apply wf_scr | (simp only [wf_mk]; refine ⟨⟨⟨?_, ?_⟩, ?_⟩, ?_⟩)

theorem wf_State_syncUse (h : s.wf = true) (xs : List Nat) :
    (State.syncUse s xs).wf = true := by
  unfold State.syncUse
  try dsimp only
  repeat' first | with_reducible assumption | (intro _) | with_reducible apply wf_each | with_reducible apply wf_wrn

theorem wf_State_tryAll (h : s.wf = true) (x : Nat) (pin : Nat → Nat × Nat) (add : Nat → Loc → State → State)
    (hf_add : ∀ p l (t : State), t.wf = true → (add p l t).wf = true) (ps : List Nat) : (State.tryAll s x pin add ps).1.wf = true := by
  induction ps generalizing s with
  | nil => exact h
  | cons p ps ih =>
    unfold State.tryAll
    split
    · exact ih (hf_add _ _ _ (wf_State_locTake h _ _))
    · exact ih h

theorem wf_State_placeAll (h : s.wf = true) (x : Nat) (pin : Nat → Nat × Nat) (add : Nat → Loc → State → State) (ps : List Nat) (hf_add : ∀ x0 x1 (t : State), t.wf = true → (add x0 x1 t).wf = true) :
    (State.placeAll s x pin add ps).1.wf = true := by
  unfold State.placeAll
  try dsimp only
  repeat' first | with_reducible assumption | (intro _) | with_reducible apply hf_add | with_reducible apply wf_State_tryAll | with_reducible apply wf_ite | with_reducible apply wf_ite1 | with_reducible apply wf_ite2

theorem wf_State_addPage (h : s.wf = true) (g : Page) :
    (State.addPage s g).wf = true := by
  unfold State.addPage
  repeat' first | with_reducible assumption  | with_reducible apply wf_regs | with_reducible apply wf_force | with_reducible apply wf_mem | with_reducible apply wf_scr | (simp only [wf_mk]; refine ⟨⟨⟨?_, ?_⟩, ?_⟩, ?_⟩)

theorem wf_State_setPage (h : s.wf = true) (g : Page) :
    (State.setPage s g).wf = true := by
  unfold State.setPage
  repeat' first | with_reducible assumption | (intro _)  | with_reducible apply wf_ite | with_reducible apply wf_ite1 | with_reducible apply wf_ite2 | with_reducible apply wf_regs | with_reducible apply wf_force | with_reducible apply wf_mem | with_reducible apply wf_scr | (simp only [wf_mk]; refine ⟨⟨⟨?_, ?_⟩, ?_⟩, ?_⟩)

theorem wf_State_dropPage (h : s.wf = true) (p : Nat) :
    (State.dropPage s p).wf = true := by
  unfold State.dropPage
  repeat' first | with_reducible assumption | (intro _)  | with_reducible apply wf_regs | with_reducible apply wf_force | with_reducible apply wf_mem | with_reducible apply wf_scr | (simp only [wf_mk]; refine ⟨⟨⟨?_, ?_⟩, ?_⟩, ?_⟩)

theorem wf_State_syncScrub (h : s.wf = true) (x : Nat) :
    (State.syncScrub s x).wf = true := by
  unfold State.syncScrub
  try dsimp only
  repeat' first | with_reducible assumption | (intro _) | with_reducible apply wf_wrn | with_reducible apply wf_wrFld | with_reducible apply wf_ite | with_reducible apply wf_ite1 | with_reducible apply wf_ite2

theorem wf_State_toScrub (h : s.wf = true) (p : Nat) (x : Nat) (l : Loc) :
    (State.toScrub s p x l).wf = true := by
  unfold State.toScrub
  try dsimp only
  repeat' first | with_reducible assumption | (intro _) | with_reducible apply wf_when | with_reducible apply wf_wrap | with_reducible apply wf_State_syncScrub | with_reducible apply wf_regs | with_reducible apply wf_force | with_reducible apply wf_mem | with_reducible apply wf_scr | (simp only [wf_mk]; refine ⟨⟨⟨?_, ?_⟩, ?_⟩, ?_⟩)

theorem wf_State_abandonMove (h : s.wf = true) (g : Page) :
    (State.abandonMove s g).wf = true := by
  unfold State.abandonMove
  repeat' first | with_reducible assumption | with_reducible apply wf_State_setPage | with_reducible apply wf_State_locGive | with_reducible apply wf_sat | with_reducible apply wf_regs | with_reducible apply wf_force | with_reducible apply wf_mem | with_reducible apply wf_scr | (simp only [wf_mk]; refine ⟨⟨⟨?_, ?_⟩, ?_⟩, ?_⟩) | (dsimp only) | (refine wf_of_snd (by with_reducible assumption) ?_) | (refine wf_of_fst (by with_reducible assumption) ?_) | split

theorem wf_State_freePage (h : s.wf = true) (g : Page) :
    (State.freePage s g).wf = true := by
  unfold State.freePage
  try dsimp only
  repeat' first | with_reducible assumption | (intro _) | with_reducible apply wf_State_abandonMove | with_reducible apply wf_State_dropPage | with_reducible apply wf_State_locGive | with_reducible apply wf_State_toScrub | with_reducible apply wf_ite | with_reducible apply wf_ite1 | with_reducible apply wf_ite2

theorem wf_State_moveTo (h : s.wf = true) (g : Page) (l : Loc) :
    (State.moveTo s g l).wf = true := by
  unfold State.moveTo
  repeat' first | with_reducible assumption | with_reducible apply wf_State_setPage | with_reducible apply wf_State_done | with_reducible apply wf_regs | with_reducible apply wf_force | with_reducible apply wf_mem | with_reducible apply wf_scr | (simp only [wf_mk]; refine ⟨⟨⟨?_, ?_⟩, ?_⟩, ?_⟩)

theorem wf_State_startMove (h : s.wf = true) (g : Page) (l : Loc) :
    (State.startMove s g l).wf = true := by
  unfold State.startMove
  repeat' first | with_reducible assumption | with_reducible apply wf_State_locTake | with_reducible apply wf_State_moveTo | with_reducible apply wf_regs | with_reducible apply wf_force | with_reducible apply wf_mem | with_reducible apply wf_scr | (simp only [wf_mk]; refine ⟨⟨⟨?_, ?_⟩, ?_⟩, ?_⟩)

theorem wf_State_pmapStart (h : s.wf = true) (f : State → State × Status) (hf_f : ∀ (t : State) , t.wf = true → (f t ).1.wf = true) :
    (State.pmapStart s f).wf = true := by
  unfold State.pmapStart
  try dsimp only
  repeat' first | with_reducible assumption | (intro _) | with_reducible apply hf_f | with_reducible apply wf_set | with_reducible apply wf_wrFld | with_reducible apply wf_ite | with_reducible apply wf_ite1 | with_reducible apply wf_ite2 | with_reducible apply wf_regs | with_reducible apply wf_force | with_reducible apply wf_mem | with_reducible apply wf_scr | (simp only [wf_mk]; refine ⟨⟨⟨?_, ?_⟩, ?_⟩, ?_⟩)

theorem wf_State_quotaHit (h : s.wf = true) (x : Nat) (st : Status) :
    (State.quotaHit s x st).wf = true := by
  unfold State.quotaHit
  repeat' first | with_reducible assumption | (intro _) | with_reducible apply wf_when | with_reducible apply wf_set

theorem wf_State_pmapMap (h : s.wf = true) :
    (State.pmapMap s).1.wf = true := by
  unfold State.pmapMap
  try dsimp only
  repeat' first | with_reducible assumption | (intro _) | with_reducible apply wf_State_placeAll | with_reducible apply wf_State_addPage | with_reducible apply wf_State_quotaHit | with_reducible apply wf_State_syncUse | with_reducible apply wf_ite | with_reducible apply wf_ite1 | with_reducible apply wf_ite2 | (dsimp only) | (refine wf_of_snd (by with_reducible assumption) ?_) | (refine wf_of_fst (by with_reducible assumption) ?_) | split

theorem wf_State_pmapUnmap (h : s.wf = true) :
    (State.pmapUnmap s).1.wf = true := by
  unfold State.pmapUnmap
  try dsimp only
  repeat' first | with_reducible assumption | (intro _) | with_reducible apply wf_each | with_reducible apply wf_State_freePage | with_reducible apply wf_State_syncUse | with_reducible apply wf_ite | with_reducible apply wf_ite1 | with_reducible apply wf_ite2 | with_reducible apply wf_regs | with_reducible apply wf_force | with_reducible apply wf_mem | with_reducible apply wf_scr | (simp only [wf_mk]; refine ⟨⟨⟨?_, ?_⟩, ?_⟩, ?_⟩) | (dsimp only) | (refine wf_of_snd (by with_reducible assumption) ?_) | (refine wf_of_fst (by with_reducible assumption) ?_) | split

theorem wf_State_pmapSetFlags (h : s.wf = true) :
    (State.pmapSetFlags s).1.wf = true := by
  unfold State.pmapSetFlags
  try dsimp only
  repeat' first | with_reducible assumption | (intro _) | with_reducible apply wf_State_placeAll | with_reducible apply wf_State_moveTo | with_reducible apply wf_State_quotaHit | with_reducible apply wf_each | with_reducible apply wf_State_setPage | with_reducible apply wf_ite | with_reducible apply wf_ite1 | with_reducible apply wf_ite2 | with_reducible apply wf_regs | with_reducible apply wf_force | with_reducible apply wf_mem | with_reducible apply wf_scr | (simp only [wf_mk]; refine ⟨⟨⟨?_, ?_⟩, ?_⟩, ?_⟩) | (dsimp only) | (refine wf_of_snd (by with_reducible assumption) ?_) | (refine wf_of_fst (by with_reducible assumption) ?_) | split

theorem wf_State_pmapQuery (h : s.wf = true) :
    (State.pmapQuery s).1.wf = true := by
  unfold State.pmapQuery
  repeat' first | with_reducible assumption | with_reducible apply wf_wr | with_reducible apply wf_wrn | with_reducible apply wf_regs | with_reducible apply wf_force | with_reducible apply wf_mem | with_reducible apply wf_scr | (simp only [wf_mk]; refine ⟨⟨⟨?_, ?_⟩, ?_⟩, ?_⟩) | (dsimp only) | (refine wf_of_snd (by with_reducible assumption) ?_) | (refine wf_of_fst (by with_reducible assumption) ?_) | split

theorem wf_State_windowUse (h : s.wf = true) (w : Option Nat) :
    (State.windowUse s w).wf = true := by
  unfold State.windowUse
  try dsimp only
  repeat' first | with_reducible assumption | (intro _)  | with_reducible apply wf_elim | with_reducible apply wf_regs | with_reducible apply wf_force | with_reducible apply wf_mem | with_reducible apply wf_scr | (simp only [wf_mk]; refine ⟨⟨⟨?_, ?_⟩, ?_⟩, ?_⟩) | (dsimp only) | (refine wf_of_snd (by with_reducible assumption) ?_) | (refine wf_of_fst (by with_reducible assumption) ?_) | split

theorem wf_State_copyUe (h : s.wf = true) (x : Nat) (l : List Nat) :
    (State.copyUe s x l).wf = true := by
  unfold State.copyUe
  repeat' first | with_reducible assumption | with_reducible apply wf_State_fresh | with_reducible apply wf_State_errLog | with_reducible apply wf_foldl | with_reducible apply wf_foldl1 | with_reducible apply wf_foldl2 | with_reducible apply wf_regs | with_reducible apply wf_force | with_reducible apply wf_mem | with_reducible apply wf_scr | (simp only [wf_mk]; refine ⟨⟨⟨?_, ?_⟩, ?_⟩, ?_⟩) | (dsimp only) | (refine wf_of_snd (by with_reducible assumption) ?_) | (refine wf_of_fst (by with_reducible assumption) ?_) | split

theorem wf_State_moveChunk (h : s.wf = true) (g : Page) (m : Move) (window : Option Nat) (ok : Bool) (ue : List Nat) :
    (State.moveChunk s g m window ok ue).wf = true := by
  unfold State.moveChunk
  try dsimp only
  repeat' first | with_reducible assumption | (intro _) | with_reducible apply wf_State_abandonMove | with_reducible apply wf_State_syncUse | with_reducible apply wf_State_done | with_reducible apply wf_State_setPage | with_reducible apply wf_State_windowUse | with_reducible apply wf_State_copyUe | with_reducible apply wf_ite | with_reducible apply wf_ite1 | with_reducible apply wf_ite2 | with_reducible apply wf_regs | with_reducible apply wf_force | with_reducible apply wf_mem | with_reducible apply wf_scr | (simp only [wf_mk]; refine ⟨⟨⟨?_, ?_⟩, ?_⟩, ?_⟩) | (dsimp only) | (refine wf_of_snd (by with_reducible assumption) ?_) | (refine wf_of_fst (by with_reducible assumption) ?_) | split

theorem wf_State_finishMoves (h : s.wf = true) :
    (State.finishMoves s).wf = true := by
  unfold State.finishMoves
  try dsimp only
  repeat' first | with_reducible assumption | (intro _) | with_reducible apply wf_each | with_reducible apply wf_State_done | with_reducible apply wf_State_setPage | with_reducible apply wf_sat | with_reducible apply wf_regs | with_reducible apply wf_force | with_reducible apply wf_mem | with_reducible apply wf_scr | (simp only [wf_mk]; refine ⟨⟨⟨?_, ?_⟩, ?_⟩, ?_⟩) | (dsimp only) | (refine wf_of_snd (by with_reducible assumption) ?_) | (refine wf_of_fst (by with_reducible assumption) ?_) | split

theorem wf_State_zeroPage (h : s.wf = true) (p : Nat) :
    (State.zeroPage s p).wf = true := by
  unfold State.zeroPage
  repeat' first | with_reducible assumption | (intro _)  | with_reducible apply wf_regs | with_reducible apply wf_force | with_reducible apply wf_mem | with_reducible apply wf_scr | with_reducible apply swf_sset | with_reducible apply wf_putBytes | with_reducible apply swf_filter | (simp only [wf_mk]; refine ⟨⟨⟨?_, ?_⟩, ?_⟩, ?_⟩)

theorem wf_State_scrubEnd (h : s.wf = true) (r : Scrub) :
    (State.scrubEnd s r).wf = true := by
  unfold State.scrubEnd
  try dsimp only
  repeat' first | with_reducible assumption | (intro _) | with_reducible apply wf_State_locGive | with_reducible apply wf_State_syncScrub | with_reducible apply wf_when | with_reducible apply wf_set | with_reducible apply wf_State_syncUse | with_reducible apply wf_regs | with_reducible apply wf_force | with_reducible apply wf_mem | with_reducible apply wf_scr | (simp only [wf_mk]; refine ⟨⟨⟨?_, ?_⟩, ?_⟩, ?_⟩)

theorem wf_State_heatFrame (h : s.wf = true) :
    (State.heatFrame s).wf = true := by
  unfold State.heatFrame
  repeat' first | with_reducible assumption | (intro _)  | with_reducible apply wf_ite | with_reducible apply wf_ite1 | with_reducible apply wf_ite2 | with_reducible apply wf_regs | with_reducible apply wf_force | with_reducible apply wf_mem | with_reducible apply wf_scr | (simp only [wf_mk]; refine ⟨⟨⟨?_, ?_⟩, ?_⟩, ?_⟩)

theorem wf_State_heatEpoch (h : s.wf = true) :
    (State.heatEpoch s).wf = true := by
  unfold State.heatEpoch
  repeat' first | with_reducible assumption | (intro _)  | with_reducible apply wf_ite | with_reducible apply wf_ite1 | with_reducible apply wf_ite2 | with_reducible apply wf_regs | with_reducible apply wf_force | with_reducible apply wf_mem | with_reducible apply wf_scr | (simp only [wf_mk]; refine ⟨⟨⟨?_, ?_⟩, ?_⟩, ?_⟩)

theorem wf_State_admitTo (h : s.wf = true) (g : Page) (tier : Nat) :
    (State.admitTo s g tier).2.wf = true := by
  unfold State.admitTo
  try dsimp only
  repeat' first | with_reducible assumption | (intro _) | with_reducible apply wf_State_quotaHit | with_reducible apply wf_ite | with_reducible apply wf_ite1 | with_reducible apply wf_ite2 | (dsimp only) | (refine wf_of_snd (by with_reducible assumption) ?_) | (refine wf_of_fst (by with_reducible assumption) ?_) | split

theorem wf_State_toDram (h : s.wf = true) (g : Page) (budget : Nat) :
    (State.toDram s g budget).1.wf = true := by
  unfold State.toDram
  repeat' first | with_reducible assumption | with_reducible apply wf_State_admitTo | with_reducible apply wf_State_startMove | with_reducible apply wf_ite | with_reducible apply wf_ite1 | with_reducible apply wf_ite2 | with_reducible apply wf_regs | with_reducible apply wf_force | with_reducible apply wf_mem | with_reducible apply wf_scr | (simp only [wf_mk]; refine ⟨⟨⟨?_, ?_⟩, ?_⟩, ?_⟩) | (dsimp only) | (refine wf_of_snd (by with_reducible assumption) ?_) | (refine wf_of_fst (by with_reducible assumption) ?_) | split

theorem wf_State_promote (h : s.wf = true) (held : List Nat) (budget : Nat) (p : Nat) :
    (State.promote held s budget p).1.wf = true := by
  unfold State.promote
  repeat' first | with_reducible assumption | with_reducible apply wf_State_admitTo | with_reducible apply wf_State_toDram | with_reducible apply wf_State_startMove | with_reducible apply wf_ite | with_reducible apply wf_ite1 | with_reducible apply wf_ite2 | with_reducible apply wf_regs | with_reducible apply wf_force | with_reducible apply wf_mem | with_reducible apply wf_scr | (simp only [wf_mk]; refine ⟨⟨⟨?_, ?_⟩, ?_⟩, ?_⟩) | (dsimp only) | (refine wf_of_snd (by with_reducible assumption) ?_) | (refine wf_of_fst (by with_reducible assumption) ?_) | split

theorem wf_State_demote (h : s.wf = true) (held : List Nat) (budget : Nat) (p : Nat) :
    (State.demote held s budget p).1.wf = true := by
  unfold State.demote
  repeat' first | with_reducible assumption | (intro _) | with_reducible apply wf_State_admitTo | with_reducible apply wf_State_startMove | with_reducible apply wf_ite | with_reducible apply wf_ite1 | with_reducible apply wf_ite2 | with_reducible apply wf_regs | with_reducible apply wf_force | with_reducible apply wf_mem | with_reducible apply wf_scr | (simp only [wf_mk]; refine ⟨⟨⟨?_, ?_⟩, ?_⟩, ?_⟩) | (dsimp only) | (refine wf_of_snd (by with_reducible assumption) ?_) | (refine wf_of_fst (by with_reducible assumption) ?_) | split

theorem wf_State_pinMove (h : s.wf = true) (held : List Nat) (budget : Nat) (p : Nat) :
    (State.pinMove held s budget p).1.wf = true := by
  unfold State.pinMove
  try dsimp only
  repeat' first | with_reducible assumption | (intro _) | with_reducible apply wf_State_setPage | with_reducible apply wf_State_locTake | with_reducible apply wf_State_moveTo | with_reducible apply wf_State_quotaHit | with_reducible apply wf_ite | with_reducible apply wf_ite1 | with_reducible apply wf_ite2 | with_reducible apply wf_regs | with_reducible apply wf_force | with_reducible apply wf_mem | with_reducible apply wf_scr | (simp only [wf_mk]; refine ⟨⟨⟨?_, ?_⟩, ?_⟩, ?_⟩) | (dsimp only) | (refine wf_of_snd (by with_reducible assumption) ?_) | (refine wf_of_fst (by with_reducible assumption) ?_) | split

theorem wf_State_tierPolicy (h : s.wf = true) :
    (State.tierPolicy s).wf = true := by
  unfold State.tierPolicy
  try dsimp only
  repeat' first | with_reducible assumption | (intro _) | with_reducible apply wf_State_pinMove | with_reducible apply wf_State_promote | with_reducible apply wf_State_demote | with_reducible apply wf_State_syncUse | with_reducible apply wf_ite | with_reducible apply wf_ite1 | with_reducible apply wf_ite2 | with_reducible apply wf_foldl | with_reducible apply wf_foldl1 | with_reducible apply wf_foldl2 | with_reducible apply wf_regs | with_reducible apply wf_force | with_reducible apply wf_mem | with_reducible apply wf_scr | (simp only [wf_mk]; refine ⟨⟨⟨?_, ?_⟩, ?_⟩, ?_⟩)

theorem wf_State_loseUnit (h : s.wf = true) (u : Nat) :
    (State.loseUnit s u).wf = true := by
  unfold State.loseUnit
  try dsimp only
  repeat' first | with_reducible assumption | (intro _) | with_reducible apply wf_each | with_reducible apply wf_State_abandonMove | with_reducible apply wf_State_setPage | with_reducible apply wf_when | with_reducible apply wf_set | with_reducible apply wf_State_errLog | with_reducible apply wf_State_syncUse | with_reducible apply wf_regs | with_reducible apply wf_force | with_reducible apply wf_mem | with_reducible apply wf_scr | (simp only [wf_mk]; refine ⟨⟨⟨?_, ?_⟩, ?_⟩, ?_⟩) | (dsimp only) | (refine wf_of_snd (by with_reducible assumption) ?_) | (refine wf_of_fst (by with_reducible assumption) ?_) | split

theorem wf_State_redirect (h : s.wf = true) (p : Nat) :
    (State.redirect s p).1.wf = true := by
  unfold State.redirect
  try dsimp only
  repeat' first | with_reducible assumption | (intro _) | with_reducible apply wf_State_admitTo | with_reducible apply wf_State_abandonMove | with_reducible apply wf_State_locTake | with_reducible apply wf_State_setPage | with_reducible apply wf_State_toScrub | with_reducible apply wf_set | with_reducible apply wf_State_syncUse | with_reducible apply wf_ite | with_reducible apply wf_ite1 | with_reducible apply wf_ite2 | with_reducible apply wf_regs | with_reducible apply wf_force | with_reducible apply wf_mem | with_reducible apply wf_scr | (simp only [wf_mk]; refine ⟨⟨⟨?_, ?_⟩, ?_⟩, ?_⟩) | (dsimp only) | (refine wf_of_snd (by with_reducible assumption) ?_) | (refine wf_of_fst (by with_reducible assumption) ?_) | split

end Sys2Proof.Machine
end

