-- ==== Sys2Proof/Laws/KeepTrays.lean ====
section
/-! SUPPORT. Every operation of Machine/Trays.lean keeps the stores of the state in their canonical form. -/

namespace Sys2Proof.Machine

variable {s : State}

theorem wf_State_setTray (h : s.wf = true) (t : Tray) :
    (State.setTray s t).wf = true := by
  unfold State.setTray
  repeat' first | with_reducible assumption | (intro _)  | with_reducible apply wf_ite | with_reducible apply wf_ite1 | with_reducible apply wf_ite2 | with_reducible apply wf_regs | with_reducible apply wf_force | with_reducible apply wf_mem | with_reducible apply wf_scr | (simp only [wf_mk]; refine ⟨⟨⟨?_, ?_⟩, ?_⟩, ?_⟩)

theorem wf_State_onTray (h : s.wf = true) (l : Nat) (f : Tray → State) (hf_f : ∀ x0, (f x0).wf = true) :
    (State.onTray s l f).wf = true := by
  unfold State.onTray
  repeat' first | with_reducible assumption | with_reducible apply hf_f | with_reducible apply wf_regs | with_reducible apply wf_force | with_reducible apply wf_mem | with_reducible apply wf_scr | (simp only [wf_mk]; refine ⟨⟨⟨?_, ?_⟩, ?_⟩, ?_⟩) | (dsimp only) | (refine wf_of_snd (by with_reducible assumption) ?_) | (refine wf_of_fst (by with_reducible assumption) ?_) | split

theorem wf_State_traySync (h : s.wf = true) (t0 : Tray) :
    (State.traySync s t0).wf = true := by
  unfold State.traySync
  try dsimp only
  repeat' first | with_reducible assumption | (intro _) | with_reducible apply wf_State_setTray | with_reducible apply wf_wrn | with_reducible apply wf_sat | with_reducible apply wf_when | with_reducible apply wf_set | with_reducible apply wf_wrFld | with_reducible apply wf_ite | with_reducible apply wf_ite1 | with_reducible apply wf_ite2 | with_reducible apply wf_foldl | with_reducible apply wf_foldl1 | with_reducible apply wf_foldl2 | with_reducible apply wf_regs | with_reducible apply wf_force | with_reducible apply wf_mem | with_reducible apply wf_scr | (simp only [wf_mk]; refine ⟨⟨⟨?_, ?_⟩, ?_⟩, ?_⟩) | (dsimp only) | (refine wf_of_snd (by with_reducible assumption) ?_) | (refine wf_of_fst (by with_reducible assumption) ?_) | split

theorem wf_State_sat64 (h : s.wf = true) (off : Nat) (n : Nat) :
    (State.sat64 s off n).wf = true := by
  unfold State.sat64
  repeat' first | with_reducible assumption | with_reducible apply wf_wr64

theorem wf_State_programmed (h : s.wf = true) (l : Nat) (n : Nat) :
    (State.programmed s l n).wf = true := by
  unfold State.programmed
  repeat' first | with_reducible assumption | with_reducible apply wf_State_sat64

theorem wf_State_cacheTake (h : s.wf = true) (k : Nat × Nat × Nat) :
    (State.cacheTake s k).wf = true := by
  unfold State.cacheTake
  try dsimp only
  repeat' first | with_reducible assumption | (intro _) | with_reducible apply wf_State_onTray | with_reducible apply wf_State_setTray | with_reducible apply wf_ite | with_reducible apply wf_ite1 | with_reducible apply wf_ite2 | with_reducible apply wf_regs | with_reducible apply wf_force | with_reducible apply wf_mem | with_reducible apply wf_scr | (simp only [wf_mk]; refine ⟨⟨⟨?_, ?_⟩, ?_⟩, ?_⟩)

theorem wf_State_cacheHold (h : s.wf = true) (i : Instr) (a : Nat) (n : Nat) (f : State → State) (hf_f : ∀ t : State, t.wf = true → (f t).wf = true) :
    (State.cacheHold s i a n f).wf = true := by
  unfold State.cacheHold
  repeat' first | with_reducible assumption | with_reducible apply hf_f | with_reducible apply wf_regs | with_reducible apply wf_force | with_reducible apply wf_mem | with_reducible apply wf_scr | (simp only [wf_mk]; refine ⟨⟨⟨?_, ?_⟩, ?_⟩, ?_⟩) | (dsimp only) | (refine wf_of_snd (by with_reducible assumption) ?_) | (refine wf_of_fst (by with_reducible assumption) ?_) | split

theorem wf_State_cacheFill (h : s.wf = true) (l : Nat) (p : Nat) (u : Nat) :
    (State.cacheFill s l p u).wf = true := by
  unfold State.cacheFill
  try dsimp only
  repeat' first | with_reducible assumption | (intro _) | with_reducible apply wf_State_onTray | with_reducible apply wf_State_setTray | with_reducible apply wf_ite | with_reducible apply wf_ite1 | with_reducible apply wf_ite2 | with_reducible apply wf_regs | with_reducible apply wf_force | with_reducible apply wf_mem | with_reducible apply wf_scr | (simp only [wf_mk]; refine ⟨⟨⟨?_, ?_⟩, ?_⟩, ?_⟩)

theorem wf_State_takeWrite (h : s.wf = true) (a : Nat) (n : Nat) :
    (State.takeWrite s a n).1.wf = true := by
  unfold State.takeWrite
  try dsimp only
  repeat' first | with_reducible assumption | (intro _) | with_reducible apply wf_State_redirect | with_reducible apply wf_each | with_reducible apply wf_State_cacheTake | with_reducible apply wf_ite | with_reducible apply wf_ite1 | with_reducible apply wf_ite2 | with_reducible apply wf_foldl | with_reducible apply wf_foldl1 | with_reducible apply wf_foldl2

theorem wf_State_expWrite (h : s.wf = true) (a : Nat) (n : Nat) :
    (State.expWrite s a n).wf = true := by
  unfold State.expWrite
  try dsimp only
  repeat' first | with_reducible assumption | (intro _) | with_reducible apply wf_each | with_reducible apply wf_when | with_reducible apply wf_emit | with_reducible apply wf_regs | with_reducible apply wf_force | with_reducible apply wf_mem | with_reducible apply wf_scr | (simp only [wf_mk]; refine ⟨⟨⟨?_, ?_⟩, ?_⟩, ?_⟩) | (dsimp only) | (refine wf_of_snd (by with_reducible assumption) ?_) | (refine wf_of_fst (by with_reducible assumption) ?_) | split

theorem wf_State_saveMem (h : s.wf = true) (a : Nat) (d : List Byte) :
    (State.saveMem s a d).1.wf = true := by
  unfold State.saveMem
  try dsimp only
  repeat' first | with_reducible assumption | (intro _) | with_reducible apply wf_State_takeWrite | with_reducible apply wf_State_store | with_reducible apply wf_State_expWrite | with_reducible apply wf_State_mirrorWrite | with_reducible apply wf_ite | with_reducible apply wf_ite1 | with_reducible apply wf_ite2

theorem wf_State_memLine (h : s.wf = true) (l : Nat) (d : List Byte) :
    (State.memLine s l d).wf = true := by
  unfold State.memLine
  try dsimp only
  repeat' first | with_reducible assumption | (intro _) | with_reducible apply wf_State_takeWrite | with_reducible apply wf_State_expWrite | with_reducible apply wf_State_mirrorWrite | with_reducible apply wf_ite | with_reducible apply wf_ite1 | with_reducible apply wf_ite2 | with_reducible apply wf_regs | with_reducible apply wf_force | with_reducible apply wf_mem | with_reducible apply wf_scr | with_reducible apply swf_sset | with_reducible apply wf_putBytes | with_reducible apply swf_filter | (simp only [wf_mk]; refine ⟨⟨⟨?_, ?_⟩, ?_⟩, ?_⟩)

theorem wf_State_save (h : s.wf = true) (x : Nat) (a : Nat) (d : List Byte) :
    (State.save s x a d).1.wf = true := by
  unfold State.save
  try dsimp only
  repeat' first | with_reducible assumption | (intro _) | with_reducible apply wf_State_steerWrite | with_reducible apply wf_State_saveMem | with_reducible apply wf_ite | with_reducible apply wf_ite1 | with_reducible apply wf_ite2 | with_reducible apply wf_foldl | with_reducible apply wf_foldl1 | with_reducible apply wf_foldl2

end Sys2Proof.Machine
end

