-- ==== Sys2Proof/Laws/KeepStreams.lean ====
section
/-! SUPPORT. Every operation of Machine/Streams.lean keeps the stores of the state in their canonical form. -/

namespace Sys2Proof.Machine

variable {s : State}

theorem wf_State_setWs (h : s.wf = true) (w : WStream) :
    (State.setWs s w).wf = true := by
  unfold State.setWs
  repeat' first | with_reducible assumption | (intro _)  | with_reducible apply wf_ite | with_reducible apply wf_ite1 | with_reducible apply wf_ite2 | with_reducible apply wf_regs | with_reducible apply wf_force | with_reducible apply wf_mem | with_reducible apply wf_scr | (simp only [wf_mk]; refine ⟨⟨⟨?_, ?_⟩, ?_⟩, ?_⟩) | (simp only [id_eq]; assumption)

theorem wf_State_copyChunks (h : s.wf = true) (stack : Nat) (pages : Nat) (take : Bool) :
    (State.copyChunks s stack pages take).wf = true := by
  unfold State.copyChunks
  repeat' first | with_reducible assumption | (intro _)  | with_reducible apply wf_ite | with_reducible apply wf_ite1 | with_reducible apply wf_ite2 | with_reducible apply wf_regs | with_reducible apply wf_force | with_reducible apply wf_mem | with_reducible apply wf_scr | (simp only [wf_mk]; refine ⟨⟨⟨?_, ?_⟩, ?_⟩, ?_⟩)

theorem wf_State_wsRelease (h : s.wf = true) (w : WStream) :
    (State.wsRelease s w).wf = true := by
  unfold State.wsRelease
  try dsimp only
  repeat' first | with_reducible assumption | (intro _) | with_reducible apply wf_each | with_reducible apply wf_State_copyChunks | with_reducible apply wf_State_setWs | with_reducible apply wf_State_syncUse | with_reducible apply wf_regs | with_reducible apply wf_force | with_reducible apply wf_mem | with_reducible apply wf_scr | (simp only [wf_mk]; refine ⟨⟨⟨?_, ?_⟩, ?_⟩, ?_⟩)

theorem wf_State_ctrSet (h : s.wf = true) (c : Nat) (v : Nat) :
    (State.ctrSet s c v).wf = true := by
  unfold State.ctrSet
  try dsimp only
  repeat' first | with_reducible assumption | (intro _) | with_reducible apply wf_wr64 | with_reducible apply wf_State_recheck | with_reducible apply wf_State_notify | with_reducible apply wf_each | with_reducible apply wf_State_wsRelease

theorem wf_State_ctrAdd (h : s.wf = true) (c : Nat) (n : Nat) :
    (State.ctrAdd s c n).wf = true := by
  unfold State.ctrAdd
  repeat' first | with_reducible assumption | (intro _) | with_reducible apply wf_State_ctrSet | with_reducible apply wf_when | with_reducible apply wf_State_stepCheck

theorem wf_State_ctrFail (h : s.wf = true) (c : Nat) (st : Status) :
    (State.ctrFail s c st).wf = true := by
  unfold State.ctrFail
  try dsimp only
  repeat' first | with_reducible assumption | (intro _) | with_reducible apply wf_wrn

theorem wf_State_evlog (h : s.wf = true) (q : Nat) (st : Status) (kind : Nat) (entry : Nat) (index : Nat) :
    (State.evlog s q st kind entry index).wf = true := by
  unfold State.evlog
  try dsimp only
  repeat' first | with_reducible assumption | (intro _) | with_reducible apply wf_sat | with_reducible apply wf_set | with_reducible apply wf_State_save | with_reducible apply wf_wrap | with_reducible apply wf_ite | with_reducible apply wf_ite1 | with_reducible apply wf_ite2

end Sys2Proof.Machine
end

