-- ==== Sys2Proof/Laws/KeepArray.lean ====
section
/-! SUPPORT. Every operation of Machine/Array.lean keeps the stores of the state in their canonical form. -/

namespace Sys2Proof.Machine

variable {s : State}

theorem wf_State_scrPut (h : s.wf = true) (w : Win) (b : Nat) (d : List Byte) : (State.scrPut s w b d).wf = true := by
  have hf : ∀ (l : List (Nat × Byte)) (m : List (Nat × Byte)), swf (fun _ => 0#8) m = true →
      swf (fun _ => 0#8) (l.foldl (fun m p => sset (fun _ => (0 : Byte)) m (w.key (b + p.1)) p.2) m) = true := by
    intro l
    induction l with
    | nil => exact fun m h => h
    | cons p l ih => exact fun m h => ih _ (swf_sset _ _ _ h)
  unfold State.scrPut
  dsimp only
  apply wf_State_setPoison
  simp only [wf_mk]
  exact ⟨⟨⟨wf_regs h, wf_force h⟩, wf_mem h⟩, hf _ _ (wf_scr h)⟩

theorem wf_State_scrPutNat (h : s.wf = true) (w : Win) (line : Nat) (lines : Nat) (v : Nat) :
    (State.scrPutNat s w line lines v).wf = true := by
  unfold State.scrPutNat
  repeat' first | with_reducible assumption | with_reducible apply wf_State_scrPut

theorem wf_State_scrUe (h : s.wf = true) (w : Win) (bad : List Nat) :
    (State.scrUe s w bad).wf = true := by
  unfold State.scrUe
  try dsimp only
  repeat' first | with_reducible assumption | (intro _) | with_reducible apply wf_State_setPoison | with_reducible apply wf_set | with_reducible apply wf_ite | with_reducible apply wf_ite1 | with_reducible apply wf_ite2

theorem wf_State_scrCe (h : s.wf = true) (e : Nat) (n : Nat) :
    (State.scrCe s e n).wf = true := by
  unfold State.scrCe
  repeat' first | with_reducible assumption | (intro _) | with_reducible apply wf_when | with_reducible apply wf_sat | with_reducible apply wf_set

theorem wf_State_scrIn (h : s.wf = true) (w : Win) (x : ScrIn) :
    (State.scrIn s w x).wf = true := by
  unfold State.scrIn
  repeat' first | with_reducible assumption | with_reducible apply wf_State_scrUe | with_reducible apply wf_State_scrCe

theorem wf_State_accOutTo (h : s.wf = true) (w : Win) (i : Nat) (t : Tile) :
    (State.accOutTo s w i t).wf = true := by
  unfold State.accOutTo
  try dsimp only
  repeat' first | with_reducible assumption | (intro _) | with_reducible apply wf_sat | with_reducible apply wf_State_scrPutNat | with_reducible apply wf_ite | with_reducible apply wf_ite1 | with_reducible apply wf_ite2 | with_reducible apply wf_foldl | with_reducible apply wf_foldl1 | with_reducible apply wf_foldl2

theorem wf_State_vopRun (h : s.wf = true) (w : Win) (i : Nat) :
    (State.vopRun s w i).wf = true := by
  unfold State.vopRun
  try dsimp only
  repeat' first | with_reducible assumption | (intro _) | with_reducible apply wf_State_scrPutNat

theorem wf_State_transposeRun (h : s.wf = true) (w : Win) (i : Nat) :
    (State.transposeRun s w i).wf = true := by
  unfold State.transposeRun
  try dsimp only
  repeat' first | with_reducible assumption | (intro _) | with_reducible apply wf_State_scrPutNat | with_reducible apply wf_foldl | with_reducible apply wf_foldl1 | with_reducible apply wf_foldl2

theorem wf_State_ldRun (h : s.wf = true) (w : Win) (d : BitVec 512) (i : Nat) :
    (State.ldRun s w d i).wf = true := by
  unfold State.ldRun
  repeat' first | with_reducible assumption | (intro _) | with_reducible apply wf_State_mark | with_reducible apply wf_State_scrPut | with_reducible apply wf_foldl | with_reducible apply wf_foldl1 | with_reducible apply wf_foldl2

theorem wf_State_stRun (h : s.wf = true) (x : Nat) (w : Win) (d : BitVec 512) (i : Nat) :
    (State.stRun s x w d i).1.wf = true := by
  unfold State.stRun
  repeat' first | with_reducible assumption | (intro _) | with_reducible apply wf_State_save | with_reducible apply wf_ite | with_reducible apply wf_ite1 | with_reducible apply wf_ite2 | with_reducible apply wf_foldl | with_reducible apply wf_foldl1 | with_reducible apply wf_foldl2

theorem wf_State_retire (h : s.wf = true) (o : Op) :
    (State.retire s o).wf = true := by
  unfold State.retire
  repeat' first | with_reducible assumption | with_reducible apply wf_wrap | with_reducible apply wf_State_progress | with_reducible apply wf_regs | with_reducible apply wf_force | with_reducible apply wf_mem | with_reducible apply wf_scr | (simp only [wf_mk]; refine ⟨⟨⟨?_, ?_⟩, ?_⟩, ?_⟩) | (dsimp only) | (refine wf_of_snd (by with_reducible assumption) ?_) | (refine wf_of_fst (by with_reducible assumption) ?_) | split

theorem wf_State_instrRun (h : s.wf = true) (o : Op) (i : Nat) (ue : List Nat) :
    (State.instrRun s o i ue).1.wf = true := by
  unfold State.instrRun
  try dsimp only
  repeat' first | with_reducible assumption | (intro _) | with_reducible apply wf_State_retire | with_reducible apply wf_State_ldRun | with_reducible apply wf_State_stRun | with_reducible apply wf_State_accOutTo | with_reducible apply wf_State_vopRun | with_reducible apply wf_State_transposeRun | with_reducible apply wf_ite | with_reducible apply wf_ite1 | with_reducible apply wf_ite2 | with_reducible apply wf_regs | with_reducible apply wf_force | with_reducible apply wf_mem | with_reducible apply wf_scr | (simp only [wf_mk]; refine ⟨⟨⟨?_, ?_⟩, ?_⟩, ?_⟩) | (dsimp only) | (refine wf_of_snd (by with_reducible assumption) ?_) | (refine wf_of_fst (by with_reducible assumption) ?_) | split

theorem wf_State_progRun (h : s.wf = true) (o : Op) (ue : List Nat) (n : Nat) : (State.progRun s o ue n).1.wf = true := by
  induction n generalizing s o with
  | zero => exact h
  | succ n ih =>
    unfold State.progRun
    split
    · exact h
    · dsimp only
      split
      · exact wf_State_instrRun h _ _ _
      · exact ih (wf_State_instrRun h _ _ _) _

theorem wf_State_progEnd (r : State × Op × Status) (ue : List Nat) (hp_r : r.1.wf = true) :
    (State.progEnd r ue).wf = true := by
  unfold State.progEnd
  try dsimp only
  repeat' first | with_reducible assumption | (intro _) | with_reducible apply wf_State_finish | with_reducible apply wf_State_done | with_reducible apply wf_State_setOp | with_reducible apply wf_ite | with_reducible apply wf_ite1 | with_reducible apply wf_ite2 | with_reducible apply wf_regs | with_reducible apply wf_force | with_reducible apply wf_mem | with_reducible apply wf_scr | (simp only [wf_mk]; refine ⟨⟨⟨?_, ?_⟩, ?_⟩, ?_⟩)

theorem wf_State_apRun (h : s.wf = true) (o : Op) (stepwise : Bool) (ue : List Nat) :
    (State.apRun s o stepwise ue).wf = true := by
  unfold State.apRun
  try dsimp only
  repeat' first | with_reducible assumption | (intro _) | with_reducible apply wf_State_done | with_reducible apply wf_State_mark | with_reducible apply wf_State_finish | with_reducible apply wf_State_setOp | with_reducible apply wf_State_progEnd | with_reducible apply wf_State_progRun | with_reducible apply wf_ite | with_reducible apply wf_ite1 | with_reducible apply wf_ite2 | with_reducible apply wf_regs | with_reducible apply wf_force | with_reducible apply wf_mem | with_reducible apply wf_scr | (simp only [wf_mk]; refine ⟨⟨⟨?_, ?_⟩, ?_⟩, ?_⟩)

theorem wf_State_onInstr (h : s.wf = true) (id : Nat) (code : Nat) (ue : List Nat) (scr : ScrIn) :
    (State.onInstr s id code ue scr).wf = true := by
  unfold State.onInstr
  repeat' first | with_reducible assumption | (intro _) | with_reducible apply wf_State_coherent | with_reducible apply wf_State_progEnd | with_reducible apply wf_State_scrIn | with_reducible apply wf_State_progRun | with_reducible apply wf_State_stepped | with_reducible apply wf_ite | with_reducible apply wf_ite1 | with_reducible apply wf_ite2 | with_reducible apply wf_regs | with_reducible apply wf_force | with_reducible apply wf_mem | with_reducible apply wf_scr | (simp only [wf_mk]; refine ⟨⟨⟨?_, ?_⟩, ?_⟩, ?_⟩) | (simp only [id_eq]; assumption) | (dsimp only) | (refine wf_of_snd (by with_reducible assumption) ?_) | (refine wf_of_fst (by with_reducible assumption) ?_) | split

end Sys2Proof.Machine
end

