-- ==== Sys2Proof/Laws/KeepQueues.lean ====
section
/-! SUPPORT. Every operation of Machine/Queues.lean keeps the stores of the state in their canonical form. -/

namespace Sys2Proof.Machine

variable {s : State}

theorem wf_qErr (h : s.wf = true) (q : Nat) (m : Word) :
    (qErr s q m).wf = true := by
  unfold qErr
  repeat' first | with_reducible assumption | with_reducible apply wf_set

theorem wf_qWake (h : s.wf = true) (q : Nat) :
    (qWake s q).wf = true := by
  unfold qWake
  repeat' first | with_reducible assumption | with_reducible apply wf_when | with_reducible apply wf_State_wakeIdle

theorem wf_qDoorbell (h : s.wf = true) (q : Nat) (v : Word) :
    (qDoorbell s q v).wf = true := by
  unfold qDoorbell
  try dsimp only
  repeat' first | with_reducible assumption | (intro _) | with_reducible apply wf_sat | with_reducible apply wf_qWake | with_reducible apply wf_wr | with_reducible apply wf_qErr | with_reducible apply wf_ite | with_reducible apply wf_ite1 | with_reducible apply wf_ite2 | with_reducible apply wf_regs | with_reducible apply wf_force | with_reducible apply wf_mem | with_reducible apply wf_scr | (simp only [wf_mk]; refine ⟨⟨⟨?_, ?_⟩, ?_⟩, ?_⟩) | (dsimp only) | (refine wf_of_snd (by with_reducible assumption) ?_) | (refine wf_of_fst (by with_reducible assumption) ?_) | split

theorem wf_State_elapse (h : s.wf = true) (n : Nat) :
    (State.elapse s n).wf = true := by
  unfold State.elapse
  try dsimp only
  repeat' first | with_reducible assumption | (intro _) | with_reducible apply wf_each | with_reducible apply wf_when | with_reducible apply wf_sat

theorem wf_State_atCycle (h : s.wf = true) (c : Nat) :
    (State.atCycle s c).wf = true := by
  unfold State.atCycle
  try dsimp only
  repeat' first | with_reducible assumption | (intro _) | with_reducible apply wf_State_elapse | with_reducible apply wf_regs | with_reducible apply wf_force | with_reducible apply wf_mem | with_reducible apply wf_scr | (simp only [wf_mk]; refine ⟨⟨⟨?_, ?_⟩, ?_⟩, ?_⟩)

theorem wf_qRingHold (h : s.wf = true) (q : Nat) (v : Word) :
    (qRingHold s q v).wf = true := by
  unfold qRingHold
  try dsimp only
  repeat' first | with_reducible assumption | (intro _) | with_reducible apply wf_each | with_reducible apply wf_State_abandonMove | with_reducible apply wf_State_startMove | with_reducible apply wf_State_setPage | with_reducible apply wf_State_syncUse | with_reducible apply wf_ite | with_reducible apply wf_ite1 | with_reducible apply wf_ite2 | with_reducible apply wf_regs | with_reducible apply wf_force | with_reducible apply wf_mem | with_reducible apply wf_scr | (simp only [wf_mk]; refine ⟨⟨⟨?_, ?_⟩, ?_⟩, ?_⟩) | (dsimp only) | (refine wf_of_snd (by with_reducible assumption) ?_) | (refine wf_of_fst (by with_reducible assumption) ?_) | split

theorem wf_qRingFollow (h : s.wf = true) (q : Nat) :
    (qRingFollow s q).wf = true := by
  unfold qRingFollow
  try dsimp only
  repeat' first | with_reducible assumption | (intro _) | with_reducible apply wf_when | with_reducible apply wf_qRingHold

theorem wf_qEnable (h : s.wf = true) (q : Nat) :
    (qEnable s q).wf = true := by
  unfold qEnable
  repeat' first | with_reducible assumption | with_reducible apply wf_qErr | with_reducible apply wf_qWake | with_reducible apply wf_qSetState | with_reducible apply wf_set | with_reducible apply wf_ite | with_reducible apply wf_ite1 | with_reducible apply wf_ite2

theorem wf_qCfg (h : s.wf = true) (q : Nat) (v : Word) :
    (qCfg s q v).wf = true := by
  unfold qCfg
  try dsimp only
  repeat' first | with_reducible assumption | (intro _) | with_reducible apply wf_qErr | with_reducible apply wf_qRingHold | with_reducible apply wf_wr | with_reducible apply wf_qEnable | with_reducible apply wf_qDisable | with_reducible apply wf_ite | with_reducible apply wf_ite1 | with_reducible apply wf_ite2 | (dsimp only) | (refine wf_of_snd (by with_reducible assumption) ?_) | (refine wf_of_fst (by with_reducible assumption) ?_) | split

theorem wf_qLocked (h : s.wf = true) (q : Nat) (f : State → State) (hf_f : ∀ t : State, t.wf = true → (f t).wf = true) :
    (qLocked s q f).wf = true := by
  unfold qLocked
  repeat' first | with_reducible assumption | with_reducible apply hf_f | with_reducible apply wf_qErr | with_reducible apply wf_ite | with_reducible apply wf_ite1 | with_reducible apply wf_ite2

theorem wf_qRebase (h : s.wf = true) (q : Nat) :
    (qRebase s q).wf = true := by
  unfold qRebase
  try dsimp only
  repeat' first | with_reducible assumption | (intro _) | with_reducible apply wf_wr | with_reducible apply wf_ite | with_reducible apply wf_ite1 | with_reducible apply wf_ite2 | with_reducible apply wf_regs | with_reducible apply wf_force | with_reducible apply wf_mem | with_reducible apply wf_scr | (simp only [wf_mk]; refine ⟨⟨⟨?_, ?_⟩, ?_⟩, ?_⟩)

theorem wf_qRingLo (h : s.wf = true) (port : Nat) (q : Nat) (v : Word) :
    (qRingLo s port q v).wf = true := by
  unfold qRingLo
  repeat' first | with_reducible assumption | (intro _) | with_reducible apply wf_qLocked | with_reducible apply wf_qRingFollow | with_reducible apply wf_qRebase | with_reducible apply wf_State_plainWrite

theorem wf_readIndex (h : s.wf = true) (rdOff : Nat) (wrOff : Nat) (v : Word) :
    (readIndex s rdOff wrOff v).wf = true := by
  unfold readIndex
  repeat' first | with_reducible assumption | (intro _) | with_reducible apply wf_when | with_reducible apply wf_wr

theorem wf_qLogRd (h : s.wf = true) (q : Nat) (v : Word) :
    (qLogRd s q v).wf = true := by
  unfold qLogRd
  repeat' first | with_reducible assumption | with_reducible apply wf_readIndex

end Sys2Proof.Machine
end

