-- ==== Sys2Proof/Laws/KeepGeneric.lean ====
section
/-! SUPPORT. Every operation of Machine/Generic.lean keeps the stores of the state in their canonical form. -/

namespace Sys2Proof.Machine

variable {s : State}

theorem wf_State_askReads (h : s.wf = true) (o : Op) (a : Nat) (n : Nat) :
    (State.askReads s o a n).wf = true := by
  unfold State.askReads
  try dsimp only
  repeat' first | with_reducible assumption | (intro _) | with_reducible apply wf_each | with_reducible apply wf_State_ask | (simp only [id_eq]; assumption)

theorem wf_State_putAway (h : s.wf = true) (o : Op) (a : Nat) (d : List Byte) :
    (State.putAway s o a d).1.wf = true := by
  unfold State.putAway
  try dsimp only
  repeat' first | with_reducible assumption | (intro _) | with_reducible apply wf_State_save | with_reducible apply wf_each | with_reducible apply wf_State_ask | with_reducible apply wf_ite | with_reducible apply wf_ite1 | with_reducible apply wf_ite2 | with_reducible apply wf_foldl | with_reducible apply wf_foldl1 | with_reducible apply wf_foldl2 | (simp only [id_eq]; assumption)

theorem wf_State_remoteWrite (h : s.wf = true) (o : Op) (dst : Nat) (d : List Byte) :
    (State.remoteWrite s o dst d).wf = true := by
  unfold State.remoteWrite
  try dsimp only
  repeat' first | with_reducible assumption | (intro _) | with_reducible apply wf_State_putAway | with_reducible apply wf_State_setOp | with_reducible apply wf_State_finish | with_reducible apply wf_ite | with_reducible apply wf_ite1 | with_reducible apply wf_ite2 | with_reducible apply wf_regs | with_reducible apply wf_force | with_reducible apply wf_mem | with_reducible apply wf_scr | (simp only [wf_mk]; refine ⟨⟨⟨?_, ?_⟩, ?_⟩, ?_⟩) | (simp only [id_eq]; assumption)

theorem wf_State_copyAway (h : s.wf = true) (o : Op) (ue : List Nat) :
    (State.copyAway s o ue).wf = true := by
  unfold State.copyAway
  try dsimp only
  repeat' first | with_reducible assumption | (intro _) | with_reducible apply wf_State_finish | with_reducible apply wf_State_remoteWrite | with_reducible apply wf_ite | with_reducible apply wf_ite1 | with_reducible apply wf_ite2

theorem wf_State_copyRemote (h : s.wf = true) (o : Op) (ue : List Nat) :
    (State.copyRemote s o ue).wf = true := by
  unfold State.copyRemote
  try dsimp only
  repeat' first | with_reducible assumption | (intro _) | with_reducible apply wf_State_askReads | with_reducible apply wf_State_finish | with_reducible apply wf_State_setOp | with_reducible apply wf_State_copyAway | with_reducible apply wf_ite | with_reducible apply wf_ite1 | with_reducible apply wf_ite2 | with_reducible apply wf_regs | with_reducible apply wf_force | with_reducible apply wf_mem | with_reducible apply wf_scr | (simp only [wf_mk]; refine ⟨⟨⟨?_, ?_⟩, ?_⟩, ?_⟩) | (simp only [id_eq]; assumption)

theorem wf_State_copyRun (h : s.wf = true) (o : Op) (ue : List Nat) :
    (State.copyRun s o ue).wf = true := by
  unfold State.copyRun
  try dsimp only
  repeat' first | with_reducible assumption | (intro _) | with_reducible apply wf_State_mark | with_reducible apply wf_State_done | with_reducible apply wf_State_copyRemote | with_reducible apply wf_State_finish | with_reducible apply wf_State_fresh | with_reducible apply wf_State_save | with_reducible apply wf_ite | with_reducible apply wf_ite1 | with_reducible apply wf_ite2 | (dsimp only) | (refine wf_of_snd (by with_reducible assumption) ?_) | (refine wf_of_fst (by with_reducible assumption) ?_) | split

theorem wf_State_fillRun (h : s.wf = true) (o : Op) :
    (State.fillRun s o).wf = true := by
  unfold State.fillRun
  try dsimp only
  repeat' first | with_reducible assumption | (intro _) | with_reducible apply wf_State_done | with_reducible apply wf_State_remoteWrite | with_reducible apply wf_State_save | with_reducible apply wf_State_finish | with_reducible apply wf_ite | with_reducible apply wf_ite1 | with_reducible apply wf_ite2

theorem wf_State_counterRun (h : s.wf = true) (o : Op) :
    (State.counterRun s o).wf = true := by
  unfold State.counterRun
  try dsimp only
  repeat' first | with_reducible assumption | (intro _) | with_reducible apply wf_State_done | with_reducible apply wf_State_ctrAdd | with_reducible apply wf_State_ctrSet | with_reducible apply wf_ite | with_reducible apply wf_ite1 | with_reducible apply wf_ite2 | with_reducible apply wf_regs | with_reducible apply wf_force | with_reducible apply wf_mem | with_reducible apply wf_scr | (simp only [wf_mk]; refine ⟨⟨⟨?_, ?_⟩, ?_⟩, ?_⟩) | (dsimp only) | (refine wf_of_snd (by with_reducible assumption) ?_) | (refine wf_of_fst (by with_reducible assumption) ?_) | split

theorem wf_State_opAnswer (h : s.wf = true) (id : Nat) (addr : Nat) (st : Status) (data : List Byte) :
    (State.opAnswer s id addr st data).wf = true := by
  unfold State.opAnswer
  try dsimp only
  repeat' first | with_reducible assumption | (intro _) | with_reducible apply wf_State_setOp | with_reducible apply wf_State_finish | with_reducible apply wf_State_copyAway | with_reducible apply wf_ite | with_reducible apply wf_ite1 | with_reducible apply wf_ite2 | with_reducible apply wf_regs | with_reducible apply wf_force | with_reducible apply wf_mem | with_reducible apply wf_scr | (simp only [wf_mk]; refine ⟨⟨⟨?_, ?_⟩, ?_⟩, ?_⟩) | (simp only [id_eq]; assumption) | (dsimp only) | (refine wf_of_snd (by with_reducible assumption) ?_) | (refine wf_of_fst (by with_reducible assumption) ?_) | split

end Sys2Proof.Machine
end

