-- ==== Sys2Proof/Laws/KeepReduce.lean ====
section
/-! SUPPORT. Every operation of Machine/Reduce.lean keeps the stores of the state in their canonical form. -/

namespace Sys2Proof.Machine

variable {s : State}

theorem wf_State_redSync (h : s.wf = true) (e : Nat) :
    (State.redSync s e).wf = true := by
  unfold State.redSync
  try dsimp only
  repeat' first | with_reducible assumption | (intro _) | with_reducible apply wf_wrn | with_reducible apply wf_wr | with_reducible apply wf_regs | with_reducible apply wf_force | with_reducible apply wf_mem | with_reducible apply wf_scr | (simp only [wf_mk]; refine ⟨⟨⟨?_, ?_⟩, ?_⟩, ?_⟩) | (dsimp only) | (refine wf_of_snd (by with_reducible assumption) ?_) | (refine wf_of_fst (by with_reducible assumption) ?_) | split

theorem wf_State_redClosed (h : s.wf = true) (r : Stream) :
    (State.redClosed s r).wf = true := by
  unfold State.redClosed
  repeat' first | with_reducible assumption | with_reducible apply wf_State_setRed | with_reducible apply wf_State_steer | with_reducible apply wf_State_redSync | with_reducible apply wf_regs | with_reducible apply wf_force | with_reducible apply wf_mem | with_reducible apply wf_scr | (simp only [wf_mk]; refine ⟨⟨⟨?_, ?_⟩, ?_⟩, ?_⟩)

theorem wf_State_redClose (h : s.wf = true) (fuel : Nat) (r : Stream) (st : Status)  :
    (State.redClose s fuel r st).wf = true := by
  induction fuel generalizing s r with
  | zero =>
    unfold State.redClose
    try dsimp only
    repeat' first | with_reducible assumption | (intro _) | with_reducible apply ih | with_reducible apply wf_State_redClosed | with_reducible apply wf_State_done | with_reducible apply wf_when | with_reducible apply wf_sat | with_reducible apply wf_State_sendOn | with_reducible apply wf_ite | with_reducible apply wf_ite1 | with_reducible apply wf_ite2 | with_reducible apply wf_elim | with_reducible apply wf_regs | with_reducible apply wf_force | with_reducible apply wf_mem | with_reducible apply wf_scr | (simp only [wf_mk]; refine ⟨⟨⟨?_, ?_⟩, ?_⟩, ?_⟩) | (dsimp only) | (refine wf_of_snd (by with_reducible assumption) ?_) | (refine wf_of_fst (by with_reducible assumption) ?_) | split
  | succ n ih =>
    unfold State.redClose
    try dsimp only
    repeat' first | with_reducible assumption | (intro _) | with_reducible apply ih | with_reducible apply wf_State_redClosed | with_reducible apply wf_State_done | with_reducible apply wf_when | with_reducible apply wf_sat | with_reducible apply wf_State_sendOn | with_reducible apply wf_ite | with_reducible apply wf_ite1 | with_reducible apply wf_ite2 | with_reducible apply wf_elim | with_reducible apply wf_regs | with_reducible apply wf_force | with_reducible apply wf_mem | with_reducible apply wf_scr | (simp only [wf_mk]; refine ⟨⟨⟨?_, ?_⟩, ?_⟩, ?_⟩) | (dsimp only) | (refine wf_of_snd (by with_reducible assumption) ?_) | (refine wf_of_fst (by with_reducible assumption) ?_) | split

theorem wf_State_partArrive (h : s.wf = true) (die : Nat) (x : Nat) (id : Nat) (input : Nat) (group : Nat) (op : Nat) (fmt : Nat) (code : Nat) (data : List Byte) (poisoned : Bool) :
    (State.partArrive s die x id input group op fmt code data poisoned).wf = true := by
  unfold State.partArrive
  repeat' first | with_reducible assumption | with_reducible apply wf_sat | with_reducible apply wf_State_redClose | with_reducible apply wf_State_fault | with_reducible apply wf_State_setRed | with_reducible apply wf_ite | with_reducible apply wf_ite1 | with_reducible apply wf_ite2 | with_reducible apply wf_regs | with_reducible apply wf_force | with_reducible apply wf_mem | with_reducible apply wf_scr | (simp only [wf_mk]; refine ⟨⟨⟨?_, ?_⟩, ?_⟩, ?_⟩) | (simp only [id_eq]; assumption) | (dsimp only) | (refine wf_of_snd (by with_reducible assumption) ?_) | (refine wf_of_fst (by with_reducible assumption) ?_) | split

theorem wf_State_partSend (h : s.wf = true) (o : Op) (group : Nat) (st : Status) (data : List Byte) :
    (State.partSend s o group st data).wf = true := by
  unfold State.partSend
  try dsimp only
  repeat' first | with_reducible assumption | (intro _) | with_reducible apply wf_State_partArrive | with_reducible apply wf_State_sendOn | with_reducible apply wf_ite | with_reducible apply wf_ite1 | with_reducible apply wf_ite2

theorem wf_State_scrLanes (h : s.wf = true) (w : Win) (first : Nat) (l : List Lane) :
    (State.scrLanes s w first l).wf = true := by
  unfold State.scrLanes
  repeat' first | with_reducible assumption | (intro _) | with_reducible apply wf_State_scrPut

theorem wf_State_segments (h : s.wf = true) (o : Op) (ue : List Nat) (f j : Nat) :
    (State.segments s o ue f j).1.wf = true := by
  induction f generalizing s j with
  | zero =>
    unfold State.segments
    try dsimp only
    repeat' first | with_reducible assumption | (intro _) | with_reducible apply ih | with_reducible apply wf_State_scrLanes | with_reducible apply wf_each | with_reducible apply wf_State_partSend | with_reducible apply wf_State_save | with_reducible apply wf_ite | with_reducible apply wf_ite1 | with_reducible apply wf_ite2 | (dsimp only) | (refine wf_of_snd (by with_reducible assumption) ?_) | (refine wf_of_fst (by with_reducible assumption) ?_) | split
  | succ f ih =>
    unfold State.segments
    try dsimp only
    repeat' first | with_reducible assumption | (intro _) | with_reducible apply ih | with_reducible apply wf_State_scrLanes | with_reducible apply wf_each | with_reducible apply wf_State_partSend | with_reducible apply wf_State_save | with_reducible apply wf_ite | with_reducible apply wf_ite1 | with_reducible apply wf_ite2 | (dsimp only) | (refine wf_of_snd (by with_reducible assumption) ?_) | (refine wf_of_fst (by with_reducible assumption) ?_) | split

theorem wf_State_redFail (h : s.wf = true) (o : Op) (st : Status) (addr : Nat) (n : Nat) :
    (State.redFail s o st addr n).wf = true := by
  unfold State.redFail
  repeat' first | with_reducible assumption | (intro _) | with_reducible apply wf_when | with_reducible apply wf_State_partSend | with_reducible apply wf_State_finish

theorem wf_State_redPart (h : s.wf = true) (o : Op) :
    (State.redPart s o).1.wf = true := by
  unfold State.redPart
  try dsimp only
  repeat' first | with_reducible assumption | (intro _) | with_reducible apply wf_State_fresh | with_reducible apply wf_State_segments

theorem wf_State_redRun (h : s.wf = true) (o : Op) (ue : List Nat) (bad : List Nat) :
    (State.redRun s o ue bad).wf = true := by
  unfold State.redRun
  try dsimp only
  repeat' first | with_reducible assumption | (intro _) | with_reducible apply wf_State_done | with_reducible apply wf_when | with_reducible apply wf_sat | with_reducible apply wf_each | with_reducible apply wf_State_mark | with_reducible apply wf_State_redPart | with_reducible apply wf_State_redFail | with_reducible apply wf_State_segments | with_reducible apply wf_ite | with_reducible apply wf_ite1 | with_reducible apply wf_ite2

theorem wf_State_redCommit (h : s.wf = true) (r : Stream) :
    (State.redCommit s r).wf = true := by
  unfold State.redCommit
  try dsimp only
  repeat' first | with_reducible assumption | (intro _) | with_reducible apply wf_State_setRed | with_reducible apply wf_State_scrLanes | with_reducible apply wf_State_scrPut | with_reducible apply wf_State_redSync

theorem wf_State_overrunReset (h : s.wf = true) (x : Nat) :
    (State.overrunReset s x).wf = true := by
  unfold State.overrunReset
  repeat' first | with_reducible assumption | (intro _)  | with_reducible apply wf_regs | with_reducible apply wf_force | with_reducible apply wf_mem | with_reducible apply wf_scr | (simp only [wf_mk]; refine ⟨⟨⟨?_, ?_⟩, ?_⟩, ?_⟩)

theorem wf_State_park (h : s.wf = true) (o : Op) :
    (State.park s o).wf = true := by
  unfold State.park
  try dsimp only
  repeat' first | with_reducible assumption | (intro _) | with_reducible apply wf_State_setOp | with_reducible apply wf_State_overrunReset | with_reducible apply wf_wrFld | with_reducible apply wf_regs | with_reducible apply wf_force | with_reducible apply wf_mem | with_reducible apply wf_scr | (simp only [wf_mk]; refine ⟨⟨⟨?_, ?_⟩, ?_⟩, ?_⟩) | (dsimp only) | (refine wf_of_snd (by with_reducible assumption) ?_) | (refine wf_of_fst (by with_reducible assumption) ?_) | split

theorem wf_State_redFinish (h : s.wf = true) (o : Op) (r : Stream) :
    (State.redFinish s o r).wf = true := by
  unfold State.redFinish
  try dsimp only
  repeat' first | with_reducible assumption | (intro _) | with_reducible apply wf_State_redClose | with_reducible apply wf_State_redClosed | with_reducible apply wf_sat | with_reducible apply wf_each | with_reducible apply wf_State_partSend | with_reducible apply wf_State_done | with_reducible apply wf_State_save | with_reducible apply wf_State_finish | with_reducible apply wf_ite | with_reducible apply wf_ite1 | with_reducible apply wf_ite2

theorem wf_State_redStreamRun (h : s.wf = true) (o : Op) (inCost : Bool) :
    (State.redStreamRun s o inCost).wf = true := by
  unfold State.redStreamRun
  try dsimp only
  repeat' first | with_reducible assumption | (intro _) | with_reducible apply wf_State_done | with_reducible apply wf_State_steer | with_reducible apply wf_State_redCommit | with_reducible apply wf_State_park | with_reducible apply wf_State_redClose | with_reducible apply wf_State_media | with_reducible apply wf_State_redFinish | with_reducible apply wf_sat | with_reducible apply wf_when | with_reducible apply wf_State_progress | with_reducible apply wf_ite | with_reducible apply wf_ite1 | with_reducible apply wf_ite2 | with_reducible apply wf_regs | with_reducible apply wf_force | with_reducible apply wf_mem | with_reducible apply wf_scr | with_reducible apply swf_sset | with_reducible apply wf_putBytes | with_reducible apply swf_filter | (simp only [wf_mk]; refine ⟨⟨⟨?_, ?_⟩, ?_⟩, ?_⟩) | (dsimp only) | (refine wf_of_snd (by with_reducible assumption) ?_) | (refine wf_of_fst (by with_reducible assumption) ?_) | split

theorem wf_State_redStart (h : s.wf = true) (o : Op) :
    (State.redStart s o).wf = true := by
  unfold State.redStart
  repeat' first | with_reducible assumption | (intro _) | with_reducible apply wf_when | with_reducible apply wf_State_setRed | with_reducible apply wf_regs | with_reducible apply wf_force | with_reducible apply wf_mem | with_reducible apply wf_scr | (simp only [wf_mk]; refine ⟨⟨⟨?_, ?_⟩, ?_⟩, ?_⟩) | (dsimp only) | (refine wf_of_snd (by with_reducible assumption) ?_) | (refine wf_of_fst (by with_reducible assumption) ?_) | split

theorem wf_State_steer (h : s.wf = true) (x : Nat) (a : Nat) (b : List Byte) (poisoned : Bool) :
    (State.steer s x a b poisoned).1.wf = true := by
  unfold State.steer
  try dsimp only
  repeat' first | with_reducible assumption | (intro _) | with_reducible apply wf_State_steerWrite | with_reducible apply wf_each | with_reducible apply wf_State_redClose | with_reducible apply wf_State_fault | with_reducible apply wf_State_save | with_reducible apply wf_ite | with_reducible apply wf_ite1 | with_reducible apply wf_ite2 | with_reducible apply wf_foldl | with_reducible apply wf_foldl1 | with_reducible apply wf_foldl2 | with_reducible apply wf_regs | with_reducible apply wf_force | with_reducible apply wf_mem | with_reducible apply wf_scr | (simp only [wf_mk]; refine ⟨⟨⟨?_, ?_⟩, ?_⟩, ?_⟩) | (dsimp only) | (refine wf_of_snd (by with_reducible assumption) ?_) | (refine wf_of_fst (by with_reducible assumption) ?_) | split

theorem wf_State_redFrame (h : s.wf = true) :
    (State.redFrame s).wf = true := by
  unfold State.redFrame
  try dsimp only
  repeat' first | with_reducible assumption | (intro _) | with_reducible apply wf_State_steer | with_reducible apply wf_each | with_reducible apply wf_State_ctrAdd | with_reducible apply wf_regs | with_reducible apply wf_force | with_reducible apply wf_mem | with_reducible apply wf_scr | (simp only [wf_mk]; refine ⟨⟨⟨?_, ?_⟩, ?_⟩, ?_⟩) | (dsimp only) | (refine wf_of_snd (by with_reducible assumption) ?_) | (refine wf_of_fst (by with_reducible assumption) ?_) | split

end Sys2Proof.Machine
end

