-- ==== Sys2Proof/Laws/KeepGather.lean ====
section
/-! SUPPORT. Every operation of Machine/Gather.lean keeps the stores of the state in their canonical form. -/

namespace Sys2Proof.Machine

variable {s : State}

theorem wf_State_savePieces (h : s.wf = true) (x : Nat) (l : List Piece) :
    (State.savePieces s x l).1.wf = true := by
  unfold State.savePieces
  try dsimp only
  repeat' first | with_reducible assumption | (intro _) | with_reducible apply wf_State_save | with_reducible apply wf_ite | with_reducible apply wf_ite1 | with_reducible apply wf_ite2 | with_reducible apply wf_foldl | with_reducible apply wf_foldl1 | with_reducible apply wf_foldl2

theorem wf_State_failAfter (h : s.wf = true) (o : Op) (l : List Piece) (st : Status) (addr : Nat) (stats : Nat → List (Nat × Nat)) :
    (State.failAfter s o l st addr stats).wf = true := by
  unfold State.failAfter
  try dsimp only
  repeat' first | with_reducible assumption | (intro _) | with_reducible apply wf_State_fresh | with_reducible apply wf_State_savePieces | with_reducible apply wf_State_finish | with_reducible apply wf_regs | with_reducible apply wf_force | with_reducible apply wf_mem | with_reducible apply wf_scr | (simp only [wf_mk]; refine ⟨⟨⟨?_, ?_⟩, ?_⟩, ?_⟩)

theorem wf_State_endWith (h : s.wf = true) (o : Op) (l : List Piece) (stats : Nat → List (Nat × Nat)) :
    (State.endWith s o l stats).wf = true := by
  unfold State.endWith
  try dsimp only
  repeat' first | with_reducible assumption | (intro _) | with_reducible apply wf_State_savePieces | with_reducible apply wf_State_finish | with_reducible apply wf_State_done | with_reducible apply wf_ite | with_reducible apply wf_ite1 | with_reducible apply wf_ite2 | with_reducible apply wf_elim | with_reducible apply wf_regs | with_reducible apply wf_force | with_reducible apply wf_mem | with_reducible apply wf_scr | (simp only [wf_mk]; refine ⟨⟨⟨?_, ?_⟩, ?_⟩, ?_⟩)

theorem wf_State_gatherRun (h : s.wf = true) (o : Op) (ue : List Nat) :
    (State.gatherRun s o ue).wf = true := by
  unfold State.gatherRun
  try dsimp only
  repeat' first | with_reducible assumption | (intro _) | with_reducible apply wf_State_done | with_reducible apply wf_State_finish | with_reducible apply wf_State_mark | with_reducible apply wf_each | with_reducible apply wf_State_failAfter | with_reducible apply wf_State_endWith | with_reducible apply wf_ite | with_reducible apply wf_ite1 | with_reducible apply wf_ite2 | with_reducible apply wf_regs | with_reducible apply wf_force | with_reducible apply wf_mem | with_reducible apply wf_scr | (simp only [wf_mk]; refine ⟨⟨⟨?_, ?_⟩, ?_⟩, ?_⟩) | (dsimp only) | (refine wf_of_snd (by with_reducible assumption) ?_) | (refine wf_of_fst (by with_reducible assumption) ?_) | split

theorem wf_State_gatherReduceRun (h : s.wf = true) (o : Op) (ue : List Nat) :
    (State.gatherReduceRun s o ue).wf = true := by
  unfold State.gatherReduceRun
  try dsimp only
  repeat' first | with_reducible assumption | (intro _) | with_reducible apply wf_State_done | with_reducible apply wf_State_finish | with_reducible apply wf_State_mark | with_reducible apply wf_each | with_reducible apply wf_State_failAfter | with_reducible apply wf_State_endWith | with_reducible apply wf_ite | with_reducible apply wf_ite1 | with_reducible apply wf_ite2 | with_reducible apply wf_regs | with_reducible apply wf_force | with_reducible apply wf_mem | with_reducible apply wf_scr | (simp only [wf_mk]; refine ⟨⟨⟨?_, ?_⟩, ?_⟩, ?_⟩) | (dsimp only) | (refine wf_of_snd (by with_reducible assumption) ?_) | (refine wf_of_fst (by with_reducible assumption) ?_) | split

theorem wf_State_rowFilterRun (h : s.wf = true) (o : Op) (ue : List Nat) :
    (State.rowFilterRun s o ue).wf = true := by
  unfold State.rowFilterRun
  try dsimp only
  repeat' first | with_reducible assumption | (intro _) | with_reducible apply wf_State_done | with_reducible apply wf_State_mark | with_reducible apply wf_State_failAfter | with_reducible apply wf_State_endWith | with_reducible apply wf_ite | with_reducible apply wf_ite1 | with_reducible apply wf_ite2

theorem wf_State_scoreFilterRun (h : s.wf = true) (o : Op) (ue : List Nat) :
    (State.scoreFilterRun s o ue).wf = true := by
  unfold State.scoreFilterRun
  try dsimp only
  repeat' first | with_reducible assumption | (intro _) | with_reducible apply wf_State_done | with_reducible apply wf_State_finish | with_reducible apply wf_each | with_reducible apply wf_State_mark | with_reducible apply wf_State_failAfter | with_reducible apply wf_State_endWith | with_reducible apply wf_ite | with_reducible apply wf_ite1 | with_reducible apply wf_ite2 | with_reducible apply wf_regs | with_reducible apply wf_force | with_reducible apply wf_mem | with_reducible apply wf_scr | (simp only [wf_mk]; refine ⟨⟨⟨?_, ?_⟩, ?_⟩, ?_⟩) | (dsimp only) | (refine wf_of_snd (by with_reducible assumption) ?_) | (refine wf_of_fst (by with_reducible assumption) ?_) | split

end Sys2Proof.Machine
end

