-- ==== Sys2Proof/Laws/KeepZgc.lean ====
section
/-! SUPPORT. Every operation of Machine/Zgc.lean keeps the stores of the state in their canonical form. -/

namespace Sys2Proof.Machine

variable {s : State}

theorem wf_State_compressRun (h : s.wf = true) (o : Op) (ue : List Nat) :
    (State.compressRun s o ue).wf = true := by
  unfold State.compressRun
  try dsimp only
  repeat' first | with_reducible assumption | (intro _) | with_reducible apply wf_State_done | with_reducible apply wf_State_mark | with_reducible apply wf_State_failAfter | with_reducible apply wf_State_endWith | with_reducible apply wf_ite | with_reducible apply wf_ite1 | with_reducible apply wf_ite2 | with_reducible apply wf_foldl | with_reducible apply wf_foldl1 | with_reducible apply wf_foldl2

theorem wf_State_expandLine (h : s.wf = true) (x : Nat) (d : BitVec 512) (st : Status) (line : List Byte) :
    (State.expandLine s x d st line).1.wf = true := by
  unfold State.expandLine
  try dsimp only
  repeat' first | with_reducible assumption | (intro _) | with_reducible apply wf_State_save | with_reducible apply wf_ite | with_reducible apply wf_ite1 | with_reducible apply wf_ite2

theorem wf_State_expandEnd (h : s.wf = true) (o : Op) (st : Status) (fail : Option Nat) (bad : Nat) (check : Nat) (stall : Nat) :
    (State.expandEnd s o st fail bad check stall).wf = true := by
  unfold State.expandEnd
  try dsimp only
  repeat' first | with_reducible assumption | (intro _) | with_reducible apply wf_State_expandLine | with_reducible apply wf_State_done | with_reducible apply wf_ite | with_reducible apply wf_ite1 | with_reducible apply wf_ite2 | with_reducible apply wf_regs | with_reducible apply wf_force | with_reducible apply wf_mem | with_reducible apply wf_scr | (simp only [wf_mk]; refine ⟨⟨⟨?_, ?_⟩, ?_⟩, ?_⟩)

theorem wf_State_expandReject (h : s.wf = true) (o : Op) (st : Status) :
    (State.expandReject s o st).wf = true := by
  unfold State.expandReject
  try dsimp only
  repeat' first | with_reducible assumption | (intro _) | with_reducible apply wf_State_expandLine | with_reducible apply wf_State_done

theorem wf_State_feedStall (h : s.wf = true) (o : Op) :
    (State.feedStall s o).1.wf = true := by
  unfold State.feedStall
  repeat' first | with_reducible assumption | with_reducible apply wf_State_fresh | with_reducible apply wf_ite | with_reducible apply wf_ite1 | with_reducible apply wf_ite2

theorem wf_State_expandStop (h : s.wf = true) (o : Op) (z : ZOut) :
    (State.expandStop s o z).wf = true := by
  unfold State.expandStop
  try dsimp only
  repeat' first | with_reducible assumption | (intro _) | with_reducible apply wf_State_media | with_reducible apply wf_State_feedStall | with_reducible apply wf_State_expandEnd | with_reducible apply wf_when | with_reducible apply wf_State_fault | with_reducible apply wf_ite | with_reducible apply wf_ite1 | with_reducible apply wf_ite2

theorem wf_State_expandReadFail (h : s.wf = true) (o : Op) (ue : List Nat) (st : Status) :
    (State.expandReadFail s o ue st).wf = true := by
  unfold State.expandReadFail
  try dsimp only
  repeat' first | with_reducible assumption | (intro _) | with_reducible apply wf_State_feedStall | with_reducible apply wf_State_expandEnd | with_reducible apply wf_when | with_reducible apply wf_State_media

theorem wf_State_expandWrite (h : s.wf = true) (o : Op) (a : Nat) (l : List Byte) :
    (State.expandWrite s o a l).1.wf = true := by
  unfold State.expandWrite
  repeat' first | with_reducible assumption | with_reducible apply wf_State_save | with_reducible apply wf_ite | with_reducible apply wf_ite1 | with_reducible apply wf_ite2

theorem wf_State_expandBlocks (h : s.wf = true) (o : Op) (ue : List Nat) (f : Nat) :
    (State.expandBlocks s o ue f).wf = true := by
  induction f generalizing s o with
  | zero =>
    unfold State.expandBlocks
    try dsimp only
    repeat' first | with_reducible assumption | (intro _) | with_reducible apply ih | with_reducible apply wf_State_expandWrite | with_reducible apply wf_State_expandEnd | with_reducible apply wf_State_mark | with_reducible apply wf_State_expandReadFail | with_reducible apply wf_State_expandStop | with_reducible apply wf_ite | with_reducible apply wf_ite1 | with_reducible apply wf_ite2 | with_reducible apply wf_regs | with_reducible apply wf_force | with_reducible apply wf_mem | with_reducible apply wf_scr | (simp only [wf_mk]; refine ⟨⟨⟨?_, ?_⟩, ?_⟩, ?_⟩) | (dsimp only) | (refine wf_of_snd (by with_reducible assumption) ?_) | (refine wf_of_fst (by with_reducible assumption) ?_) | split
  | succ f ih =>
    unfold State.expandBlocks
    try dsimp only
    repeat' first | with_reducible assumption | (intro _) | with_reducible apply ih | with_reducible apply wf_State_expandWrite | with_reducible apply wf_State_expandEnd | with_reducible apply wf_State_mark | with_reducible apply wf_State_expandReadFail | with_reducible apply wf_State_expandStop | with_reducible apply wf_ite | with_reducible apply wf_ite1 | with_reducible apply wf_ite2 | with_reducible apply wf_regs | with_reducible apply wf_force | with_reducible apply wf_mem | with_reducible apply wf_scr | (simp only [wf_mk]; refine ⟨⟨⟨?_, ?_⟩, ?_⟩, ?_⟩) | (dsimp only) | (refine wf_of_snd (by with_reducible assumption) ?_) | (refine wf_of_fst (by with_reducible assumption) ?_) | split

theorem wf_State_feedRun (h : s.wf = true) (o : Op) (r : BitVec 512) (l : List Nat) (ue : List Nat) :
    (State.feedRun s o r l ue).1.wf = true := by
  unfold State.feedRun
  try dsimp only
  repeat' first | with_reducible assumption | (intro _) | with_reducible apply wf_State_instrRun | with_reducible apply wf_ite | with_reducible apply wf_ite1 | with_reducible apply wf_ite2 | with_reducible apply wf_foldl | with_reducible apply wf_foldl1 | with_reducible apply wf_foldl2 | with_reducible apply wf_regs | with_reducible apply wf_force | with_reducible apply wf_mem | with_reducible apply wf_scr | (simp only [wf_mk]; refine ⟨⟨⟨?_, ?_⟩, ?_⟩, ?_⟩)

theorem wf_State_feedFail (h : s.wf = true) (o : Op) (st : Status) :
    (State.feedFail s o st).wf = true := by
  unfold State.feedFail
  try dsimp only
  repeat' first | with_reducible assumption | (intro _) | with_reducible apply wf_State_feedStall | with_reducible apply wf_State_expandEnd | with_reducible apply wf_when | with_reducible apply wf_State_media

theorem wf_State_feedStart (h : s.wf = true) (o : Op) (ue : List Nat) :
    (State.feedStart s o ue).wf = true := by
  unfold State.feedStart
  try dsimp only
  repeat' first | with_reducible assumption | (intro _) | with_reducible apply wf_State_expandReject | with_reducible apply wf_when | with_reducible apply wf_State_media | with_reducible apply wf_State_mark | with_reducible apply wf_State_expandBlocks | with_reducible apply wf_State_feedRun | with_reducible apply wf_State_feedFail | with_reducible apply wf_State_setOp | with_reducible apply wf_ite | with_reducible apply wf_ite1 | with_reducible apply wf_ite2 | with_reducible apply wf_regs | with_reducible apply wf_force | with_reducible apply wf_mem | with_reducible apply wf_scr | (simp only [wf_mk]; refine ⟨⟨⟨?_, ?_⟩, ?_⟩, ?_⟩)

theorem wf_State_expandRun (h : s.wf = true) (o : Op) (ue : List Nat) :
    (State.expandRun s o ue).wf = true := by
  unfold State.expandRun
  try dsimp only
  repeat' first | with_reducible assumption | (intro _) | with_reducible apply wf_State_expandReject | with_reducible apply wf_State_feedStart | with_reducible apply wf_State_expandBlocks | with_reducible apply wf_ite | with_reducible apply wf_ite1 | with_reducible apply wf_ite2

theorem wf_State_feedBlock (h : s.wf = true) (o : Op) (data : List Byte) (ue : List Nat) :
    (State.feedBlock s o data ue).1.wf = true := by
  unfold State.feedBlock
  try dsimp only
  repeat' first | with_reducible assumption | (intro _) | with_reducible apply wf_State_keep | with_reducible apply wf_State_scrPut | with_reducible apply wf_State_feedRun | with_reducible apply wf_ite | with_reducible apply wf_ite1 | with_reducible apply wf_ite2

theorem wf_State_feedEnd (h : s.wf = true) (o : Op) (ue : List Nat) :
    (State.feedEnd s o ue).wf = true := by
  unfold State.feedEnd
  try dsimp only
  repeat' first | with_reducible assumption | (intro _) | with_reducible apply wf_State_feedRun | with_reducible apply wf_State_feedStall | with_reducible apply wf_State_feedFail | with_reducible apply wf_State_expandEnd | with_reducible apply wf_ite | with_reducible apply wf_ite1 | with_reducible apply wf_ite2

theorem wf_State_feedStep (h : s.wf = true) (o : Op) (ue : List Nat) :
    (State.feedStep s o ue).wf = true := by
  unfold State.feedStep
  try dsimp only
  repeat' first | with_reducible assumption | (intro _) | with_reducible apply wf_State_finish | with_reducible apply wf_State_feedFail | with_reducible apply wf_State_feedEnd | with_reducible apply wf_State_setOp | with_reducible apply wf_State_feedBlock | with_reducible apply wf_State_mark | with_reducible apply wf_State_expandReadFail | with_reducible apply wf_State_expandStop | with_reducible apply wf_ite | with_reducible apply wf_ite1 | with_reducible apply wf_ite2 | with_reducible apply wf_regs | with_reducible apply wf_force | with_reducible apply wf_mem | with_reducible apply wf_scr | (simp only [wf_mk]; refine ⟨⟨⟨?_, ?_⟩, ?_⟩, ?_⟩)

end Sys2Proof.Machine
end

