-- ==== Sys2Proof/Laws/KeepSequencer.lean ====
section
/-! SUPPORT. Every operation of Machine/Sequencer.lean keeps the stores of the state in their canonical form. -/

namespace Sys2Proof.Machine

variable {s : State}

theorem wf_qFault (h : s.wf = true) (q : Nat) (i : Nat) (st : Status) (m : Word) :
    (qFault s q i st m).wf = true := by
  unfold qFault
  try dsimp only
  repeat' first | with_reducible assumption | (intro _) | with_reducible apply wf_qErr | with_reducible apply wf_qSetState | with_reducible apply wf_State_evlog | with_reducible apply wf_regs | with_reducible apply wf_force | with_reducible apply wf_mem | with_reducible apply wf_scr | (simp only [wf_mk]; refine ⟨⟨⟨?_, ?_⟩, ?_⟩, ?_⟩)

theorem wf_qRead (h : s.wf = true) (q : Nat) (ue : List Nat) (tf : Bool) :
    (qRead s q ue tf).1.wf = true := by
  unfold qRead
  try dsimp only
  repeat' first | with_reducible assumption | (intro _) | with_reducible apply wf_qFault | with_reducible apply wf_when | with_reducible apply wf_State_errLog | with_reducible apply wf_ite | with_reducible apply wf_ite1 | with_reducible apply wf_ite2 | with_reducible apply wf_regs | with_reducible apply wf_force | with_reducible apply wf_mem | with_reducible apply wf_scr | (simp only [wf_mk]; refine ⟨⟨⟨?_, ?_⟩, ?_⟩, ?_⟩) | (dsimp only) | (refine wf_of_snd (by with_reducible assumption) ?_) | (refine wf_of_fst (by with_reducible assumption) ?_) | split

theorem wf_qReread (h : s.wf = true) (o : Op) (ue : List Nat) (tf : Bool) :
    (qReread s o ue tf).1.wf = true := by
  unfold qReread
  try dsimp only
  repeat' first | with_reducible assumption | (intro _) | with_reducible apply wf_qFault | with_reducible apply wf_when | with_reducible apply wf_State_errLog | with_reducible apply wf_ite | with_reducible apply wf_ite1 | with_reducible apply wf_ite2 | with_reducible apply wf_regs | with_reducible apply wf_force | with_reducible apply wf_mem | with_reducible apply wf_scr | (simp only [wf_mk]; refine ⟨⟨⟨?_, ?_⟩, ?_⟩, ?_⟩) | (dsimp only) | (refine wf_of_snd (by with_reducible assumption) ?_) | (refine wf_of_fst (by with_reducible assumption) ?_) | split

theorem wf_inflightSync (h : s.wf = true) (d : Nat) :
    (inflightSync s d).wf = true := by
  unfold inflightSync
  try dsimp only
  repeat' first | with_reducible assumption | (intro _) | with_reducible apply wf_wrn

theorem wf_State_engineOut (h : s.wf = true) (e : Nat) :
    (State.engineOut s e).wf = true := by
  unfold State.engineOut
  repeat' first | with_reducible assumption | (intro _)  | with_reducible apply wf_regs | with_reducible apply wf_force | with_reducible apply wf_mem | with_reducible apply wf_scr | (simp only [wf_mk]; refine ⟨⟨⟨?_, ?_⟩, ?_⟩, ?_⟩)

theorem wf_State_engineIdle (h : s.wf = true) (e : Nat) :
    (State.engineIdle s e).wf = true := by
  unfold State.engineIdle
  try dsimp only
  repeat' first | with_reducible assumption | (intro _) | with_reducible apply wf_State_fresh | with_reducible apply wf_wrFld | with_reducible apply wf_wrap | with_reducible apply wf_ite | with_reducible apply wf_ite1 | with_reducible apply wf_ite2

theorem wf_State_scrClear (h : s.wf = true) (e : Nat) (first : Nat) (n : Nat) :
    (State.scrClear s e first n).wf = true := by
  unfold State.scrClear
  try dsimp only
  repeat' first | with_reducible assumption | (intro _)  | with_reducible apply wf_ite | with_reducible apply wf_ite1 | with_reducible apply wf_ite2 | with_reducible apply wf_regs | with_reducible apply wf_force | with_reducible apply wf_mem | with_reducible apply wf_scr | with_reducible apply swf_sset | with_reducible apply wf_putBytes | with_reducible apply swf_filter | (simp only [wf_mk]; refine ⟨⟨⟨?_, ?_⟩, ?_⟩, ?_⟩)

theorem wf_State_history (h : s.wf = true) (o : Op) (e : Nat) :
    (State.history s o e).wf = true := by
  unfold State.history
  try dsimp only
  repeat' first | with_reducible assumption | (intro _)  | with_reducible apply wf_regs | with_reducible apply wf_force | with_reducible apply wf_mem | with_reducible apply wf_scr | with_reducible apply swf_sset | with_reducible apply wf_putBytes | with_reducible apply swf_filter | (simp only [wf_mk]; refine ⟨⟨⟨?_, ?_⟩, ?_⟩, ?_⟩)

theorem wf_State_enter (h : s.wf = true) (o : Op) (isNew : Bool) :
    (State.enter s o isNew).wf = true := by
  unfold State.enter
  try dsimp only
  repeat' first | with_reducible assumption | (intro _) | with_reducible apply wf_inflightSync | with_reducible apply wf_State_setOp | with_reducible apply wf_ite | with_reducible apply wf_ite1 | with_reducible apply wf_ite2 | with_reducible apply wf_regs | with_reducible apply wf_force | with_reducible apply wf_mem | with_reducible apply wf_scr | (simp only [wf_mk]; refine ⟨⟨⟨?_, ?_⟩, ?_⟩, ?_⟩)

theorem wf_State_launch (h : s.wf = true) (o : Op) (isNew : Bool) :
    (State.launch s o isNew).wf = true := by
  unfold State.launch
  try dsimp only
  repeat' first | with_reducible assumption | (intro _) | with_reducible apply wf_State_enter | with_reducible apply wf_State_history | with_reducible apply wf_wrn | with_reducible apply wf_State_trace | with_reducible apply wf_ite | with_reducible apply wf_ite1 | with_reducible apply wf_ite2 | with_reducible apply wf_regs | with_reducible apply wf_force | with_reducible apply wf_mem | with_reducible apply wf_scr | (simp only [wf_mk]; refine ⟨⟨⟨?_, ?_⟩, ?_⟩, ?_⟩) | (dsimp only) | (refine wf_of_snd (by with_reducible assumption) ?_) | (refine wf_of_fst (by with_reducible assumption) ?_) | split

theorem wf_qTake (h : s.wf = true) (q : Nat) :
    (qTake s q).wf = true := by
  unfold qTake
  try dsimp only
  repeat' first | with_reducible assumption | (intro _) | with_reducible apply wf_wr | with_reducible apply wf_regs | with_reducible apply wf_force | with_reducible apply wf_mem | with_reducible apply wf_scr | (simp only [wf_mk]; refine ⟨⟨⟨?_, ?_⟩, ?_⟩, ?_⟩) | (dsimp only) | (refine wf_of_snd (by with_reducible assumption) ?_) | (refine wf_of_fst (by with_reducible assumption) ?_) | split

theorem wf_State_endWithCode (h : s.wf = true) (o : Op) (st : Status) :
    (State.endWithCode s o st).wf = true := by
  unfold State.endWithCode
  repeat' first | with_reducible assumption | with_reducible apply wf_State_redClose | with_reducible apply wf_State_done | with_reducible apply wf_ite | with_reducible apply wf_ite1 | with_reducible apply wf_ite2 | with_reducible apply wf_regs | with_reducible apply wf_force | with_reducible apply wf_mem | with_reducible apply wf_scr | (simp only [wf_mk]; refine ⟨⟨⟨?_, ?_⟩, ?_⟩, ?_⟩) | (dsimp only) | (refine wf_of_snd (by with_reducible assumption) ?_) | (refine wf_of_fst (by with_reducible assumption) ?_) | split

theorem wf_State_reject (h : s.wf = true) (o : Op) (isNew : Bool) (st : Status) :
    (State.reject s o isNew st).wf = true := by
  unfold State.reject
  try dsimp only
  repeat' first | with_reducible assumption | (intro _) | with_reducible apply wf_State_enter | with_reducible apply wf_when | with_reducible apply wf_sat | with_reducible apply wf_State_expandReject | with_reducible apply wf_State_endWithCode | with_reducible apply wf_ite | with_reducible apply wf_ite1 | with_reducible apply wf_ite2 | with_reducible apply wf_elim

theorem wf_State_wholeRun (h : s.wf = true) (o : Op) :
    (State.wholeRun s o).wf = true := by
  unfold State.wholeRun
  repeat' first | with_reducible assumption | with_reducible apply wf_State_copyRun | with_reducible apply wf_State_fillRun | with_reducible apply wf_State_gatherRun | with_reducible apply wf_State_gatherReduceRun | with_reducible apply wf_State_rowFilterRun | with_reducible apply wf_State_scoreFilterRun | with_reducible apply wf_State_compressRun | with_reducible apply wf_State_expandRun | with_reducible apply wf_regs | with_reducible apply wf_force | with_reducible apply wf_mem | with_reducible apply wf_scr | (simp only [wf_mk]; refine ⟨⟨⟨?_, ?_⟩, ?_⟩, ?_⟩) | (dsimp only) | (refine wf_of_snd (by with_reducible assumption) ?_) | (refine wf_of_fst (by with_reducible assumption) ?_) | split

theorem wf_State_stopPart (h : s.wf = true) (o : Op) :
    (State.stopPart s o).wf = true := by
  unfold State.stopPart
  try dsimp only
  repeat' first | with_reducible assumption | (intro _) | with_reducible apply wf_State_redPart | with_reducible apply wf_State_fresh | with_reducible apply wf_State_save | with_reducible apply wf_State_wholeRun | with_reducible apply wf_ite | with_reducible apply wf_ite1 | with_reducible apply wf_ite2 | (dsimp only) | (refine wf_of_snd (by with_reducible assumption) ?_) | (refine wf_of_fst (by with_reducible assumption) ?_) | split

theorem wf_State_putBack (h : s.wf = true) (o : Op) :
    (State.putBack s o).wf = true := by
  unfold State.putBack
  try dsimp only
  repeat' first | with_reducible assumption | (intro _) | with_reducible apply wf_State_stopPart | with_reducible apply wf_State_setOp | with_reducible apply wf_State_trace | with_reducible apply wf_State_engineIdle | with_reducible apply wf_regs | with_reducible apply wf_force | with_reducible apply wf_mem | with_reducible apply wf_scr | (simp only [wf_mk]; refine ⟨⟨⟨?_, ?_⟩, ?_⟩, ?_⟩) | (simp only [id_eq]; assumption) | (dsimp only) | (refine wf_of_snd (by with_reducible assumption) ?_) | (refine wf_of_fst (by with_reducible assumption) ?_) | split

theorem wf_State_preempt (h : s.wf = true) (o : Op) :
    (State.preempt s o).wf = true := by
  unfold State.preempt
  repeat' first | with_reducible assumption | with_reducible apply wf_State_putBack | with_reducible apply wf_sat

theorem wf_State_engineFail (h : s.wf = true) (o : Op) (e : Nat) (st : Status) :
    (State.engineFail s o e st).wf = true := by
  unfold State.engineFail
  try dsimp only
  repeat' first | with_reducible assumption | (intro _) | with_reducible apply wf_when | with_reducible apply wf_wrn | with_reducible apply wf_set

theorem wf_State_engineDone (h : s.wf = true) (o : Op) (st : Status) :
    (State.engineDone s o st).wf = true := by
  unfold State.engineDone
  try dsimp only
  repeat' first | with_reducible assumption | (intro _) | with_reducible apply wf_State_engineFail | with_reducible apply wf_sat | with_reducible apply wf_wrap | with_reducible apply wf_State_progress | with_reducible apply wf_State_engineIdle | with_reducible apply wf_elim | with_reducible apply wf_regs | with_reducible apply wf_force | with_reducible apply wf_mem | with_reducible apply wf_scr | (simp only [wf_mk]; refine ⟨⟨⟨?_, ?_⟩, ?_⟩, ?_⟩) | (dsimp only) | (refine wf_of_snd (by with_reducible assumption) ?_) | (refine wf_of_fst (by with_reducible assumption) ?_) | split

theorem wf_State_complete (h : s.wf = true) (o : Op) (st : Status) :
    (State.complete s o st).wf = true := by
  unfold State.complete
  try dsimp only
  repeat' first | with_reducible assumption | (intro _) | with_reducible apply wf_each | with_reducible apply wf_sat | with_reducible apply wf_State_evlog | with_reducible apply wf_when | with_reducible apply wf_State_ctrFail | with_reducible apply wf_State_ctrAdd | with_reducible apply wf_State_engineDone | with_reducible apply wf_State_progress | with_reducible apply wf_State_trace | with_reducible apply wf_inflightSync | with_reducible apply wf_qHeadUpdate | with_reducible apply wf_qSetState | with_reducible apply wf_qWake | with_reducible apply wf_State_frameOverrun | with_reducible apply wf_State_overrunReset | with_reducible apply wf_ite | with_reducible apply wf_ite1 | with_reducible apply wf_ite2 | with_reducible apply wf_regs | with_reducible apply wf_force | with_reducible apply wf_mem | with_reducible apply wf_scr | (simp only [wf_mk]; refine ⟨⟨⟨?_, ?_⟩, ?_⟩, ?_⟩) | (simp only [id_eq]; assumption) | (dsimp only) | (refine wf_of_snd (by with_reducible assumption) ?_) | (refine wf_of_fst (by with_reducible assumption) ?_) | split

theorem wf_State_fenceEnd (h : s.wf = true) (o : Op) (st : Status) :
    (State.fenceEnd s o st).wf = true := by
  unfold State.fenceEnd
  repeat' first | with_reducible assumption | (intro _) | with_reducible apply wf_State_complete | with_reducible apply wf_regs | with_reducible apply wf_force | with_reducible apply wf_mem | with_reducible apply wf_scr | (simp only [wf_mk]; refine ⟨⟨⟨?_, ?_⟩, ?_⟩, ?_⟩) | (simp only [id_eq]; assumption)

theorem wf_State_startDynamic (h : s.wf = true) (o : Op) (isNew : Bool) (take : State → State) (hf_take : ∀ t : State, t.wf = true → (take t).wf = true) :
    (State.startDynamic s o isNew take).wf = true := by
  unfold State.startDynamic
  try dsimp only
  repeat' first | with_reducible assumption | (intro _) | with_reducible apply hf_take | with_reducible apply wf_State_reject | with_reducible apply wf_State_scrClear | with_reducible apply wf_State_launch | with_reducible apply wf_ite | with_reducible apply wf_ite1 | with_reducible apply wf_ite2 | with_reducible apply wf_regs | with_reducible apply wf_force | with_reducible apply wf_mem | with_reducible apply wf_scr | with_reducible apply swf_sset | with_reducible apply wf_putBytes | with_reducible apply swf_filter | (simp only [wf_mk]; refine ⟨⟨⟨?_, ?_⟩, ?_⟩, ?_⟩) | (dsimp only) | (refine wf_of_snd (by with_reducible assumption) ?_) | (refine wf_of_fst (by with_reducible assumption) ?_) | split

theorem wf_State_slotWait (h : s.wf = true) (q : Nat) :
    (State.slotWait s q).wf = true := by
  unfold State.slotWait
  repeat' first | with_reducible assumption  | with_reducible apply wf_ite | with_reducible apply wf_ite1 | with_reducible apply wf_ite2 | with_reducible apply wf_regs | with_reducible apply wf_force | with_reducible apply wf_mem | with_reducible apply wf_scr | (simp only [wf_mk]; refine ⟨⟨⟨?_, ?_⟩, ?_⟩, ?_⟩)

theorem wf_State_slotTake (h : s.wf = true) (q : Nat) :
    (State.slotTake s q).wf = true := by
  unfold State.slotTake
  repeat' first | with_reducible assumption | (intro _)  | with_reducible apply wf_regs | with_reducible apply wf_force | with_reducible apply wf_mem | with_reducible apply wf_scr | (simp only [wf_mk]; refine ⟨⟨⟨?_, ?_⟩, ?_⟩, ?_⟩)

theorem wf_State_withSlot (h : s.wf = true) (q : Nat) (start : State → State) (hf_start : ∀ t : State, t.wf = true → (start t).wf = true) :
    (State.withSlot s q start).wf = true := by
  unfold State.withSlot
  repeat' first | with_reducible assumption | with_reducible apply hf_start | with_reducible apply wf_State_slotWait | with_reducible apply wf_ite | with_reducible apply wf_ite1 | with_reducible apply wf_ite2 | (dsimp only) | (refine wf_of_snd (by with_reducible assumption) ?_) | (refine wf_of_fst (by with_reducible assumption) ?_) | split

theorem wf_State_headStart (h : s.wf = true) (q : Nat) (h : Head) :
    (State.headStart s q h).wf = true := by
  unfold State.headStart
  repeat' first | with_reducible assumption | (intro _) | with_reducible apply wf_State_withSlot | with_reducible apply wf_State_startDynamic | with_reducible apply wf_qTake | with_reducible apply wf_State_slotTake | with_reducible apply wf_ite | with_reducible apply wf_ite1 | with_reducible apply wf_ite2

theorem wf_State_backStart (h : s.wf = true) (q : Nat) (o : Op) :
    (State.backStart s q o).wf = true := by
  unfold State.backStart
  try dsimp only
  repeat' first | with_reducible assumption | (intro _) | with_reducible apply wf_State_startDynamic | with_reducible apply wf_State_withSlot | with_reducible apply wf_State_slotTake | with_reducible apply wf_ite | with_reducible apply wf_ite1 | with_reducible apply wf_ite2 | with_reducible apply wf_regs | with_reducible apply wf_force | with_reducible apply wf_mem | with_reducible apply wf_scr | (simp only [wf_mk]; refine ⟨⟨⟨?_, ?_⟩, ?_⟩, ?_⟩) | (simp only [id_eq]; assumption)

theorem wf_State_descriptorRead (h : s.wf = true) (q : Nat) (ue : List Nat) (tf : Bool) :
    (State.descriptorRead s q ue tf).wf = true := by
  unfold State.descriptorRead
  try dsimp only
  repeat' first | with_reducible assumption | (intro _) | with_reducible apply wf_qWake | with_reducible apply wf_qReread | with_reducible apply wf_State_backStart | with_reducible apply wf_qRead | with_reducible apply wf_State_headStart | with_reducible apply wf_ite | with_reducible apply wf_ite1 | with_reducible apply wf_ite2 | with_reducible apply wf_regs | with_reducible apply wf_force | with_reducible apply wf_mem | with_reducible apply wf_scr | (simp only [wf_mk]; refine ⟨⟨⟨?_, ?_⟩, ?_⟩, ?_⟩) | (dsimp only) | (refine wf_of_snd (by with_reducible assumption) ?_) | (refine wf_of_fst (by with_reducible assumption) ?_) | split

theorem wf_State_overrunCount (h : s.wf = true) (k : Nat) (o : Op) :
    (State.overrunCount s k o).1.wf = true := by
  unfold State.overrunCount
  try dsimp only
  repeat' first | with_reducible assumption | (intro _) | with_reducible apply wf_sat | with_reducible apply wf_wrn | with_reducible apply wf_set | with_reducible apply wf_State_trace | with_reducible apply wf_when | with_reducible apply wf_State_fault | with_reducible apply wf_elim | with_reducible apply wf_regs | with_reducible apply wf_force | with_reducible apply wf_mem | with_reducible apply wf_scr | (simp only [wf_mk]; refine ⟨⟨⟨?_, ?_⟩, ?_⟩, ?_⟩)

theorem wf_State_startScheduled (h : s.wf = true) (g : Image) (k : Nat) (e : EngEntry) (o0 : Op) (isNew : Bool) (take : State → State) (hf_take : ∀ t : State, t.wf = true → (take t).wf = true) :
    (State.startScheduled s g k e o0 isNew take).wf = true := by
  unfold State.startScheduled
  try dsimp only
  repeat' first | with_reducible assumption | (intro _) | with_reducible apply hf_take | with_reducible apply wf_State_reject | with_reducible apply wf_State_frameOverrun | with_reducible apply wf_State_overrunCount | with_reducible apply wf_State_launch | with_reducible apply wf_State_redStart | with_reducible apply wf_ite | with_reducible apply wf_ite1 | with_reducible apply wf_ite2 | with_reducible apply wf_regs | with_reducible apply wf_force | with_reducible apply wf_mem | with_reducible apply wf_scr | (simp only [wf_mk]; refine ⟨⟨⟨?_, ?_⟩, ?_⟩, ?_⟩)

theorem wf_State_entryHead (h : s.wf = true) (g : Image) (k : Nat) (e : EngEntry) (ue : List Nat) (tf : Bool) :
    (State.entryHead s g k e ue tf).wf = true := by
  unfold State.entryHead
  try dsimp only
  repeat' first | with_reducible assumption | (intro _) | with_reducible apply wf_sat | with_reducible apply wf_qReread | with_reducible apply wf_State_startScheduled | with_reducible apply wf_qRead | with_reducible apply wf_qTake | with_reducible apply wf_ite | with_reducible apply wf_ite1 | with_reducible apply wf_ite2 | with_reducible apply wf_regs | with_reducible apply wf_force | with_reducible apply wf_mem | with_reducible apply wf_scr | (simp only [wf_mk]; refine ⟨⟨⟨?_, ?_⟩, ?_⟩, ?_⟩) | (simp only [id_eq]; assumption) | (dsimp only) | (refine wf_of_snd (by with_reducible assumption) ?_) | (refine wf_of_fst (by with_reducible assumption) ?_) | split

theorem wf_State_frameOverrun (h : s.wf = true) (k : Nat) :
    (State.frameOverrun s k).wf = true := by
  unfold State.frameOverrun
  try dsimp only
  repeat' first | with_reducible assumption | (intro _) | with_reducible apply wf_State_atCycle | with_reducible apply wf_State_evlog | with_reducible apply wf_State_overrunCount | with_reducible apply wf_State_putBack | with_reducible apply wf_State_stopPart | with_reducible apply wf_State_endWithCode | with_reducible apply wf_State_expandLine | with_reducible apply wf_State_done | with_reducible apply wf_State_fresh | with_reducible apply wf_ite | with_reducible apply wf_ite1 | with_reducible apply wf_ite2 | with_reducible apply wf_regs | with_reducible apply wf_force | with_reducible apply wf_mem | with_reducible apply wf_scr | (simp only [wf_mk]; refine ⟨⟨⟨?_, ?_⟩, ?_⟩, ?_⟩) | (dsimp only) | (refine wf_of_snd (by with_reducible assumption) ?_) | (refine wf_of_fst (by with_reducible assumption) ?_) | split

theorem wf_State_overrunDue (h : s.wf = true) (c : Nat) :
    (State.overrunDue s c).wf = true := by
  unfold State.overrunDue
  repeat' first | with_reducible assumption | (intro _) | with_reducible apply wf_each | with_reducible apply wf_State_frameOverrun | (dsimp only) | (refine wf_of_snd (by with_reducible assumption) ?_) | (refine wf_of_fst (by with_reducible assumption) ?_) | split

theorem wf_State_entryStart (h : s.wf = true) (k : Nat) (ue : List Nat) (tf : Bool) :
    (State.entryStart s k ue tf).wf = true := by
  unfold State.entryStart
  try dsimp only
  repeat' first | with_reducible assumption | (intro _) | with_reducible apply wf_State_overrunDue | with_reducible apply wf_State_atCycle | with_reducible apply wf_State_preempt | with_reducible apply wf_sat | with_reducible apply wf_State_entryHead | with_reducible apply wf_ite | with_reducible apply wf_ite1 | with_reducible apply wf_ite2 | with_reducible apply wf_regs | with_reducible apply wf_force | with_reducible apply wf_mem | with_reducible apply wf_scr | (simp only [wf_mk]; refine ⟨⟨⟨?_, ?_⟩, ?_⟩, ?_⟩) | (dsimp only) | (refine wf_of_snd (by with_reducible assumption) ?_) | (refine wf_of_fst (by with_reducible assumption) ?_) | split

end Sys2Proof.Machine
end

