-- ==== Sys2Proof/Laws/KeepServices.lean ====
section
/-! SUPPORT. Every operation of Machine/Services.lean keeps the stores of the state in their canonical form. -/

namespace Sys2Proof.Machine

variable {s : State}

theorem wf_State_svcEnd (h : s.wf = true) (o : Op) (st : Status) (line : Option (List Byte)) :
    (State.svcEnd s o st line).wf = true := by
  unfold State.svcEnd
  try dsimp only
  repeat' first | with_reducible assumption | (intro _) | with_reducible apply wf_State_finish | with_reducible apply wf_State_save | with_reducible apply wf_regs | with_reducible apply wf_force | with_reducible apply wf_mem | with_reducible apply wf_scr | (simp only [wf_mk]; refine ⟨⟨⟨?_, ?_⟩, ?_⟩, ?_⟩) | (dsimp only) | (refine wf_of_snd (by with_reducible assumption) ?_) | (refine wf_of_fst (by with_reducible assumption) ?_) | split

theorem wf_State_wsSync (h : s.wf = true) :
    (State.wsSync s).wf = true := by
  unfold State.wsSync
  repeat' first | with_reducible assumption | (intro _) | with_reducible apply wf_wrn

theorem wf_State_setStream (h : s.wf = true) (l : List (Nat × Nat)) (on : Bool) :
    (State.setStream s l on).wf = true := by
  unfold State.setStream
  try dsimp only
  repeat' first | with_reducible assumption | (intro _)  | with_reducible apply wf_ite | with_reducible apply wf_ite1 | with_reducible apply wf_ite2 | with_reducible apply wf_regs | with_reducible apply wf_force | with_reducible apply wf_mem | with_reducible apply wf_scr | (simp only [wf_mk]; refine ⟨⟨⟨?_, ?_⟩, ?_⟩, ?_⟩) | (dsimp only) | (refine wf_of_snd (by with_reducible assumption) ?_) | (refine wf_of_fst (by with_reducible assumption) ?_) | split

theorem wf_State_wsOpen (h : s.wf = true) (o : Op) (ue : List Nat) :
    (State.wsOpen s o ue).wf = true := by
  unfold State.wsOpen
  try dsimp only
  repeat' first | with_reducible assumption | (intro _) | with_reducible apply wf_State_done | with_reducible apply wf_State_finish | with_reducible apply wf_State_quotaHit | with_reducible apply wf_State_fresh | with_reducible apply wf_State_mark | with_reducible apply wf_State_setStream | with_reducible apply wf_State_ctrSet | with_reducible apply wf_State_wsSync | with_reducible apply wf_State_svcEnd | with_reducible apply wf_ite | with_reducible apply wf_ite1 | with_reducible apply wf_ite2 | with_reducible apply wf_regs | with_reducible apply wf_force | with_reducible apply wf_mem | with_reducible apply wf_scr | (simp only [wf_mk]; refine ⟨⟨⟨?_, ?_⟩, ?_⟩, ?_⟩) | (simp only [id_eq]; assumption) | (dsimp only) | (refine wf_of_snd (by with_reducible assumption) ?_) | (refine wf_of_fst (by with_reducible assumption) ?_) | split

theorem wf_State_wsClose (h : s.wf = true) (o : Op) :
    (State.wsClose s o).wf = true := by
  unfold State.wsClose
  try dsimp only
  repeat' first | with_reducible assumption | (intro _) | with_reducible apply wf_State_done | with_reducible apply wf_State_setWs | with_reducible apply wf_State_wsSync | with_reducible apply wf_State_svcEnd | with_reducible apply wf_ite | with_reducible apply wf_ite1 | with_reducible apply wf_ite2 | with_reducible apply wf_regs | with_reducible apply wf_force | with_reducible apply wf_mem | with_reducible apply wf_scr | (simp only [wf_mk]; refine ⟨⟨⟨?_, ?_⟩, ?_⟩, ?_⟩) | (simp only [id_eq]; assumption) | (dsimp only) | (refine wf_of_snd (by with_reducible assumption) ?_) | (refine wf_of_fst (by with_reducible assumption) ?_) | split

theorem wf_State_wsEnd (h : s.wf = true) (w : WStream) :
    (State.wsEnd s w).wf = true := by
  unfold State.wsEnd
  try dsimp only
  repeat' first | with_reducible assumption | (intro _) | with_reducible apply wf_each | with_reducible apply wf_State_copyChunks | with_reducible apply wf_State_setStream | with_reducible apply wf_State_wsSync | with_reducible apply wf_State_syncUse | with_reducible apply wf_regs | with_reducible apply wf_force | with_reducible apply wf_mem | with_reducible apply wf_scr | (simp only [wf_mk]; refine ⟨⟨⟨?_, ?_⟩, ?_⟩, ?_⟩) | (simp only [id_eq]; assumption)

theorem wf_State_wsFrame (h : s.wf = true) (gone : List Nat) :
    (State.wsFrame s gone).wf = true := by
  unfold State.wsFrame
  repeat' first | with_reducible assumption | (intro _) | with_reducible apply wf_each | with_reducible apply wf_State_wsEnd | (dsimp only) | (refine wf_of_snd (by with_reducible assumption) ?_) | (refine wf_of_fst (by with_reducible assumption) ?_) | split

theorem wf_State_wsStaged (h : s.wf = true) (w : WStream) :
    (State.wsStaged s w).wf = true := by
  unfold State.wsStaged
  try dsimp only
  repeat' first | with_reducible assumption | (intro _) | with_reducible apply wf_State_setWs | with_reducible apply wf_State_syncUse | with_reducible apply wf_State_ctrAdd | with_reducible apply wf_regs | with_reducible apply wf_force | with_reducible apply wf_mem | with_reducible apply wf_scr | (simp only [wf_mk]; refine ⟨⟨⟨?_, ?_⟩, ?_⟩, ?_⟩) | (dsimp only) | (refine wf_of_snd (by with_reducible assumption) ?_) | (refine wf_of_fst (by with_reducible assumption) ?_) | split

theorem wf_State_wsStage (h : s.wf = true) (id : Nat) :
    (State.wsStage s id).wf = true := by
  unfold State.wsStage
  try dsimp only
  repeat' first | with_reducible assumption | (intro _) | with_reducible apply wf_State_wsStaged | with_reducible apply wf_State_quotaHit | with_reducible apply wf_State_copyChunks | with_reducible apply wf_State_setWs | with_reducible apply wf_State_syncUse | with_reducible apply wf_ite | with_reducible apply wf_ite1 | with_reducible apply wf_ite2 | with_reducible apply wf_regs | with_reducible apply wf_force | with_reducible apply wf_mem | with_reducible apply wf_scr | (simp only [wf_mk]; refine ⟨⟨⟨?_, ?_⟩, ?_⟩, ?_⟩) | (simp only [id_eq]; assumption) | (dsimp only) | (refine wf_of_snd (by with_reducible assumption) ?_) | (refine wf_of_fst (by with_reducible assumption) ?_) | split

theorem wf_State_wsStop (h : s.wf = true) (w : WStream) (q : Nat) :
    (State.wsStop s w q).wf = true := by
  unfold State.wsStop
  try dsimp only
  repeat' first | with_reducible assumption | (intro _) | with_reducible apply wf_State_copyChunks | with_reducible apply wf_State_setWs | with_reducible apply wf_State_syncUse | with_reducible apply wf_regs | with_reducible apply wf_force | with_reducible apply wf_mem | with_reducible apply wf_scr | (simp only [wf_mk]; refine ⟨⟨⟨?_, ?_⟩, ?_⟩, ?_⟩)

theorem wf_State_stageChunk (h : s.wf = true) (w : WStream) (q : Nat) (window : Option Nat) (ok : Bool) (ue : List Nat) :
    (State.stageChunk s w q window ok ue).wf = true := by
  unfold State.stageChunk
  try dsimp only
  repeat' first | with_reducible assumption | (intro _) | with_reducible apply wf_State_copyUe | with_reducible apply wf_State_wsStop | with_reducible apply wf_State_setWs | with_reducible apply wf_State_windowUse | with_reducible apply wf_ite | with_reducible apply wf_ite1 | with_reducible apply wf_ite2 | with_reducible apply wf_regs | with_reducible apply wf_force | with_reducible apply wf_mem | with_reducible apply wf_scr | (simp only [wf_mk]; refine ⟨⟨⟨?_, ?_⟩, ?_⟩, ?_⟩) | (dsimp only) | (refine wf_of_snd (by with_reducible assumption) ?_) | (refine wf_of_fst (by with_reducible assumption) ?_) | split

theorem wf_State_chunkCopy (h : s.wf = true) (g : Page) (m : Move) (window : Option Nat) (ok : Bool) (ue : List Nat) :
    (State.chunkCopy s g m window ok ue).wf = true := by
  unfold State.chunkCopy
  try dsimp only
  repeat' first | with_reducible assumption | (intro _) | with_reducible apply wf_State_moveChunk | with_reducible apply wf_when | with_reducible apply wf_State_done | with_reducible apply wf_each | with_reducible apply wf_State_cacheTake | with_reducible apply wf_ite | with_reducible apply wf_ite1 | with_reducible apply wf_ite2

theorem wf_State_wsStageDone (h : s.wf = true) (id : Nat) :
    (State.wsStageDone s id).wf = true := by
  unfold State.wsStageDone
  repeat' first | with_reducible assumption | with_reducible apply wf_State_wsStaged | with_reducible apply wf_ite | with_reducible apply wf_ite1 | with_reducible apply wf_ite2 | with_reducible apply wf_regs | with_reducible apply wf_force | with_reducible apply wf_mem | with_reducible apply wf_scr | (simp only [wf_mk]; refine ⟨⟨⟨?_, ?_⟩, ?_⟩, ?_⟩) | (simp only [id_eq]; assumption) | (dsimp only) | (refine wf_of_snd (by with_reducible assumption) ?_) | (refine wf_of_fst (by with_reducible assumption) ?_) | split

theorem wf_State_svcPages (h : s.wf = true) (x : Nat) (n : Nat) :
    (State.svcPages s x n).1.wf = true := by
  unfold State.svcPages
  try dsimp only
  repeat' first | with_reducible assumption | (intro _) | with_reducible apply wf_State_fresh | with_reducible apply wf_State_placeAll | with_reducible apply wf_State_zeroPage | with_reducible apply wf_State_addPage | with_reducible apply wf_State_quotaHit | with_reducible apply wf_State_syncUse | with_reducible apply wf_ite | with_reducible apply wf_ite1 | with_reducible apply wf_ite2 | with_reducible apply wf_regs | with_reducible apply wf_force | with_reducible apply wf_mem | with_reducible apply wf_scr | (simp only [wf_mk]; refine ⟨⟨⟨?_, ?_⟩, ?_⟩, ?_⟩) | (dsimp only) | (refine wf_of_snd (by with_reducible assumption) ?_) | (refine wf_of_fst (by with_reducible assumption) ?_) | split

theorem wf_State_cpSync (h : s.wf = true) :
    (State.cpSync s).wf = true := by
  unfold State.cpSync
  repeat' first | with_reducible assumption | (intro _) | with_reducible apply wf_wrn

theorem wf_State_setSeq (h : s.wf = true) (q : Seq) :
    (State.setSeq s q).wf = true := by
  unfold State.setSeq
  repeat' first | with_reducible assumption | (intro _)  | with_reducible apply wf_ite | with_reducible apply wf_ite1 | with_reducible apply wf_ite2 | with_reducible apply wf_regs | with_reducible apply wf_force | with_reducible apply wf_mem | with_reducible apply wf_scr | (simp only [wf_mk]; refine ⟨⟨⟨?_, ?_⟩, ?_⟩, ?_⟩)

theorem wf_State_cpLine (h : s.wf = true) (o : Op) (st : Status) (q : Option Seq) (phase : Nat) :
    (State.cpLine s o st q phase).1.wf = true := by
  unfold State.cpLine
  try dsimp only
  repeat' first | with_reducible assumption | (intro _) | with_reducible apply wf_State_fresh | with_reducible apply wf_ite | with_reducible apply wf_ite1 | with_reducible apply wf_ite2 | with_reducible apply wf_regs | with_reducible apply wf_force | with_reducible apply wf_mem | with_reducible apply wf_scr | (simp only [wf_mk]; refine ⟨⟨⟨?_, ?_⟩, ?_⟩, ?_⟩) | (dsimp only) | (refine wf_of_snd (by with_reducible assumption) ?_) | (refine wf_of_fst (by with_reducible assumption) ?_) | split

theorem wf_State_cpEnd (h : s.wf = true) (o : Op) (st : Status) (q : Option Seq) (phase : Nat) :
    (State.cpEnd s o st q phase).wf = true := by
  unfold State.cpEnd
  try dsimp only
  repeat' first | with_reducible assumption | (intro _) | with_reducible apply wf_State_done | with_reducible apply wf_State_cpLine | with_reducible apply wf_State_svcEnd | with_reducible apply wf_ite | with_reducible apply wf_ite1 | with_reducible apply wf_ite2 | (dsimp only) | (refine wf_of_snd (by with_reducible assumption) ?_) | (refine wf_of_fst (by with_reducible assumption) ?_) | split

theorem wf_State_cpPublish (h : s.wf = true) (q : Seq) (layers : List Nat) :
    (State.cpPublish s q layers).1.wf = true := by
  unfold State.cpPublish
  try dsimp only
  repeat' first | with_reducible assumption | (intro _) | with_reducible apply wf_State_fresh | with_reducible apply wf_State_savePieces | with_reducible apply wf_ite | with_reducible apply wf_ite1 | with_reducible apply wf_ite2 | with_reducible apply wf_foldl | with_reducible apply wf_foldl1 | with_reducible apply wf_foldl2

theorem wf_State_cpOpen (h : s.wf = true) (o : Op) :
    (State.cpOpen s o).wf = true := by
  unfold State.cpOpen
  try dsimp only
  repeat' first | with_reducible assumption | (intro _) | with_reducible apply wf_State_quotaHit | with_reducible apply wf_State_cpEnd | with_reducible apply wf_State_svcPages | with_reducible apply wf_State_fresh | with_reducible apply wf_each | with_reducible apply wf_State_copyChunks | with_reducible apply wf_State_cpPublish | with_reducible apply wf_when | with_reducible apply wf_set | with_reducible apply wf_State_cpSync | with_reducible apply wf_State_syncUse | with_reducible apply wf_ite | with_reducible apply wf_ite1 | with_reducible apply wf_ite2 | with_reducible apply wf_regs | with_reducible apply wf_force | with_reducible apply wf_mem | with_reducible apply wf_scr | (simp only [wf_mk]; refine ⟨⟨⟨?_, ?_⟩, ?_⟩, ?_⟩)

theorem wf_State_cpRequest (h : s.wf = true) (o : Op) (f : Seq → State) (hf_f : ∀ x0, (f x0).wf = true) :
    (State.cpRequest s o f).wf = true := by
  unfold State.cpRequest
  repeat' first | with_reducible assumption | (intro _) | with_reducible apply hf_f | with_reducible apply wf_State_cpEnd | with_reducible apply wf_ite | with_reducible apply wf_ite1 | with_reducible apply wf_ite2 | with_reducible apply wf_regs | with_reducible apply wf_force | with_reducible apply wf_mem | with_reducible apply wf_scr | (simp only [wf_mk]; refine ⟨⟨⟨?_, ?_⟩, ?_⟩, ?_⟩) | (dsimp only) | (refine wf_of_snd (by with_reducible assumption) ?_) | (refine wf_of_fst (by with_reducible assumption) ?_) | split

theorem wf_State_cpAppend (h : s.wf = true) (o : Op) (ue : List Nat) :
    (State.cpAppend s o ue).wf = true := by
  unfold State.cpAppend
  try dsimp only
  repeat' first | with_reducible assumption | (intro _) | with_reducible apply wf_State_cpRequest | with_reducible apply wf_State_svcPages | with_reducible apply wf_State_cpEnd | with_reducible apply wf_State_mark | with_reducible apply wf_State_savePieces | with_reducible apply wf_State_cpPublish | with_reducible apply wf_State_setSeq | with_reducible apply wf_ite | with_reducible apply wf_ite1 | with_reducible apply wf_ite2 | with_reducible apply wf_regs | with_reducible apply wf_force | with_reducible apply wf_mem | with_reducible apply wf_scr | (simp only [wf_mk]; refine ⟨⟨⟨?_, ?_⟩, ?_⟩, ?_⟩) | (dsimp only) | (refine wf_of_snd (by with_reducible assumption) ?_) | (refine wf_of_fst (by with_reducible assumption) ?_) | split

theorem wf_State_cpSeal (h : s.wf = true) (o : Op) :
    (State.cpSeal s o).wf = true := by
  unfold State.cpSeal
  try dsimp only
  repeat' first | with_reducible assumption | (intro _) | with_reducible apply wf_State_cpRequest | with_reducible apply wf_State_cpEnd | with_reducible apply wf_State_setSeq | with_reducible apply wf_State_quotaHit | with_reducible apply wf_State_setOp | with_reducible apply wf_ite | with_reducible apply wf_ite1 | with_reducible apply wf_ite2 | with_reducible apply wf_regs | with_reducible apply wf_force | with_reducible apply wf_mem | with_reducible apply wf_scr | (simp only [wf_mk]; refine ⟨⟨⟨?_, ?_⟩, ?_⟩, ?_⟩) | (simp only [id_eq]; assumption)

theorem wf_State_cpHandoff (h : s.wf = true) (q : Seq) (y : Nat) (id : Nat) :
    (State.cpHandoff s q y id).wf = true := by
  unfold State.cpHandoff
  try dsimp only
  repeat' first | with_reducible assumption | (intro _) | with_reducible apply wf_State_setSeq | with_reducible apply wf_State_cpEnd | with_reducible apply wf_State_syncUse | with_reducible apply wf_ite | with_reducible apply wf_ite1 | with_reducible apply wf_ite2 | with_reducible apply wf_regs | with_reducible apply wf_force | with_reducible apply wf_mem | with_reducible apply wf_scr | (simp only [wf_mk]; refine ⟨⟨⟨?_, ?_⟩, ?_⟩, ?_⟩) | (simp only [id_eq]; assumption) | (dsimp only) | (refine wf_of_snd (by with_reducible assumption) ?_) | (refine wf_of_fst (by with_reducible assumption) ?_) | split

theorem wf_State_cpFrame (h : s.wf = true) :
    (State.cpFrame s).wf = true := by
  unfold State.cpFrame
  repeat' first | with_reducible assumption | (intro _) | with_reducible apply wf_each | with_reducible apply wf_State_cpHandoff | with_reducible apply wf_regs | with_reducible apply wf_force | with_reducible apply wf_mem | with_reducible apply wf_scr | (simp only [wf_mk]; refine ⟨⟨⟨?_, ?_⟩, ?_⟩, ?_⟩) | (dsimp only) | (refine wf_of_snd (by with_reducible assumption) ?_) | (refine wf_of_fst (by with_reducible assumption) ?_) | split

theorem wf_State_cpStatus (h : s.wf = true) (o : Op) :
    (State.cpStatus s o).wf = true := by
  unfold State.cpStatus
  repeat' first | with_reducible assumption | (intro _) | with_reducible apply wf_State_cpRequest | with_reducible apply wf_State_cpEnd

theorem wf_State_cpFree (h : s.wf = true) (x : Nat) (l : List Nat) :
    (State.cpFree s x l).wf = true := by
  unfold State.cpFree
  repeat' first | with_reducible assumption | (intro _) | with_reducible apply wf_each | with_reducible apply wf_State_freePage | with_reducible apply wf_State_syncUse | with_reducible apply wf_regs | with_reducible apply wf_force | with_reducible apply wf_mem | with_reducible apply wf_scr | (simp only [wf_mk]; refine ⟨⟨⟨?_, ?_⟩, ?_⟩, ?_⟩) | (dsimp only) | (refine wf_of_snd (by with_reducible assumption) ?_) | (refine wf_of_fst (by with_reducible assumption) ?_) | split

theorem wf_State_cpCut (h : s.wf = true) (q : Seq) (n : Nat) :
    (State.cpCut s q n).1.wf = true := by
  unfold State.cpCut
  try dsimp only
  repeat' first | with_reducible assumption | (intro _) | with_reducible apply wf_State_cpFree | with_reducible apply wf_State_setSeq | with_reducible apply wf_regs | with_reducible apply wf_force | with_reducible apply wf_mem | with_reducible apply wf_scr | (simp only [wf_mk]; refine ⟨⟨⟨?_, ?_⟩, ?_⟩, ?_⟩)

theorem wf_State_rehomeAll (h : s.wf = true) (x : Nat) (lost : List Nat) :
    (State.rehomeAll s x lost).1.wf = true := by
  unfold State.rehomeAll
  repeat' first | with_reducible assumption | (intro _) | with_reducible apply wf_State_cpFree | with_reducible apply wf_State_placeAll | with_reducible apply wf_State_zeroPage | with_reducible apply wf_State_addPage | with_reducible apply wf_regs | with_reducible apply wf_force | with_reducible apply wf_mem | with_reducible apply wf_scr | (simp only [wf_mk]; refine ⟨⟨⟨?_, ?_⟩, ?_⟩, ?_⟩)

theorem wf_State_placed (h : s.wf = true) (x : Nat) (r : State × Status) (hp_r : r.1.wf = true) :
    (State.placed s x r).1.wf = true := by
  unfold State.placed
  repeat' first | with_reducible assumption | with_reducible apply wf_State_quotaHit | with_reducible apply wf_State_syncUse | with_reducible apply wf_ite | with_reducible apply wf_ite1 | with_reducible apply wf_ite2

theorem wf_State_cpRehome (h : s.wf = true) (q : Seq) : (State.cpRehome s q).1.wf = true := by
  unfold State.cpRehome
  exact wf_ite1 _ _ _ h (wf_State_placed h _ _ (wf_State_rehomeAll h _ _))

theorem wf_State_cpReplay (h : s.wf = true) (o : Op) :
    (State.cpReplay s o).wf = true := by
  unfold State.cpReplay
  try dsimp only
  repeat' first | with_reducible assumption | (intro _) | with_reducible apply wf_State_cpRequest | with_reducible apply wf_State_cpRehome | with_reducible apply wf_State_cpEnd | with_reducible apply wf_State_cpCut | with_reducible apply wf_State_cpPublish | with_reducible apply wf_sat | with_reducible apply wf_State_cpSync | with_reducible apply wf_ite | with_reducible apply wf_ite1 | with_reducible apply wf_ite2 | (dsimp only) | (refine wf_of_snd (by with_reducible assumption) ?_) | (refine wf_of_fst (by with_reducible assumption) ?_) | split

theorem wf_State_cpDrop (h : s.wf = true) (q : Seq) :
    (State.cpDrop s q).wf = true := by
  unfold State.cpDrop
  try dsimp only
  repeat' first | with_reducible assumption | (intro _) | with_reducible apply wf_each | with_reducible apply wf_State_copyChunks | with_reducible apply wf_State_cpSync | with_reducible apply wf_State_cpFree | with_reducible apply wf_regs | with_reducible apply wf_force | with_reducible apply wf_mem | with_reducible apply wf_scr | (simp only [wf_mk]; refine ⟨⟨⟨?_, ?_⟩, ?_⟩, ?_⟩)

theorem wf_State_cpClose (h : s.wf = true) (o : Op) :
    (State.cpClose s o).wf = true := by
  unfold State.cpClose
  repeat' first | with_reducible assumption | (intro _) | with_reducible apply wf_State_cpRequest | with_reducible apply wf_State_done | with_reducible apply wf_State_cpDrop | with_reducible apply wf_State_cpEnd | with_reducible apply wf_ite | with_reducible apply wf_ite1 | with_reducible apply wf_ite2

theorem wf_State_svcGone (h : s.wf = true) (gone : List Nat) :
    (State.svcGone s gone).wf = true := by
  unfold State.svcGone
  repeat' first | with_reducible assumption | (intro _) | with_reducible apply wf_State_wsFrame | with_reducible apply wf_each | with_reducible apply wf_State_cpDrop

theorem wf_State_cpLostOps (h : s.wf = true) (q : Seq) :
    (State.cpLostOps s q).wf = true := by
  unfold State.cpLostOps
  try dsimp only
  repeat' first | with_reducible assumption | (intro _) | with_reducible apply wf_State_setSeq | with_reducible apply wf_State_cpEnd | with_reducible apply wf_regs | with_reducible apply wf_force | with_reducible apply wf_mem | with_reducible apply wf_scr | (simp only [wf_mk]; refine ⟨⟨⟨?_, ?_⟩, ?_⟩, ?_⟩) | (dsimp only) | (refine wf_of_snd (by with_reducible assumption) ?_) | (refine wf_of_fst (by with_reducible assumption) ?_) | split

theorem wf_State_cpLose (h : s.wf = true) (q : Seq) (from_ : Nat) (reason : Nat) :
    (State.cpLose s q from_ reason).wf = true := by
  unfold State.cpLose
  try dsimp only
  repeat' first | with_reducible assumption | (intro _) | with_reducible apply wf_State_setSeq | with_reducible apply wf_State_cpLostOps | with_reducible apply wf_State_cpSync | with_reducible apply wf_ite | with_reducible apply wf_ite1 | with_reducible apply wf_ite2 | with_reducible apply wf_regs | with_reducible apply wf_force | with_reducible apply wf_mem | with_reducible apply wf_scr | (simp only [wf_mk]; refine ⟨⟨⟨?_, ?_⟩, ?_⟩, ?_⟩)

theorem wf_State_cpRestore (h : s.wf = true) (q : Seq) :
    (State.cpRestore s q).wf = true := by
  unfold State.cpRestore
  repeat' first | with_reducible assumption | (intro _)  | with_reducible apply wf_ite | with_reducible apply wf_ite1 | with_reducible apply wf_ite2 | with_reducible apply wf_regs | with_reducible apply wf_force | with_reducible apply wf_mem | with_reducible apply wf_scr | (simp only [wf_mk]; refine ⟨⟨⟨?_, ?_⟩, ?_⟩, ?_⟩)

theorem wf_State_cpLoss (h : s.wf = true) (units : List Nat) (reason : Nat) :
    (State.cpLoss s units reason).wf = true := by
  unfold State.cpLoss
  try dsimp only
  repeat' first | with_reducible assumption | (intro _) | with_reducible apply wf_each | with_reducible apply wf_State_setSeq | with_reducible apply wf_when | with_reducible apply wf_set | with_reducible apply wf_State_cpRestore | with_reducible apply wf_State_cpLose | with_reducible apply wf_ite | with_reducible apply wf_ite1 | with_reducible apply wf_ite2 | with_reducible apply wf_foldl | with_reducible apply wf_foldl1 | with_reducible apply wf_foldl2 | with_reducible apply wf_regs | with_reducible apply wf_force | with_reducible apply wf_mem | with_reducible apply wf_scr | (simp only [wf_mk]; refine ⟨⟨⟨?_, ?_⟩, ?_⟩, ?_⟩) | (dsimp only) | (refine wf_of_snd (by with_reducible assumption) ?_) | (refine wf_of_fst (by with_reducible assumption) ?_) | split

theorem wf_State_mirrorRebuild (h : s.wf = true) (handle : Nat) (tray : Nat) :
    (State.mirrorRebuild s handle tray).wf = true := by
  unfold State.mirrorRebuild
  try dsimp only
  repeat' first | with_reducible assumption | (intro _) | with_reducible apply wf_State_copyChunks | with_reducible apply wf_State_setSeq | with_reducible apply wf_sat | with_reducible apply wf_State_syncUse | with_reducible apply wf_when | with_reducible apply wf_clr | with_reducible apply wf_ite | with_reducible apply wf_ite1 | with_reducible apply wf_ite2 | with_reducible apply wf_regs | with_reducible apply wf_force | with_reducible apply wf_mem | with_reducible apply wf_scr | (simp only [wf_mk]; refine ⟨⟨⟨?_, ?_⟩, ?_⟩, ?_⟩) | (dsimp only) | (refine wf_of_snd (by with_reducible assumption) ?_) | (refine wf_of_fst (by with_reducible assumption) ?_) | split

end Sys2Proof.Machine
end

