-- ==== Sys2Proof/Laws/KeepFlash.lean ====
section
/-! SUPPORT. Every operation of Machine/Flash.lean keeps the stores of the state in their canonical form. -/

namespace Sys2Proof.Machine

variable {s : State}

theorem wf_State_flashJoin (h : s.wf = true) (l : Nat) (h : Hello) :
    (State.flashJoin s l h).wf = true := by
  unfold State.flashJoin
  try dsimp only
  repeat' first | with_reducible assumption | (intro _) | with_reducible apply wf_wrFld | with_reducible apply wf_State_traySync | with_reducible apply wf_ite | with_reducible apply wf_ite1 | with_reducible apply wf_ite2 | with_reducible apply wf_foldl | with_reducible apply wf_foldl1 | with_reducible apply wf_foldl2 | with_reducible apply wf_regs | with_reducible apply wf_force | with_reducible apply wf_mem | with_reducible apply wf_scr | (simp only [wf_mk]; refine ⟨⟨⟨?_, ?_⟩, ?_⟩, ?_⟩) | (dsimp only) | (refine wf_of_snd (by with_reducible assumption) ?_) | (refine wf_of_fst (by with_reducible assumption) ?_) | split

theorem wf_State_loseFlash (h : s.wf = true) (pages : List Nat) (reason : Nat) :
    (State.loseFlash s pages reason).wf = true := by
  unfold State.loseFlash
  try dsimp only
  repeat' first | with_reducible assumption | (intro _) | with_reducible apply wf_each | with_reducible apply wf_State_abandonMove | with_reducible apply wf_State_setPage | with_reducible apply wf_when | with_reducible apply wf_set | with_reducible apply wf_State_errLog | with_reducible apply wf_State_cpLoss | with_reducible apply wf_State_syncUse | with_reducible apply wf_regs | with_reducible apply wf_force | with_reducible apply wf_mem | with_reducible apply wf_scr | (simp only [wf_mk]; refine ⟨⟨⟨?_, ?_⟩, ?_⟩, ?_⟩) | (dsimp only) | (refine wf_of_snd (by with_reducible assumption) ?_) | (refine wf_of_fst (by with_reducible assumption) ?_) | split

theorem wf_State_loseUnits (h : s.wf = true) (l : Nat) (us : List (Nat × Nat)) :
    (State.loseUnits s l us).wf = true := by
  unfold State.loseUnits
  try dsimp only
  repeat' first | with_reducible assumption | (intro _) | with_reducible apply wf_State_onTray | with_reducible apply wf_State_setTray | with_reducible apply wf_when | with_reducible apply wf_set | with_reducible apply wf_State_loseFlash | with_reducible apply wf_foldl | with_reducible apply wf_foldl1 | with_reducible apply wf_foldl2

theorem wf_State_destage (h : s.wf = true) (l : Nat) :
    (State.destage s l).wf = true := by
  unfold State.destage
  try dsimp only
  repeat' first | with_reducible assumption | (intro _) | with_reducible apply wf_State_onTray | with_reducible apply wf_State_setTray | with_reducible apply wf_State_traySync | with_reducible apply wf_State_sat64 | with_reducible apply wf_State_programmed | with_reducible apply wf_ite | with_reducible apply wf_ite1 | with_reducible apply wf_ite2 | with_reducible apply wf_regs | with_reducible apply wf_force | with_reducible apply wf_mem | with_reducible apply wf_scr | (simp only [wf_mk]; refine ⟨⟨⟨?_, ?_⟩, ?_⟩, ?_⟩) | (dsimp only) | (refine wf_of_snd (by with_reducible assumption) ?_) | (refine wf_of_fst (by with_reducible assumption) ?_) | split

theorem wf_State_copyFails (h : s.wf = true) (t : Tray) (g : Nat) :
    (State.copyFails s t g).wf = true := by
  unfold State.copyFails
  try dsimp only
  repeat' first | with_reducible assumption | (intro _) | with_reducible apply wf_State_retire | with_reducible apply wf_sat | with_reducible apply wf_State_traySync | with_reducible apply wf_set | with_reducible apply wf_State_programmed | with_reducible apply wf_ite | with_reducible apply wf_ite1 | with_reducible apply wf_ite2 | with_reducible apply wf_regs | with_reducible apply wf_force | with_reducible apply wf_mem | with_reducible apply wf_scr | (simp only [wf_mk]; refine ⟨⟨⟨?_, ?_⟩, ?_⟩, ?_⟩) | (dsimp only) | (refine wf_of_snd (by with_reducible assumption) ?_) | (refine wf_of_fst (by with_reducible assumption) ?_) | split

theorem wf_State_moveStripe (h : s.wf = true) (t : Tray) (v : FStripe) (verifyOk : Bool) (gc : Bool) :
    (State.moveStripe s t v verifyOk gc).wf = true := by
  unfold State.moveStripe
  try dsimp only
  repeat' first | with_reducible assumption | (intro _) | with_reducible apply wf_State_traySync | with_reducible apply wf_State_copyFails | with_reducible apply wf_State_leave | with_reducible apply wf_State_programmed | with_reducible apply wf_ite | with_reducible apply wf_ite1 | with_reducible apply wf_ite2 | with_reducible apply wf_regs | with_reducible apply wf_force | with_reducible apply wf_mem | with_reducible apply wf_scr | (simp only [wf_mk]; refine ⟨⟨⟨?_, ?_⟩, ?_⟩, ?_⟩)

theorem wf_State_activity (h : s.wf = true) (l : Nat) (f : Tray → State) (hf_f : ∀ x0, (f x0).wf = true) :
    (State.activity s l f).wf = true := by
  unfold State.activity
  repeat' first | with_reducible assumption | (intro _) | with_reducible apply hf_f | with_reducible apply wf_State_onTray | with_reducible apply wf_ite | with_reducible apply wf_ite1 | with_reducible apply wf_ite2

theorem wf_State_fold (h : s.wf = true) (l : Nat) (verifyOk : Bool) :
    (State.fold s l verifyOk).wf = true := by
  unfold State.fold
  repeat' first | with_reducible assumption | (intro _) | with_reducible apply wf_State_activity | with_reducible apply wf_State_moveStripe | with_reducible apply wf_regs | with_reducible apply wf_force | with_reducible apply wf_mem | with_reducible apply wf_scr | (simp only [wf_mk]; refine ⟨⟨⟨?_, ?_⟩, ?_⟩, ?_⟩) | (dsimp only) | (refine wf_of_snd (by with_reducible assumption) ?_) | (refine wf_of_fst (by with_reducible assumption) ?_) | split

theorem wf_State_rewrite (h : s.wf = true) (t : Tray) (v : FStripe) (c : FCopy) (rowOk : Bool) (verifyOk : Bool) :
    (State.rewrite s t v c rowOk verifyOk).wf = true := by
  unfold State.rewrite
  try dsimp only
  repeat' first | with_reducible assumption | (intro _) | with_reducible apply wf_State_loseUnits | with_reducible apply wf_sat | with_reducible apply wf_State_admitTo | with_reducible apply wf_State_startMove | with_reducible apply wf_State_syncUse | with_reducible apply wf_State_copyFails | with_reducible apply wf_State_traySync | with_reducible apply wf_State_programmed | with_reducible apply wf_ite | with_reducible apply wf_ite1 | with_reducible apply wf_ite2 | with_reducible apply wf_regs | with_reducible apply wf_force | with_reducible apply wf_mem | with_reducible apply wf_scr | (simp only [wf_mk]; refine ⟨⟨⟨?_, ?_⟩, ?_⟩, ?_⟩) | (dsimp only) | (refine wf_of_snd (by with_reducible assumption) ?_) | (refine wf_of_fst (by with_reducible assumption) ?_) | split

theorem wf_State_flashCmd (h : s.wf = true) (link : Nat) (cmd : Nat) (level : Nat) (die : Nat) (block : Nat) (page : Nat) :
    (State.flashCmd s link cmd level die block page).wf = true := by
  unfold State.flashCmd
  try dsimp only
  repeat' first | with_reducible assumption | (intro _) | with_reducible apply wf_emit | with_reducible apply wf_State_level | with_reducible apply wf_State_progress | with_reducible apply wf_when | with_reducible apply wf_State_onTray | with_reducible apply wf_State_setTray | with_reducible apply wf_regs | with_reducible apply wf_force | with_reducible apply wf_mem | with_reducible apply wf_scr | (simp only [wf_mk]; refine ⟨⟨⟨?_, ?_⟩, ?_⟩, ?_⟩)

theorem wf_State_flashRead (h : s.wf = true) (l : Nat) (p : Nat) (u : Nat) (ok : Bool) (rowOk : Bool) (verifyOk : Bool) :
    (State.flashRead s l p u ok rowOk verifyOk).wf = true := by
  unfold State.flashRead
  try dsimp only
  repeat' first | with_reducible assumption | (intro _) | with_reducible apply wf_State_onTray | with_reducible apply wf_State_level | with_reducible apply wf_State_setTray | with_reducible apply wf_State_served | with_reducible apply wf_set | with_reducible apply wf_State_flashCmd | with_reducible apply wf_State_rewrite | with_reducible apply wf_ite | with_reducible apply wf_ite1 | with_reducible apply wf_ite2 | with_reducible apply wf_regs | with_reducible apply wf_force | with_reducible apply wf_mem | with_reducible apply wf_scr | (simp only [wf_mk]; refine ⟨⟨⟨?_, ?_⟩, ?_⟩, ?_⟩) | (dsimp only) | (refine wf_of_snd (by with_reducible assumption) ?_) | (refine wf_of_fst (by with_reducible assumption) ?_) | split

theorem wf_State_eraseFails (h : s.wf = true) (t : Tray) (v : FStripe) (programOk : Bool) :
    (State.eraseFails s t v programOk).1.wf = true := by
  unfold State.eraseFails
  try dsimp only
  repeat' first | with_reducible assumption | (intro _) | with_reducible apply wf_State_retire | with_reducible apply wf_sat | with_reducible apply wf_when | with_reducible apply wf_set | with_reducible apply wf_ite | with_reducible apply wf_ite1 | with_reducible apply wf_ite2 | with_reducible apply wf_regs | with_reducible apply wf_force | with_reducible apply wf_mem | with_reducible apply wf_scr | (simp only [wf_mk]; refine ⟨⟨⟨?_, ?_⟩, ?_⟩, ?_⟩) | (dsimp only) | (refine wf_of_snd (by with_reducible assumption) ?_) | (refine wf_of_fst (by with_reducible assumption) ?_) | split

theorem wf_State_discardStripe (h : s.wf = true) (t : Tray) (v : FStripe) (p : Nat) (eraseOk : Bool) (programOk : Bool) :
    (State.discardStripe s t v p eraseOk programOk).1.wf = true := by
  unfold State.discardStripe
  try dsimp only
  repeat' first | with_reducible assumption | (intro _) | with_reducible apply wf_State_eraseFails | with_reducible apply wf_State_programmed | with_reducible apply wf_ite | with_reducible apply wf_ite1 | with_reducible apply wf_ite2 | (dsimp only) | (refine wf_of_snd (by with_reducible assumption) ?_) | (refine wf_of_fst (by with_reducible assumption) ?_) | split

theorem wf_State_discardAll (h : s.wf = true) (t : Tray) (p : Nat) (eraseOk : Bool) (programOk : Bool) :
    (State.discardAll s t p eraseOk programOk).1.wf = true := by
  unfold State.discardAll
  try dsimp only
  repeat' first | with_reducible assumption | (intro _) | with_reducible apply wf_State_discardStripe | with_reducible apply wf_foldl | with_reducible apply wf_foldl1 | with_reducible apply wf_foldl2 | with_reducible apply wf_regs | with_reducible apply wf_force | with_reducible apply wf_mem | with_reducible apply wf_scr | (simp only [wf_mk]; refine ⟨⟨⟨?_, ?_⟩, ?_⟩, ?_⟩) | (dsimp only) | (refine wf_of_snd (by with_reducible assumption) ?_) | (refine wf_of_fst (by with_reducible assumption) ?_) | split

theorem wf_State_secureDiscard (h : s.wf = true) (l : Nat) (p : Nat) (eraseOk : Bool) (programOk : Bool) :
    (State.secureDiscard s l p eraseOk programOk).wf = true := by
  unfold State.secureDiscard
  try dsimp only
  repeat' first | with_reducible assumption | (intro _) | with_reducible apply wf_State_onTray | with_reducible apply wf_State_discardAll | with_reducible apply wf_State_traySync | with_reducible apply wf_ite | with_reducible apply wf_ite1 | with_reducible apply wf_ite2 | with_reducible apply wf_regs | with_reducible apply wf_force | with_reducible apply wf_mem | with_reducible apply wf_scr | (simp only [wf_mk]; refine ⟨⟨⟨?_, ?_⟩, ?_⟩, ?_⟩) | (dsimp only) | (refine wf_of_snd (by with_reducible assumption) ?_) | (refine wf_of_fst (by with_reducible assumption) ?_) | split

theorem wf_State_discardComplete (h : s.wf = true) (l : Nat) (p : Nat) :
    (State.discardComplete s l p).wf = true := by
  unfold State.discardComplete
  try dsimp only
  repeat' first | with_reducible assumption | (intro _) | with_reducible apply wf_State_done | with_reducible apply wf_State_scrubEnd | with_reducible apply wf_wrn | with_reducible apply wf_ite | with_reducible apply wf_ite1 | with_reducible apply wf_ite2 | with_reducible apply wf_elim | with_reducible apply wf_regs | with_reducible apply wf_force | with_reducible apply wf_mem | with_reducible apply wf_scr | (simp only [wf_mk]; refine ⟨⟨⟨?_, ?_⟩, ?_⟩, ?_⟩) | (dsimp only) | (refine wf_of_snd (by with_reducible assumption) ?_) | (refine wf_of_fst (by with_reducible assumption) ?_) | split

theorem wf_State_collect (h : s.wf = true) (l : Nat) (g : Nat) (verifyOk : Bool) :
    (State.collect s l g verifyOk).wf = true := by
  unfold State.collect
  repeat' first | with_reducible assumption | (intro _) | with_reducible apply wf_State_activity | with_reducible apply wf_State_moveStripe | with_reducible apply wf_ite | with_reducible apply wf_ite1 | with_reducible apply wf_ite2 | with_reducible apply wf_regs | with_reducible apply wf_force | with_reducible apply wf_mem | with_reducible apply wf_scr | (simp only [wf_mk]; refine ⟨⟨⟨?_, ?_⟩, ?_⟩, ?_⟩) | (dsimp only) | (refine wf_of_snd (by with_reducible assumption) ?_) | (refine wf_of_fst (by with_reducible assumption) ?_) | split

theorem wf_State_level (h : s.wf = true) (l : Nat) (d : Nat) (verifyOk : Bool) :
    (State.level s l d verifyOk).wf = true := by
  unfold State.level
  try dsimp only
  repeat' first | with_reducible assumption | (intro _) | with_reducible apply wf_State_activity | with_reducible apply wf_State_moveStripe | with_reducible apply wf_ite | with_reducible apply wf_ite1 | with_reducible apply wf_ite2 | with_reducible apply wf_foldl | with_reducible apply wf_foldl1 | with_reducible apply wf_foldl2 | with_reducible apply wf_regs | with_reducible apply wf_force | with_reducible apply wf_mem | with_reducible apply wf_scr | (simp only [wf_mk]; refine ⟨⟨⟨?_, ?_⟩, ?_⟩, ?_⟩) | (dsimp only) | (refine wf_of_snd (by with_reducible assumption) ?_) | (refine wf_of_fst (by with_reducible assumption) ?_) | split

theorem wf_State_refresh (h : s.wf = true) (l : Nat) (no : Nat) (verifyOk : Bool) :
    (State.refresh s l no verifyOk).wf = true := by
  unfold State.refresh
  repeat' first | with_reducible assumption | (intro _) | with_reducible apply wf_State_activity | with_reducible apply wf_State_moveStripe | with_reducible apply wf_ite | with_reducible apply wf_ite1 | with_reducible apply wf_ite2 | with_reducible apply wf_regs | with_reducible apply wf_force | with_reducible apply wf_mem | with_reducible apply wf_scr | (simp only [wf_mk]; refine ⟨⟨⟨?_, ?_⟩, ?_⟩, ?_⟩) | (dsimp only) | (refine wf_of_snd (by with_reducible assumption) ?_) | (refine wf_of_fst (by with_reducible assumption) ?_) | split

theorem wf_State_shed (h : s.wf = true) (l : Nat) (chunks : Nat) :
    (State.shed s l chunks).wf = true := by
  unfold State.shed
  try dsimp only
  repeat' first | with_reducible assumption | (intro _) | with_reducible apply wf_State_admitTo | with_reducible apply wf_State_startMove | with_reducible apply wf_ite | with_reducible apply wf_ite1 | with_reducible apply wf_ite2 | with_reducible apply wf_foldl | with_reducible apply wf_foldl1 | with_reducible apply wf_foldl2 | with_reducible apply wf_regs | with_reducible apply wf_force | with_reducible apply wf_mem | with_reducible apply wf_scr | (simp only [wf_mk]; refine ⟨⟨⟨?_, ?_⟩, ?_⟩, ?_⟩) | (dsimp only) | (refine wf_of_snd (by with_reducible assumption) ?_) | (refine wf_of_fst (by with_reducible assumption) ?_) | split

theorem wf_State_dieFails (h : s.wf = true) (l : Nat) (d : Nat) :
    (State.dieFails s l d).wf = true := by
  unfold State.dieFails
  try dsimp only
  repeat' first | with_reducible assumption | (intro _) | with_reducible apply wf_State_onTray | with_reducible apply wf_State_keep | with_reducible apply wf_when | with_reducible apply wf_wrFld | with_reducible apply wf_set | with_reducible apply wf_State_traySync | with_reducible apply wf_State_loseUnits | with_reducible apply wf_State_shed | with_reducible apply wf_State_syncUse | with_reducible apply wf_ite | with_reducible apply wf_ite1 | with_reducible apply wf_ite2 | with_reducible apply wf_foldl | with_reducible apply wf_foldl1 | with_reducible apply wf_foldl2 | with_reducible apply wf_regs | with_reducible apply wf_force | with_reducible apply wf_mem | with_reducible apply wf_scr | (simp only [wf_mk]; refine ⟨⟨⟨?_, ?_⟩, ?_⟩, ?_⟩) | (dsimp only) | (refine wf_of_snd (by with_reducible assumption) ?_) | (refine wf_of_fst (by with_reducible assumption) ?_) | split

theorem wf_State_rebuildUnit (h : s.wf = true) (l : Nat) (p : Nat) (u : Nat) (verifyOk : Bool) :
    (State.rebuildUnit s l p u verifyOk).wf = true := by
  unfold State.rebuildUnit
  repeat' first | with_reducible assumption | (intro _) | with_reducible apply wf_State_onTray | with_reducible apply wf_State_rewrite | with_reducible apply wf_State_traySync | with_reducible apply wf_ite | with_reducible apply wf_ite1 | with_reducible apply wf_ite2 | with_reducible apply wf_regs | with_reducible apply wf_force | with_reducible apply wf_mem | with_reducible apply wf_scr | (simp only [wf_mk]; refine ⟨⟨⟨?_, ?_⟩, ?_⟩, ?_⟩) | (dsimp only) | (refine wf_of_snd (by with_reducible assumption) ?_) | (refine wf_of_fst (by with_reducible assumption) ?_) | split

theorem wf_State_flashEpoch (h : s.wf = true) :
    (State.flashEpoch s).wf = true := by
  unfold State.flashEpoch
  try dsimp only
  repeat' first | with_reducible assumption | (intro _) | with_reducible apply wf_each | with_reducible apply wf_State_setTray | with_reducible apply wf_ite | with_reducible apply wf_ite1 | with_reducible apply wf_ite2 | with_reducible apply wf_regs | with_reducible apply wf_force | with_reducible apply wf_mem | with_reducible apply wf_scr | (simp only [wf_mk]; refine ⟨⟨⟨?_, ?_⟩, ?_⟩, ?_⟩)

theorem wf_State_flashCacheLost (h : s.wf = true) (die : Nat) :
    (State.flashCacheLost s die).wf = true := by
  unfold State.flashCacheLost
  repeat' first | with_reducible assumption | (intro _) | with_reducible apply wf_each | with_reducible apply wf_State_setTray | with_reducible apply wf_State_loseFlash | with_reducible apply wf_regs | with_reducible apply wf_force | with_reducible apply wf_mem | with_reducible apply wf_scr | (simp only [wf_mk]; refine ⟨⟨⟨?_, ?_⟩, ?_⟩, ?_⟩)

end Sys2Proof.Machine
end

