-- ==== Sys2Proof/Laws/KeepCoherence.lean ====
section
/-! SUPPORT. Every operation of Machine/Coherence.lean keeps the stores of the state in their canonical form. -/

namespace Sys2Proof.Machine

variable {s : State}

theorem wf_State_hpFail (h : s.wf = true) (port : Nat) (dpa : Nat) (window : Nat) (st : Status) :
    (State.hpFail s port dpa window st).wf = true := by
  unfold State.hpFail
  try dsimp only
  repeat' first | with_reducible assumption | (intro _) | with_reducible apply wf_wrn | with_reducible apply wf_sat

theorem wf_State_hostEnd (h : s.wf = true) (port : Nat) (dpa : Nat) (window : Nat) (kind : Nat) (st : Status) (data : List Byte) (v : Nat) :
    (State.hostEnd s port dpa window kind st data v).wf = true := by
  unfold State.hostEnd
  try dsimp only
  repeat' first | with_reducible assumption | (intro _) | with_reducible apply wf_State_hpFail | with_reducible apply wf_when | with_reducible apply wf_emit | with_reducible apply wf_State_progress | with_reducible apply wf_ite | with_reducible apply wf_ite1 | with_reducible apply wf_ite2 | with_reducible apply wf_regs | with_reducible apply wf_force | with_reducible apply wf_mem | with_reducible apply wf_scr | (simp only [wf_mk]; refine ⟨⟨⟨?_, ?_⟩, ?_⟩, ?_⟩) | (dsimp only) | (refine wf_of_snd (by with_reducible assumption) ?_) | (refine wf_of_fst (by with_reducible assumption) ?_) | split

theorem wf_State_mediaOf (h : s.wf = true) (source : Nat) (x : Nat) (a : Nat) (st : Status) :
    (State.mediaOf s source x a st).wf = true := by
  unfold State.mediaOf
  repeat' first | with_reducible assumption | (intro _) | with_reducible apply wf_when | with_reducible apply wf_State_errLog | with_reducible apply wf_State_poisonMet | with_reducible apply wf_State_fault

theorem wf_State_dropEnt (h : s.wf = true) (l : Nat) :
    (State.dropEnt s l).wf = true := by
  unfold State.dropEnt
  try dsimp only
  repeat' first | with_reducible assumption | (intro _) | with_reducible apply wf_State_dirSync | with_reducible apply wf_regs | with_reducible apply wf_force | with_reducible apply wf_mem | with_reducible apply wf_scr | (simp only [wf_mk]; refine ⟨⟨⟨?_, ?_⟩, ?_⟩, ?_⟩)

theorem wf_State_setEnt (h : s.wf = true) (e : DirEnt) :
    (State.setEnt s e).wf = true := by
  unfold State.setEnt
  try dsimp only
  repeat' first | with_reducible assumption | (intro _) | with_reducible apply wf_State_dropEnt | with_reducible apply wf_State_dirSync | with_reducible apply wf_ite | with_reducible apply wf_ite1 | with_reducible apply wf_ite2 | with_reducible apply wf_regs | with_reducible apply wf_force | with_reducible apply wf_mem | with_reducible apply wf_scr | (simp only [wf_mk]; refine ⟨⟨⟨?_, ?_⟩, ?_⟩, ?_⟩)

theorem wf_State_newEnt (h : s.wf = true) (line : Nat) (dom : Nat) (st : HomeSt) (holders : List Agent) :
    (State.newEnt s line dom st holders).wf = true := by
  unfold State.newEnt
  try dsimp only
  repeat' first | with_reducible assumption | (intro _) | with_reducible apply wf_State_setEnt | with_reducible apply wf_regs | with_reducible apply wf_force | with_reducible apply wf_mem | with_reducible apply wf_scr | (simp only [wf_mk]; refine ⟨⟨⟨?_, ?_⟩, ?_⟩, ?_⟩)

theorem wf_State_dropHolder (h : s.wf = true) (a : Agent) (l : Nat) :
    (State.dropHolder s a l).wf = true := by
  unfold State.dropHolder
  try dsimp only
  repeat' first | with_reducible assumption | (intro _) | with_reducible apply wf_State_setEnt | with_reducible apply wf_ite | with_reducible apply wf_ite1 | with_reducible apply wf_ite2 | with_reducible apply wf_regs | with_reducible apply wf_force | with_reducible apply wf_mem | with_reducible apply wf_scr | (simp only [wf_mk]; refine ⟨⟨⟨?_, ?_⟩, ?_⟩, ?_⟩) | (dsimp only) | (refine wf_of_snd (by with_reducible assumption) ?_) | (refine wf_of_fst (by with_reducible assumption) ?_) | split

theorem wf_State_homeUpdate (h : s.wf = true) (l : Nat) :
    (State.homeUpdate s l).wf = true := by
  unfold State.homeUpdate
  try dsimp only
  repeat' first | with_reducible assumption | (intro _) | with_reducible apply wf_wrn | with_reducible apply wf_elim | with_reducible apply wf_regs | with_reducible apply wf_force | with_reducible apply wf_mem | with_reducible apply wf_scr | (simp only [wf_mk]; refine ⟨⟨⟨?_, ?_⟩, ?_⟩, ?_⟩)

theorem wf_State_fly (h : s.wf = true) (c : Nat) (l : Nat) (state : Nat) (data : Option (List Byte)) :
    (State.fly s c l state data).wf = true := by
  unfold State.fly
  repeat' first | with_reducible assumption  | with_reducible apply wf_regs | with_reducible apply wf_force | with_reducible apply wf_mem | with_reducible apply wf_scr | (simp only [wf_mk]; refine ⟨⟨⟨?_, ?_⟩, ?_⟩, ?_⟩)

theorem wf_State_answer (h : s.wf = true) (r : CReq) (st : Status) (grant : Nat) (data : Option (List Byte)) (v : Nat) :
    (State.answer s r st grant data v).wf = true := by
  unfold State.answer
  try dsimp only
  repeat' first | with_reducible assumption | (intro _) | with_reducible apply wf_State_hostEnd | with_reducible apply wf_when | with_reducible apply wf_State_respond | with_reducible apply wf_State_recall | with_reducible apply wf_emit | with_reducible apply wf_each | with_reducible apply wf_State_fly | with_reducible apply wf_ite | with_reducible apply wf_ite1 | with_reducible apply wf_ite2 | with_reducible apply wf_regs | with_reducible apply wf_force | with_reducible apply wf_mem | with_reducible apply wf_scr | (simp only [wf_mk]; refine ⟨⟨⟨?_, ?_⟩, ?_⟩, ?_⟩) | (dsimp only) | (refine wf_of_snd (by with_reducible assumption) ?_) | (refine wf_of_fst (by with_reducible assumption) ?_) | split

theorem wf_State_cohMedia (h : s.wf = true) (r : CReq) :
    (State.cohMedia s r).wf = true := by
  unfold State.cohMedia
  try dsimp only
  repeat' first | with_reducible assumption | (intro _) | with_reducible apply wf_when | with_reducible apply wf_set | with_reducible apply wf_sat | with_reducible apply wf_State_errLog | with_reducible apply wf_State_fault | with_reducible apply wf_State_answer

theorem wf_State_snoop (h : s.wf = true) (l : Nat) (p : Agent × Nat) :
    (State.snoop s l p).wf = true := by
  unfold State.snoop
  try dsimp only
  repeat' first | with_reducible assumption | (intro _) | with_reducible apply wf_emit | with_reducible apply wf_regs | with_reducible apply wf_force | with_reducible apply wf_mem | with_reducible apply wf_scr | (simp only [wf_mk]; refine ⟨⟨⟨?_, ?_⟩, ?_⟩, ?_⟩) | (dsimp only) | (refine wf_of_snd (by with_reducible assumption) ?_) | (refine wf_of_fst (by with_reducible assumption) ?_) | split

theorem wf_State_homeRoom (h : s.wf = true) (h : Nat) :
    (State.homeRoom s h).wf = true := by
  unfold State.homeRoom
  try dsimp only
  repeat' first | with_reducible assumption | (intro _) | with_reducible apply wf_State_dropEnt | with_reducible apply wf_ite | with_reducible apply wf_ite1 | with_reducible apply wf_ite2 | with_reducible apply wf_foldl | with_reducible apply wf_foldl1 | with_reducible apply wf_foldl2 | with_reducible apply wf_regs | with_reducible apply wf_force | with_reducible apply wf_mem | with_reducible apply wf_scr | (simp only [wf_mk]; refine ⟨⟨⟨?_, ?_⟩, ?_⟩, ?_⟩) | (dsimp only) | (refine wf_of_snd (by with_reducible assumption) ?_) | (refine wf_of_fst (by with_reducible assumption) ?_) | split

theorem wf_State_txnFlush (h : s.wf = true) (t : Txn) :
    (State.txnFlush s t).wf = true := by
  unfold State.txnFlush
  repeat' first | with_reducible assumption | with_reducible apply wf_State_memLine | with_reducible apply wf_ite | with_reducible apply wf_ite1 | with_reducible apply wf_ite2 | with_reducible apply wf_regs | with_reducible apply wf_force | with_reducible apply wf_mem | with_reducible apply wf_scr | (simp only [wf_mk]; refine ⟨⟨⟨?_, ?_⟩, ?_⟩, ?_⟩) | (dsimp only) | (refine wf_of_snd (by with_reducible assumption) ?_) | (refine wf_of_fst (by with_reducible assumption) ?_) | split

theorem wf_State_homeWrite (h : s.wf = true) (r : CReq) (a : Nat) (d : List Byte) (v : Nat) :
    (State.homeWrite s r a d v).wf = true := by
  unfold State.homeWrite
  try dsimp only
  repeat' first | with_reducible assumption | (intro _) | with_reducible apply wf_State_dropHolder | with_reducible apply wf_State_save | with_reducible apply wf_State_homeUpdate | with_reducible apply wf_State_answer

theorem wf_State_homeAtom (h : s.wf = true) (t : Txn) (off : Nat) (size : Nat) (new : Nat → Nat) :
    (State.homeAtom s t off size new).wf = true := by
  unfold State.homeAtom
  try dsimp only
  repeat' first | with_reducible assumption | (intro _) | with_reducible apply wf_State_dropEnt | with_reducible apply wf_State_homeRoom | with_reducible apply wf_State_newEnt | with_reducible apply wf_when | with_reducible apply wf_sat | with_reducible apply wf_State_homeWrite | with_reducible apply wf_ite | with_reducible apply wf_ite1 | with_reducible apply wf_ite2

theorem wf_State_finishTxn (h : s.wf = true) (t : Txn) :
    (State.finishTxn s t).wf = true := by
  unfold State.finishTxn
  try dsimp only
  repeat' first | with_reducible assumption | (intro _) | with_reducible apply wf_State_txnFlush | with_reducible apply wf_State_mark | with_reducible apply wf_State_recall | with_reducible apply wf_State_dropEnt | with_reducible apply wf_State_cohMedia | with_reducible apply wf_State_answer | with_reducible apply wf_State_setEnt | with_reducible apply wf_State_newEnt | with_reducible apply wf_State_homeWrite | with_reducible apply wf_State_homeAtom | with_reducible apply wf_ite | with_reducible apply wf_ite1 | with_reducible apply wf_ite2 | with_reducible apply wf_foldl | with_reducible apply wf_foldl1 | with_reducible apply wf_foldl2 | with_reducible apply wf_regs | with_reducible apply wf_force | with_reducible apply wf_mem | with_reducible apply wf_scr | (simp only [wf_mk]; refine ⟨⟨⟨?_, ?_⟩, ?_⟩, ?_⟩) | (dsimp only) | (refine wf_of_snd (by with_reducible assumption) ?_) | (refine wf_of_fst (by with_reducible assumption) ?_) | split

theorem wf_State_startReq (h : s.wf = true) (r0 : CReq) :
    (State.startReq s r0).wf = true := by
  unfold State.startReq
  try dsimp only
  repeat' first | with_reducible assumption | (intro _) | with_reducible apply wf_State_mediaOf | with_reducible apply wf_State_answer | with_reducible apply wf_State_leave | with_reducible apply wf_when | with_reducible apply wf_State_dropEnt | with_reducible apply wf_set | with_reducible apply wf_State_finishTxn | with_reducible apply wf_each | with_reducible apply wf_State_snoop | with_reducible apply wf_ite | with_reducible apply wf_ite1 | with_reducible apply wf_ite2 | with_reducible apply wf_regs | with_reducible apply wf_force | with_reducible apply wf_mem | with_reducible apply wf_scr | (simp only [wf_mk]; refine ⟨⟨⟨?_, ?_⟩, ?_⟩, ?_⟩) | (dsimp only) | (refine wf_of_snd (by with_reducible assumption) ?_) | (refine wf_of_fst (by with_reducible assumption) ?_) | split

theorem wf_pumpHome (n : Nat) (h : s.wf = true) : (State.pumpHome n s).wf = true := by
  induction n generalizing s with
  | zero => exact h
  | succ n ih =>
    unfold State.pumpHome
    split
    · exact h
    · dsimp only
      split
      · split
        · exact ih (wf_State_startReq (wf_sat h _ _) _)
        · exact h
      · refine ih (wf_State_startReq ?_ _)
        simp only [wf_mk]
        exact ⟨⟨⟨wf_regs h, wf_force h⟩, wf_mem h⟩, wf_scr h⟩

theorem wf_State_homes (h : s.wf = true) : (State.homes s).wf = true := wf_pumpHome _ h

theorem wf_State_homeReq (h : s.wf = true) (r : CReq) :
    (State.homeReq s r).wf = true := by
  unfold State.homeReq
  repeat' first | with_reducible assumption | with_reducible apply wf_State_homes | with_reducible apply wf_regs | with_reducible apply wf_force | with_reducible apply wf_mem | with_reducible apply wf_scr | (simp only [wf_mk]; refine ⟨⟨⟨?_, ?_⟩, ?_⟩, ?_⟩)

theorem wf_State_homeCmd (h : s.wf = true) (i : Instr) (a : Agent) (ctx : Nat) (line : Nat) (k : ReqKind) (dirUe : Bool) :
    (State.homeCmd s i a ctx line k dirUe).wf = true := by
  unfold State.homeCmd
  repeat' first | with_reducible assumption | (intro _) | with_reducible apply wf_State_served | with_reducible apply wf_State_homeReq

theorem wf_State_onTxn (h : s.wf = true) (l : Nat) (f : Txn → Txn) :
    (State.onTxn s l f).wf = true := by
  unfold State.onTxn
  try dsimp only
  repeat' first | with_reducible assumption | (intro _) | with_reducible apply wf_State_finishTxn | with_reducible apply wf_State_homes | with_reducible apply wf_ite | with_reducible apply wf_ite1 | with_reducible apply wf_ite2 | with_reducible apply wf_regs | with_reducible apply wf_force | with_reducible apply wf_mem | with_reducible apply wf_scr | (simp only [wf_mk]; refine ⟨⟨⟨?_, ?_⟩, ?_⟩, ?_⟩) | (dsimp only) | (refine wf_of_snd (by with_reducible assumption) ?_) | (refine wf_of_fst (by with_reducible assumption) ?_) | split

theorem wf_State_takeRsp (h : s.wf = true) {c l kind : Nat} {r : State × Bool} (hr : s.takeRsp c l kind = some r) : r.1.wf = true := by
  unfold State.takeRsp at hr
  obtain ⟨a, _, rfl⟩ := Option.map_eq_some_iff.1 hr
  exact h

theorem wf_State_rspI (h : s.wf = true) (c : Nat) (l : Nat) :
    (State.rspI s c l).wf = true := by
  unfold State.rspI
  try dsimp only
  repeat' first | with_reducible assumption | (intro _)  | with_reducible apply wf_State_write | with_reducible apply wf_State_onTxn | with_reducible apply wf_State_dropHolder | with_reducible apply wf_ite | with_reducible apply wf_ite1 | with_reducible apply wf_ite2 | with_reducible apply wf_regs | with_reducible apply wf_force | with_reducible apply wf_mem | with_reducible apply wf_scr | (simp only [wf_mk]; refine ⟨⟨⟨?_, ?_⟩, ?_⟩, ?_⟩) | (have hx := wf_State_takeRsp h ‹State.takeRsp _ _ _ _ = some (_, _)›; exact hx) | (dsimp only) | (refine wf_of_snd (by with_reducible assumption) ?_) | (refine wf_of_fst (by with_reducible assumption) ?_) | split

theorem wf_State_rspS (h : s.wf = true) (c : Nat) (l : Nat) :
    (State.rspS s c l).wf = true := by
  unfold State.rspS
  try dsimp only
  repeat' first | with_reducible assumption | (intro _)  | with_reducible apply wf_State_setEnt | with_reducible apply wf_State_onTxn | with_reducible apply wf_ite | with_reducible apply wf_ite1 | with_reducible apply wf_ite2 | with_reducible apply wf_regs | with_reducible apply wf_force | with_reducible apply wf_mem | with_reducible apply wf_scr | (simp only [wf_mk]; refine ⟨⟨⟨?_, ?_⟩, ?_⟩, ?_⟩) | (have hx := wf_State_takeRsp h ‹State.takeRsp _ _ _ _ = some (_, _)›; exact hx) | (dsimp only) | (refine wf_of_snd (by with_reducible assumption) ?_) | (refine wf_of_fst (by with_reducible assumption) ?_) | split

theorem wf_State_invalRsp (h : s.wf = true) (i : Inval) (data : Option (List Byte)) :
    (State.invalRsp s i data).wf = true := by
  unfold State.invalRsp
  try dsimp only
  repeat' first | with_reducible assumption | (intro _) | with_reducible apply wf_State_memLine | with_reducible apply wf_State_homeUpdate | with_reducible apply wf_foldl | with_reducible apply wf_foldl1 | with_reducible apply wf_foldl2 | with_reducible apply wf_regs | with_reducible apply wf_force | with_reducible apply wf_mem | with_reducible apply wf_scr | (simp only [wf_mk]; refine ⟨⟨⟨?_, ?_⟩, ?_⟩, ?_⟩) | (dsimp only) | (refine wf_of_snd (by with_reducible assumption) ?_) | (refine wf_of_fst (by with_reducible assumption) ?_) | split

theorem wf_State_curRsp (h : s.wf = true) (q : CurAsk) (data : Option (List Byte)) :
    (State.curRsp s q data).wf = true := by
  unfold State.curRsp
  try dsimp only
  repeat' first | with_reducible assumption | (intro _) | with_reducible apply wf_State_done | with_reducible apply wf_State_memLine | with_reducible apply wf_State_homeUpdate | with_reducible apply wf_State_setEnt | with_reducible apply wf_ite | with_reducible apply wf_ite1 | with_reducible apply wf_ite2 | with_reducible apply wf_regs | with_reducible apply wf_force | with_reducible apply wf_mem | with_reducible apply wf_scr | (simp only [wf_mk]; refine ⟨⟨⟨?_, ?_⟩, ?_⟩, ?_⟩) | (dsimp only) | (refine wf_of_snd (by with_reducible assumption) ?_) | (refine wf_of_fst (by with_reducible assumption) ?_) | split

theorem wf_State_txnRsp (h : s.wf = true) (h : Nat) (t : Txn) (data : Option (List Byte)) :
    (State.txnRsp s h t data).wf = true := by
  unfold State.txnRsp
  try dsimp only
  repeat' first | with_reducible assumption | (intro _) | with_reducible apply wf_State_memLine | with_reducible apply wf_State_dropHolder | with_reducible apply wf_State_setEnt | with_reducible apply wf_State_onTxn | with_reducible apply wf_ite | with_reducible apply wf_ite1 | with_reducible apply wf_ite2 | with_reducible apply wf_regs | with_reducible apply wf_force | with_reducible apply wf_mem | with_reducible apply wf_scr | (simp only [wf_mk]; refine ⟨⟨⟨?_, ?_⟩, ?_⟩, ?_⟩) | (dsimp only) | (refine wf_of_snd (by with_reducible assumption) ?_) | (refine wf_of_fst (by with_reducible assumption) ?_) | split

theorem wf_State_biRsp (h : s.wf = true) (h : Nat) (l : Nat) (data : Option (List Byte)) :
    (State.biRsp s h l data).wf = true := by
  unfold State.biRsp
  repeat' first | with_reducible assumption | (intro _) | with_reducible apply wf_State_invalRsp | with_reducible apply wf_State_progress | with_reducible apply wf_State_homes | with_reducible apply wf_State_txnRsp | with_reducible apply wf_State_done | with_reducible apply wf_State_curRsp | with_reducible apply wf_regs | with_reducible apply wf_force | with_reducible apply wf_mem | with_reducible apply wf_scr | (simp only [wf_mk]; refine ⟨⟨⟨?_, ?_⟩, ?_⟩, ?_⟩) | (dsimp only) | (refine wf_of_snd (by with_reducible assumption) ?_) | (refine wf_of_fst (by with_reducible assumption) ?_) | split

theorem wf_State_staleSnoop (h : s.wf = true) (c : Nat) (l : Nat) :
    (State.staleSnoop s c l).wf = true := by
  unfold State.staleSnoop
  try dsimp only
  repeat' first | with_reducible assumption | (intro _)  | with_reducible apply wf_ite | with_reducible apply wf_ite1 | with_reducible apply wf_ite2 | with_reducible apply wf_regs | with_reducible apply wf_force | with_reducible apply wf_mem | with_reducible apply wf_scr | (simp only [wf_mk]; refine ⟨⟨⟨?_, ?_⟩, ?_⟩, ?_⟩)

theorem wf_State_snoopMet (h : s.wf = true) (a : Agent) (l : Nat) :
    (State.snoopMet s a l).wf = true := by
  unfold State.snoopMet
  try dsimp only
  repeat' first | with_reducible assumption | (intro _) | with_reducible apply wf_State_done | with_reducible apply wf_ite | with_reducible apply wf_ite1 | with_reducible apply wf_ite2 | with_reducible apply wf_regs | with_reducible apply wf_force | with_reducible apply wf_mem | with_reducible apply wf_scr | (simp only [wf_mk]; refine ⟨⟨⟨?_, ?_⟩, ?_⟩, ?_⟩)

theorem wf_State_writeBack (h : s.wf = true) (a : Agent) (l : Nat) (data : Option (List Byte)) :
    (State.writeBack s a l data).wf = true := by
  unfold State.writeBack
  try dsimp only
  repeat' first | with_reducible assumption | (intro _) | with_reducible apply wf_State_memLine | with_reducible apply wf_State_homeUpdate | with_reducible apply wf_State_dropHolder | with_reducible apply wf_State_snoopMet | with_reducible apply wf_sat | with_reducible apply wf_State_staleSnoop | with_reducible apply wf_State_onTxn | with_reducible apply wf_ite | with_reducible apply wf_ite1 | with_reducible apply wf_ite2 | with_reducible apply wf_regs | with_reducible apply wf_force | with_reducible apply wf_mem | with_reducible apply wf_scr | (simp only [wf_mk]; refine ⟨⟨⟨?_, ?_⟩, ?_⟩, ?_⟩) | (dsimp only) | (refine wf_of_snd (by with_reducible assumption) ?_) | (refine wf_of_fst (by with_reducible assumption) ?_) | split

theorem wf_State_ackEvict (h : s.wf = true) (c : Nat) (l : Nat) :
    (State.ackEvict s c l).wf = true := by
  unfold State.ackEvict
  repeat' first | with_reducible assumption | (intro _)  | with_reducible apply wf_regs | with_reducible apply wf_force | with_reducible apply wf_mem | with_reducible apply wf_scr | (simp only [wf_mk]; refine ⟨⟨⟨?_, ?_⟩, ?_⟩, ?_⟩)

theorem wf_State_dirtyEvict (h : s.wf = true) (a : Agent) (l : Nat) (data : List Byte) :
    (State.dirtyEvict s a l data).wf = true := by
  unfold State.dirtyEvict
  repeat' first | with_reducible assumption | (intro _) | with_reducible apply wf_State_ackEvict | with_reducible apply wf_State_writeBack | with_reducible apply wf_State_invalRsp | with_reducible apply wf_sat | with_reducible apply wf_State_homes | with_reducible apply wf_ite | with_reducible apply wf_ite1 | with_reducible apply wf_ite2 | with_reducible apply wf_regs | with_reducible apply wf_force | with_reducible apply wf_mem | with_reducible apply wf_scr | (simp only [wf_mk]; refine ⟨⟨⟨?_, ?_⟩, ?_⟩, ?_⟩) | (dsimp only) | (refine wf_of_snd (by with_reducible assumption) ?_) | (refine wf_of_fst (by with_reducible assumption) ?_) | split

theorem wf_State_cleanEvict (h : s.wf = true) (a : Agent) (l : Nat) :
    (State.cleanEvict s a l).wf = true := by
  unfold State.cleanEvict
  repeat' first | with_reducible assumption | (intro _) | with_reducible apply wf_State_ackEvict | with_reducible apply wf_State_writeBack | with_reducible apply wf_State_invalRsp | with_reducible apply wf_sat | with_reducible apply wf_State_homes | with_reducible apply wf_ite | with_reducible apply wf_ite1 | with_reducible apply wf_ite2 | with_reducible apply wf_regs | with_reducible apply wf_force | with_reducible apply wf_mem | with_reducible apply wf_scr | (simp only [wf_mk]; refine ⟨⟨⟨?_, ?_⟩, ?_⟩, ?_⟩) | (dsimp only) | (refine wf_of_snd (by with_reducible assumption) ?_) | (refine wf_of_fst (by with_reducible assumption) ?_) | split

theorem wf_State_setCache (h : s.wf = true) (c : Nat) (l : Nat) (x : Option (CacheSt × List Byte)) :
    (State.setCache s c l x).wf = true := by
  unfold State.setCache
  try dsimp only
  repeat' first | with_reducible assumption | (intro _)  | with_reducible apply wf_regs | with_reducible apply wf_force | with_reducible apply wf_mem | with_reducible apply wf_scr | (simp only [wf_mk]; refine ⟨⟨⟨?_, ?_⟩, ?_⟩, ?_⟩) | (dsimp only) | (refine wf_of_snd (by with_reducible assumption) ?_) | (refine wf_of_fst (by with_reducible assumption) ?_) | split

theorem wf_State_coreSnoop (h : s.wf = true) (kind : Nat) (c : Nat) (l : Nat) :
    (State.coreSnoop s kind c l).wf = true := by
  unfold State.coreSnoop
  try dsimp only
  repeat' first | with_reducible assumption | (intro _) | with_reducible apply wf_emit | with_reducible apply wf_State_setCache | with_reducible apply wf_ite | with_reducible apply wf_ite1 | with_reducible apply wf_ite2 | with_reducible apply wf_elim | with_reducible apply wf_regs | with_reducible apply wf_force | with_reducible apply wf_mem | with_reducible apply wf_scr | (simp only [wf_mk]; refine ⟨⟨⟨?_, ?_⟩, ?_⟩, ?_⟩) | (dsimp only) | (refine wf_of_snd (by with_reducible assumption) ?_) | (refine wf_of_fst (by with_reducible assumption) ?_) | split

theorem wf_State_coreEvict (h : s.wf = true) (c : Nat) (l : Nat) :
    (State.coreEvict s c l).wf = true := by
  unfold State.coreEvict
  try dsimp only
  repeat' first | with_reducible assumption | (intro _) | with_reducible apply wf_State_setCache | with_reducible apply wf_emit | with_reducible apply wf_ite | with_reducible apply wf_ite1 | with_reducible apply wf_ite2 | with_reducible apply wf_regs | with_reducible apply wf_force | with_reducible apply wf_mem | with_reducible apply wf_scr | (simp only [wf_mk]; refine ⟨⟨⟨?_, ?_⟩, ?_⟩, ?_⟩) | (dsimp only) | (refine wf_of_snd (by with_reducible assumption) ?_) | (refine wf_of_fst (by with_reducible assumption) ?_) | split

theorem wf_State_coreAsk (h : s.wf = true) (c : Nat) (l : Nat) (kind : Nat) (store : Option (List Byte)) :
    (State.coreAsk s c l kind store).wf = true := by
  unfold State.coreAsk
  try dsimp only
  repeat' first | with_reducible assumption | (intro _) | with_reducible apply wf_emit | with_reducible apply wf_State_store | with_reducible apply wf_regs | with_reducible apply wf_force | with_reducible apply wf_mem | with_reducible apply wf_scr | (simp only [wf_mk]; refine ⟨⟨⟨?_, ?_⟩, ?_⟩, ?_⟩)

theorem wf_State_coreAccess (h : s.wf = true) (c : Nat) (ctx : Nat) (l : Nat) (store : Option (List Byte)) :
    (State.coreAccess s c ctx l store).wf = true := by
  unfold State.coreAccess
  try dsimp only
  repeat' first | with_reducible assumption | (intro _) | with_reducible apply wf_State_store | with_reducible apply wf_State_mediaOf | with_reducible apply wf_emit | with_reducible apply wf_State_coreAsk | with_reducible apply wf_State_setCache | with_reducible apply wf_ite | with_reducible apply wf_ite1 | with_reducible apply wf_ite2 | with_reducible apply wf_regs | with_reducible apply wf_force | with_reducible apply wf_mem | with_reducible apply wf_scr | (simp only [wf_mk]; refine ⟨⟨⟨?_, ?_⟩, ?_⟩, ?_⟩) | (dsimp only) | (refine wf_of_snd (by with_reducible assumption) ?_) | (refine wf_of_fst (by with_reducible assumption) ?_) | split

theorem wf_State_coreGrant (h : s.wf = true) (c : Nat) (l : Nat) (state : Nat) (data : Option (List Byte)) :
    (State.coreGrant s c l state data).wf = true := by
  unfold State.coreGrant
  try dsimp only
  repeat' first | with_reducible assumption | (intro _) | with_reducible apply wf_State_setCache | with_reducible apply wf_elim | with_reducible apply wf_regs | with_reducible apply wf_force | with_reducible apply wf_mem | with_reducible apply wf_scr | (simp only [wf_mk]; refine ⟨⟨⟨?_, ?_⟩, ?_⟩, ?_⟩) | (dsimp only) | (refine wf_of_snd (by with_reducible assumption) ?_) | (refine wf_of_fst (by with_reducible assumption) ?_) | split

theorem wf_State_ownerLost (h : s.wf = true) (l : Nat) :
    (State.ownerLost s l).wf = true := by
  unfold State.ownerLost
  try dsimp only
  repeat' first | with_reducible assumption | (intro _) | with_reducible apply wf_sat | with_reducible apply wf_when | with_reducible apply wf_set | with_reducible apply wf_regs | with_reducible apply wf_force | with_reducible apply wf_mem | with_reducible apply wf_scr | (simp only [wf_mk]; refine ⟨⟨⟨?_, ?_⟩, ?_⟩, ?_⟩)

theorem wf_State_hostGone (h : s.wf = true) (h : Nat) :
    (State.hostGone s h).wf = true := by
  unfold State.hostGone
  try dsimp only
  repeat' first | with_reducible assumption | (intro _) | with_reducible apply wf_each | with_reducible apply wf_State_dropHolder | with_reducible apply wf_when | with_reducible apply wf_State_ownerLost | with_reducible apply wf_State_done | with_reducible apply wf_State_onTxn | with_reducible apply wf_State_homes | with_reducible apply wf_ite | with_reducible apply wf_ite1 | with_reducible apply wf_ite2 | with_reducible apply wf_regs | with_reducible apply wf_force | with_reducible apply wf_mem | with_reducible apply wf_scr | (simp only [wf_mk]; refine ⟨⟨⟨?_, ?_⟩, ?_⟩, ?_⟩)

theorem wf_State_hostDown (h : s.wf = true) (h : Nat) (state : Nat) :
    (State.hostDown s h state).wf = true := by
  unfold State.hostDown
  try dsimp only
  repeat' first | with_reducible assumption | (intro _) | with_reducible apply wf_wrn | with_reducible apply wf_set | with_reducible apply wf_clr | with_reducible apply wf_State_trace | with_reducible apply wf_State_hostGone | with_reducible apply wf_ite | with_reducible apply wf_ite1 | with_reducible apply wf_ite2 | with_reducible apply wf_regs | with_reducible apply wf_force | with_reducible apply wf_mem | with_reducible apply wf_scr | (simp only [wf_mk]; refine ⟨⟨⟨?_, ?_⟩, ?_⟩, ?_⟩)

theorem wf_State_recallLine (h : s.wf = true) (d : Nat) (l : Nat) :
    (State.recallLine s d l).wf = true := by
  unfold State.recallLine
  try dsimp only
  repeat' first | with_reducible assumption | (intro _) | with_reducible apply wf_State_recall | with_reducible apply wf_regs | with_reducible apply wf_force | with_reducible apply wf_mem | with_reducible apply wf_scr | (simp only [wf_mk]; refine ⟨⟨⟨?_, ?_⟩, ?_⟩, ?_⟩)

theorem wf_State_recall (h : s.wf = true) (d : Nat) (lines : List Nat) :
    (State.recall s d lines).wf = true := by
  unfold State.recall
  repeat' first | with_reducible assumption | (intro _) | with_reducible apply wf_each | with_reducible apply wf_State_recallLine | with_reducible apply wf_wrFld | with_reducible apply wf_State_homes | with_reducible apply wf_ite | with_reducible apply wf_ite1 | with_reducible apply wf_ite2

theorem wf_State_cohFrame (h : s.wf = true) :
    (State.cohFrame s).wf = true := by
  unfold State.cohFrame
  try dsimp only
  repeat' first | with_reducible assumption | (intro _) | with_reducible apply wf_each | with_reducible apply wf_wrFld | with_reducible apply wf_State_recall | with_reducible apply wf_ite | with_reducible apply wf_ite1 | with_reducible apply wf_ite2

theorem wf_State_cohFence (h : s.wf = true) (x : Nat) :
    (State.cohFence s x).wf = true := by
  unfold State.cohFence
  try dsimp only
  repeat' first | with_reducible assumption | (intro _) | with_reducible apply wf_State_recall | with_reducible apply wf_each | with_reducible apply wf_State_answer | with_reducible apply wf_regs | with_reducible apply wf_force | with_reducible apply wf_mem | with_reducible apply wf_scr | (simp only [wf_mk]; refine ⟨⟨⟨?_, ?_⟩, ?_⟩, ?_⟩)

end Sys2Proof.Machine
end

