-- ==== Sys2Proof/Laws/KeepLinks.lean ====
section
/-! SUPPORT. Every operation of Machine/Links.lean keeps the stores of the state in their canonical form. -/

namespace Sys2Proof.Machine

variable {s : State}

theorem wf_State_lpEvent (h : s.wf = true) (l : Nat) (m : Word) :
    (State.lpEvent s l m).wf = true := by
  unfold State.lpEvent
  repeat' first | with_reducible assumption | with_reducible apply wf_set

theorem wf_State_unitSet (h : s.wf = true) (u : Nat) (up : Bool) :
    (State.unitSet s u up).wf = true := by
  unfold State.unitSet
  try dsimp only
  repeat' first | with_reducible assumption | (intro _) | with_reducible apply wf_State_syncUse | with_reducible apply wf_ite | with_reducible apply wf_ite1 | with_reducible apply wf_ite2 | with_reducible apply wf_regs | with_reducible apply wf_force | with_reducible apply wf_mem | with_reducible apply wf_scr | (simp only [wf_mk]; refine ⟨⟨⟨?_, ?_⟩, ?_⟩, ?_⟩)

theorem wf_State_trainStart (h : s.wf = true) (l : Nat) (state : Nat) :
    (State.trainStart s l state).wf = true := by
  unfold State.trainStart
  try dsimp only
  repeat' first | with_reducible assumption | (intro _) | with_reducible apply wf_State_setPort | with_reducible apply wf_wrFld | with_reducible apply wf_regs | with_reducible apply wf_force | with_reducible apply wf_mem | with_reducible apply wf_scr | (simp only [wf_mk]; refine ⟨⟨⟨?_, ?_⟩, ?_⟩, ?_⟩)

theorem wf_State_lpDown (h : s.wf = true) (l : Nat) (state : Nat) :
    (State.lpDown s l state).wf = true := by
  unfold State.lpDown
  try dsimp only
  repeat' first | with_reducible assumption | (intro _) | with_reducible apply wf_wrFld | with_reducible apply wf_State_lpEvent | with_reducible apply wf_State_trace | with_reducible apply wf_when | with_reducible apply wf_State_unitSet

theorem wf_State_lpRetrain (h : s.wf = true) (l : Nat) :
    (State.lpRetrain s l).wf = true := by
  unfold State.lpRetrain
  repeat' first | with_reducible assumption | with_reducible apply wf_State_lpDown | with_reducible apply wf_State_trainStart

theorem wf_State_hear (h : s.wf = true) (l : Nat) (h : Hello) :
    (State.hear s l h).wf = true := by
  unfold State.hear
  try dsimp only
  repeat' first | with_reducible assumption | (intro _) | with_reducible apply wf_State_setPort | with_reducible apply wf_when | with_reducible apply wf_State_lpEvent | with_reducible apply wf_set | with_reducible apply wf_wrFld | with_reducible apply wf_ite | with_reducible apply wf_ite1 | with_reducible apply wf_ite2 | with_reducible apply wf_regs | with_reducible apply wf_force | with_reducible apply wf_mem | with_reducible apply wf_scr | (simp only [wf_mk]; refine ⟨⟨⟨?_, ?_⟩, ?_⟩, ?_⟩) | (dsimp only) | (refine wf_of_snd (by with_reducible assumption) ?_) | (refine wf_of_fst (by with_reducible assumption) ?_) | split

theorem wf_State_grantCredits (h : s.wf = true) (l : Nat) :
    (State.grantCredits s l).wf = true := by
  unfold State.grantCredits
  repeat' first | with_reducible assumption | (intro _) | with_reducible apply wf_each | with_reducible apply wf_State_setCredit | with_reducible apply wf_State_setGiven

theorem wf_State_trayUp (h : s.wf = true) (l : Nat) (h : Hello) :
    (State.trayUp s l h).wf = true := by
  unfold State.trayUp
  try dsimp only
  repeat' first | with_reducible assumption | (intro _) | with_reducible apply wf_State_unitSet | with_reducible apply wf_when | with_reducible apply wf_State_flashJoin | with_reducible apply wf_State_syncUse | with_reducible apply wf_ite | with_reducible apply wf_ite1 | with_reducible apply wf_ite2 | with_reducible apply wf_regs | with_reducible apply wf_force | with_reducible apply wf_mem | with_reducible apply wf_scr | (simp only [wf_mk]; refine ⟨⟨⟨?_, ?_⟩, ?_⟩, ?_⟩) | (dsimp only) | (refine wf_of_snd (by with_reducible assumption) ?_) | (refine wf_of_fst (by with_reducible assumption) ?_) | split

theorem wf_State_trained (h : s.wf = true) (l : Nat) (lanes : Nat) (rtt : Nat) (nonce : List Byte) (h : Hello) :
    (State.trained s l lanes rtt nonce h).wf = true := by
  unfold State.trained
  try dsimp only
  repeat' first | with_reducible assumption | (intro _) | with_reducible apply wf_State_setPort | with_reducible apply wf_State_grantCredits | with_reducible apply wf_wrn | with_reducible apply wf_State_lpEvent | with_reducible apply wf_when | with_reducible apply wf_State_trace | with_reducible apply wf_State_trayUp | with_reducible apply wf_State_pump | with_reducible apply wf_ite | with_reducible apply wf_ite1 | with_reducible apply wf_ite2 | with_reducible apply wf_regs | with_reducible apply wf_force | with_reducible apply wf_mem | with_reducible apply wf_scr | (simp only [wf_mk]; refine ⟨⟨⟨?_, ?_⟩, ?_⟩, ?_⟩)

theorem wf_State_helloFrame (h : s.wf = true) (l : Nat) :
    (State.helloFrame s l).wf = true := by
  unfold State.helloFrame
  try dsimp only
  repeat' first | with_reducible assumption | (intro _) | with_reducible apply wf_State_setPort | with_reducible apply wf_emit | with_reducible apply wf_ite | with_reducible apply wf_ite1 | with_reducible apply wf_ite2 | with_reducible apply wf_regs | with_reducible apply wf_force | with_reducible apply wf_mem | with_reducible apply wf_scr | (simp only [wf_mk]; refine ⟨⟨⟨?_, ?_⟩, ?_⟩, ?_⟩) | (dsimp only) | (refine wf_of_snd (by with_reducible assumption) ?_) | (refine wf_of_fst (by with_reducible assumption) ?_) | split

theorem wf_State_moveTrunk (h : s.wf = true) (v : Nat) (k : Nat) (l : Nat) :
    (State.moveTrunk s v k l).wf = true := by
  unfold State.moveTrunk
  try dsimp only
  repeat' first | with_reducible assumption | (intro _)  | with_reducible apply wf_regs | with_reducible apply wf_force | with_reducible apply wf_mem | with_reducible apply wf_scr | (simp only [wf_mk]; refine ⟨⟨⟨?_, ?_⟩, ?_⟩, ?_⟩) | (dsimp only) | (refine wf_of_snd (by with_reducible assumption) ?_) | (refine wf_of_fst (by with_reducible assumption) ?_) | split

theorem wf_State_moveMember (h : s.wf = true) (l : Nat) (again : Bool) :
    (State.moveMember s l again).wf = true := by
  unfold State.moveMember
  try dsimp only
  repeat' first | with_reducible assumption | (intro _) | with_reducible apply wf_each | with_reducible apply wf_State_moveTrunk | with_reducible apply wf_State_sendOut | with_reducible apply wf_sat | with_reducible apply wf_State_replaySync | with_reducible apply wf_State_pump | with_reducible apply wf_set | with_reducible apply wf_ite | with_reducible apply wf_ite1 | with_reducible apply wf_ite2 | with_reducible apply wf_regs | with_reducible apply wf_force | with_reducible apply wf_mem | with_reducible apply wf_scr | (simp only [wf_mk]; refine ⟨⟨⟨?_, ?_⟩, ?_⟩, ?_⟩)

theorem wf_State_dropAwaits (h : s.wf = true) (key : Nat) :
    (State.dropAwaits s key).wf = true := by
  unfold State.dropAwaits
  try dsimp only
  repeat' first | with_reducible assumption | (intro _) | with_reducible apply wf_each | with_reducible apply wf_State_hostEnd | with_reducible apply wf_regs | with_reducible apply wf_force | with_reducible apply wf_mem | with_reducible apply wf_scr | (simp only [wf_mk]; refine ⟨⟨⟨?_, ?_⟩, ?_⟩, ?_⟩) | (dsimp only) | (refine wf_of_snd (by with_reducible assumption) ?_) | (refine wf_of_fst (by with_reducible assumption) ?_) | split

theorem wf_State_pathGone (h : s.wf = true) (l : Nat) (key : Nat) :
    (State.pathGone s l key).wf = true := by
  unfold State.pathGone
  try dsimp only
  repeat' first | with_reducible assumption | (intro _) | with_reducible apply wf_set | with_reducible apply wf_State_lpEvent | with_reducible apply wf_each | with_reducible apply wf_State_abortStart | with_reducible apply wf_State_degrade | with_reducible apply wf_State_dropAwaits | with_reducible apply wf_State_replaySync | with_reducible apply wf_elim | with_reducible apply wf_regs | with_reducible apply wf_force | with_reducible apply wf_mem | with_reducible apply wf_scr | (simp only [wf_mk]; refine ⟨⟨⟨?_, ?_⟩, ?_⟩, ?_⟩)

theorem wf_State_pathFail (h : s.wf = true) (l : Nat) (key : Nat) :
    (State.pathFail s l key).wf = true := by
  unfold State.pathFail
  repeat' first | with_reducible assumption | (intro _) | with_reducible apply wf_State_pathGone | with_reducible apply wf_ite | with_reducible apply wf_ite1 | with_reducible apply wf_ite2 | with_reducible apply wf_regs | with_reducible apply wf_force | with_reducible apply wf_mem | with_reducible apply wf_scr | (simp only [wf_mk]; refine ⟨⟨⟨?_, ?_⟩, ?_⟩, ?_⟩)

theorem wf_State_remapFrame (h : s.wf = true) :
    (State.remapFrame s).wf = true := by
  unfold State.remapFrame
  try dsimp only
  repeat' first | with_reducible assumption | (intro _) | with_reducible apply wf_each | with_reducible apply wf_when | with_reducible apply wf_State_moveMember | with_reducible apply wf_State_pathGone | with_reducible apply wf_ite | with_reducible apply wf_ite1 | with_reducible apply wf_ite2 | with_reducible apply wf_regs | with_reducible apply wf_force | with_reducible apply wf_mem | with_reducible apply wf_scr | (simp only [wf_mk]; refine ⟨⟨⟨?_, ?_⟩, ?_⟩, ?_⟩) | (dsimp only) | (refine wf_of_snd (by with_reducible assumption) ?_) | (refine wf_of_fst (by with_reducible assumption) ?_) | split

theorem wf_State_resend (h : s.wf = true) (key : Nat) (stream : Nat) (from_ : Nat) :
    (State.resend s key stream from_).wf = true := by
  unfold State.resend
  try dsimp only
  repeat' first | with_reducible assumption | (intro _) | with_reducible apply wf_State_pathFail | with_reducible apply wf_each | with_reducible apply wf_when | with_reducible apply wf_State_sendOut | with_reducible apply wf_sat | with_reducible apply wf_ite | with_reducible apply wf_ite1 | with_reducible apply wf_ite2 | with_reducible apply wf_regs | with_reducible apply wf_force | with_reducible apply wf_mem | with_reducible apply wf_scr | (simp only [wf_mk]; refine ⟨⟨⟨?_, ?_⟩, ?_⟩, ?_⟩) | (dsimp only) | (refine wf_of_snd (by with_reducible assumption) ?_) | (refine wf_of_fst (by with_reducible assumption) ?_) | split

theorem wf_State_e2eTimeout (h : s.wf = true) (l : Nat) (peer : Nat) (stream : Nat) :
    (State.e2eTimeout s l peer stream).wf = true := by
  unfold State.e2eTimeout
  try dsimp only
  repeat' first | with_reducible assumption | (intro _) | with_reducible apply wf_State_resend | with_reducible apply wf_regs | with_reducible apply wf_force | with_reducible apply wf_mem | with_reducible apply wf_scr | (simp only [wf_mk]; refine ⟨⟨⟨?_, ?_⟩, ?_⟩, ?_⟩) | (dsimp only) | (refine wf_of_snd (by with_reducible assumption) ?_) | (refine wf_of_fst (by with_reducible assumption) ?_) | split

theorem wf_State_nak (h : s.wf = true) (l : Nat) (key : Nat) (m : Msg) :
    (State.nak s l key m).wf = true := by
  unfold State.nak
  try dsimp only
  repeat' first | with_reducible assumption | (intro _) | with_reducible apply wf_State_setLane | with_reducible apply wf_emit | with_reducible apply wf_sat | with_reducible apply wf_ite | with_reducible apply wf_ite1 | with_reducible apply wf_ite2 | with_reducible apply wf_regs | with_reducible apply wf_force | with_reducible apply wf_mem | with_reducible apply wf_scr | (simp only [wf_mk]; refine ⟨⟨⟨?_, ?_⟩, ?_⟩, ?_⟩)

theorem wf_State_queueRx (h : s.wf = true) (l : Nat) (m : Msg) :
    (State.queueRx s l m).wf = true := by
  unfold State.queueRx
  try dsimp only
  repeat' first | with_reducible assumption | (intro _) | with_reducible apply wf_State_pviol | with_reducible apply wf_when | with_reducible apply wf_ite | with_reducible apply wf_ite1 | with_reducible apply wf_ite2 | with_reducible apply wf_regs | with_reducible apply wf_force | with_reducible apply wf_mem | with_reducible apply wf_scr | (simp only [wf_mk]; refine ⟨⟨⟨?_, ?_⟩, ?_⟩, ?_⟩)

theorem wf_State_forward (h : s.wf = true) (p : Nat) (m : Msg) :
    (State.forward s p m).wf = true := by
  unfold State.forward
  try dsimp only
  repeat' first | with_reducible assumption | (intro _) | with_reducible apply wf_when | with_reducible apply wf_State_sendOut | with_reducible apply wf_ite | with_reducible apply wf_ite1 | with_reducible apply wf_ite2 | with_reducible apply wf_regs | with_reducible apply wf_force | with_reducible apply wf_mem | with_reducible apply wf_scr | (simp only [wf_mk]; refine ⟨⟨⟨?_, ?_⟩, ?_⟩, ?_⟩) | (dsimp only) | (refine wf_of_snd (by with_reducible assumption) ?_) | (refine wf_of_fst (by with_reducible assumption) ?_) | split

theorem wf_State_takeMsg (h : s.wf = true) (l : Nat) (m : Msg) :
    (State.takeMsg s l m).1.wf = true := by
  unfold State.takeMsg
  try dsimp only
  repeat' first | with_reducible assumption | (intro _) | with_reducible apply wf_State_forward | with_reducible apply wf_State_queueRx | with_reducible apply wf_sat | with_reducible apply wf_State_nak | with_reducible apply wf_State_setLane | with_reducible apply wf_ite | with_reducible apply wf_ite1 | with_reducible apply wf_ite2 | with_reducible apply wf_regs | with_reducible apply wf_force | with_reducible apply wf_mem | with_reducible apply wf_scr | (simp only [wf_mk]; refine ⟨⟨⟨?_, ?_⟩, ?_⟩, ?_⟩)

theorem wf_State_takeMsgs (h : s.wf = true) (l : Nat) (ms : List Msg) :
    (State.takeMsgs s l ms).wf = true := by
  unfold State.takeMsgs
  try dsimp only
  repeat' first | with_reducible assumption | (intro _) | with_reducible apply wf_State_setGiven | with_reducible apply wf_State_takeMsg | with_reducible apply wf_each | with_reducible apply wf_emit | with_reducible apply wf_ite | with_reducible apply wf_ite1 | with_reducible apply wf_ite2 | with_reducible apply wf_foldl | with_reducible apply wf_foldl1 | with_reducible apply wf_foldl2 | with_reducible apply wf_regs | with_reducible apply wf_force | with_reducible apply wf_mem | with_reducible apply wf_scr | (simp only [wf_mk]; refine ⟨⟨⟨?_, ?_⟩, ?_⟩, ?_⟩) | (dsimp only) | (refine wf_of_snd (by with_reducible assumption) ?_) | (refine wf_of_fst (by with_reducible assumption) ?_) | split

theorem wf_State_takeAck (h : s.wf = true) (l : Nat) (r : AckRec) :
    (State.takeAck s l r).wf = true := by
  unfold State.takeAck
  try dsimp only
  repeat' first | with_reducible assumption | (intro _) | with_reducible apply wf_emit | with_reducible apply wf_each | with_reducible apply wf_State_progress | with_reducible apply wf_State_replaySync | with_reducible apply wf_State_resend | with_reducible apply wf_ite | with_reducible apply wf_ite1 | with_reducible apply wf_ite2 | with_reducible apply wf_regs | with_reducible apply wf_force | with_reducible apply wf_mem | with_reducible apply wf_scr | (simp only [wf_mk]; refine ⟨⟨⟨?_, ?_⟩, ?_⟩, ?_⟩) | (dsimp only) | (refine wf_of_snd (by with_reducible assumption) ?_) | (refine wf_of_fst (by with_reducible assumption) ?_) | split

theorem wf_State_slot (h : s.wf = true) (l : Nat) (gcmOk : Bool) (aligned : Bool) (credits : List (Nat × Nat)) (acks : List AckRec) (msgs : List Msg) (fecCorr : Nat) (fecUncorr : Nat) :
    (State.slot s l gcmOk aligned credits acks msgs fecCorr fecUncorr).wf = true := by
  unfold State.slot
  try dsimp only
  repeat' first | with_reducible assumption | (intro _) | with_reducible apply wf_sat | with_reducible apply wf_State_lpRetrain | with_reducible apply wf_State_setPort | with_reducible apply wf_State_lpEvent | with_reducible apply wf_each | with_reducible apply wf_State_setCredit | with_reducible apply wf_State_takeAck | with_reducible apply wf_State_takeMsgs | with_reducible apply wf_State_pump | with_reducible apply wf_ite | with_reducible apply wf_ite1 | with_reducible apply wf_ite2 | with_reducible apply wf_regs | with_reducible apply wf_force | with_reducible apply wf_mem | with_reducible apply wf_scr | (simp only [wf_mk]; refine ⟨⟨⟨?_, ?_⟩, ?_⟩, ?_⟩)

theorem wf_State_takeRx (h : s.wf = true) {l kind : Nat} {r : State × Msg} (hr : s.takeRx l kind = some r) : r.1.wf = true := by
  unfold State.takeRx at hr
  obtain ⟨a, _, rfl⟩ := Option.map_eq_some_iff.1 hr
  exact h

theorem wf_State_onRx (h : s.wf = true) (l : Nat) (kind : Nat) (f : State → Msg → State) (hf_f : ∀ (t : State) x0, t.wf = true → (f t x0).wf = true) :
    (State.onRx s l kind f).wf = true := by
  unfold State.onRx
  repeat' first | with_reducible assumption | with_reducible apply hf_f  | with_reducible apply wf_ite | with_reducible apply wf_ite1 | with_reducible apply wf_ite2 | with_reducible apply wf_regs | with_reducible apply wf_force | with_reducible apply wf_mem | with_reducible apply wf_scr | (simp only [wf_mk]; refine ⟨⟨⟨?_, ?_⟩, ?_⟩, ?_⟩) | (have hx := wf_State_takeRx h ‹State.takeRx _ _ _ = some _›; exact hx) | (dsimp only) | (refine wf_of_snd (by with_reducible assumption) ?_) | (refine wf_of_fst (by with_reducible assumption) ?_) | split

theorem wf_State_staleTag (h : s.wf = true) (x : Nat) :
    (State.staleTag s x).wf = true := by
  unfold State.staleTag
  repeat' first | with_reducible assumption | with_reducible apply wf_sat

theorem wf_State_refuse (h : s.wf = true) (l : Nat) (m : Msg) (kind : Nat) (st : Status) :
    (State.refuse s l m kind st).wf = true := by
  unfold State.refuse
  repeat' first | with_reducible assumption | with_reducible apply wf_State_respond | with_reducible apply wf_ite | with_reducible apply wf_ite1 | with_reducible apply wf_ite2

theorem wf_State_access (h : s.wf = true) (l : Nat) (m : Msg) (kind : Nat) (f : State → State) (hf_f : ∀ t : State, t.wf = true → (f t).wf = true) :
    (State.access s l m kind f).wf = true := by
  unfold State.access
  try dsimp only
  repeat' first | with_reducible assumption | (intro _) | with_reducible apply hf_f | with_reducible apply wf_when | with_reducible apply wf_State_staleTag | with_reducible apply wf_State_refuse | with_reducible apply wf_sat | with_reducible apply wf_ite | with_reducible apply wf_ite1 | with_reducible apply wf_ite2

theorem wf_State_serveRd (h : s.wf = true) (l : Nat) (m : Msg) (ue : List Nat) :
    (State.serveRd s l m ue).wf = true := by
  unfold State.serveRd
  try dsimp only
  repeat' first | with_reducible assumption | (intro _) | with_reducible apply wf_State_mediaOf | with_reducible apply wf_State_respond | with_reducible apply wf_State_mark | with_reducible apply wf_ite | with_reducible apply wf_ite1 | with_reducible apply wf_ite2

theorem wf_State_serveWr (h : s.wf = true) (l : Nat) (m : Msg) :
    (State.serveWr s l m).wf = true := by
  unfold State.serveWr
  try dsimp only
  repeat' first | with_reducible assumption | (intro _) | with_reducible apply wf_State_steer | with_reducible apply wf_State_wakeIdle | with_reducible apply wf_State_refuse | with_reducible apply wf_State_access | with_reducible apply wf_State_write | with_reducible apply wf_State_save | with_reducible apply wf_State_mediaOf | with_reducible apply wf_ite | with_reducible apply wf_ite1 | with_reducible apply wf_ite2 | with_reducible apply wf_regs | with_reducible apply wf_force | with_reducible apply wf_mem | with_reducible apply wf_scr | (simp only [wf_mk]; refine ⟨⟨⟨?_, ?_⟩, ?_⟩, ?_⟩)

theorem wf_State_serveAtomic (h : s.wf = true) (l : Nat) (m : Msg) :
    (State.serveAtomic s l m).wf = true := by
  unfold State.serveAtomic
  try dsimp only
  repeat' first | with_reducible assumption | (intro _) | with_reducible apply wf_State_refuse | with_reducible apply wf_State_homeReq | with_reducible apply wf_ite | with_reducible apply wf_ite1 | with_reducible apply wf_ite2

theorem wf_State_serveRed (h : s.wf = true) (l : Nat) (m : Msg) (poisoned : Bool) :
    (State.serveRed s l m poisoned).wf = true := by
  unfold State.serveRed
  try dsimp only
  repeat' first | with_reducible assumption | (intro _) | with_reducible apply wf_State_partArrive

theorem wf_State_serveMirror (h : s.wf = true) (l : Nat) (m : Msg) :
    (State.serveMirror s l m).wf = true := by
  unfold State.serveMirror
  try dsimp only
  repeat' first | with_reducible assumption | (intro _) | with_reducible apply wf_State_takeWrite | with_reducible apply wf_State_refuse | with_reducible apply wf_State_store | with_reducible apply wf_State_expWrite | with_reducible apply wf_ite | with_reducible apply wf_ite1 | with_reducible apply wf_ite2 | with_reducible apply wf_regs | with_reducible apply wf_force | with_reducible apply wf_mem | with_reducible apply wf_scr | (simp only [wf_mk]; refine ⟨⟨⟨?_, ?_⟩, ?_⟩, ?_⟩) | (dsimp only) | (refine wf_of_snd (by with_reducible assumption) ?_) | (refine wf_of_fst (by with_reducible assumption) ?_) | split

theorem wf_State_resyncPage (h : s.wf = true) (r : Nat) (p : Nat) :
    (State.resyncPage s r p).wf = true := by
  unfold State.resyncPage
  try dsimp only
  repeat' first | with_reducible assumption | (intro _) | with_reducible apply wf_when | with_reducible apply wf_wrn | with_reducible apply wf_ite | with_reducible apply wf_ite1 | with_reducible apply wf_ite2 | with_reducible apply wf_regs | with_reducible apply wf_force | with_reducible apply wf_mem | with_reducible apply wf_scr | (simp only [wf_mk]; refine ⟨⟨⟨?_, ?_⟩, ?_⟩, ?_⟩)

theorem wf_State_answered (h : s.wf = true) (a : Await) (m : Msg) :
    (State.answered s a m).wf = true := by
  unfold State.answered
  try dsimp only
  repeat' first | with_reducible assumption | (intro _) | with_reducible apply wf_State_opAnswer | with_reducible apply wf_State_hostEnd | with_reducible apply wf_State_resyncPage | with_reducible apply wf_State_degrade | with_reducible apply wf_ite | with_reducible apply wf_ite1 | with_reducible apply wf_ite2 | with_reducible apply wf_elim | with_reducible apply wf_regs | with_reducible apply wf_force | with_reducible apply wf_mem | with_reducible apply wf_scr | (simp only [wf_mk]; refine ⟨⟨⟨?_, ?_⟩, ?_⟩, ?_⟩) | (simp only [id_eq]; assumption) | (dsimp only) | (refine wf_of_snd (by with_reducible assumption) ?_) | (refine wf_of_fst (by with_reducible assumption) ?_) | split

theorem wf_State_response (h : s.wf = true) (l : Nat) (m : Msg) :
    (State.response s l m).wf = true := by
  unfold State.response
  try dsimp only
  repeat' first | with_reducible assumption | (intro _) | with_reducible apply wf_when | with_reducible apply wf_State_staleTag | with_reducible apply wf_State_answered | with_reducible apply wf_ite | with_reducible apply wf_ite1 | with_reducible apply wf_ite2 | with_reducible apply wf_regs | with_reducible apply wf_force | with_reducible apply wf_mem | with_reducible apply wf_scr | (simp only [wf_mk]; refine ⟨⟨⟨?_, ?_⟩, ?_⟩, ?_⟩) | (dsimp only) | (refine wf_of_snd (by with_reducible assumption) ?_) | (refine wf_of_fst (by with_reducible assumption) ?_) | split

theorem wf_State_onNotice (h : s.wf = true) (l : Nat) (kind : Nat) (f : State → Msg → State) (hf_f : ∀ (t : State) x0, t.wf = true → (f t x0).wf = true) :
    (State.onNotice s l kind f).wf = true := by
  unfold State.onNotice
  repeat' first | with_reducible assumption | with_reducible apply hf_f  | with_reducible apply wf_ite | with_reducible apply wf_ite1 | with_reducible apply wf_ite2 | with_reducible apply wf_regs | with_reducible apply wf_force | with_reducible apply wf_mem | with_reducible apply wf_scr | (simp only [wf_mk]; refine ⟨⟨⟨?_, ?_⟩, ?_⟩, ?_⟩) | (have hx := wf_State_takeRx h ‹State.takeRx _ _ _ = some _›; exact hx) | (dsimp only) | (refine wf_of_snd (by with_reducible assumption) ?_) | (refine wf_of_fst (by with_reducible assumption) ?_) | split

theorem wf_State_abortNotice (h : s.wf = true) (l : Nat) (m : Msg) :
    (State.abortNotice s l m).wf = true := by
  unfold State.abortNotice
  try dsimp only
  repeat' first | with_reducible assumption | (intro _) | with_reducible apply wf_each | with_reducible apply wf_State_staleTag | with_reducible apply wf_ite | with_reducible apply wf_ite1 | with_reducible apply wf_ite2 | with_reducible apply wf_regs | with_reducible apply wf_force | with_reducible apply wf_mem | with_reducible apply wf_scr | (simp only [wf_mk]; refine ⟨⟨⟨?_, ?_⟩, ?_⟩, ?_⟩) | (dsimp only) | (refine wf_of_snd (by with_reducible assumption) ?_) | (refine wf_of_fst (by with_reducible assumption) ?_) | split

theorem wf_State_epochNotice (h : s.wf = true) (m : Msg) :
    (State.epochNotice s m).wf = true := by
  unfold State.epochNotice
  try dsimp only
  repeat' first | with_reducible assumption | (intro _) | with_reducible apply wf_set | with_reducible apply wf_ite | with_reducible apply wf_ite1 | with_reducible apply wf_ite2

theorem wf_State_askTray (h : s.wf = true) (l : Nat) (kind : Nat) (sub : Nat) (x : Nat) (a : Nat) (n : Nat) (data : List Byte) :
    (State.askTray s l kind sub x a n data).wf = true := by
  unfold State.askTray
  try dsimp only
  repeat' first | with_reducible assumption | (intro _) | with_reducible apply wf_State_sendOn | with_reducible apply wf_regs | with_reducible apply wf_force | with_reducible apply wf_mem | with_reducible apply wf_scr | (simp only [wf_mk]; refine ⟨⟨⟨?_, ?_⟩, ?_⟩, ?_⟩)

end Sys2Proof.Machine
end

