-- ==== Sys2Proof/Laws/KeepContexts.lean ====
section
/-! SUPPORT. Every operation of Machine/Contexts.lean keeps the stores of the state in their canonical form. -/

namespace Sys2Proof.Machine

variable {s : State}

theorem wf_State_ctxRefuse (h : s.wf = true) (x : Nat) :
    (State.ctxRefuse s x).wf = true := by
  unfold State.ctxRefuse
  repeat' first | with_reducible assumption | with_reducible apply wf_set

theorem wf_State_ctxCommand (h : s.wf = true) (x : Nat) (op : Nat) (sl : Nat) :
    (State.ctxCommand s x op sl).wf = true := by
  unfold State.ctxCommand
  try dsimp only
  repeat' first | with_reducible assumption | (intro _) | with_reducible apply wf_State_retire | with_reducible apply wf_State_ctxRefuse | with_reducible apply wf_each | with_reducible apply wf_set | with_reducible apply wf_ite | with_reducible apply wf_ite1 | with_reducible apply wf_ite2 | with_reducible apply wf_regs | with_reducible apply wf_force | with_reducible apply wf_mem | with_reducible apply wf_scr | (simp only [wf_mk]; refine ⟨⟨⟨?_, ?_⟩, ?_⟩, ?_⟩) | (dsimp only) | (refine wf_of_snd (by with_reducible assumption) ?_) | (refine wf_of_fst (by with_reducible assumption) ?_) | split

theorem wf_State_ctxDefine (h : s.wf = true) (c : CtxCmd) :
    (State.ctxDefine s c).wf = true := by
  unfold State.ctxDefine
  try dsimp only
  repeat' first | with_reducible assumption | (intro _) | with_reducible apply wf_wrFld | with_reducible apply wf_each | with_reducible apply wf_wrf | with_reducible apply wf_State_stepMark

theorem wf_State_searchSync (h : s.wf = true) :
    (State.searchSync s).wf = true := by
  unfold State.searchSync
  repeat' first | with_reducible assumption | with_reducible apply wf_wr | with_reducible apply wf_wrn | with_reducible apply wf_ite | with_reducible apply wf_ite1 | with_reducible apply wf_ite2 | with_reducible apply wf_regs | with_reducible apply wf_force | with_reducible apply wf_mem | with_reducible apply wf_scr | (simp only [wf_mk]; refine ⟨⟨⟨?_, ?_⟩, ?_⟩, ?_⟩) | (dsimp only) | (refine wf_of_snd (by with_reducible assumption) ?_) | (refine wf_of_fst (by with_reducible assumption) ?_) | split

theorem wf_State_suspectSync (h : s.wf = true) (x : Nat) :
    (State.suspectSync s x).wf = true := by
  unfold State.suspectSync
  repeat' first | with_reducible assumption | (intro _) | with_reducible apply wf_wrFld | with_reducible apply wf_ite | with_reducible apply wf_ite1 | with_reducible apply wf_ite2

theorem wf_State_replayStop (h : s.wf = true) (e : Nat) :
    (State.replayStop s e).wf = true := by
  unfold State.replayStop
  repeat' first | with_reducible assumption | (intro _) | with_reducible apply wf_when | with_reducible apply wf_wrFld | with_reducible apply wf_ite | with_reducible apply wf_ite1 | with_reducible apply wf_ite2

theorem wf_State_leaveSearch (h : s.wf = true) (x : Nat) :
    (State.leaveSearch s x).wf = true := by
  unfold State.leaveSearch
  try dsimp only
  repeat' first | with_reducible assumption | (intro _) | with_reducible apply wf_each | with_reducible apply wf_State_replayStop | with_reducible apply wf_State_suspectSync | with_reducible apply wf_State_searchSync | with_reducible apply wf_regs | with_reducible apply wf_force | with_reducible apply wf_mem | with_reducible apply wf_scr | (simp only [wf_mk]; refine ⟨⟨⟨?_, ?_⟩, ?_⟩, ?_⟩)

theorem wf_qFence (h : s.wf = true) (q : Nat) :
    (qFence s q).wf = true := by
  unfold qFence
  try dsimp only
  repeat' first | with_reducible assumption | (intro _) | with_reducible apply wf_qSetState | with_reducible apply wf_regs | with_reducible apply wf_force | with_reducible apply wf_mem | with_reducible apply wf_scr | (simp only [wf_mk]; refine ⟨⟨⟨?_, ?_⟩, ?_⟩, ?_⟩)

theorem wf_qUnfence (h : s.wf = true) (q : Nat) :
    (qUnfence s q).wf = true := by
  unfold qUnfence
  try dsimp only
  repeat' first | with_reducible assumption | (intro _) | with_reducible apply wf_qSetState | with_reducible apply wf_wr | with_reducible apply wf_clr

theorem wf_State_cutOff (h : s.wf = true) (o : Op) (st : Status) :
    (State.cutOff s o st).wf = true := by
  unfold State.cutOff
  try dsimp only
  repeat' first | with_reducible assumption | (intro _) | with_reducible apply wf_State_stopPart | with_reducible apply wf_State_setOp | with_reducible apply wf_when | with_reducible apply wf_State_trace | with_reducible apply wf_State_engineIdle | with_reducible apply wf_State_fenceEnd | with_reducible apply wf_ite | with_reducible apply wf_ite1 | with_reducible apply wf_ite2 | with_reducible apply wf_regs | with_reducible apply wf_force | with_reducible apply wf_mem | with_reducible apply wf_scr | (simp only [wf_mk]; refine ⟨⟨⟨?_, ?_⟩, ?_⟩, ?_⟩) | (simp only [id_eq]; assumption) | (dsimp only) | (refine wf_of_snd (by with_reducible assumption) ?_) | (refine wf_of_fst (by with_reducible assumption) ?_) | split

theorem wf_State_endOps (h : s.wf = true) (x : Nat) (st : Status) :
    (State.endOps s x st).wf = true := by
  unfold State.endOps
  try dsimp only
  repeat' first | with_reducible assumption | (intro _) | with_reducible apply wf_each | with_reducible apply wf_State_redClose | with_reducible apply wf_State_cutOff | with_reducible apply wf_regs | with_reducible apply wf_force | with_reducible apply wf_mem | with_reducible apply wf_scr | (simp only [wf_mk]; refine ⟨⟨⟨?_, ?_⟩, ?_⟩, ?_⟩) | (dsimp only) | (refine wf_of_snd (by with_reducible assumption) ?_) | (refine wf_of_fst (by with_reducible assumption) ?_) | split

theorem wf_State_cacheCancel (h : s.wf = true) (x : Nat) :
    (State.cacheCancel s x).wf = true := by
  unfold State.cacheCancel
  try dsimp only
  repeat' first | with_reducible assumption | (intro _)  | with_reducible apply wf_regs | with_reducible apply wf_force | with_reducible apply wf_mem | with_reducible apply wf_scr | (simp only [wf_mk]; refine ⟨⟨⟨?_, ?_⟩, ?_⟩, ?_⟩)

theorem wf_State_occultBegin (h : s.wf = true) (x : Nat) (target : Option Nat) (release : Bool) :
    (State.occultBegin s x target release).wf = true := by
  unfold State.occultBegin
  try dsimp only
  repeat' first | with_reducible assumption | (intro _) | with_reducible apply wf_wrFld | with_reducible apply wf_State_trace | with_reducible apply wf_State_leaveSearch | with_reducible apply wf_each | with_reducible apply wf_qFence | with_reducible apply wf_State_endOps | with_reducible apply wf_State_abandonMove | with_reducible apply wf_State_cohFence | with_reducible apply wf_State_cacheCancel | with_reducible apply wf_regs | with_reducible apply wf_force | with_reducible apply wf_mem | with_reducible apply wf_scr | (simp only [wf_mk]; refine ⟨⟨⟨?_, ?_⟩, ?_⟩, ?_⟩) | (dsimp only) | (refine wf_of_snd (by with_reducible assumption) ?_) | (refine wf_of_fst (by with_reducible assumption) ?_) | split

theorem wf_State_ctrZero (h : s.wf = true) (c : Nat) :
    (State.ctrZero s c).wf = true := by
  unfold State.ctrZero
  try dsimp only
  repeat' first | with_reducible assumption | (intro _) | with_reducible apply wf_wr64 | with_reducible apply wf_wr | with_reducible apply wf_clr

theorem wf_State_ctxScratch (h : s.wf = true) (x : Nat) :
    (State.ctxScratch s x).wf = true := by
  unfold State.ctxScratch
  repeat' first | with_reducible assumption | (intro _) | with_reducible apply wf_each | with_reducible apply wf_State_scrClear | with_reducible apply wf_regs | with_reducible apply wf_force | with_reducible apply wf_mem | with_reducible apply wf_scr | (simp only [wf_mk]; refine ⟨⟨⟨?_, ?_⟩, ?_⟩, ?_⟩) | (dsimp only) | (refine wf_of_snd (by with_reducible assumption) ?_) | (refine wf_of_fst (by with_reducible assumption) ?_) | split

theorem wf_State_removePages (h : s.wf = true) (l : List Page) :
    (State.removePages s l).wf = true := by
  unfold State.removePages
  try dsimp only
  repeat' first | with_reducible assumption | (intro _) | with_reducible apply wf_each | with_reducible apply wf_State_freePage | with_reducible apply wf_State_syncUse | with_reducible apply wf_regs | with_reducible apply wf_force | with_reducible apply wf_mem | with_reducible apply wf_scr | (simp only [wf_mk]; refine ⟨⟨⟨?_, ?_⟩, ?_⟩, ?_⟩) | (dsimp only) | (refine wf_of_snd (by with_reducible assumption) ?_) | (refine wf_of_fst (by with_reducible assumption) ?_) | split

theorem wf_State_dropAwaitsOf (h : s.wf = true) (x : Nat) :
    (State.dropAwaitsOf s x).wf = true := by
  unfold State.dropAwaitsOf
  try dsimp only
  repeat' first | with_reducible assumption | (intro _) | with_reducible apply wf_each | with_reducible apply wf_State_hostEnd | with_reducible apply wf_ite | with_reducible apply wf_ite1 | with_reducible apply wf_ite2 | with_reducible apply wf_regs | with_reducible apply wf_force | with_reducible apply wf_mem | with_reducible apply wf_scr | (simp only [wf_mk]; refine ⟨⟨⟨?_, ?_⟩, ?_⟩, ?_⟩) | (dsimp only) | (refine wf_of_snd (by with_reducible assumption) ?_) | (refine wf_of_fst (by with_reducible assumption) ?_) | split

theorem wf_State_occultEnd (h : s.wf = true) (o : Occ) :
    (State.occultEnd s o).wf = true := by
  unfold State.occultEnd
  try dsimp only
  repeat' first | with_reducible assumption | (intro _) | with_reducible apply wf_State_dropAwaitsOf | with_reducible apply wf_State_svcGone | with_reducible apply wf_State_removePages | with_reducible apply wf_State_ctxScratch | with_reducible apply wf_each | with_reducible apply wf_State_ctrZero | with_reducible apply wf_wrf | with_reducible apply wf_qUnfence | with_reducible apply wf_clr | with_reducible apply wf_wrFld | with_reducible apply wf_set | with_reducible apply wf_when | with_reducible apply wf_State_trace | with_reducible apply wf_State_stepMark | with_reducible apply wf_ite | with_reducible apply wf_ite1 | with_reducible apply wf_ite2 | with_reducible apply wf_regs | with_reducible apply wf_force | with_reducible apply wf_mem | with_reducible apply wf_scr | (simp only [wf_mk]; refine ⟨⟨⟨?_, ?_⟩, ?_⟩, ?_⟩)

theorem wf_State_secBad (h : s.wf = true) :
    (State.secBad s).wf = true := by
  unfold State.secBad
  repeat' first | with_reducible assumption | with_reducible apply wf_set

theorem wf_State_secCmd (h : s.wf = true) (op : Nat) (confirm : Nat) :
    (State.secCmd s op confirm).wf = true := by
  unfold State.secCmd
  repeat' first | with_reducible assumption | with_reducible apply wf_State_secBad | with_reducible apply wf_ite | with_reducible apply wf_ite1 | with_reducible apply wf_ite2 | with_reducible apply wf_regs | with_reducible apply wf_force | with_reducible apply wf_mem | with_reducible apply wf_scr | (simp only [wf_mk]; refine ⟨⟨⟨?_, ?_⟩, ?_⟩, ?_⟩)

theorem wf_State_dbgCtrl (h : s.wf = true) (v : Word) :
    (State.dbgCtrl s v).wf = true := by
  unfold State.dbgCtrl
  try dsimp only
  repeat' first | with_reducible assumption | (intro _) | with_reducible apply wf_State_secBad | with_reducible apply wf_wr | with_reducible apply wf_ite | with_reducible apply wf_ite1 | with_reducible apply wf_ite2 | with_reducible apply wf_regs | with_reducible apply wf_force | with_reducible apply wf_mem | with_reducible apply wf_scr | (simp only [wf_mk]; refine ⟨⟨⟨?_, ?_⟩, ?_⟩, ?_⟩) | (dsimp only) | (refine wf_of_snd (by with_reducible assumption) ?_) | (refine wf_of_fst (by with_reducible assumption) ?_) | split

theorem wf_State_norPut (h : s.wf = true) (a : Nat) (d : List Byte) :
    (State.norPut s a d).wf = true := by
  unfold State.norPut
  repeat' first | with_reducible assumption | (intro _)  | with_reducible apply wf_foldl | with_reducible apply wf_foldl1 | with_reducible apply wf_foldl2 | with_reducible apply wf_regs | with_reducible apply wf_force | with_reducible apply wf_mem | with_reducible apply wf_scr | (simp only [wf_mk]; refine ⟨⟨⟨?_, ?_⟩, ?_⟩, ?_⟩)

theorem wf_State_norErase (h : s.wf = true) (sector : Nat) :
    (State.norErase s sector).wf = true := by
  unfold State.norErase
  repeat' first | with_reducible assumption | (intro _)  | with_reducible apply wf_regs | with_reducible apply wf_force | with_reducible apply wf_mem | with_reducible apply wf_scr | (simp only [wf_mk]; refine ⟨⟨⟨?_, ?_⟩, ?_⟩, ?_⟩)

theorem wf_State_freeBytes (h : s.wf = true) (n : Nat) :
    (State.freeBytes s n).2.wf = true := by
  unfold State.freeBytes
  repeat' first | with_reducible assumption | (intro _)  | with_reducible apply wf_regs | with_reducible apply wf_force | with_reducible apply wf_mem | with_reducible apply wf_scr | (simp only [wf_mk]; refine ⟨⟨⟨?_, ?_⟩, ?_⟩, ?_⟩)

theorem wf_State_journal (h : s.wf = true) (i : Nat) (rec : List Byte) :
    (State.journal s i rec).wf = true := by
  unfold State.journal
  repeat' first | with_reducible assumption | (intro _) | with_reducible apply wf_when | with_reducible apply wf_State_norErase | with_reducible apply wf_State_norPut

theorem wf_State_idSync (h : s.wf = true) :
    (State.idSync s).wf = true := by
  unfold State.idSync
  repeat' first | with_reducible assumption | (intro _) | with_reducible apply wf_wrn | with_reducible apply wf_when | with_reducible apply wf_set

theorem wf_State_attMake (h : s.wf = true) (readBack : Bool) :
    (State.attMake s readBack).wf = true := by
  unfold State.attMake
  try dsimp only
  repeat' first | with_reducible assumption | (intro _) | with_reducible apply wf_wrap | with_reducible apply wf_wr | with_reducible apply wf_set | with_reducible apply wf_State_journal | with_reducible apply wf_State_idSync | with_reducible apply wf_State_freeBytes | with_reducible apply wf_ite | with_reducible apply wf_ite1 | with_reducible apply wf_ite2 | with_reducible apply wf_regs | with_reducible apply wf_force | with_reducible apply wf_mem | with_reducible apply wf_scr | (simp only [wf_mk]; refine ⟨⟨⟨?_, ?_⟩, ?_⟩, ?_⟩)

theorem wf_State_attest (h : s.wf = true) (i3c : Bool) (port : Nat) (f : State → State) (hf_f : ∀ t : State, t.wf = true → (f t).wf = true) :
    (State.attest s i3c port f).wf = true := by
  unfold State.attest
  repeat' first | with_reducible assumption | with_reducible apply hf_f | with_reducible apply wf_State_pviol | with_reducible apply wf_emit | with_reducible apply wf_ite | with_reducible apply wf_ite1 | with_reducible apply wf_ite2 | (dsimp only) | (refine wf_of_snd (by with_reducible assumption) ?_) | (refine wf_of_fst (by with_reducible assumption) ?_) | split

end Sys2Proof.Machine
end

