-- ==== Sys2Proof/Laws/KeepEphemeris.lean ====
section
/-! SUPPORT. Every operation of Machine/Ephemeris.lean keeps the stores of the state in their canonical form. -/

namespace Sys2Proof.Machine

variable {s : State}

theorem wf_State_setStandby (h : s.wf = true) (st : Nat) (id : Nat) :
    (State.setStandby s st id).wf = true := by
  unfold State.setStandby
  repeat' first | with_reducible assumption | (intro _) | with_reducible apply wf_each | with_reducible apply wf_wrFld | with_reducible apply wf_wrn | (simp only [id_eq]; assumption)

theorem wf_State_setStandbyState (h : s.wf = true) (st : Nat) :
    (State.setStandbyState s st).wf = true := by
  unfold State.setStandbyState
  repeat' first | with_reducible assumption | (intro _) | with_reducible apply wf_each | with_reducible apply wf_wrFld

theorem wf_State_setActive (h : s.wf = true) (v : Nat) (id : Nat) :
    (State.setActive s v id).wf = true := by
  unfold State.setActive
  repeat' first | with_reducible assumption | (intro _) | with_reducible apply wf_each | with_reducible apply wf_wrFld | with_reducible apply wf_wrn | (simp only [id_eq]; assumption)

theorem wf_State_ephEvent (h : s.wf = true) (m : Word) :
    (State.ephEvent s m).wf = true := by
  unfold State.ephEvent
  repeat' first | with_reducible assumption | with_reducible apply wf_set

theorem wf_State_ephEventAll (h : s.wf = true) (m : Word) :
    (State.ephEventAll s m).wf = true := by
  unfold State.ephEventAll
  repeat' first | with_reducible assumption | (intro _) | with_reducible apply wf_each | with_reducible apply wf_set

theorem wf_State_ephIgnored (h : s.wf = true) :
    (State.ephIgnored s).wf = true := by
  unfold State.ephIgnored
  repeat' first | with_reducible assumption | with_reducible apply wf_State_ephEvent

theorem wf_State_rtArmBit (h : s.wf = true) :
    (State.rtArmBit s).wf = true := by
  unfold State.rtArmBit
  repeat' first | with_reducible assumption | with_reducible apply wf_wrFld | with_reducible apply wf_ite | with_reducible apply wf_ite1 | with_reducible apply wf_ite2 | (dsimp only) | (refine wf_of_snd (by with_reducible assumption) ?_) | (refine wf_of_fst (by with_reducible assumption) ?_) | split

theorem wf_State_endArm (h : s.wf = true) :
    (State.endArm s).wf = true := by
  unfold State.endArm
  try dsimp only
  repeat' first | with_reducible assumption | (intro _) | with_reducible apply wf_State_rtArmBit | with_reducible apply wf_wrn | with_reducible apply wf_regs | with_reducible apply wf_force | with_reducible apply wf_mem | with_reducible apply wf_scr | (simp only [wf_mk]; refine ⟨⟨⟨?_, ?_⟩, ?_⟩, ?_⟩)

theorem wf_State_load (h : s.wf = true) (src : Source) (start : Bool) :
    (State.load s src start).wf = true := by
  unfold State.load
  try dsimp only
  repeat' first | with_reducible assumption | (intro _) | with_reducible apply wf_State_ephIgnored | with_reducible apply wf_State_setStandby | with_reducible apply wf_ite | with_reducible apply wf_ite1 | with_reducible apply wf_ite2 | with_reducible apply wf_regs | with_reducible apply wf_force | with_reducible apply wf_mem | with_reducible apply wf_scr | (simp only [wf_mk]; refine ⟨⟨⟨?_, ?_⟩, ?_⟩, ?_⟩) | (dsimp only) | (refine wf_of_snd (by with_reducible assumption) ?_) | (refine wf_of_fst (by with_reducible assumption) ?_) | split

theorem wf_State_loadPool (h : s.wf = true) :
    (State.loadPool s).wf = true := by
  unfold State.loadPool
  repeat' first | with_reducible assumption | with_reducible apply wf_State_load

theorem wf_State_loadLibrary (h : s.wf = true) (index : Nat) :
    (State.loadLibrary s index).wf = true := by
  unfold State.loadLibrary
  repeat' first | with_reducible assumption | with_reducible apply wf_State_ephIgnored | with_reducible apply wf_State_load | with_reducible apply wf_ite | with_reducible apply wf_ite1 | with_reducible apply wf_ite2

theorem wf_State_discardStandby (h : s.wf = true) :
    (State.discardStandby s).wf = true := by
  unfold State.discardStandby
  try dsimp only
  repeat' first | with_reducible assumption | (intro _) | with_reducible apply wf_State_ephIgnored | with_reducible apply wf_State_endArm | with_reducible apply wf_State_recheck | with_reducible apply wf_State_setStandby | with_reducible apply wf_ite | with_reducible apply wf_ite1 | with_reducible apply wf_ite2 | with_reducible apply wf_elim | with_reducible apply wf_regs | with_reducible apply wf_force | with_reducible apply wf_mem | with_reducible apply wf_scr | (simp only [wf_mk]; refine ⟨⟨⟨?_, ?_⟩, ?_⟩, ?_⟩)

theorem wf_State_stopActive (h : s.wf = true) :
    (State.stopActive s).wf = true := by
  unfold State.stopActive
  repeat' first | with_reducible assumption | with_reducible apply wf_State_ephIgnored | with_reducible apply wf_State_setActive | with_reducible apply wf_ite | with_reducible apply wf_ite1 | with_reducible apply wf_ite2 | with_reducible apply wf_regs | with_reducible apply wf_force | with_reducible apply wf_mem | with_reducible apply wf_scr | (simp only [wf_mk]; refine ⟨⟨⟨?_, ?_⟩, ?_⟩, ?_⟩) | (simp only [id_eq]; assumption) | (dsimp only) | (refine wf_of_snd (by with_reducible assumption) ?_) | (refine wf_of_fst (by with_reducible assumption) ?_) | split

theorem wf_State_imageUe (h : s.wf = true) (src : Source) (ue : List Nat) :
    (State.imageUe s src ue).wf = true := by
  unfold State.imageUe
  try dsimp only
  repeat' first | with_reducible assumption | (intro _) | with_reducible apply wf_when | with_reducible apply wf_State_fresh | with_reducible apply wf_State_errLog | with_reducible apply wf_ite | with_reducible apply wf_ite1 | with_reducible apply wf_ite2 | with_reducible apply wf_regs | with_reducible apply wf_force | with_reducible apply wf_mem | with_reducible apply wf_scr | (simp only [wf_mk]; refine ⟨⟨⟨?_, ?_⟩, ?_⟩, ?_⟩) | (dsimp only) | (refine wf_of_snd (by with_reducible assumption) ?_) | (refine wf_of_fst (by with_reducible assumption) ?_) | split

theorem wf_State_checkResult (h : s.wf = true) (r : Nat × Nat × Nat) :
    (State.checkResult s r).wf = true := by
  unfold State.checkResult
  repeat' first | with_reducible assumption | with_reducible apply wf_wrn

theorem wf_State_ephArm (h : s.wf = true) (comp : Bool) :
    (State.ephArm s comp).wf = true := by
  unfold State.ephArm
  try dsimp only
  repeat' first | with_reducible assumption | (intro _) | with_reducible apply wf_State_ephIgnored | with_reducible apply wf_State_ephEvent | with_reducible apply wf_wrn | with_reducible apply wf_set | with_reducible apply wf_State_rtArmBit | with_reducible apply wf_State_setStandbyState | with_reducible apply wf_State_wakeIdle | with_reducible apply wf_ite | with_reducible apply wf_ite1 | with_reducible apply wf_ite2 | with_reducible apply wf_regs | with_reducible apply wf_force | with_reducible apply wf_mem | with_reducible apply wf_scr | (simp only [wf_mk]; refine ⟨⟨⟨?_, ?_⟩, ?_⟩, ?_⟩) | (dsimp only) | (refine wf_of_snd (by with_reducible assumption) ?_) | (refine wf_of_fst (by with_reducible assumption) ?_) | split

theorem wf_State_ephDisarm (h : s.wf = true) (comp : Bool) :
    (State.ephDisarm s comp).wf = true := by
  unfold State.ephDisarm
  repeat' first | with_reducible assumption | with_reducible apply wf_wrn | with_reducible apply wf_State_recheck | with_reducible apply wf_State_ephIgnored | with_reducible apply wf_State_endArm | with_reducible apply wf_State_setStandbyState | with_reducible apply wf_ite | with_reducible apply wf_ite1 | with_reducible apply wf_ite2 | with_reducible apply wf_regs | with_reducible apply wf_force | with_reducible apply wf_mem | with_reducible apply wf_scr | (simp only [wf_mk]; refine ⟨⟨⟨?_, ?_⟩, ?_⟩, ?_⟩) | (dsimp only) | (refine wf_of_snd (by with_reducible assumption) ?_) | (refine wf_of_fst (by with_reducible assumption) ?_) | split

theorem wf_State_ephArmEpoch (h : s.wf = true) (v : Word) :
    (State.ephArmEpoch s v).wf = true := by
  unfold State.ephArmEpoch
  repeat' first | with_reducible assumption | with_reducible apply wf_State_ephIgnored | with_reducible apply wf_wr | with_reducible apply wf_ite | with_reducible apply wf_ite1 | with_reducible apply wf_ite2

end Sys2Proof.Machine
end

