-- ==== Sys2Proof/Laws/KeepPorts.lean ====
section
/-! SUPPORT. Every operation of Machine/Ports.lean keeps the stores of the state in their canonical form. -/

namespace Sys2Proof.Machine

variable {s : State}

theorem wf_State_rtBad (h : s.wf = true) :
    (State.rtBad s).wf = true := by
  unfold State.rtBad
  repeat' first | with_reducible assumption | with_reducible apply wf_set

theorem wf_State_rtStore (h : s.wf = true) (v : Word) :
    (State.rtStore s v).wf = true := by
  unfold State.rtStore
  repeat' first | with_reducible assumption | with_reducible apply wf_wrFld

theorem wf_State_rtCtrl (h : s.wf = true) (v : Word) :
    (State.rtCtrl s v).wf = true := by
  unfold State.rtCtrl
  try dsimp only
  repeat' first | with_reducible assumption | (intro _) | with_reducible apply wf_State_rtBad | with_reducible apply wf_State_rtStore | with_reducible apply wf_set | with_reducible apply wf_State_rtArmBit | with_reducible apply wf_ite | with_reducible apply wf_ite1 | with_reducible apply wf_ite2 | with_reducible apply wf_regs | with_reducible apply wf_force | with_reducible apply wf_mem | with_reducible apply wf_scr | (simp only [wf_mk]; refine ⟨⟨⟨?_, ?_⟩, ?_⟩, ?_⟩) | (dsimp only) | (refine wf_of_snd (by with_reducible assumption) ?_) | (refine wf_of_fst (by with_reducible assumption) ?_) | split

theorem wf_State_rtEpoch (h : s.wf = true) (v : Word) :
    (State.rtEpoch s v).wf = true := by
  unfold State.rtEpoch
  repeat' first | with_reducible assumption | with_reducible apply wf_State_rtBad | with_reducible apply wf_wr | with_reducible apply wf_ite | with_reducible apply wf_ite1 | with_reducible apply wf_ite2

theorem wf_State_lpCtrl (h : s.wf = true) (l : Nat) (v : Word) :
    (State.lpCtrl s l v).wf = true := by
  unfold State.lpCtrl
  try dsimp only
  repeat' first | with_reducible assumption | (intro _) | with_reducible apply wf_wr | with_reducible apply wf_State_lpDown | with_reducible apply wf_clr | with_reducible apply wf_State_lpRetrain | with_reducible apply wf_State_trainStart | with_reducible apply wf_ite | with_reducible apply wf_ite1 | with_reducible apply wf_ite2 | (dsimp only) | (refine wf_of_snd (by with_reducible assumption) ?_) | (refine wf_of_fst (by with_reducible assumption) ?_) | split

theorem wf_State_hpTrain (h : s.wf = true) (n : Nat) :
    (State.hpTrain s n).wf = true := by
  unfold State.hpTrain
  repeat' first | with_reducible assumption | with_reducible apply wf_wrFld | with_reducible apply wf_ite | with_reducible apply wf_ite1 | with_reducible apply wf_ite2

theorem wf_State_expanderGone (h : s.wf = true) (n : Nat) :
    (State.expanderGone s n).wf = true := by
  unfold State.expanderGone
  try dsimp only
  repeat' first | with_reducible assumption | (intro _) | with_reducible apply wf_State_syncUse | with_reducible apply wf_set | with_reducible apply wf_ite | with_reducible apply wf_ite1 | with_reducible apply wf_ite2 | with_reducible apply wf_regs | with_reducible apply wf_force | with_reducible apply wf_mem | with_reducible apply wf_scr | (simp only [wf_mk]; refine ⟨⟨⟨?_, ?_⟩, ?_⟩, ?_⟩)

theorem wf_State_hpDown (h : s.wf = true) (n : Nat) (state : Nat) :
    (State.hpDown s n state).wf = true := by
  unfold State.hpDown
  repeat' first | with_reducible assumption | (intro _) | with_reducible apply wf_when | with_reducible apply wf_State_expanderGone | with_reducible apply wf_State_hostDown

theorem wf_State_hpCtrl (h : s.wf = true) (n : Nat) (v : Word) :
    (State.hpCtrl s n v).wf = true := by
  unfold State.hpCtrl
  try dsimp only
  repeat' first | with_reducible assumption | (intro _) | with_reducible apply wf_wr | with_reducible apply wf_State_hpDown | with_reducible apply wf_clr | with_reducible apply wf_when | with_reducible apply wf_State_hpTrain | with_reducible apply wf_ite | with_reducible apply wf_ite1 | with_reducible apply wf_ite2

theorem wf_State_hpUp (h : s.wf = true) (n : Nat) (l : HostLink) :
    (State.hpUp s n l).wf = true := by
  unfold State.hpUp
  try dsimp only
  repeat' first | with_reducible assumption | (intro _) | with_reducible apply wf_wrn | with_reducible apply wf_set | with_reducible apply wf_State_trace | with_reducible apply wf_regs | with_reducible apply wf_force | with_reducible apply wf_mem | with_reducible apply wf_scr | (simp only [wf_mk]; refine ⟨⟨⟨?_, ?_⟩, ?_⟩, ?_⟩)

theorem wf_State_hpTrained (h : s.wf = true) (n : Nat) (l : HostLink) :
    (State.hpTrained s n l).wf = true := by
  unfold State.hpTrained
  try dsimp only
  repeat' first | with_reducible assumption | (intro _) | with_reducible apply wf_State_hpUp | with_reducible apply wf_State_syncUse | with_reducible apply wf_ite | with_reducible apply wf_ite1 | with_reducible apply wf_ite2 | with_reducible apply wf_regs | with_reducible apply wf_force | with_reducible apply wf_mem | with_reducible apply wf_scr | (simp only [wf_mk]; refine ⟨⟨⟨?_, ?_⟩, ?_⟩, ?_⟩)

theorem wf_State_clkLost (h : s.wf = true) (k : Nat) :
    (State.clkLost s k).wf = true := by
  unfold State.clkLost
  try dsimp only
  repeat' first | with_reducible assumption | (intro _) | with_reducible apply wf_clr | with_reducible apply wf_set | with_reducible apply wf_ite | with_reducible apply wf_ite1 | with_reducible apply wf_ite2

theorem wf_State_clkBack (h : s.wf = true) (k : Nat) :
    (State.clkBack s k).wf = true := by
  unfold State.clkBack
  repeat' first | with_reducible assumption | with_reducible apply wf_set

theorem wf_State_setHref (h : s.wf = true) (g : Nat) (on : Bool) :
    (State.setHref s g on).wf = true := by
  unfold State.setHref
  try dsimp only
  repeat' first | with_reducible assumption | (intro _)  | with_reducible apply wf_ite | with_reducible apply wf_ite1 | with_reducible apply wf_ite2 | with_reducible apply wf_regs | with_reducible apply wf_force | with_reducible apply wf_mem | with_reducible apply wf_scr | (simp only [wf_mk]; refine ⟨⟨⟨?_, ?_⟩, ?_⟩, ?_⟩)

theorem wf_State_hostReq (h : s.wf = true) (i : Instr) (n : Nat) (dpa : Nat) (kind : Nat) (ideOk : Bool) (write : Bool) (f : Nat → Nat → Nat → State → State) (hf_f : ∀ x0 x1 x2 (t : State), t.wf = true → (f x0 x1 x2 t).wf = true) :
    (State.hostReq s i n dpa kind ideOk write f).wf = true := by
  unfold State.hostReq
  try dsimp only
  repeat' first | with_reducible assumption | (intro _) | with_reducible apply hf_f | with_reducible apply wf_State_pviol | with_reducible apply wf_State_served | with_reducible apply wf_set | with_reducible apply wf_State_hostEnd | with_reducible apply wf_State_write | with_reducible apply wf_ite | with_reducible apply wf_ite1 | with_reducible apply wf_ite2 | with_reducible apply wf_regs | with_reducible apply wf_force | with_reducible apply wf_mem | with_reducible apply wf_scr | (simp only [wf_mk]; refine ⟨⟨⟨?_, ?_⟩, ?_⟩, ?_⟩) | (dsimp only) | (refine wf_of_snd (by with_reducible assumption) ?_) | (refine wf_of_fst (by with_reducible assumption) ?_) | split

theorem wf_State_hostAway (h : s.wf = true) (n : Nat) (dpa : Nat) (w : Nat) (kind : Nat) (x : Nat) (a : Nat) (m : Msg) :
    (State.hostAway s n dpa w kind x a m).wf = true := by
  unfold State.hostAway
  try dsimp only
  repeat' first | with_reducible assumption | (intro _) | with_reducible apply wf_State_hostEnd | with_reducible apply wf_each | with_reducible apply wf_State_ask | with_reducible apply wf_ite | with_reducible apply wf_ite1 | with_reducible apply wf_ite2 | with_reducible apply wf_regs | with_reducible apply wf_force | with_reducible apply wf_mem | with_reducible apply wf_scr | (simp only [wf_mk]; refine ⟨⟨⟨?_, ?_⟩, ?_⟩, ?_⟩) | (dsimp only) | (refine wf_of_snd (by with_reducible assumption) ?_) | (refine wf_of_fst (by with_reducible assumption) ?_) | split

theorem wf_State_hostHome (h : s.wf = true) (n : Nat) (dpa : Nat) (w : Nat) (x : Nat) (a : Nat) (k : ReqKind) :
    (State.hostHome s n dpa w x a k).wf = true := by
  unfold State.hostHome
  repeat' first | with_reducible assumption | with_reducible apply wf_State_homeReq

theorem wf_State_msixMask (h : s.wf = true) (port : Nat) (vector : Nat) (on : Bool) :
    (State.msixMask s port vector on).wf = true := by
  unfold State.msixMask
  try dsimp only
  repeat' first | with_reducible assumption | (intro _) | with_reducible apply wf_when | with_reducible apply wf_State_msix | with_reducible apply wf_ite | with_reducible apply wf_ite1 | with_reducible apply wf_ite2 | with_reducible apply wf_regs | with_reducible apply wf_force | with_reducible apply wf_mem | with_reducible apply wf_scr | (simp only [wf_mk]; refine ⟨⟨⟨?_, ?_⟩, ?_⟩, ?_⟩)

end Sys2Proof.Machine
end

