-- ==== Sys2Proof/Laws/KeepTime.lean ====
section
/-! SUPPORT. Every operation of Machine/Time.lean keeps the stores of the state in their canonical form. -/

namespace Sys2Proof.Machine

variable {s : State}

theorem wf_State_ptp (h : s.wf = true) (net : Nat) (o : Int) :
    (State.ptp s net o).wf = true := by
  unfold State.ptp
  try dsimp only
  repeat' first | with_reducible assumption | (intro _) | with_reducible apply wf_wr | with_reducible apply wf_wrFld | with_reducible apply wf_when | with_reducible apply wf_set | with_reducible apply wf_ite | with_reducible apply wf_ite1 | with_reducible apply wf_ite2 | with_reducible apply wf_regs | with_reducible apply wf_force | with_reducible apply wf_mem | with_reducible apply wf_scr | (simp only [wf_mk]; refine ⟨⟨⟨?_, ?_⟩, ?_⟩, ?_⟩) | (dsimp only) | (refine wf_of_snd (by with_reducible assumption) ?_) | (refine wf_of_fst (by with_reducible assumption) ?_) | split

theorem wf_State_discipline (h : s.wf = true) :
    (State.discipline s).wf = true := by
  unfold State.discipline
  try dsimp only
  repeat' first | with_reducible assumption | (intro _) | with_reducible apply wf_State_ptp | with_reducible apply wf_regs | with_reducible apply wf_force | with_reducible apply wf_mem | with_reducible apply wf_scr | (simp only [wf_mk]; refine ⟨⟨⟨?_, ?_⟩, ?_⟩, ?_⟩) | (dsimp only) | (refine wf_of_snd (by with_reducible assumption) ?_) | (refine wf_of_fst (by with_reducible assumption) ?_) | split

theorem wf_State_ptpSync (h : s.wf = true) (origin : Nat) (arrival : Nat) :
    (State.ptpSync s origin arrival).wf = true := by
  unfold State.ptpSync
  try dsimp only
  repeat' first | with_reducible assumption | (intro _) | with_reducible apply wf_emit | with_reducible apply wf_State_discipline | with_reducible apply wf_regs | with_reducible apply wf_force | with_reducible apply wf_mem | with_reducible apply wf_scr | (simp only [wf_mk]; refine ⟨⟨⟨?_, ?_⟩, ?_⟩, ?_⟩)

theorem wf_State_ptpTake (h : s.wf = true) (m : PtpMsg) :
    (State.ptpTake s m).wf = true := by
  unfold State.ptpTake
  repeat' first | with_reducible assumption | with_reducible apply wf_State_ptpSync | with_reducible apply wf_State_discipline | with_reducible apply wf_regs | with_reducible apply wf_force | with_reducible apply wf_mem | with_reducible apply wf_scr | (simp only [wf_mk]; refine ⟨⟨⟨?_, ?_⟩, ?_⟩, ?_⟩) | (dsimp only) | (refine wf_of_snd (by with_reducible assumption) ?_) | (refine wf_of_fst (by with_reducible assumption) ?_) | split

theorem wf_State_merCtrl (h : s.wf = true) (port : Nat) (v : Word) :
    (State.merCtrl s port v).wf = true := by
  unfold State.merCtrl
  repeat' first | with_reducible assumption | with_reducible apply wf_State_plainWrite | with_reducible apply wf_set | with_reducible apply wf_ite | with_reducible apply wf_ite1 | with_reducible apply wf_ite2

end Sys2Proof.Machine
end

