-- ==== Sys2Proof/Laws/KeepStart.lean ====
section
/-! SUPPORT. Every operation of Machine/Start.lean keeps the stores of the state in their canonical form. -/

namespace Sys2Proof.Machine

variable {s : State}

theorem wf_State_norProgram (h : s.wf = true) (n : Nat) :
    (State.norProgram s n).wf = true := by
  unfold State.norProgram
  repeat' first | with_reducible assumption | (intro _) | with_reducible apply wf_each | with_reducible apply wf_State_norErase | with_reducible apply wf_State_norPut

theorem wf_State_norPartial (h : s.wf = true) :
    (State.norPartial s).1.wf = true := by
  unfold State.norPartial
  try dsimp only
  repeat' first | with_reducible assumption | (intro _) | with_reducible apply wf_State_fresh | with_reducible apply wf_State_norProgram | with_reducible apply wf_State_freeBytes | with_reducible apply wf_State_norErase | with_reducible apply wf_State_norPut

theorem wf_State_norGrant (h : s.wf = true) :
    (State.norGrant s).wf = true := by
  unfold State.norGrant
  repeat' first | with_reducible assumption  | with_reducible apply wf_regs | with_reducible apply wf_force | with_reducible apply wf_mem | with_reducible apply wf_scr | (simp only [wf_mk]; refine ⟨⟨⟨?_, ?_⟩, ?_⟩, ?_⟩)

theorem wf_State_dark (h : s.wf = true) :
    (State.dark s).wf = true := by
  unfold State.dark
  try dsimp only
  repeat' first | with_reducible assumption | (intro _) | with_reducible apply wf_State_norPartial | with_reducible apply wf_State_shutdown | with_reducible apply wf_when | with_reducible apply wf_State_norGrant | with_reducible apply wf_ite | with_reducible apply wf_ite1 | with_reducible apply wf_ite2 | with_reducible apply wf_regs | with_reducible apply wf_force | with_reducible apply wf_mem | with_reducible apply wf_scr | with_reducible apply swf_sset | with_reducible apply wf_putBytes | with_reducible apply swf_filter | (simp only [wf_mk]; refine ⟨⟨⟨?_, ?_⟩, ?_⟩, ?_⟩) | (unfold State.keptRegs; with_reducible apply swf_filter) | exact rfl

theorem wf_State_railsOff (h : s.wf = true) :
    (State.railsOff s).wf = true := by
  unfold State.railsOff
  try dsimp only
  repeat' first | with_reducible assumption | (intro _) | with_reducible apply wf_State_dark | with_reducible apply wf_regs | with_reducible apply wf_force | with_reducible apply wf_mem | with_reducible apply wf_scr | (simp only [wf_mk]; refine ⟨⟨⟨?_, ?_⟩, ?_⟩, ?_⟩)

theorem wf_State_moduleReset (h : s.wf = true) (cause : Nat) :
    (State.moduleReset s cause).wf = true := by
  unfold State.moduleReset
  try dsimp only
  repeat' first | with_reducible assumption | (intro _) | with_reducible apply wf_wrn | with_reducible apply wf_State_dark | with_reducible apply wf_regs | with_reducible apply wf_force | with_reducible apply wf_mem | with_reducible apply wf_scr | (simp only [wf_mk]; refine ⟨⟨⟨?_, ?_⟩, ?_⟩, ?_⟩)

theorem wf_State_shutdown (h : s.wf = true) (cause : Nat) :
    (State.shutdown s cause).wf = true := by
  unfold State.shutdown
  try dsimp only
  repeat' first | with_reducible assumption | (intro _) | with_reducible apply wf_wrn | with_reducible apply wf_State_railsOff | with_reducible apply wf_ite | with_reducible apply wf_ite1 | with_reducible apply wf_ite2 | with_reducible apply wf_regs | with_reducible apply wf_force | with_reducible apply wf_mem | with_reducible apply wf_scr | (simp only [wf_mk]; refine ⟨⟨⟨?_, ?_⟩, ?_⟩, ?_⟩) | (dsimp only) | (refine wf_of_snd (by with_reducible assumption) ?_) | (refine wf_of_fst (by with_reducible assumption) ?_) | split

theorem wf_State_startFail (h : s.wf = true) (reason : Nat) :
    (State.startFail s reason).wf = true := by
  unfold State.startFail
  try dsimp only
  repeat' first | with_reducible assumption | (intro _) | with_reducible apply wf_State_dark | with_reducible apply wf_wrn | with_reducible apply wf_regs | with_reducible apply wf_force | with_reducible apply wf_mem | with_reducible apply wf_scr | (simp only [wf_mk]; refine ⟨⟨⟨?_, ?_⟩, ?_⟩, ?_⟩)

theorem wf_State_almRegs (h : s.wf = true) (f : Nat → Byte) :
    (State.almRegs s f).wf = true := by
  unfold State.almRegs
  try dsimp only
  repeat' first | with_reducible assumption | (intro _) | with_reducible apply wf_wrn | with_reducible apply wf_wr | with_reducible apply wf_each | with_reducible apply wf_ite | with_reducible apply wf_ite1 | with_reducible apply wf_ite2

theorem wf_State_almLoad (h : s.wf = true) (f : Nat → Byte) :
    (State.almLoad s f).wf = true := by
  unfold State.almLoad
  try dsimp only
  repeat' first | with_reducible assumption | (intro _) | with_reducible apply wf_State_almRegs | with_reducible apply wf_regs | with_reducible apply wf_force | with_reducible apply wf_mem | with_reducible apply wf_scr | (simp only [wf_mk]; refine ⟨⟨⟨?_, ?_⟩, ?_⟩, ?_⟩)

theorem wf_State_startRegs (h : s.wf = true) :
    (State.startRegs s).wf = true := by
  unfold State.startRegs
  try dsimp only
  repeat' first | with_reducible assumption | (intro _) | with_reducible apply wf_State_shutdown | with_reducible apply wf_wrn | with_reducible apply wf_State_idSync | with_reducible apply wf_when | with_reducible apply wf_set | with_reducible apply wf_State_errLogOpen | with_reducible apply wf_ite | with_reducible apply wf_ite1 | with_reducible apply wf_ite2

theorem wf_State_startGo (h : s.wf = true) (f : Nat → Byte) :
    (State.startGo s f).wf = true := by
  unfold State.startGo
  try dsimp only
  repeat' first | with_reducible assumption | (intro _) | with_reducible apply wf_State_almLoad | with_reducible apply wf_State_startRegs | with_reducible apply wf_each | with_reducible apply wf_State_hpTrain | with_reducible apply wf_ite | with_reducible apply wf_ite1 | with_reducible apply wf_ite2 | with_reducible apply wf_regs | with_reducible apply wf_force | with_reducible apply wf_mem | with_reducible apply wf_scr | with_reducible apply swf_sset | with_reducible apply wf_putBytes | with_reducible apply swf_filter | (simp only [wf_mk]; refine ⟨⟨⟨?_, ?_⟩, ?_⟩, ?_⟩)

theorem wf_State_start (h : s.wf = true) (vin : Nat) (sysclk : Bool) (nor : Bool) (sigAlm : Bool) (sigFw : Bool) :
    (State.start s vin sysclk nor sigAlm sigFw).wf = true := by
  unfold State.start
  try dsimp only
  repeat' first | with_reducible assumption | (intro _) | with_reducible apply wf_State_startFail | with_reducible apply wf_State_startGo | with_reducible apply wf_ite | with_reducible apply wf_ite1 | with_reducible apply wf_ite2 | with_reducible apply wf_regs | with_reducible apply wf_force | with_reducible apply wf_mem | with_reducible apply wf_scr | (simp only [wf_mk]; refine ⟨⟨⟨?_, ?_⟩, ?_⟩, ?_⟩)

theorem wf_State_goReady (h : s.wf = true) (test : Word) :
    (State.goReady s test).wf = true := by
  unfold State.goReady
  try dsimp only
  repeat' first | with_reducible assumption | (intro _) | with_reducible apply wf_State_shutdown | with_reducible apply wf_wr | with_reducible apply wf_wrn | with_reducible apply wf_when | with_reducible apply wf_wrf | with_reducible apply wf_wrFld | with_reducible apply wf_State_syncUse | with_reducible apply wf_each | with_reducible apply wf_State_trainStart | with_reducible apply wf_ite | with_reducible apply wf_ite1 | with_reducible apply wf_ite2 | with_reducible apply wf_regs | with_reducible apply wf_force | with_reducible apply wf_mem | with_reducible apply wf_scr | with_reducible apply swf_sset | with_reducible apply wf_putBytes | with_reducible apply swf_filter | (simp only [wf_mk]; refine ⟨⟨⟨?_, ?_⟩, ?_⟩, ?_⟩) | (dsimp only) | (refine wf_of_snd (by with_reducible assumption) ?_) | (refine wf_of_fst (by with_reducible assumption) ?_) | split

theorem wf_State_almBad (h : s.wf = true) :
    (State.almBad s).wf = true := by
  unfold State.almBad
  repeat' first | with_reducible assumption | with_reducible apply wf_set

theorem wf_State_updFail (h : s.wf = true) (reason : Nat) (sectors : Nat) :
    (State.updFail s reason sectors).wf = true := by
  unfold State.updFail
  repeat' first | with_reducible assumption | with_reducible apply wf_wrn | with_reducible apply wf_set

theorem wf_State_almUpd (h : s.wf = true) (op : Nat) (confirm : Nat) :
    (State.almUpd s op confirm).wf = true := by
  unfold State.almUpd
  try dsimp only
  repeat' first | with_reducible assumption | (intro _) | with_reducible apply wf_State_almBad | with_reducible apply wf_wrn | with_reducible apply wf_State_fresh | with_reducible apply wf_State_norProgram | with_reducible apply wf_State_updFail | with_reducible apply wf_ite | with_reducible apply wf_ite1 | with_reducible apply wf_ite2 | with_reducible apply wf_regs | with_reducible apply wf_force | with_reducible apply wf_mem | with_reducible apply wf_scr | (simp only [wf_mk]; refine ⟨⟨⟨?_, ?_⟩, ?_⟩, ?_⟩) | (dsimp only) | (refine wf_of_snd (by with_reducible assumption) ?_) | (refine wf_of_fst (by with_reducible assumption) ?_) | split

theorem wf_State_sampleRegs (h : s.wf = true) (x : Sample) :
    (State.sampleRegs s x).wf = true := by
  unfold State.sampleRegs
  try dsimp only
  repeat' first | with_reducible assumption | (intro _) | with_reducible apply wf_wrn | with_reducible apply wf_regs | with_reducible apply wf_force | with_reducible apply wf_mem | with_reducible apply wf_scr | (simp only [wf_mk]; refine ⟨⟨⟨?_, ?_⟩, ?_⟩, ?_⟩)

theorem wf_State_warnings (h : s.wf = true) (x : Sample) :
    (State.warnings s x).wf = true := by
  unfold State.warnings
  try dsimp only
  repeat' first | with_reducible assumption | (intro _) | with_reducible apply wf_when | with_reducible apply wf_set | with_reducible apply wf_ite | with_reducible apply wf_ite1 | with_reducible apply wf_ite2 | with_reducible apply wf_regs | with_reducible apply wf_force | with_reducible apply wf_mem | with_reducible apply wf_scr | (simp only [wf_mk]; refine ⟨⟨⟨?_, ?_⟩, ?_⟩, ?_⟩) | (dsimp only) | (refine wf_of_snd (by with_reducible assumption) ?_) | (refine wf_of_fst (by with_reducible assumption) ?_) | split

theorem wf_State_sample (h : s.wf = true) (x : Sample) :
    (State.sample s x).wf = true := by
  unfold State.sample
  try dsimp only
  repeat' first | with_reducible assumption | (intro _) | with_reducible apply wf_State_dark | with_reducible apply wf_State_sampleRegs | with_reducible apply wf_State_warnings | with_reducible apply wf_State_shutdown | with_reducible apply wf_ite | with_reducible apply wf_ite1 | with_reducible apply wf_ite2 | with_reducible apply wf_regs | with_reducible apply wf_force | with_reducible apply wf_mem | with_reducible apply wf_scr | (simp only [wf_mk]; refine ⟨⟨⟨?_, ?_⟩, ?_⟩, ?_⟩) | (dsimp only) | (refine wf_of_snd (by with_reducible assumption) ?_) | (refine wf_of_fst (by with_reducible assumption) ?_) | split

theorem wf_State_pwrCmd (h : s.wf = true) (op : Nat) (confirm : Nat) :
    (State.pwrCmd s op confirm).wf = true := by
  unfold State.pwrCmd
  repeat' first | with_reducible assumption | with_reducible apply wf_set | with_reducible apply wf_ite | with_reducible apply wf_ite1 | with_reducible apply wf_ite2 | with_reducible apply wf_regs | with_reducible apply wf_force | with_reducible apply wf_mem | with_reducible apply wf_scr | (simp only [wf_mk]; refine ⟨⟨⟨?_, ?_⟩, ?_⟩, ?_⟩) | (dsimp only) | (refine wf_of_snd (by with_reducible assumption) ?_) | (refine wf_of_fst (by with_reducible assumption) ?_) | split

theorem wf_State_dieRetain (h : s.wf = true) (on : Bool) :
    (State.dieRetain s on).wf = true := by
  unfold State.dieRetain
  try dsimp only
  repeat' first | with_reducible assumption | (intro _) | with_reducible apply wf_each | with_reducible apply wf_wrFld | with_reducible apply wf_ite | with_reducible apply wf_ite1 | with_reducible apply wf_ite2

theorem wf_State_engineClocks (h : s.wf = true) (on : Bool) :
    (State.engineClocks s on).wf = true := by
  unfold State.engineClocks
  repeat' first | with_reducible assumption | (intro _) | with_reducible apply wf_each | with_reducible apply wf_wrFld | with_reducible apply wf_ite | with_reducible apply wf_ite1 | with_reducible apply wf_ite2

end Sys2Proof.Machine
end

