-- ==== Sys2Proof/Laws/KeepHealth.lean ====
section
/-! SUPPORT. Every operation of Machine/Health.lean keeps the stores of the state in their canonical form. -/

namespace Sys2Proof.Machine

variable {s : State}

theorem wf_State_hmEvent (h : s.wf = true) (m : Word) :
    (State.hmEvent s m).wf = true := by
  unfold State.hmEvent
  repeat' first | with_reducible assumption | with_reducible apply wf_set

theorem wf_State_hmBad (h : s.wf = true) :
    (State.hmBad s).wf = true := by
  unfold State.hmBad
  repeat' first | with_reducible assumption | with_reducible apply wf_State_hmEvent

theorem wf_State_setSearch (h : s.wf = true) (h : Search) :
    (State.setSearch s h).wf = true := by
  unfold State.setSearch
  repeat' first | with_reducible assumption | (intro _)  | with_reducible apply wf_ite | with_reducible apply wf_ite1 | with_reducible apply wf_ite2 | with_reducible apply wf_regs | with_reducible apply wf_force | with_reducible apply wf_mem | with_reducible apply wf_scr | (simp only [wf_mk]; refine ⟨⟨⟨?_, ?_⟩, ?_⟩, ?_⟩)

theorem wf_State_dropSearch (h : s.wf = true) (e : Nat) :
    (State.dropSearch s e).wf = true := by
  unfold State.dropSearch
  repeat' first | with_reducible assumption | (intro _)  | with_reducible apply wf_regs | with_reducible apply wf_force | with_reducible apply wf_mem | with_reducible apply wf_scr | (simp only [wf_mk]; refine ⟨⟨⟨?_, ?_⟩, ?_⟩, ?_⟩)

theorem wf_State_searchEnd (h : s.wf = true) (h : Search) :
    (State.searchEnd s h).wf = true := by
  unfold State.searchEnd
  try dsimp only
  repeat' first | with_reducible assumption | (intro _) | with_reducible apply wf_State_dropSearch | with_reducible apply wf_State_replayStop | with_reducible apply wf_each | with_reducible apply wf_State_suspectSync | with_reducible apply wf_State_searchSync

theorem wf_State_engineFaulty (h : s.wf = true) (h : Search) :
    (State.engineFaulty s h).wf = true := by
  unfold State.engineFaulty
  try dsimp only
  repeat' first | with_reducible assumption | (intro _) | with_reducible apply wf_set | with_reducible apply wf_State_hmEvent | with_reducible apply wf_State_errLog | with_reducible apply wf_State_searchEnd

theorem wf_State_guilty (h : s.wf = true) (h : Search) (x : Nat) :
    (State.guilty s h x).wf = true := by
  unfold State.guilty
  try dsimp only
  repeat' first | with_reducible assumption | (intro _) | with_reducible apply wf_State_fault | with_reducible apply wf_set | with_reducible apply wf_State_hmEvent | with_reducible apply wf_State_errLog | with_reducible apply wf_wrf | with_reducible apply wf_State_searchEnd | with_reducible apply wf_State_engineOut

theorem wf_State_unitGone (h : s.wf = true) (u : Nat) :
    (State.unitGone s u).wf = true := by
  unfold State.unitGone
  try dsimp only
  repeat' first | with_reducible assumption | (intro _) | with_reducible apply wf_wrn | with_reducible apply wf_each | with_reducible apply wf_State_syncScrub | with_reducible apply wf_regs | with_reducible apply wf_force | with_reducible apply wf_mem | with_reducible apply wf_scr | (simp only [wf_mk]; refine ⟨⟨⟨?_, ?_⟩, ?_⟩, ?_⟩)

theorem wf_State_stackRetrain (h : s.wf = true) (k : Nat) :
    (State.stackRetrain s k).wf = true := by
  unfold State.stackRetrain
  try dsimp only
  repeat' first | with_reducible assumption | (intro _) | with_reducible apply wf_wrFld | with_reducible apply wf_State_unitSet | with_reducible apply wf_State_loseUnit | with_reducible apply wf_State_unitGone | with_reducible apply wf_State_cpLoss | with_reducible apply wf_State_flashCacheLost | with_reducible apply wf_State_syncUse | with_reducible apply wf_elim | with_reducible apply wf_regs | with_reducible apply wf_force | with_reducible apply wf_mem | with_reducible apply wf_scr | (simp only [wf_mk]; refine ⟨⟨⟨?_, ?_⟩, ?_⟩, ?_⟩)

theorem wf_State_stackBack (h : s.wf = true) (k : Nat) :
    (State.stackBack s k).wf = true := by
  unfold State.stackBack
  try dsimp only
  repeat' first | with_reducible assumption | (intro _) | with_reducible apply wf_State_syncUse | with_reducible apply wf_ite | with_reducible apply wf_ite1 | with_reducible apply wf_ite2 | with_reducible apply wf_regs | with_reducible apply wf_force | with_reducible apply wf_mem | with_reducible apply wf_scr | (simp only [wf_mk]; refine ⟨⟨⟨?_, ?_⟩, ?_⟩, ?_⟩)

theorem wf_State_stackReturn (h : s.wf = true) (k : Nat) :
    (State.stackReturn s k).wf = true := by
  unfold State.stackReturn
  repeat' first | with_reducible assumption | with_reducible apply wf_State_stackBack | with_reducible apply wf_regs | with_reducible apply wf_force | with_reducible apply wf_mem | with_reducible apply wf_scr | (simp only [wf_mk]; refine ⟨⟨⟨?_, ?_⟩, ?_⟩, ?_⟩)

theorem wf_State_dieRegs (h : s.wf = true) (d : Nat) :
    (State.dieRegs s d).wf = true := by
  unfold State.dieRegs
  try dsimp only
  repeat' first | with_reducible assumption | (intro _) | with_reducible apply wf_each | with_reducible apply wf_wrf | with_reducible apply wf_when | with_reducible apply wf_wrFld

theorem wf_State_coresGone (h : s.wf = true) (d : Nat) :
    (State.coresGone s d).wf = true := by
  unfold State.coresGone
  try dsimp only
  repeat' first | with_reducible assumption | (intro _) | with_reducible apply wf_each | with_reducible apply wf_State_dropHolder | with_reducible apply wf_State_onTxn | with_reducible apply wf_ite | with_reducible apply wf_ite1 | with_reducible apply wf_ite2 | with_reducible apply wf_regs | with_reducible apply wf_force | with_reducible apply wf_mem | with_reducible apply wf_scr | (simp only [wf_mk]; refine ⟨⟨⟨?_, ?_⟩, ?_⟩, ?_⟩) | (dsimp only) | (refine wf_of_snd (by with_reducible assumption) ?_) | (refine wf_of_fst (by with_reducible assumption) ?_) | split

theorem wf_State_switchLost (h : s.wf = true) (d : Nat) :
    (State.switchLost s d).wf = true := by
  unfold State.switchLost
  repeat' first | with_reducible assumption | (intro _) | with_reducible apply wf_State_served | with_reducible apply wf_regs | with_reducible apply wf_force | with_reducible apply wf_mem | with_reducible apply wf_scr | (simp only [wf_mk]; refine ⟨⟨⟨?_, ?_⟩, ?_⟩, ?_⟩)

theorem wf_State_dieWork (h : s.wf = true) (d : Nat) :
    (State.dieWork s d).wf = true := by
  unfold State.dieWork
  try dsimp only
  repeat' first | with_reducible assumption | (intro _) | with_reducible apply wf_each | with_reducible apply wf_State_putBack | with_reducible apply wf_State_searchEnd | with_reducible apply wf_ite | with_reducible apply wf_ite1 | with_reducible apply wf_ite2 | with_reducible apply wf_regs | with_reducible apply wf_force | with_reducible apply wf_mem | with_reducible apply wf_scr | with_reducible apply swf_sset | with_reducible apply wf_putBytes | with_reducible apply swf_filter | (simp only [wf_mk]; refine ⟨⟨⟨?_, ?_⟩, ?_⟩, ?_⟩) | (simp only [id_eq]; assumption) | (dsimp only) | (refine wf_of_snd (by with_reducible assumption) ?_) | (refine wf_of_fst (by with_reducible assumption) ?_) | split

theorem wf_State_dieReset (h : s.wf = true) (d : Nat) :
    (State.dieReset s d).wf = true := by
  unfold State.dieReset
  try dsimp only
  repeat' first | with_reducible assumption | (intro _) | with_reducible apply wf_each | with_reducible apply wf_State_fault | with_reducible apply wf_State_dropEnt | with_reducible apply wf_State_hpDown | with_reducible apply wf_State_lpDown | with_reducible apply wf_State_dieWork | with_reducible apply wf_State_coresGone | with_reducible apply wf_State_switchLost | with_reducible apply wf_State_dieRegs | with_reducible apply wf_wrFld | with_reducible apply wf_wrn | with_reducible apply wf_clr | with_reducible apply wf_State_hmEvent | with_reducible apply wf_State_errLog | with_reducible apply wf_State_dirSync | with_reducible apply wf_inflightSync | with_reducible apply wf_State_redSync | with_reducible apply wf_ite | with_reducible apply wf_ite1 | with_reducible apply wf_ite2 | with_reducible apply wf_regs | with_reducible apply wf_force | with_reducible apply wf_mem | with_reducible apply wf_scr | (simp only [wf_mk]; refine ⟨⟨⟨?_, ?_⟩, ?_⟩, ?_⟩) | (dsimp only) | (refine wf_of_snd (by with_reducible assumption) ?_) | (refine wf_of_fst (by with_reducible assumption) ?_) | split

theorem wf_State_dieRetrain (h : s.wf = true) (d : Nat) :
    (State.dieRetrain s d).wf = true := by
  unfold State.dieRetrain
  try dsimp only
  repeat' first | with_reducible assumption | (intro _) | with_reducible apply wf_wrFld | with_reducible apply wf_wrn | with_reducible apply wf_each | with_reducible apply wf_set | with_reducible apply wf_State_trainStart

theorem wf_State_dieBack (h : s.wf = true) (d : Nat) :
    (State.dieBack s d).wf = true := by
  unfold State.dieBack
  try dsimp only
  repeat' first | with_reducible assumption | (intro _) | with_reducible apply wf_wrFld | with_reducible apply wf_wrn | with_reducible apply wf_State_stackReturn | with_reducible apply wf_each | with_reducible apply wf_clr | with_reducible apply wf_set | with_reducible apply wf_State_recallLine | with_reducible apply wf_State_homes | with_reducible apply wf_inflightSync | with_reducible apply wf_State_hpTrain | with_reducible apply wf_regs | with_reducible apply wf_force | with_reducible apply wf_mem | with_reducible apply wf_scr | (simp only [wf_mk]; refine ⟨⟨⟨?_, ?_⟩, ?_⟩, ?_⟩)

theorem wf_State_dieCmd (h : s.wf = true) (d : Nat) :
    (State.dieCmd s d).wf = true := by
  unfold State.dieCmd
  repeat' first | with_reducible assumption | (intro _) | with_reducible apply wf_State_moduleReset | with_reducible apply wf_ite | with_reducible apply wf_ite1 | with_reducible apply wf_ite2 | with_reducible apply wf_regs | with_reducible apply wf_force | with_reducible apply wf_mem | with_reducible apply wf_scr | (simp only [wf_mk]; refine ⟨⟨⟨?_, ?_⟩, ?_⟩, ?_⟩)

theorem wf_State_pathDown (h : s.wf = true) (a : Nat) (b : Nat) :
    (State.pathDown s a b).wf = true := by
  unfold State.pathDown
  try dsimp only
  repeat' first | with_reducible assumption | (intro _) | with_reducible apply wf_set | with_reducible apply wf_clr | with_reducible apply wf_wrFld | with_reducible apply wf_State_moduleReset | with_reducible apply wf_State_dieCmd | with_reducible apply wf_ite | with_reducible apply wf_ite1 | with_reducible apply wf_ite2 | (dsimp only) | (refine wf_of_snd (by with_reducible assumption) ?_) | (refine wf_of_fst (by with_reducible assumption) ?_) | split

theorem wf_State_hmCmd (h : s.wf = true) (op : Nat) (unit : Nat) (ctx : Nat) (confirm : Nat) :
    (State.hmCmd s op unit ctx confirm).wf = true := by
  unfold State.hmCmd
  repeat' first | with_reducible assumption | (intro _) | with_reducible apply wf_State_fault | with_reducible apply wf_State_abortStart | with_reducible apply wf_State_hmBad | with_reducible apply wf_State_dieCmd | with_reducible apply wf_State_moduleReset | with_reducible apply wf_ite | with_reducible apply wf_ite1 | with_reducible apply wf_ite2 | with_reducible apply wf_regs | with_reducible apply wf_force | with_reducible apply wf_mem | with_reducible apply wf_scr | (simp only [wf_mk]; refine ⟨⟨⟨?_, ?_⟩, ?_⟩, ?_⟩) | (dsimp only) | (refine wf_of_snd (by with_reducible assumption) ?_) | (refine wf_of_fst (by with_reducible assumption) ?_) | split

theorem wf_State_stackLate (h : s.wf = true) (k : Nat) :
    (State.stackLate s k).wf = true := by
  unfold State.stackLate
  try dsimp only
  repeat' first | with_reducible assumption | (intro _) | with_reducible apply wf_State_dieCmd | with_reducible apply wf_ite | with_reducible apply wf_ite1 | with_reducible apply wf_ite2 | with_reducible apply wf_elim | with_reducible apply wf_regs | with_reducible apply wf_force | with_reducible apply wf_mem | with_reducible apply wf_scr | (simp only [wf_mk]; refine ⟨⟨⟨?_, ?_⟩, ?_⟩, ?_⟩)

theorem wf_State_linkLate (h : s.wf = true) (l : Nat) :
    (State.linkLate s l).wf = true := by
  unfold State.linkLate
  try dsimp only
  repeat' first | with_reducible assumption | (intro _) | with_reducible apply wf_State_lpDown | with_reducible apply wf_ite | with_reducible apply wf_ite1 | with_reducible apply wf_ite2 | with_reducible apply wf_regs | with_reducible apply wf_force | with_reducible apply wf_mem | with_reducible apply wf_scr | (simp only [wf_mk]; refine ⟨⟨⟨?_, ?_⟩, ?_⟩, ?_⟩)

theorem wf_State_admitWrite (h : s.wf = true) (k : Nat) (v : Word) :
    (State.admitWrite s k v).wf = true := by
  unfold State.admitWrite
  try dsimp only
  repeat' first | with_reducible assumption | (intro _) | with_reducible apply wf_wrn | with_reducible apply wf_ite | with_reducible apply wf_ite1 | with_reducible apply wf_ite2

end Sys2Proof.Machine
end

