-- ==== Sys2Proof/Laws/KeepSwitch.lean ====
section
/-! SUPPORT. Every operation of Machine/Switch.lean keeps the stores of the state in their canonical form. -/

namespace Sys2Proof.Machine

variable {s : State}

theorem wf_State_setGate (h : s.wf = true) (g : Gate) :
    (State.setGate s g).wf = true := by
  unfold State.setGate
  repeat' first | with_reducible assumption | (intro _)  | with_reducible apply wf_regs | with_reducible apply wf_force | with_reducible apply wf_mem | with_reducible apply wf_scr | (simp only [wf_mk]; refine ⟨⟨⟨?_, ?_⟩, ?_⟩, ?_⟩)

theorem wf_State_gateSync (h : s.wf = true) (d : Nat) (e : Nat) :
    (State.gateSync s d e).wf = true := by
  unfold State.gateSync
  repeat' first | with_reducible assumption | with_reducible apply wf_wrn | with_reducible apply wf_ite | with_reducible apply wf_ite1 | with_reducible apply wf_ite2 | with_reducible apply wf_regs | with_reducible apply wf_force | with_reducible apply wf_mem | with_reducible apply wf_scr | (simp only [wf_mk]; refine ⟨⟨⟨?_, ?_⟩, ?_⟩, ?_⟩) | (dsimp only) | (refine wf_of_snd (by with_reducible assumption) ?_) | (refine wf_of_fst (by with_reducible assumption) ?_) | split

theorem wf_State_gateCycle (h : s.wf = true) (d : Nat) (e : Nat) :
    (State.gateCycle s d e).wf = true := by
  unfold State.gateCycle
  try dsimp only
  repeat' first | with_reducible assumption | (intro _) | with_reducible apply wf_State_gateSync | with_reducible apply wf_wrFld | with_reducible apply wf_clr | with_reducible apply wf_State_keep | with_reducible apply wf_State_setGate | with_reducible apply wf_when | with_reducible apply wf_sat | with_reducible apply wf_set | with_reducible apply wf_ite | with_reducible apply wf_ite1 | with_reducible apply wf_ite2 | with_reducible apply wf_regs | with_reducible apply wf_force | with_reducible apply wf_mem | with_reducible apply wf_scr | (simp only [wf_mk]; refine ⟨⟨⟨?_, ?_⟩, ?_⟩, ?_⟩)

theorem wf_State_gateExpiry (h : s.wf = true) (d : Nat) (e : Nat) :
    (State.gateExpiry s d e).wf = true := by
  unfold State.gateExpiry
  repeat' first | with_reducible assumption | with_reducible apply wf_State_setGate | with_reducible apply wf_State_gateSync | with_reducible apply wf_ite | with_reducible apply wf_ite1 | with_reducible apply wf_ite2 | with_reducible apply wf_regs | with_reducible apply wf_force | with_reducible apply wf_mem | with_reducible apply wf_scr | (simp only [wf_mk]; refine ⟨⟨⟨?_, ?_⟩, ?_⟩, ?_⟩) | (dsimp only) | (refine wf_of_snd (by with_reducible assumption) ?_) | (refine wf_of_fst (by with_reducible assumption) ?_) | split

theorem wf_State_gateSwitch (h : s.wf = true) (d : Nat) (e : Nat) :
    (State.gateSwitch s d e).wf = true := by
  unfold State.gateSwitch
  try dsimp only
  repeat' first | with_reducible assumption | (intro _) | with_reducible apply wf_State_setGate | with_reducible apply wf_set | with_reducible apply wf_ite | with_reducible apply wf_ite1 | with_reducible apply wf_ite2 | with_reducible apply wf_regs | with_reducible apply wf_force | with_reducible apply wf_mem | with_reducible apply wf_scr | (simp only [wf_mk]; refine ⟨⟨⟨?_, ?_⟩, ?_⟩, ?_⟩)

theorem wf_State_setBucket (h : s.wf = true) (b : Bucket) :
    (State.setBucket s b).wf = true := by
  unfold State.setBucket
  repeat' first | with_reducible assumption | (intro _)  | with_reducible apply wf_regs | with_reducible apply wf_force | with_reducible apply wf_mem | with_reducible apply wf_scr | (simp only [wf_mk]; refine ⟨⟨⟨?_, ?_⟩, ?_⟩, ?_⟩)

theorem wf_State_police (h : s.wf = true) (d : Nat) (m : SwMsg) :
    (State.police s d m).1.wf = true := by
  unfold State.police
  try dsimp only
  repeat' first | with_reducible assumption | (intro _) | with_reducible apply wf_State_ingress | with_reducible apply wf_State_setBucket | with_reducible apply wf_sat | with_reducible apply wf_State_demote | with_reducible apply wf_ite | with_reducible apply wf_ite1 | with_reducible apply wf_ite2 | (dsimp only) | (refine wf_of_snd (by with_reducible assumption) ?_) | (refine wf_of_fst (by with_reducible assumption) ?_) | split

theorem wf_State_setSamp (h : s.wf = true) (x : Samp) :
    (State.setSamp s x).wf = true := by
  unfold State.setSamp
  repeat' first | with_reducible assumption | (intro _)  | with_reducible apply wf_regs | with_reducible apply wf_force | with_reducible apply wf_mem | with_reducible apply wf_scr | (simp only [wf_mk]; refine ⟨⟨⟨?_, ?_⟩, ?_⟩, ?_⟩)

theorem wf_State_enqueue (h : s.wf = true) (d : Nat) (m : SwMsg) (cut : Bool) (demoted : Bool) :
    (State.enqueue s d m cut demoted).wf = true := by
  unfold State.enqueue
  try dsimp only
  repeat' first | with_reducible assumption | (intro _) | with_reducible apply wf_State_setSamp | with_reducible apply wf_State_cellSync | with_reducible apply wf_ite | with_reducible apply wf_ite1 | with_reducible apply wf_ite2 | with_reducible apply wf_regs | with_reducible apply wf_force | with_reducible apply wf_mem | with_reducible apply wf_scr | (simp only [wf_mk]; refine ⟨⟨⟨?_, ?_⟩, ?_⟩, ?_⟩) | (simp only [id_eq]; assumption) | (dsimp only) | (refine wf_of_snd (by with_reducible assumption) ?_) | (refine wf_of_fst (by with_reducible assumption) ?_) | split

theorem wf_State_setItem (h : s.wf = true) (i : QMsg) :
    (State.setItem s i).wf = true := by
  unfold State.setItem
  repeat' first | with_reducible assumption | (intro _)  | with_reducible apply wf_ite | with_reducible apply wf_ite1 | with_reducible apply wf_ite2 | with_reducible apply wf_regs | with_reducible apply wf_force | with_reducible apply wf_mem | with_reducible apply wf_scr | (simp only [wf_mk]; refine ⟨⟨⟨?_, ?_⟩, ?_⟩, ?_⟩) | (simp only [id_eq]; assumption)

theorem wf_State_stall (h : s.wf = true) (d : Nat) (m : SwMsg) (demoted : Bool) :
    (State.stall s d m demoted).wf = true := by
  unfold State.stall
  try dsimp only
  repeat' first | with_reducible assumption | (intro _) | with_reducible apply wf_State_ingress | with_reducible apply wf_regs | with_reducible apply wf_force | with_reducible apply wf_mem | with_reducible apply wf_scr | (simp only [wf_mk]; refine ⟨⟨⟨?_, ?_⟩, ?_⟩, ?_⟩)

theorem wf_State_unstall (h : s.wf = true) (d : Nat) :
    (State.unstall s d).wf = true := by
  unfold State.unstall
  repeat' first | with_reducible assumption | (intro _)  | with_reducible apply wf_regs | with_reducible apply wf_force | with_reducible apply wf_mem | with_reducible apply wf_scr | (simp only [wf_mk]; refine ⟨⟨⟨?_, ?_⟩, ?_⟩, ?_⟩) | (dsimp only) | (refine wf_of_snd (by with_reducible assumption) ?_) | (refine wf_of_fst (by with_reducible assumption) ?_) | split

theorem wf_State_offPath (h : s.wf = true) (d : Nat) (m : SwMsg) :
    (State.offPath s d m).wf = true := by
  unfold State.offPath
  repeat' first | with_reducible assumption | with_reducible apply wf_State_ingress | with_reducible apply wf_ite | with_reducible apply wf_ite1 | with_reducible apply wf_ite2 | with_reducible apply wf_regs | with_reducible apply wf_force | with_reducible apply wf_mem | with_reducible apply wf_scr | (simp only [wf_mk]; refine ⟨⟨⟨?_, ?_⟩, ?_⟩, ?_⟩) | (dsimp only) | (refine wf_of_snd (by with_reducible assumption) ?_) | (refine wf_of_fst (by with_reducible assumption) ?_) | split

theorem wf_State_ingress (h : s.wf = true) (d : Nat) (m0 : SwMsg) :
    (State.ingress s d m0).wf = true := by
  unfold State.ingress
  try dsimp only
  repeat' first | with_reducible assumption | (intro _) | with_reducible apply wf_when | with_reducible apply wf_sat | with_reducible apply wf_State_police | with_reducible apply wf_State_stall | with_reducible apply wf_State_offPath | with_reducible apply wf_State_setItem | with_reducible apply wf_State_enqueue | with_reducible apply wf_ite | with_reducible apply wf_ite1 | with_reducible apply wf_ite2 | with_reducible apply wf_regs | with_reducible apply wf_force | with_reducible apply wf_mem | with_reducible apply wf_scr | (simp only [wf_mk]; refine ⟨⟨⟨?_, ?_⟩, ?_⟩, ?_⟩) | (dsimp only) | (refine wf_of_snd (by with_reducible assumption) ?_) | (refine wf_of_fst (by with_reducible assumption) ?_) | split

theorem wf_State_sendCell (h : s.wf = true) (i : QMsg) :
    (State.sendCell s i).wf = true := by
  unfold State.sendCell
  try dsimp only
  repeat' first | with_reducible assumption | (intro _) | with_reducible apply wf_State_setSamp | with_reducible apply wf_State_setItem | with_reducible apply wf_emit | with_reducible apply wf_State_progress | with_reducible apply wf_State_cellSync | with_reducible apply wf_State_unstall | with_reducible apply wf_ite | with_reducible apply wf_ite1 | with_reducible apply wf_ite2 | with_reducible apply wf_regs | with_reducible apply wf_force | with_reducible apply wf_mem | with_reducible apply wf_scr | (simp only [wf_mk]; refine ⟨⟨⟨?_, ?_⟩, ?_⟩, ?_⟩) | (simp only [id_eq]; assumption)

theorem wf_State_continueTx (h : s.wf = true) (i : QMsg) (ready : Bool) :
    (State.continueTx s i ready).wf = true := by
  unfold State.continueTx
  repeat' first | with_reducible assumption | (intro _) | with_reducible apply wf_emit | with_reducible apply wf_sat | with_reducible apply wf_State_cellSync | with_reducible apply wf_State_unstall | with_reducible apply wf_State_sendCell | with_reducible apply wf_ite | with_reducible apply wf_ite1 | with_reducible apply wf_ite2 | with_reducible apply wf_regs | with_reducible apply wf_force | with_reducible apply wf_mem | with_reducible apply wf_scr | (simp only [wf_mk]; refine ⟨⟨⟨?_, ?_⟩, ?_⟩, ?_⟩) | (simp only [id_eq]; assumption)

theorem wf_State_dynamicPosition (h : s.wf = true) (d : Nat) (e : Nat) (ready : Bool) :
    (State.dynamicPosition s d e ready).wf = true := by
  unfold State.dynamicPosition
  try dsimp only
  repeat' first | with_reducible assumption | (intro _) | with_reducible apply wf_State_continueTx | with_reducible apply wf_State_sendCell | with_reducible apply wf_emit | with_reducible apply wf_regs | with_reducible apply wf_force | with_reducible apply wf_mem | with_reducible apply wf_scr | (simp only [wf_mk]; refine ⟨⟨⟨?_, ?_⟩, ?_⟩, ?_⟩) | (dsimp only) | (refine wf_of_snd (by with_reducible assumption) ?_) | (refine wf_of_fst (by with_reducible assumption) ?_) | split

theorem wf_State_fill (h : s.wf = true) (d : Nat) (e : Nat) (pos : Position) (ready : Bool) :
    (State.fill s d e pos ready).wf = true := by
  unfold State.fill
  try dsimp only
  repeat' first | with_reducible assumption | (intro _) | with_reducible apply wf_State_continueTx | with_reducible apply wf_emit | with_reducible apply wf_State_dynamicPosition | with_reducible apply wf_regs | with_reducible apply wf_force | with_reducible apply wf_mem | with_reducible apply wf_scr | (simp only [wf_mk]; refine ⟨⟨⟨?_, ?_⟩, ?_⟩, ?_⟩) | (dsimp only) | (refine wf_of_snd (by with_reducible assumption) ?_) | (refine wf_of_fst (by with_reducible assumption) ?_) | split

theorem wf_State_usePosition (h : s.wf = true) (d : Nat) (e : Nat) :
    (State.usePosition s d e).wf = true := by
  unfold State.usePosition
  repeat' first | with_reducible assumption | (intro _) | with_reducible apply wf_State_served | with_reducible apply wf_regs | with_reducible apply wf_force | with_reducible apply wf_mem | with_reducible apply wf_scr | (simp only [wf_mk]; refine ⟨⟨⟨?_, ?_⟩, ?_⟩, ?_⟩)

theorem wf_State_position (h : s.wf = true) (d : Nat) (e : Nat) (ready : Bool) :
    (State.position s d e ready).wf = true := by
  unfold State.position
  repeat' first | with_reducible assumption | with_reducible apply wf_State_fill | with_reducible apply wf_State_usePosition | with_reducible apply wf_ite | with_reducible apply wf_ite1 | with_reducible apply wf_ite2

theorem wf_State_linkSlot (h : s.wf = true) (slot : Nat) :
    (State.linkSlot s slot).wf = true := by
  unfold State.linkSlot
  try dsimp only
  repeat' first | with_reducible assumption | (intro _) | with_reducible apply wf_each | with_reducible apply wf_State_slot | with_reducible apply wf_sat | with_reducible apply wf_when | with_reducible apply wf_ite | with_reducible apply wf_ite1 | with_reducible apply wf_ite2

theorem wf_State_slotTick (h : s.wf = true) (next : Nat) :
    (State.slotTick s next).wf = true := by
  unfold State.slotTick
  try dsimp only
  repeat' first | with_reducible assumption | (intro _) | with_reducible apply wf_State_served | with_reducible apply wf_when | with_reducible apply wf_State_linkSlot | with_reducible apply wf_ite | with_reducible apply wf_ite1 | with_reducible apply wf_ite2 | with_reducible apply wf_regs | with_reducible apply wf_force | with_reducible apply wf_mem | with_reducible apply wf_scr | (simp only [wf_mk]; refine ⟨⟨⟨?_, ?_⟩, ?_⟩, ?_⟩)

theorem wf_State_zenithLate (h : s.wf = true) :
    (State.zenithLate s).wf = true := by
  unfold State.zenithLate
  try dsimp only
  repeat' first | with_reducible assumption | (intro _) | with_reducible apply wf_each | with_reducible apply wf_State_setItem | with_reducible apply wf_sat | with_reducible apply wf_regs | with_reducible apply wf_force | with_reducible apply wf_mem | with_reducible apply wf_scr | (simp only [wf_mk]; refine ⟨⟨⟨?_, ?_⟩, ?_⟩, ?_⟩)

theorem wf_State_telemDie (h : s.wf = true) (d : Nat) :
    (State.telemDie s d).wf = true := by
  unfold State.telemDie
  try dsimp only
  repeat' first | with_reducible assumption | (intro _) | with_reducible apply wf_each | with_reducible apply wf_sat | with_reducible apply wf_set | with_reducible apply wf_State_write | with_reducible apply wf_wrap | with_reducible apply wf_ite | with_reducible apply wf_ite1 | with_reducible apply wf_ite2 | with_reducible apply wf_regs | with_reducible apply wf_force | with_reducible apply wf_mem | with_reducible apply wf_scr | (simp only [wf_mk]; refine ⟨⟨⟨?_, ?_⟩, ?_⟩, ?_⟩) | (dsimp only) | (refine wf_of_snd (by with_reducible assumption) ?_) | (refine wf_of_fst (by with_reducible assumption) ?_) | split

theorem wf_State_switchFrame (h : s.wf = true) (changed : List Nat) :
    (State.switchFrame s changed).wf = true := by
  unfold State.switchFrame
  try dsimp only
  repeat' first | with_reducible assumption | (intro _) | with_reducible apply wf_each | with_reducible apply wf_State_gateCycle | with_reducible apply wf_State_telemDie | with_reducible apply wf_State_zenithLate | with_reducible apply wf_regs | with_reducible apply wf_force | with_reducible apply wf_mem | with_reducible apply wf_scr | (simp only [wf_mk]; refine ⟨⟨⟨?_, ?_⟩, ?_⟩, ?_⟩)

end Sys2Proof.Machine
end

