-- ==== Sys2Proof/Laws/KeepHangs.lean ====
section
/-! SUPPORT. Every operation of Machine/Hangs.lean keeps the stores of the state in their canonical form. -/

namespace Sys2Proof.Machine

variable {s : State}

theorem wf_State_replayStart (h : s.wf = true) (h : Search) (x : Nat) :
    (State.replayStart s h x).wf = true := by
  unfold State.replayStart
  try dsimp only
  repeat' first | with_reducible assumption | (intro _) | with_reducible apply wf_State_history | with_reducible apply wf_State_scrClear | with_reducible apply wf_wrn | with_reducible apply wf_when | with_reducible apply wf_State_hmEvent | with_reducible apply wf_State_setSearch | with_reducible apply wf_State_searchSync | with_reducible apply wf_regs | with_reducible apply wf_force | with_reducible apply wf_mem | with_reducible apply wf_scr | (simp only [wf_mk]; refine ⟨⟨⟨?_, ?_⟩, ?_⟩, ?_⟩)

theorem wf_State_searchFrame (h : s.wf = true) :
    (State.searchFrame s).wf = true := by
  unfold State.searchFrame
  repeat' first | with_reducible assumption | (intro _) | with_reducible apply wf_each | with_reducible apply wf_State_engineFaulty | with_reducible apply wf_State_replayStart | with_reducible apply wf_regs | with_reducible apply wf_force | with_reducible apply wf_mem | with_reducible apply wf_scr | (simp only [wf_mk]; refine ⟨⟨⟨?_, ?_⟩, ?_⟩, ?_⟩) | (dsimp only) | (refine wf_of_snd (by with_reducible assumption) ?_) | (refine wf_of_fst (by with_reducible assumption) ?_) | split

theorem wf_State_engineHang (h : s.wf = true) (e : Nat) (o : Op) :
    (State.engineHang s e o).wf = true := by
  unfold State.engineHang
  try dsimp only
  repeat' first | with_reducible assumption | (intro _) | with_reducible apply wf_wrf | with_reducible apply wf_State_putBack | with_reducible apply wf_State_scrClear | with_reducible apply wf_set | with_reducible apply wf_State_hmEvent | with_reducible apply wf_State_errLog | with_reducible apply wf_each | with_reducible apply wf_State_suspectSync | with_reducible apply wf_State_searchSync | with_reducible apply wf_regs | with_reducible apply wf_force | with_reducible apply wf_mem | with_reducible apply wf_scr | (simp only [wf_mk]; refine ⟨⟨⟨?_, ?_⟩, ?_⟩, ?_⟩)

theorem wf_State_freeProgress (h : s.wf = true) (u : HUnit) :
    (State.freeProgress s u).wf = true := by
  unfold State.freeProgress
  try dsimp only
  repeat' first | with_reducible assumption | (intro _) | with_reducible apply wf_State_fresh | with_reducible apply wf_wrap | with_reducible apply wf_when | with_reducible apply wf_State_progress | with_reducible apply wf_regs | with_reducible apply wf_force | with_reducible apply wf_mem | with_reducible apply wf_scr | (simp only [wf_mk]; refine ⟨⟨⟨?_, ?_⟩, ?_⟩, ?_⟩) | (dsimp only) | (refine wf_of_snd (by with_reducible assumption) ?_) | (refine wf_of_fst (by with_reducible assumption) ?_) | split

theorem wf_State_watchUnits (h : s.wf = true) (kind : HUnit → Bool) (units : List HUnit) :
    (State.watchUnits s kind units).1.wf = true := by
  unfold State.watchUnits
  try dsimp only
  repeat' first | with_reducible assumption | (intro _)  | with_reducible apply wf_elim | with_reducible apply wf_regs | with_reducible apply wf_force | with_reducible apply wf_mem | with_reducible apply wf_scr | (simp only [wf_mk]; refine ⟨⟨⟨?_, ?_⟩, ?_⟩, ?_⟩) | (dsimp only) | (refine wf_of_snd (by with_reducible assumption) ?_) | (refine wf_of_fst (by with_reducible assumption) ?_) | split

theorem wf_State_switchHang (h : s.wf = true) (d : Nat) :
    (State.switchHang s d).wf = true := by
  unfold State.switchHang
  repeat' first | with_reducible assumption | with_reducible apply wf_State_moduleReset | with_reducible apply wf_State_dieReset | with_reducible apply wf_State_fresh | with_reducible apply wf_State_errLog | with_reducible apply wf_ite | with_reducible apply wf_ite1 | with_reducible apply wf_ite2

theorem wf_State_hang (h : s.wf = true) (u : HUnit) :
    (State.hang s u).wf = true := by
  unfold State.hang
  try dsimp only
  repeat' first | with_reducible assumption | (intro _) | with_reducible apply wf_State_stackRetrain | with_reducible apply wf_State_hmEvent | with_reducible apply wf_State_errLog | with_reducible apply wf_State_switchHang | with_reducible apply wf_State_hpDown | with_reducible apply wf_State_lpRetrain | with_reducible apply wf_State_engineHang | with_reducible apply wf_State_guilty | with_reducible apply wf_State_fault | with_reducible apply wf_regs | with_reducible apply wf_force | with_reducible apply wf_mem | with_reducible apply wf_scr | (simp only [wf_mk]; refine ⟨⟨⟨?_, ?_⟩, ?_⟩, ?_⟩) | (dsimp only) | (refine wf_of_snd (by with_reducible assumption) ?_) | (refine wf_of_fst (by with_reducible assumption) ?_) | split

theorem wf_State_judge (h : s.wf = true) (kind : HUnit → Bool) (units : List HUnit) :
    (State.judge s kind units).wf = true := by
  unfold State.judge
  try dsimp only
  repeat' first | with_reducible assumption | (intro _) | with_reducible apply wf_State_watchUnits | with_reducible apply wf_each | with_reducible apply wf_when | with_reducible apply wf_State_hang

theorem wf_State_hangFrame (h : s.wf = true) :
    (State.hangFrame s).wf = true := by
  unfold State.hangFrame
  try dsimp only
  repeat' first | with_reducible assumption | (intro _) | with_reducible apply wf_State_judge | with_reducible apply wf_each | with_reducible apply wf_State_freeProgress | with_reducible apply wf_when | with_reducible apply wf_ite | with_reducible apply wf_ite1 | with_reducible apply wf_ite2 | with_reducible apply wf_regs | with_reducible apply wf_force | with_reducible apply wf_mem | with_reducible apply wf_scr | (simp only [wf_mk]; refine ⟨⟨⟨?_, ?_⟩, ?_⟩, ?_⟩)

end Sys2Proof.Machine
end

