-- ==== Sys2Proof/Laws/KeepBoundary.lean ====
section
/-! SUPPORT. Every operation of Machine/Boundary.lean keeps the stores of the state in their canonical form. -/

namespace Sys2Proof.Machine

variable {s : State}

theorem wf_State_frameTime (h : s.wf = true) :
    (State.frameTime s).wf = true := by
  unfold State.frameTime
  try dsimp only
  repeat' first | with_reducible assumption | (intro _) | with_reducible apply wf_State_elapse | with_reducible apply wf_each | with_reducible apply wf_State_slot | with_reducible apply wf_State_slotTick | with_reducible apply wf_when | with_reducible apply wf_set | with_reducible apply wf_State_ptp | with_reducible apply wf_ite | with_reducible apply wf_ite1 | with_reducible apply wf_ite2 | with_reducible apply wf_regs | with_reducible apply wf_force | with_reducible apply wf_mem | with_reducible apply wf_scr | (simp only [wf_mk]; refine ⟨⟨⟨?_, ?_⟩, ?_⟩, ?_⟩) | (dsimp only) | (refine wf_of_snd (by with_reducible assumption) ?_) | (refine wf_of_fst (by with_reducible assumption) ?_) | split

theorem swf_foldl {α β : Type} [DecidableEq α] {d : Nat → α} (l : List β) (k : β → Nat) (v : β → α) (m : List (Nat × α))
    (h : swf d m = true) : swf d (l.foldl (fun m o => sset d m (k o) (v o)) m) = true := by
  induction l generalizing m with
  | nil => exact h
  | cons a l ih => exact ih _ (swf_sset _ _ _ h)

theorem wf_State_protect (h : s.wf = true) : (State.protect s).wf = true := by
  unfold State.protect
  dsimp only
  rw [wf_mk]
  refine ⟨⟨⟨wf_regs h, ?_⟩, wf_mem h⟩, wf_scr h⟩
  split
  · exact wf_regs h
  · exact swf_foldl _ (fun o => o) _ _ (wf_regs h)

theorem wf_State_pageRights (h : s.wf = true) :
    (State.pageRights s).wf = true := by
  unfold State.pageRights
  try dsimp only
  repeat' first | with_reducible assumption | (intro _) | with_reducible apply wf_State_fresh | with_reducible apply wf_each | with_reducible apply wf_State_zeroPage | with_reducible apply wf_ite | with_reducible apply wf_ite1 | with_reducible apply wf_ite2 | with_reducible apply wf_regs | with_reducible apply wf_force | with_reducible apply wf_mem | with_reducible apply wf_scr | (simp only [wf_mk]; refine ⟨⟨⟨?_, ?_⟩, ?_⟩, ?_⟩)

theorem wf_State_goPower (h : s.wf = true) (g : Nat) :
    (State.goPower s g).wf = true := by
  unfold State.goPower
  repeat' first | with_reducible assumption | (intro _) | with_reducible apply wf_when | with_reducible apply wf_State_engineClocks | with_reducible apply wf_ite | with_reducible apply wf_ite1 | with_reducible apply wf_ite2 | with_reducible apply wf_regs | with_reducible apply wf_force | with_reducible apply wf_mem | with_reducible apply wf_scr | (simp only [wf_mk]; refine ⟨⟨⟨?_, ?_⟩, ?_⟩, ?_⟩)

theorem wf_State_wakeUp (h : s.wf = true) :
    (State.wakeUp s).wf = true := by
  unfold State.wakeUp
  repeat' first | with_reducible assumption | (intro _) | with_reducible apply wf_when | with_reducible apply wf_State_goPower | with_reducible apply wf_set

theorem wf_State_powerCmd (h : s.wf = true) (op : Nat) :
    (State.powerCmd s op).wf = true := by
  unfold State.powerCmd
  try dsimp only
  repeat' first | with_reducible assumption | (intro _) | with_reducible apply wf_clr | with_reducible apply wf_State_wakeUp | with_reducible apply wf_set | with_reducible apply wf_when | with_reducible apply wf_State_goPower | with_reducible apply wf_ite | with_reducible apply wf_ite1 | with_reducible apply wf_ite2 | with_reducible apply wf_regs | with_reducible apply wf_force | with_reducible apply wf_mem | with_reducible apply wf_scr | (simp only [wf_mk]; refine ⟨⟨⟨?_, ?_⟩, ?_⟩, ?_⟩) | (dsimp only) | (refine wf_of_snd (by with_reducible assumption) ?_) | (refine wf_of_fst (by with_reducible assumption) ?_) | split

theorem wf_State_powerFrame (h : s.wf = true) :
    (State.powerFrame s).wf = true := by
  unfold State.powerFrame
  try dsimp only
  repeat' first | with_reducible assumption | (intro _) | with_reducible apply wf_State_powerCmd | with_reducible apply wf_when | with_reducible apply wf_State_wakeUp | with_reducible apply wf_ite | with_reducible apply wf_ite1 | with_reducible apply wf_ite2 | with_reducible apply wf_regs | with_reducible apply wf_force | with_reducible apply wf_mem | with_reducible apply wf_scr | (simp only [wf_mk]; refine ⟨⟨⟨?_, ?_⟩, ?_⟩, ?_⟩) | (dsimp only) | (refine wf_of_snd (by with_reducible assumption) ?_) | (refine wf_of_fst (by with_reducible assumption) ?_) | split

theorem wf_State_dieFrame (h : s.wf = true) :
    (State.dieFrame s).wf = true := by
  unfold State.dieFrame
  try dsimp only
  repeat' first | with_reducible assumption | (intro _) | with_reducible apply wf_ite | with_reducible apply wf_State_moduleReset | with_reducible apply wf_each | with_reducible apply wf_State_stackRetrain | with_reducible apply wf_State_dieReset | with_reducible apply wf_State_dieRetrain | with_reducible apply wf_regs | with_reducible apply wf_force | with_reducible apply wf_mem | with_reducible apply wf_scr | (simp only [wf_mk]; refine ⟨⟨⟨?_, ?_⟩, ?_⟩, ?_⟩)

theorem wf_State_queuesOff (h : s.wf = true) (x : Nat) :
    (State.queuesOff s x).wf = true := by
  unfold State.queuesOff
  repeat' first | with_reducible assumption | (intro _) | with_reducible apply wf_each | with_reducible apply wf_qDisable | with_reducible apply wf_clr

theorem wf_State_abortLog (h : s.wf = true) (a : Abort) (x : Nat) :
    (State.abortLog s a x).wf = true := by
  unfold State.abortLog
  repeat' first | with_reducible assumption | with_reducible apply wf_State_errLog | with_reducible apply wf_State_errLogOpen | with_reducible apply wf_regs | with_reducible apply wf_force | with_reducible apply wf_mem | with_reducible apply wf_scr | (simp only [wf_mk]; refine ⟨⟨⟨?_, ?_⟩, ?_⟩, ?_⟩) | (dsimp only) | (refine wf_of_snd (by with_reducible assumption) ?_) | (refine wf_of_fst (by with_reducible assumption) ?_) | split

theorem wf_State_abortTag (h : s.wf = true) (a : Abort) (x : Nat) (gen : Nat) :
    (State.abortTag s a x gen).wf = true := by
  unfold State.abortTag
  try dsimp only
  repeat' first | with_reducible assumption | (intro _) | with_reducible apply wf_State_endOps | with_reducible apply wf_State_queuesOff | with_reducible apply wf_set | with_reducible apply wf_wrFld | with_reducible apply wf_State_abortLog | with_reducible apply wf_ite | with_reducible apply wf_ite1 | with_reducible apply wf_ite2 | (dsimp only) | (refine wf_of_snd (by with_reducible assumption) ?_) | (refine wf_of_fst (by with_reducible assumption) ?_) | split

theorem wf_State_abortFrame (h : s.wf = true) :
    (State.abortFrame s).wf = true := by
  unfold State.abortFrame
  try dsimp only
  repeat' first | with_reducible assumption | (intro _) | with_reducible apply wf_State_done | with_reducible apply wf_each | with_reducible apply wf_State_hmEvent | with_reducible apply wf_State_abortTag | with_reducible apply wf_ite | with_reducible apply wf_ite1 | with_reducible apply wf_ite2 | with_reducible apply wf_regs | with_reducible apply wf_force | with_reducible apply wf_mem | with_reducible apply wf_scr | (simp only [wf_mk]; refine ⟨⟨⟨?_, ?_⟩, ?_⟩, ?_⟩)

theorem wf_State_faultFollow (h : s.wf = true) (x : Nat) (reason : Nat) :
    (State.faultFollow s x reason).wf = true := by
  unfold State.faultFollow
  try dsimp only
  repeat' first | with_reducible assumption | (intro _) | with_reducible apply wf_when | with_reducible apply wf_State_abortStart | with_reducible apply wf_each | with_reducible apply wf_State_ctxRefuse | with_reducible apply wf_State_ctxCommand | with_reducible apply wf_regs | with_reducible apply wf_force | with_reducible apply wf_mem | with_reducible apply wf_scr | (simp only [wf_mk]; refine ⟨⟨⟨?_, ?_⟩, ?_⟩, ?_⟩)

theorem wf_State_faultCount (h : s.wf = true) (f : CtxFault) :
    (State.faultCount s f).wf = true := by
  unfold State.faultCount
  try dsimp only
  repeat' first | with_reducible assumption | (intro _) | with_reducible apply wf_wrFld | with_reducible apply wf_State_errLogOpen

theorem wf_State_faultNow (h : s.wf = true) (f : CtxFault) :
    (State.faultNow s f).wf = true := by
  unfold State.faultNow
  try dsimp only
  repeat' first | with_reducible assumption | (intro _) | with_reducible apply wf_State_faultCount | with_reducible apply wf_State_faultFollow | with_reducible apply wf_wrFld | with_reducible apply wf_set | with_reducible apply wf_State_queuesOff | with_reducible apply wf_State_leaveSearch | with_reducible apply wf_ite | with_reducible apply wf_ite1 | with_reducible apply wf_ite2 | (dsimp only) | (refine wf_of_snd (by with_reducible assumption) ?_) | (refine wf_of_fst (by with_reducible assumption) ?_) | split

theorem wf_State_faultFrame (h : s.wf = true) (p : CtxFault → Bool) :
    (State.faultFrame s p).wf = true := by
  unfold State.faultFrame
  try dsimp only
  repeat' first | with_reducible assumption | (intro _) | with_reducible apply wf_each | with_reducible apply wf_State_faultNow | with_reducible apply wf_regs | with_reducible apply wf_force | with_reducible apply wf_mem | with_reducible apply wf_scr | (simp only [wf_mk]; refine ⟨⟨⟨?_, ?_⟩, ?_⟩, ?_⟩)

theorem wf_State_ctxFrame (h : s.wf = true) :
    (State.ctxFrame s).wf = true := by
  unfold State.ctxFrame
  try dsimp only
  repeat' first | with_reducible assumption | (intro _) | with_reducible apply wf_each | with_reducible apply wf_when | with_reducible apply wf_State_ctxDefine | with_reducible apply wf_State_occultBegin | with_reducible apply wf_ite | with_reducible apply wf_ite1 | with_reducible apply wf_ite2 | with_reducible apply wf_regs | with_reducible apply wf_force | with_reducible apply wf_mem | with_reducible apply wf_scr | (simp only [wf_mk]; refine ⟨⟨⟨?_, ?_⟩, ?_⟩, ?_⟩)

theorem wf_State_occFrame (h : s.wf = true) (old : List Occ) :
    (State.occFrame s old).wf = true := by
  unfold State.occFrame
  repeat' first | with_reducible assumption | (intro _) | with_reducible apply wf_each | with_reducible apply wf_when | with_reducible apply wf_State_occultEnd

theorem wf_State_entryEnd (h : s.wf = true) (l : Nat) :
    (State.entryEnd s l).wf = true := by
  unfold State.entryEnd
  try dsimp only
  repeat' first | with_reducible assumption | (intro _) | with_reducible apply wf_wrap | with_reducible apply wf_each | with_reducible apply wf_State_lpRetrain | with_reducible apply wf_State_hpDown | with_reducible apply wf_when | with_reducible apply wf_State_hpTrain | with_reducible apply wf_clr | with_reducible apply wf_wrFld | with_reducible apply wf_set | with_reducible apply wf_State_trace | with_reducible apply wf_ite | with_reducible apply wf_ite1 | with_reducible apply wf_ite2 | with_reducible apply wf_regs | with_reducible apply wf_force | with_reducible apply wf_mem | with_reducible apply wf_scr | (simp only [wf_mk]; refine ⟨⟨⟨?_, ?_⟩, ?_⟩, ?_⟩) | (dsimp only) | (refine wf_of_snd (by with_reducible assumption) ?_) | (refine wf_of_fst (by with_reducible assumption) ?_) | split

theorem wf_State_entryFrame (h : s.wf = true) :
    (State.entryFrame s).wf = true := by
  unfold State.entryFrame
  try dsimp only
  repeat' first | with_reducible assumption | (intro _) | with_reducible apply wf_set | with_reducible apply wf_each | with_reducible apply wf_State_occultBegin | with_reducible apply wf_State_removePages | with_reducible apply wf_State_entryEnd | with_reducible apply wf_ite | with_reducible apply wf_ite1 | with_reducible apply wf_ite2 | with_reducible apply wf_regs | with_reducible apply wf_force | with_reducible apply wf_mem | with_reducible apply wf_scr | (simp only [wf_mk]; refine ⟨⟨⟨?_, ?_⟩, ?_⟩, ?_⟩) | (dsimp only) | (refine wf_of_snd (by with_reducible assumption) ?_) | (refine wf_of_fst (by with_reducible assumption) ?_) | split

theorem wf_State_levelFrame (h : s.wf = true) :
    (State.levelFrame s).wf = true := by
  unfold State.levelFrame
  try dsimp only
  repeat' first | with_reducible assumption | (intro _) | with_reducible apply wf_wrFld | with_reducible apply wf_State_level | with_reducible apply wf_State_trace | with_reducible apply wf_ite | with_reducible apply wf_ite1 | with_reducible apply wf_ite2 | (dsimp only) | (refine wf_of_snd (by with_reducible assumption) ?_) | (refine wf_of_fst (by with_reducible assumption) ?_) | split

theorem wf_State_quarSet (h : s.wf = true) (e : Nat) :
    (State.quarSet s e).wf = true := by
  unfold State.quarSet
  try dsimp only
  repeat' first | with_reducible assumption | (intro _) | with_reducible apply wf_State_preempt | with_reducible apply wf_State_putBack | with_reducible apply wf_State_scrClear | with_reducible apply wf_wrFld | with_reducible apply wf_ite | with_reducible apply wf_ite1 | with_reducible apply wf_ite2 | with_reducible apply wf_regs | with_reducible apply wf_force | with_reducible apply wf_mem | with_reducible apply wf_scr | (simp only [wf_mk]; refine ⟨⟨⟨?_, ?_⟩, ?_⟩, ?_⟩) | (dsimp only) | (refine wf_of_snd (by with_reducible assumption) ?_) | (refine wf_of_fst (by with_reducible assumption) ?_) | split

theorem wf_State_quarClear (h : s.wf = true) (e : Nat) :
    (State.quarClear s e).wf = true := by
  unfold State.quarClear
  try dsimp only
  repeat' first | with_reducible assumption | (intro _) | with_reducible apply wf_State_searchEnd | with_reducible apply wf_State_engineOut | with_reducible apply wf_when | with_reducible apply wf_wrFld | with_reducible apply wf_regs | with_reducible apply wf_force | with_reducible apply wf_mem | with_reducible apply wf_scr | (simp only [wf_mk]; refine ⟨⟨⟨?_, ?_⟩, ?_⟩, ?_⟩) | (dsimp only) | (refine wf_of_snd (by with_reducible assumption) ?_) | (refine wf_of_fst (by with_reducible assumption) ?_) | split

theorem wf_State_quarFrame (h : s.wf = true) (old : List (Nat × Word)) :
    (State.quarFrame s old).wf = true := by
  unfold State.quarFrame
  try dsimp only
  repeat' first | with_reducible assumption | (intro _) | with_reducible apply wf_each | with_reducible apply wf_State_quarSet | with_reducible apply wf_State_quarClear | with_reducible apply wf_ite | with_reducible apply wf_ite1 | with_reducible apply wf_ite2 | with_reducible apply wf_regs | with_reducible apply wf_force | with_reducible apply wf_mem | with_reducible apply wf_scr | (simp only [wf_mk]; refine ⟨⟨⟨?_, ?_⟩, ?_⟩, ?_⟩) | (dsimp only) | (refine wf_of_snd (by with_reducible assumption) ?_) | (refine wf_of_fst (by with_reducible assumption) ?_) | split

theorem wf_State_unitLost (h : s.wf = true) (u : Nat) :
    (State.unitLost s u).wf = true := by
  unfold State.unitLost
  try dsimp only
  repeat' first | with_reducible assumption | (intro _) | with_reducible apply wf_set | with_reducible apply wf_State_loseUnit | with_reducible apply wf_State_unitGone | with_reducible apply wf_State_cpLoss | with_reducible apply wf_State_syncUse | with_reducible apply wf_regs | with_reducible apply wf_force | with_reducible apply wf_mem | with_reducible apply wf_scr | (simp only [wf_mk]; refine ⟨⟨⟨?_, ?_⟩, ?_⟩, ?_⟩)

theorem wf_State_lostFrame (h : s.wf = true) :
    (State.lostFrame s).wf = true := by
  unfold State.lostFrame
  try dsimp only
  repeat' first | with_reducible assumption | (intro _) | with_reducible apply wf_each | with_reducible apply wf_State_unitLost | with_reducible apply wf_regs | with_reducible apply wf_force | with_reducible apply wf_mem | with_reducible apply wf_scr | (simp only [wf_mk]; refine ⟨⟨⟨?_, ?_⟩, ?_⟩, ?_⟩)

theorem wf_State_telemRead (h : s.wf = true) :
    (State.telemRead s).wf = true := by
  unfold State.telemRead
  repeat' first | with_reducible assumption | (intro _) | with_reducible apply wf_when | with_reducible apply wf_each | with_reducible apply wf_wr

theorem wf_State_portUp (h : s.wf = true) (l : Nat) :
    (State.portUp s l).wf = true := by
  unfold State.portUp
  repeat' first | with_reducible assumption | with_reducible apply wf_State_setPort | with_reducible apply wf_wrFld | with_reducible apply wf_State_pump | with_reducible apply wf_regs | with_reducible apply wf_force | with_reducible apply wf_mem | with_reducible apply wf_scr | (simp only [wf_mk]; refine ⟨⟨⟨?_, ?_⟩, ?_⟩, ?_⟩) | (dsimp only) | (refine wf_of_snd (by with_reducible assumption) ?_) | (refine wf_of_fst (by with_reducible assumption) ?_) | split

theorem wf_State_admitDone (h : s.wf = true) (k : Nat) :
    (State.admitDone s k).wf = true := by
  unfold State.admitDone
  repeat' first | with_reducible assumption | (intro _) | with_reducible apply wf_wrFld | with_reducible apply wf_each | with_reducible apply wf_State_portUp

theorem wf_State_joinFrame (h : s.wf = true) :
    (State.joinFrame s).wf = true := by
  unfold State.joinFrame
  try dsimp only
  repeat' first | with_reducible assumption | (intro _) | with_reducible apply wf_each | with_reducible apply wf_State_setMirror | with_reducible apply wf_State_hmEvent | with_reducible apply wf_State_errLogOpen | with_reducible apply wf_State_admitDone | with_reducible apply wf_regs | with_reducible apply wf_force | with_reducible apply wf_mem | with_reducible apply wf_scr | (simp only [wf_mk]; refine ⟨⟨⟨?_, ?_⟩, ?_⟩, ?_⟩)

theorem wf_State_resyncStart (h : s.wf = true) (r : Nat) (all : Bool) :
    (State.resyncStart s r all).wf = true := by
  unfold State.resyncStart
  try dsimp only
  repeat' first | with_reducible assumption | (intro _) | with_reducible apply wf_State_setMirror | with_reducible apply wf_ite | with_reducible apply wf_ite1 | with_reducible apply wf_ite2 | with_reducible apply wf_regs | with_reducible apply wf_force | with_reducible apply wf_mem | with_reducible apply wf_scr | (simp only [wf_mk]; refine ⟨⟨⟨?_, ?_⟩, ?_⟩, ?_⟩)

theorem wf_State_admitFrame (h : s.wf = true) (k : Nat) :
    (State.admitFrame s k).wf = true := by
  unfold State.admitFrame
  try dsimp only
  repeat' first | with_reducible assumption | (intro _) | with_reducible apply wf_each | with_reducible apply wf_State_resyncStart | with_reducible apply wf_wrFld | with_reducible apply wf_State_admitDone | with_reducible apply wf_ite | with_reducible apply wf_ite1 | with_reducible apply wf_ite2 | with_reducible apply wf_regs | with_reducible apply wf_force | with_reducible apply wf_mem | with_reducible apply wf_scr | (simp only [wf_mk]; refine ⟨⟨⟨?_, ?_⟩, ?_⟩, ?_⟩) | (dsimp only) | (refine wf_of_snd (by with_reducible assumption) ?_) | (refine wf_of_fst (by with_reducible assumption) ?_) | split

theorem wf_State_copyFrame (h : s.wf = true) (last : Nat) :
    (State.copyFrame s last).wf = true := by
  unfold State.copyFrame
  try dsimp only
  repeat' first | with_reducible assumption | (intro _) | with_reducible apply wf_each | with_reducible apply wf_State_mirrorSend | with_reducible apply wf_State_setMirror | with_reducible apply wf_regs | with_reducible apply wf_force | with_reducible apply wf_mem | with_reducible apply wf_scr | (simp only [wf_mk]; refine ⟨⟨⟨?_, ?_⟩, ?_⟩, ?_⟩)

theorem wf_State_mirrorFrame (h : s.wf = true) (last : Nat) :
    (State.mirrorFrame s last).wf = true := by
  unfold State.mirrorFrame
  try dsimp only
  repeat' first | with_reducible assumption | (intro _) | with_reducible apply wf_State_joinFrame | with_reducible apply wf_State_copyFrame | with_reducible apply wf_each | with_reducible apply wf_State_admitFrame

theorem wf_State_flip (h : s.wf = true) :
    (State.flip s).wf = true := by
  unfold State.flip
  try dsimp only
  repeat' first | with_reducible assumption | (intro _) | with_reducible apply wf_wrFld | with_reducible apply wf_State_rtArmBit | with_reducible apply wf_set | with_reducible apply wf_regs | with_reducible apply wf_force | with_reducible apply wf_mem | with_reducible apply wf_scr | (simp only [wf_mk]; refine ⟨⟨⟨?_, ?_⟩, ?_⟩, ?_⟩)

theorem wf_State_flipEpoch (h : s.wf = true) (e : Nat) :
    (State.flipEpoch s e).wf = true := by
  unfold State.flipEpoch
  repeat' first | with_reducible assumption | (intro _) | with_reducible apply wf_when | with_reducible apply wf_State_flip | (dsimp only) | (refine wf_of_snd (by with_reducible assumption) ?_) | (refine wf_of_fst (by with_reducible assumption) ?_) | split

theorem wf_State_imageGone (h : s.wf = true) :
    (State.imageGone s).wf = true := by
  unfold State.imageGone
  try dsimp only
  repeat' first | with_reducible assumption | (intro _) | with_reducible apply wf_each | with_reducible apply wf_State_scrClear | with_reducible apply wf_ite | with_reducible apply wf_ite1 | with_reducible apply wf_ite2 | with_reducible apply wf_regs | with_reducible apply wf_force | with_reducible apply wf_mem | with_reducible apply wf_scr | (simp only [wf_mk]; refine ⟨⟨⟨?_, ?_⟩, ?_⟩, ?_⟩) | (dsimp only) | (refine wf_of_snd (by with_reducible assumption) ?_) | (refine wf_of_fst (by with_reducible assumption) ?_) | split

theorem wf_State_stopNow (h : s.wf = true) :
    (State.stopNow s).wf = true := by
  unfold State.stopNow
  try dsimp only
  repeat' first | with_reducible assumption | (intro _) | with_reducible apply wf_State_imageGone | with_reducible apply wf_State_setActive | with_reducible apply wf_State_ephEventAll | with_reducible apply wf_when | with_reducible apply wf_State_endArm | with_reducible apply wf_State_setStandbyState | with_reducible apply wf_regs | with_reducible apply wf_force | with_reducible apply wf_mem | with_reducible apply wf_scr | (simp only [wf_mk]; refine ⟨⟨⟨?_, ?_⟩, ?_⟩, ?_⟩)

theorem wf_State_switchNow (h : s.wf = true) (g : Image) :
    (State.switchNow s g).wf = true := by
  unfold State.switchNow
  try dsimp only
  repeat' first | with_reducible assumption | (intro _) | with_reducible apply wf_State_imageGone | with_reducible apply wf_each | with_reducible apply wf_State_preempt | with_reducible apply wf_State_scrClear | with_reducible apply wf_State_endArm | with_reducible apply wf_State_setStandby | with_reducible apply wf_State_setActive | with_reducible apply wf_State_ephEventAll | with_reducible apply wf_ite | with_reducible apply wf_ite1 | with_reducible apply wf_ite2 | with_reducible apply wf_regs | with_reducible apply wf_force | with_reducible apply wf_mem | with_reducible apply wf_scr | (simp only [wf_mk]; refine ⟨⟨⟨?_, ?_⟩, ?_⟩, ?_⟩) | (simp only [id_eq]; assumption)

theorem wf_State_ephEpoch (h : s.wf = true) (e : Nat) :
    (State.ephEpoch s e).wf = true := by
  unfold State.ephEpoch
  repeat' first | with_reducible assumption | with_reducible apply wf_State_stopNow | with_reducible apply wf_State_switchNow | with_reducible apply wf_ite | with_reducible apply wf_ite1 | with_reducible apply wf_ite2 | with_reducible apply wf_regs | with_reducible apply wf_force | with_reducible apply wf_mem | with_reducible apply wf_scr | (simp only [wf_mk]; refine ⟨⟨⟨?_, ?_⟩, ?_⟩, ?_⟩) | (dsimp only) | (refine wf_of_snd (by with_reducible assumption) ?_) | (refine wf_of_fst (by with_reducible assumption) ?_) | split

theorem wf_State_rejoin (h : s.wf = true) (old : List Nat) :
    (State.rejoin s old).wf = true := by
  unfold State.rejoin
  try dsimp only
  repeat' first | with_reducible assumption | (intro _) | with_reducible apply wf_each | with_reducible apply wf_set | with_reducible apply wf_ite | with_reducible apply wf_ite1 | with_reducible apply wf_ite2 | with_reducible apply wf_regs | with_reducible apply wf_force | with_reducible apply wf_mem | with_reducible apply wf_scr | (simp only [wf_mk]; refine ⟨⟨⟨?_, ?_⟩, ?_⟩, ?_⟩)

theorem wf_State_merApply (h : s.wf = true) :
    (State.merApply s).wf = true := by
  unfold State.merApply
  try dsimp only
  repeat' first | with_reducible assumption | (intro _) | with_reducible apply wf_State_slot | with_reducible apply wf_clr | with_reducible apply wf_when | with_reducible apply wf_set | with_reducible apply wf_State_recheck | with_reducible apply wf_State_setStandbyState | with_reducible apply wf_ite | with_reducible apply wf_ite1 | with_reducible apply wf_ite2 | with_reducible apply wf_regs | with_reducible apply wf_force | with_reducible apply wf_mem | with_reducible apply wf_scr | (simp only [wf_mk]; refine ⟨⟨⟨?_, ?_⟩, ?_⟩, ?_⟩) | (dsimp only) | (refine wf_of_snd (by with_reducible assumption) ?_) | (refine wf_of_fst (by with_reducible assumption) ?_) | split

theorem wf_State_lateArms (h : s.wf = true) :
    (State.lateArms s).wf = true := by
  unfold State.lateArms
  try dsimp only
  repeat' first | with_reducible assumption | (intro _) | with_reducible apply wf_when | with_reducible apply wf_State_endArm | with_reducible apply wf_State_ephEvent | with_reducible apply wf_State_recheck | with_reducible apply wf_State_setStandbyState | with_reducible apply wf_State_rtArmBit | with_reducible apply wf_set | with_reducible apply wf_ite | with_reducible apply wf_ite1 | with_reducible apply wf_ite2 | with_reducible apply wf_regs | with_reducible apply wf_force | with_reducible apply wf_mem | with_reducible apply wf_scr | (simp only [wf_mk]; refine ⟨⟨⟨?_, ?_⟩, ?_⟩, ?_⟩)

theorem wf_State_windowEpoch (h : s.wf = true) :
    (State.windowEpoch s).wf = true := by
  unfold State.windowEpoch
  try dsimp only
  repeat' first | with_reducible assumption | (intro _)  | with_reducible apply wf_ite | with_reducible apply wf_ite1 | with_reducible apply wf_ite2 | with_reducible apply wf_regs | with_reducible apply wf_force | with_reducible apply wf_mem | with_reducible apply wf_scr | (simp only [wf_mk]; refine ⟨⟨⟨?_, ?_⟩, ?_⟩, ?_⟩)

theorem wf_State_epochFrame (h : s.wf = true) :
    (State.epochFrame s).wf = true := by
  unfold State.epochFrame
  try dsimp only
  repeat' first | with_reducible assumption | (intro _) | with_reducible apply wf_State_flipEpoch | with_reducible apply wf_State_ephEpoch | with_reducible apply wf_State_rejoin | with_reducible apply wf_State_merApply | with_reducible apply wf_State_heatEpoch | with_reducible apply wf_when | with_reducible apply wf_State_tierPolicy | with_reducible apply wf_State_flashEpoch | with_reducible apply wf_State_windowEpoch | with_reducible apply wf_regs | with_reducible apply wf_force | with_reducible apply wf_mem | with_reducible apply wf_scr | (simp only [wf_mk]; refine ⟨⟨⟨?_, ?_⟩, ?_⟩, ?_⟩)

theorem wf_State_abortSend (h : s.wf = true) (known : List (Nat × Nat)) :
    (State.abortSend s known).wf = true := by
  unfold State.abortSend
  try dsimp only
  repeat' first | with_reducible assumption | (intro _) | with_reducible apply wf_each | with_reducible apply wf_State_sendOn | with_reducible apply wf_ite | with_reducible apply wf_ite1 | with_reducible apply wf_ite2 | with_reducible apply wf_regs | with_reducible apply wf_force | with_reducible apply wf_mem | with_reducible apply wf_scr | (simp only [wf_mk]; refine ⟨⟨⟨?_, ?_⟩, ?_⟩, ?_⟩)

theorem wf_State_epochSend (h : s.wf = true) :
    (State.epochSend s).wf = true := by
  unfold State.epochSend
  try dsimp only
  repeat' first | with_reducible assumption | (intro _) | with_reducible apply wf_when | with_reducible apply wf_each | with_reducible apply wf_State_sendOn | with_reducible apply wf_regs | with_reducible apply wf_force | with_reducible apply wf_mem | with_reducible apply wf_scr | (simp only [wf_mk]; refine ⟨⟨⟨?_, ?_⟩, ?_⟩, ?_⟩) | (dsimp only) | (refine wf_of_snd (by with_reducible assumption) ?_) | (refine wf_of_fst (by with_reducible assumption) ?_) | split

theorem wf_State_controlCells (h : s.wf = true) (known : List (Nat × Nat)) :
    (State.controlCells s known).wf = true := by
  unfold State.controlCells
  repeat' first | with_reducible assumption | (intro _) | with_reducible apply wf_State_abortSend | with_reducible apply wf_State_epochSend | with_reducible apply wf_each | with_reducible apply wf_State_helloFrame

theorem wf_State_decisions (h : s.wf = true) (old : List (Nat × Word)) (occ : List Occ) (last : Nat) :
    (State.decisions s old occ last).wf = true := by
  unfold State.decisions
  try dsimp only
  repeat' first | with_reducible assumption | (intro _) | with_reducible apply wf_ite | with_reducible apply wf_State_dieFrame | with_reducible apply wf_State_abortFrame | with_reducible apply wf_State_faultFrame | with_reducible apply wf_State_ctxFrame | with_reducible apply wf_State_occFrame | with_reducible apply wf_State_entryFrame | with_reducible apply wf_State_levelFrame | with_reducible apply wf_State_quarFrame | with_reducible apply wf_State_lostFrame | with_reducible apply wf_State_finishMoves | with_reducible apply wf_State_heatFrame | with_reducible apply wf_State_redFrame | with_reducible apply wf_State_wsFrame | with_reducible apply wf_State_cpFrame | with_reducible apply wf_State_switchFrame | with_reducible apply wf_State_remapFrame | with_reducible apply wf_State_cohFrame | with_reducible apply wf_State_telemRead | with_reducible apply wf_State_mirrorFrame | with_reducible apply wf_State_searchFrame | with_reducible apply wf_State_hangFrame | with_reducible apply wf_when

theorem wf_State_boundaryEnd (h : s.wf = true) :
    (State.boundaryEnd s).wf = true := by
  unfold State.boundaryEnd
  try dsimp only
  repeat' first | with_reducible assumption | (intro _) | with_reducible apply wf_when | with_reducible apply wf_clr

theorem wf_State_stepOkSync (h : s.wf = true) :
    (State.stepOkSync s).wf = true := by
  unfold State.stepOkSync
  repeat' first | with_reducible assumption | with_reducible apply wf_wrFld | with_reducible apply wf_ite | with_reducible apply wf_ite1 | with_reducible apply wf_ite2

theorem wf_State_boundary (h : s.wf = true) :
    (State.boundary s).wf = true := by
  unfold State.boundary
  try dsimp only
  repeat' first | with_reducible assumption | (intro _) | with_reducible apply wf_State_shutdown | with_reducible apply wf_State_overrunDue | with_reducible apply wf_State_frameTime | with_reducible apply wf_State_protect | with_reducible apply wf_State_pageRights | with_reducible apply wf_State_powerFrame | with_reducible apply wf_State_decisions | with_reducible apply wf_when | with_reducible apply wf_State_epochFrame | with_reducible apply wf_State_lateArms | with_reducible apply wf_State_boundaryEnd | with_reducible apply wf_State_stepOkSync | with_reducible apply wf_State_linkSlot | with_reducible apply wf_State_slot | with_reducible apply wf_State_controlCells | with_reducible apply wf_ite | with_reducible apply wf_ite1 | with_reducible apply wf_ite2

end Sys2Proof.Machine
end

