-- ==== Sys2Proof/Laws/KeepCounters.lean ====
section
/-! SUPPORT. Every operation of Machine/Counters.lean keeps the stores of the state in their canonical form. -/

namespace Sys2Proof.Machine

variable {s : State}

theorem wf_State_cValue (h : s.wf = true) (c : Nat) (h : Half) (v : Word64) :
    (State.cValue s c h v).wf = true := by
  unfold State.cValue
  repeat' first | with_reducible assumption | with_reducible apply wf_State_ctrSet

theorem wf_State_cAdd (h : s.wf = true) (c : Nat) (h : Half) (v : Word64) :
    (State.cAdd s c h v).wf = true := by
  unfold State.cAdd
  repeat' first | with_reducible assumption | with_reducible apply wf_State_ctrAdd

theorem wf_State_cBind (h : s.wf = true) (port : Nat) (c : Nat) (v : Word) :
    (State.cBind s port c v).wf = true := by
  unfold State.cBind
  try dsimp only
  repeat' first | with_reducible assumption | (intro _) | with_reducible apply wf_State_pviol | with_reducible apply wf_State_plainWrite | with_reducible apply wf_ite | with_reducible apply wf_ite1 | with_reducible apply wf_ite2 | (dsimp only) | (refine wf_of_snd (by with_reducible assumption) ?_) | (refine wf_of_fst (by with_reducible assumption) ?_) | split

theorem wf_State_cFailClr (h : s.wf = true) (c : Nat) :
    (State.cFailClr s c).wf = true := by
  unfold State.cFailClr
  repeat' first | with_reducible assumption | with_reducible apply wf_wr

theorem wf_State_cNotifyCfg (h : s.wf = true) (port : Nat) (c : Nat) (v : Word) :
    (State.cNotifyCfg s port c v).wf = true := by
  unfold State.cNotifyCfg
  repeat' first | with_reducible assumption | with_reducible apply wf_State_plainWrite | with_reducible apply wf_State_notify

theorem wf_State_cNotifyValue (h : s.wf = true) (c : Nat) (h : Half) (v : Word64) :
    (State.cNotifyValue s c h v).wf = true := by
  unfold State.cNotifyValue
  repeat' first | with_reducible assumption | with_reducible apply wf_wr64 | with_reducible apply wf_State_notify

end Sys2Proof.Machine
end

