-- ==== Sys2Proof/Laws/KeepMmio.lean ====
section
/-! SUPPORT. Every operation of Machine/Mmio.lean keeps the stores of the state in their canonical form. -/

namespace Sys2Proof.Machine

variable {s : State}

theorem wf_State_guarded (h : s.wf = true) (port : Nat) (off : Nat) (v : Word) (ok : Bool) (ev : Nat) (m : Word) :
    (State.guarded s port off v ok ev m).wf = true := by
  unfold State.guarded
  repeat' first | with_reducible assumption | with_reducible apply wf_State_plainWrite | with_reducible apply wf_set | with_reducible apply wf_ite | with_reducible apply wf_ite1 | with_reducible apply wf_ite2

theorem wf_State_pmapCmd (h : s.wf = true) (op : Nat) :
    (State.pmapCmd s op).wf = true := by
  unfold State.pmapCmd
  repeat' first | with_reducible assumption | with_reducible apply wf_State_pmapStart | with_reducible apply wf_State_pmapMap | with_reducible apply wf_State_pmapUnmap | with_reducible apply wf_State_pmapSetFlags | with_reducible apply wf_State_pmapQuery | with_reducible apply wf_set | with_reducible apply wf_regs | with_reducible apply wf_force | with_reducible apply wf_mem | with_reducible apply wf_scr | (simp only [wf_mk]; refine ⟨⟨⟨?_, ?_⟩, ?_⟩, ?_⟩) | (dsimp only) | (refine wf_of_snd (by with_reducible assumption) ?_) | (refine wf_of_fst (by with_reducible assumption) ?_) | split

theorem wf_State_tierWrite (h : s.wf = true) (port : Nat) (o : Nat) (v : Word) :
    (State.tierWrite s port o v).wf = true := by
  unfold State.tierWrite
  try dsimp only
  repeat' first | with_reducible assumption | (intro _) | with_reducible apply wf_State_guarded | with_reducible apply wf_State_plainWrite | with_reducible apply wf_when | with_reducible apply wf_set | with_reducible apply wf_State_pmapCmd | with_reducible apply wf_regs | with_reducible apply wf_force | with_reducible apply wf_mem | with_reducible apply wf_scr | (simp only [wf_mk]; refine ⟨⟨⟨?_, ?_⟩, ?_⟩, ?_⟩) | (dsimp only) | (refine wf_of_snd (by with_reducible assumption) ?_) | (refine wf_of_fst (by with_reducible assumption) ?_) | split

theorem wf_State_flashWrite (h : s.wf = true) (port : Nat) (o : Nat) (v : Word) :
    (State.flashWrite s port o v).wf = true := by
  unfold State.flashWrite
  try dsimp only
  repeat' first | with_reducible assumption | (intro _) | with_reducible apply wf_State_guarded | with_reducible apply wf_State_plainWrite | with_reducible apply wf_regs | with_reducible apply wf_force | with_reducible apply wf_mem | with_reducible apply wf_scr | (simp only [wf_mk]; refine ⟨⟨⟨?_, ?_⟩, ?_⟩, ?_⟩) | (dsimp only) | (refine wf_of_snd (by with_reducible assumption) ?_) | (refine wf_of_fst (by with_reducible assumption) ?_) | split

theorem wf_State_domWrite (h : s.wf = true) (port : Nat) (o : Nat) (v : Word) :
    (State.domWrite s port o v).wf = true := by
  unfold State.domWrite
  try dsimp only
  repeat' first | with_reducible assumption | (intro _) | with_reducible apply wf_set | with_reducible apply wf_State_plainWrite | with_reducible apply wf_State_guarded | with_reducible apply wf_ite | with_reducible apply wf_ite1 | with_reducible apply wf_ite2 | with_reducible apply wf_regs | with_reducible apply wf_force | with_reducible apply wf_mem | with_reducible apply wf_scr | (simp only [wf_mk]; refine ⟨⟨⟨?_, ?_⟩, ?_⟩, ?_⟩) | (dsimp only) | (refine wf_of_snd (by with_reducible assumption) ?_) | (refine wf_of_fst (by with_reducible assumption) ?_) | split

theorem wf_State_memberWrite (h : s.wf = true) (port : Nat) (o : Nat) (v : Word) :
    (State.memberWrite s port o v).wf = true := by
  unfold State.memberWrite
  try dsimp only
  repeat' first | with_reducible assumption | (intro _) | with_reducible apply wf_State_plainWrite | with_reducible apply wf_State_guarded | (dsimp only) | (refine wf_of_snd (by with_reducible assumption) ?_) | (refine wf_of_fst (by with_reducible assumption) ?_) | split

theorem wf_State_routeRegWrite (h : s.wf = true) (port : Nat) (o : Nat) (v : Word) :
    (State.routeRegWrite s port o v).wf = true := by
  unfold State.routeRegWrite
  repeat' first | with_reducible assumption | with_reducible apply wf_State_rtCtrl | with_reducible apply wf_State_rtEpoch | with_reducible apply wf_State_guarded | with_reducible apply wf_State_plainWrite | with_reducible apply wf_regs | with_reducible apply wf_force | with_reducible apply wf_mem | with_reducible apply wf_scr | (simp only [wf_mk]; refine ⟨⟨⟨?_, ?_⟩, ?_⟩, ?_⟩) | (dsimp only) | (refine wf_of_snd (by with_reducible assumption) ?_) | (refine wf_of_fst (by with_reducible assumption) ?_) | split

theorem wf_State_traceCfg (h : s.wf = true) (port : Nat) (v : Word) :
    (State.traceCfg s port v).wf = true := by
  unfold State.traceCfg
  try dsimp only
  repeat' first | with_reducible assumption | (intro _) | with_reducible apply wf_State_secBad | with_reducible apply wf_State_plainWrite | with_reducible apply wf_when | with_reducible apply wf_ite | with_reducible apply wf_ite1 | with_reducible apply wf_ite2

theorem wf_State_secWrite (h : s.wf = true) (port : Nat) (o : Nat) (v : Word) :
    (State.secWrite s port o v).wf = true := by
  unfold State.secWrite
  repeat' first | with_reducible assumption | with_reducible apply wf_State_secCmd | with_reducible apply wf_State_dbgCtrl | with_reducible apply wf_State_guarded | with_reducible apply wf_State_traceCfg | with_reducible apply wf_readIndex | with_reducible apply wf_State_plainWrite | with_reducible apply wf_regs | with_reducible apply wf_force | with_reducible apply wf_mem | with_reducible apply wf_scr | (simp only [wf_mk]; refine ⟨⟨⟨?_, ?_⟩, ?_⟩, ?_⟩) | (dsimp only) | (refine wf_of_snd (by with_reducible assumption) ?_) | (refine wf_of_fst (by with_reducible assumption) ?_) | split

theorem wf_State_healthWrite (h : s.wf = true) (port : Nat) (o : Nat) (v : Word) :
    (State.healthWrite s port o v).wf = true := by
  unfold State.healthWrite
  try dsimp only
  repeat' first | with_reducible assumption | (intro _) | with_reducible apply wf_State_guarded | with_reducible apply wf_State_hmCmd | with_reducible apply wf_readIndex | with_reducible apply wf_State_admitWrite | with_reducible apply wf_State_plainWrite | with_reducible apply wf_regs | with_reducible apply wf_force | with_reducible apply wf_mem | with_reducible apply wf_scr | (simp only [wf_mk]; refine ⟨⟨⟨?_, ?_⟩, ?_⟩, ?_⟩) | (dsimp only) | (refine wf_of_snd (by with_reducible assumption) ?_) | (refine wf_of_fst (by with_reducible assumption) ?_) | split

theorem wf_State_powerWrite (h : s.wf = true) (port : Nat) (o : Nat) (v : Word) :
    (State.powerWrite s port o v).wf = true := by
  unfold State.powerWrite
  try dsimp only
  repeat' first | with_reducible assumption | (intro _) | with_reducible apply wf_State_pwrCmd | with_reducible apply wf_State_guarded | with_reducible apply wf_State_almUpd | with_reducible apply wf_State_plainWrite | with_reducible apply wf_regs | with_reducible apply wf_force | with_reducible apply wf_mem | with_reducible apply wf_scr | (simp only [wf_mk]; refine ⟨⟨⟨?_, ?_⟩, ?_⟩, ?_⟩) | (dsimp only) | (refine wf_of_snd (by with_reducible assumption) ?_) | (refine wf_of_fst (by with_reducible assumption) ?_) | split

theorem wf_State_ctxWrite (h : s.wf = true) (port : Nat) (o : Nat) (v : Word) :
    (State.ctxWrite s port o v).wf = true := by
  unfold State.ctxWrite
  try dsimp only
  repeat' first | with_reducible assumption | (intro _) | with_reducible apply wf_State_ctxCommand | with_reducible apply wf_State_plainWrite | with_reducible apply wf_ite | with_reducible apply wf_ite1 | with_reducible apply wf_ite2

theorem wf_State_globWrite (h : s.wf = true) (port : Nat) (o : Nat) (v : Word) :
    (State.globWrite s port o v).wf = true := by
  unfold State.globWrite
  repeat' first | with_reducible assumption | with_reducible apply wf_State_merCtrl | with_reducible apply wf_State_tierWrite | with_reducible apply wf_State_flashWrite | with_reducible apply wf_State_domWrite | with_reducible apply wf_State_routeRegWrite | with_reducible apply wf_State_secWrite | with_reducible apply wf_State_healthWrite | with_reducible apply wf_State_powerWrite | with_reducible apply wf_State_memberWrite | with_reducible apply wf_State_ctxWrite | with_reducible apply wf_State_guarded | with_reducible apply wf_State_plainWrite | with_reducible apply wf_ite | with_reducible apply wf_ite1 | with_reducible apply wf_ite2

theorem wf_State_telemCfg (h : s.wf = true) (port : Nat) (d : Nat) (v : Word) :
    (State.telemCfg s port d v).wf = true := by
  unfold State.telemCfg
  try dsimp only
  repeat' first | with_reducible assumption | (intro _) | with_reducible apply wf_set | with_reducible apply wf_State_plainWrite | with_reducible apply wf_when | with_reducible apply wf_ite | with_reducible apply wf_ite1 | with_reducible apply wf_ite2 | (dsimp only) | (refine wf_of_snd (by with_reducible assumption) ?_) | (refine wf_of_fst (by with_reducible assumption) ?_) | split

theorem wf_State_gateCtrl (h : s.wf = true) (port : Nat) (d : Nat) (e : Nat) (v : Word) :
    (State.gateCtrl s port d e v).wf = true := by
  unfold State.gateCtrl
  try dsimp only
  repeat' first | with_reducible assumption | (intro _) | with_reducible apply wf_State_plainWrite | with_reducible apply wf_State_gateSwitch | with_reducible apply wf_State_setGate | with_reducible apply wf_ite | with_reducible apply wf_ite1 | with_reducible apply wf_ite2 | with_reducible apply wf_regs | with_reducible apply wf_force | with_reducible apply wf_mem | with_reducible apply wf_scr | (simp only [wf_mk]; refine ⟨⟨⟨?_, ?_⟩, ?_⟩, ?_⟩) | (dsimp only) | (refine wf_of_snd (by with_reducible assumption) ?_) | (refine wf_of_fst (by with_reducible assumption) ?_) | split

theorem wf_State_egWrite (h : s.wf = true) (port : Nat) (d : Nat) (e : Nat) (r : Nat) (v : Word) :
    (State.egWrite s port d e r v).wf = true := by
  unfold State.egWrite
  try dsimp only
  repeat' first | with_reducible assumption | (intro _) | with_reducible apply wf_State_guarded | with_reducible apply wf_set | with_reducible apply wf_State_gateCtrl | with_reducible apply wf_State_plainWrite | with_reducible apply wf_ite | with_reducible apply wf_ite1 | with_reducible apply wf_ite2

theorem wf_State_dieWrite (h : s.wf = true) (port : Nat) (d : Nat) (o : Nat) (v : Word) :
    (State.dieWrite s port d o v).wf = true := by
  unfold State.dieWrite
  try dsimp only
  repeat' first | with_reducible assumption | (intro _) | with_reducible apply wf_State_guarded | with_reducible apply wf_State_telemCfg | with_reducible apply wf_readIndex | with_reducible apply wf_State_plainWrite | with_reducible apply wf_State_egWrite | with_reducible apply wf_ite | with_reducible apply wf_ite1 | with_reducible apply wf_ite2 | (dsimp only) | (refine wf_of_snd (by with_reducible assumption) ?_) | (refine wf_of_fst (by with_reducible assumption) ?_) | split

theorem wf_State_queueWrite (h : s.wf = true) (port : Nat) (q : Nat) (o : Nat) (v : Word) :
    (State.queueWrite s port q o v).wf = true := by
  unfold State.queueWrite
  repeat' first | with_reducible assumption | (intro _) | with_reducible apply wf_qCfg | with_reducible apply wf_qRingLo | with_reducible apply wf_qLocked | with_reducible apply wf_qRingFollow | with_reducible apply wf_State_plainWrite | with_reducible apply wf_qLogRd | with_reducible apply wf_qDoorbell | with_reducible apply wf_regs | with_reducible apply wf_force | with_reducible apply wf_mem | with_reducible apply wf_scr | (simp only [wf_mk]; refine ⟨⟨⟨?_, ?_⟩, ?_⟩, ?_⟩) | (dsimp only) | (refine wf_of_snd (by with_reducible assumption) ?_) | (refine wf_of_fst (by with_reducible assumption) ?_) | split

theorem wf_State_counterWrite (h : s.wf = true) (port : Nat) (c : Nat) (o : Nat) (v : Word) :
    (State.counterWrite s port c o v).wf = true := by
  unfold State.counterWrite
  repeat' first | with_reducible assumption | with_reducible apply wf_State_cValue | with_reducible apply wf_State_cAdd | with_reducible apply wf_State_cBind | with_reducible apply wf_State_cFailClr | with_reducible apply wf_State_cNotifyCfg | with_reducible apply wf_State_cNotifyValue | with_reducible apply wf_regs | with_reducible apply wf_force | with_reducible apply wf_mem | with_reducible apply wf_scr | (simp only [wf_mk]; refine ⟨⟨⟨?_, ?_⟩, ?_⟩, ?_⟩) | (dsimp only) | (refine wf_of_snd (by with_reducible assumption) ?_) | (refine wf_of_fst (by with_reducible assumption) ?_) | split

theorem wf_State_ephCmd (h : s.wf = true) (op : Nat) (index : Nat) :
    (State.ephCmd s op index).wf = true := by
  unfold State.ephCmd
  repeat' first | with_reducible assumption | with_reducible apply wf_State_loadPool | with_reducible apply wf_State_loadLibrary | with_reducible apply wf_State_discardStandby | with_reducible apply wf_State_stopActive | with_reducible apply wf_State_ephIgnored | with_reducible apply wf_regs | with_reducible apply wf_force | with_reducible apply wf_mem | with_reducible apply wf_scr | (simp only [wf_mk]; refine ⟨⟨⟨?_, ?_⟩, ?_⟩, ?_⟩) | (dsimp only) | (refine wf_of_snd (by with_reducible assumption) ?_) | (refine wf_of_fst (by with_reducible assumption) ?_) | split

theorem wf_State_ephWrite (h : s.wf = true) (port : Nat) (d : Nat) (o : Nat) (v : Word) :
    (State.ephWrite s port d o v).wf = true := by
  unfold State.ephWrite
  repeat' first | with_reducible assumption | with_reducible apply wf_State_ephCmd | with_reducible apply wf_State_ephArm | with_reducible apply wf_State_ephDisarm | with_reducible apply wf_State_ephArmEpoch | with_reducible apply wf_State_plainWrite | with_reducible apply wf_ite | with_reducible apply wf_ite1 | with_reducible apply wf_ite2

theorem wf_State_hostWrite (h : s.wf = true) (port : Nat) (n : Nat) (o : Nat) (v : Word) :
    (State.hostWrite s port n o v).wf = true := by
  unfold State.hostWrite
  try dsimp only
  repeat' first | with_reducible assumption | (intro _) | with_reducible apply wf_State_hpCtrl | with_reducible apply wf_State_guarded | with_reducible apply wf_State_plainWrite | with_reducible apply wf_ite | with_reducible apply wf_ite1 | with_reducible apply wf_ite2 | (dsimp only) | (refine wf_of_snd (by with_reducible assumption) ?_) | (refine wf_of_fst (by with_reducible assumption) ?_) | split

theorem wf_State_mmio (h : s.wf = true) (port : Nat) (off : Nat) (v : Word) :
    (State.mmio s port off v).wf = true := by
  unfold State.mmio
  repeat' first | with_reducible assumption | with_reducible apply wf_State_globWrite | with_reducible apply wf_State_dieWrite | with_reducible apply wf_State_queueWrite | with_reducible apply wf_State_counterWrite | with_reducible apply wf_State_ephWrite | with_reducible apply wf_State_hostWrite | with_reducible apply wf_State_lpCtrl | with_reducible apply wf_State_plainWrite | with_reducible apply wf_ite | with_reducible apply wf_ite1 | with_reducible apply wf_ite2 | with_reducible apply wf_regs | with_reducible apply wf_force | with_reducible apply wf_mem | with_reducible apply wf_scr | (simp only [wf_mk]; refine ⟨⟨⟨?_, ?_⟩, ?_⟩, ?_⟩) | (dsimp only) | (refine wf_of_snd (by with_reducible assumption) ?_) | (refine wf_of_fst (by with_reducible assumption) ?_) | split

theorem wf_State_slotWord (h : s.wf = true) (port : Nat) (k : Slot) (o : Nat) (v : Word) :
    (State.slotWord s port k o v).wf = true := by
  unfold State.slotWord
  repeat' first | with_reducible assumption | with_reducible apply wf_qLogRd | with_reducible apply wf_qDoorbell | with_reducible apply wf_State_codeWrite | with_reducible apply wf_State_notify | with_reducible apply wf_State_counterWrite | with_reducible apply wf_regs | with_reducible apply wf_force | with_reducible apply wf_mem | with_reducible apply wf_scr | (simp only [wf_mk]; refine ⟨⟨⟨?_, ?_⟩, ?_⟩, ?_⟩) | (dsimp only) | (refine wf_of_snd (by with_reducible assumption) ?_) | (refine wf_of_fst (by with_reducible assumption) ?_) | split

theorem wf_State_slotWrite (h : s.wf = true) (port : Nat) (k : Slot) (h : Half) (v : Word64) :
    (State.slotWrite s port k h v).wf = true := by
  unfold State.slotWrite
  try dsimp only
  repeat' first | with_reducible assumption | (intro _) | with_reducible apply wf_State_cValue | with_reducible apply wf_State_cAdd | with_reducible apply wf_State_cNotifyValue | with_reducible apply wf_State_slotWord | with_reducible apply wf_regs | with_reducible apply wf_force | with_reducible apply wf_mem | with_reducible apply wf_scr | (simp only [wf_mk]; refine ⟨⟨⟨?_, ?_⟩, ?_⟩, ?_⟩) | (dsimp only) | (refine wf_of_snd (by with_reducible assumption) ?_) | (refine wf_of_fst (by with_reducible assumption) ?_) | split

theorem wf_State_windowAccess (h : s.wf = true) (port : Nat) (off : Nat) (write : Bool) (h : Half) (v : Word64) :
    (State.windowAccess s port off write h v).wf = true := by
  unfold State.windowAccess
  repeat' first | with_reducible assumption | (intro _) | with_reducible apply wf_when | with_reducible apply wf_State_write | with_reducible apply wf_emit | with_reducible apply wf_State_pviol | with_reducible apply wf_State_slotWrite | with_reducible apply wf_ite | with_reducible apply wf_ite1 | with_reducible apply wf_ite2 | with_reducible apply wf_regs | with_reducible apply wf_force | with_reducible apply wf_mem | with_reducible apply wf_scr | (simp only [wf_mk]; refine ⟨⟨⟨?_, ?_⟩, ?_⟩, ?_⟩) | (dsimp only) | (refine wf_of_snd (by with_reducible assumption) ?_) | (refine wf_of_fst (by with_reducible assumption) ?_) | split

end Sys2Proof.Machine
end

