-- ==== Sys2Proof/Laws/KeepDebug.lean ====
section
/-! SUPPORT. Every operation of Machine/Debug.lean keeps the stores of the state in their canonical form. -/

namespace Sys2Proof.Machine

variable {s : State}

theorem wf_State_tapLoad (h : s.wf = true) (code : Nat) :
    (State.tapLoad s code).wf = true := by
  unfold State.tapLoad
  repeat' first | with_reducible assumption | with_reducible apply wf_emit | with_reducible apply wf_regs | with_reducible apply wf_force | with_reducible apply wf_mem | with_reducible apply wf_scr | (simp only [wf_mk]; refine ⟨⟨⟨?_, ?_⟩, ?_⟩, ?_⟩)

theorem wf_State_tapData (h : s.wf = true) (v : Nat) :
    (State.tapData s v).wf = true := by
  unfold State.tapData
  repeat' first | with_reducible assumption | with_reducible apply wf_emit | with_reducible apply wf_regs | with_reducible apply wf_force | with_reducible apply wf_mem | with_reducible apply wf_scr | (simp only [wf_mk]; refine ⟨⟨⟨?_, ?_⟩, ?_⟩, ?_⟩)

theorem wf_State_tapBypass (h : s.wf = true) :
    (State.tapBypass s).wf = true := by
  unfold State.tapBypass
  try dsimp only
  repeat' first | with_reducible assumption | (intro _) | with_reducible apply wf_State_tapLoad | with_reducible apply wf_State_tapData | with_reducible apply wf_regs | with_reducible apply wf_force | with_reducible apply wf_mem | with_reducible apply wf_scr | (simp only [wf_mk]; refine ⟨⟨⟨?_, ?_⟩, ?_⟩, ?_⟩)

theorem wf_State_tapDebug (h : s.wf = true) (code : Nat) (f : State → State) (hf_f : ∀ t : State, t.wf = true → (f t).wf = true) :
    (State.tapDebug s code f).wf = true := by
  unfold State.tapDebug
  repeat' first | with_reducible assumption | with_reducible apply hf_f | with_reducible apply wf_State_dark | with_reducible apply wf_State_tapLoad | with_reducible apply wf_State_tapBypass | with_reducible apply wf_State_pviol | with_reducible apply wf_ite | with_reducible apply wf_ite1 | with_reducible apply wf_ite2

theorem wf_State_scan (h : s.wf = true) :
    (State.scan s).wf = true := by
  unfold State.scan
  repeat' first | with_reducible assumption | with_reducible apply wf_emit | with_reducible apply wf_regs | with_reducible apply wf_force | with_reducible apply wf_mem | with_reducible apply wf_scr | (simp only [wf_mk]; refine ⟨⟨⟨?_, ?_⟩, ?_⟩, ?_⟩)

theorem wf_State_debug (h : s.wf = true) (d : DebugAct) :
    (State.debug s d).wf = true := by
  unfold State.debug
  repeat' first | with_reducible assumption | (intro _) | with_reducible apply wf_when | with_reducible apply wf_State_tapData | with_reducible apply wf_State_mmio | with_reducible apply wf_State_flushLine | with_reducible apply wf_State_write | with_reducible apply wf_regs | with_reducible apply wf_force | with_reducible apply wf_mem | with_reducible apply wf_scr | with_reducible apply swf_sset | with_reducible apply wf_putBytes | with_reducible apply swf_filter | (simp only [wf_mk]; refine ⟨⟨⟨?_, ?_⟩, ?_⟩, ?_⟩) | apply swf_sset | (dsimp only) | (refine wf_of_snd (by with_reducible assumption) ?_) | (refine wf_of_fst (by with_reducible assumption) ?_) | split

end Sys2Proof.Machine
end

