-- ==== Sys2Proof/WellFormed.lean ====
section
/-! DEFINITION. Which commands are well formed: every operand lies in the range the manual gives it (R22, R29, R41, R114, R200, R409). -/

namespace Sys2Proof

/-- A host port number (R26). -/
def portWf (p : Nat) : Bool := p < 48

/-- An offset of the 512 MiB aperture, 4 B aligned (R40, R41); offsets from 0x1400_0000 on are reserved (R44). -/
def offWf (o : Nat) : Bool := o < 0x20000000 && o % 4 == 0

/-- A 64 B line number of the 52-bit pool address space (R330). -/
def lineWf (l : Nat) : Bool := l < 2 ^ 46

/-- Lines of a scratch window of at most 576 granules (R158). -/
def scrWf (x : ScrIn) : Bool := x.bad.all (· < 36864)

def Agent.wf : Agent → Bool
  | .host n => n < 48
  | .core n => n < 64
  | .unit d => d < 4
  | .zfl n => n < 64

/-- R429, R456: the fields of an atomic; a reserved code or an unlisted size is refused by the home, not here. -/
def Atomic.wf (a : Atomic) : Bool := a.code < 16 && a.size < 32 && a.operand < 2 ^ 128 && a.swap < 2 ^ 128

/-- R300: the fields of a message entering a switch core. -/
def SwMsg.wf (m : SwMsg) : Bool :=
  m.ingress < 256 && m.egress < 0x25 && m.cls < 8 && m.ctx < 1024 && m.label < 2 ^ 20 && 1 ≤ m.cells && m.cells ≤ 32 && 1 ≤ m.arrived
    && m.arrived ≤ m.cells && m.coh ≤ 5 && m.colour < 4

/-- R455: the fields of a message header. -/
def Msg.wf (m : Msg) : Bool :=
  m.kind < 256 && m.cls < 8 && m.colour < 4 && m.ctx < 1024 && m.gen < 2 ^ 22 && m.src < 256 && m.dst < 256 && m.group < 64 && m.sub < 2 ^ 16 && m.seq < 2 ^ 24 && m.stream < 16
  && m.addr < 2 ^ 64 && m.label < 2 ^ 32 && m.payload.length ≤ 8160

def DebugAct.wf : DebugAct → Bool
  | .haltEngine e => e < 256
  | .releaseEngine e => e < 256
  | .haltCore c => c < 64
  | .releaseCore c => c < 64
  | .readReg o => offWf o
  | .writeReg o _ => offWf o
  | .readScratch sp b => sp < 320 && b < 2 ^ 22
  | .writeScratch sp b _ => sp < 320 && b < 2 ^ 22
  | .readPool a => a < 2 ^ 52
  | .writePool a _ => a < 2 ^ 52
  | .stepEngine e => e < 256
  | .stepCore c => c < 64

/-- Every operand in its range. -/
def Instr.wf : Instr → Bool
  | .registerWrite p o _ => portWf p && offWf o
  | .tenantWindowAccess p o _ _ _ => portWf p && o < 0x2000000 && o % 4 == 0
  | .frameBoundary => true
  | .slotBoundary => true
  | .ptpMessage d _ _ => d < 256
  | .holdoverTimeout => true
  | .merCtrlWrite p _ => portWf p
  | .merFrameLoRead p => portWf p
  | .loadPool p => portWf p
  | .loadLibrary p i => portWf p && i < 256
  | .discardStandby p => portWf p
  | .stopActive p => portWf p
  | .imageReadDone ue => ue.all lineWf
  | .admissionCheckDone => true
  | .ephArm p _ => portWf p
  | .ephDisarm p => portWf p
  | .ephArmEpochWrite p _ => portWf p
  | .recheckDone => true
  | .entryStart e ue _ => e < 131072 && ue.all lineWf
  | .frameOverrun e => e < 131072
  | .doorbell p q _ _ => portWf p && q < 16384
  | .qCfgWrite p q _ => portWf p && q < 16384
  | .queueEnable p q => portWf p && q < 16384
  | .queueDisable p q => portWf p && q < 16384
  | .qRingLoWrite p q _ => portWf p && q < 16384
  | .qLogRdWrite p q _ => portWf p && q < 16384
  | .descriptorRead q _ ue _ => q < 16384 && ue.all lineWf
  | .nop _ => true
  | .copy _ ue => ue.all lineWf
  | .fill _ => true
  | .counterOp _ => true
  | .operationComplete _ => true
  | .cValueWrite p c _ _ => portWf p && c < 65536
  | .cAddWrite p c _ _ => portWf p && c < 65536
  | .cBindWrite p c _ => portWf p && c < 65536
  | .cFailClrWrite p c _ => portWf p && c < 65536
  | .cNotifyCfgWrite p c _ => portWf p && c < 65536
  | .cNotifyValueWrite p c _ _ => portWf p && c < 65536
  | .arrayProgram _ _ ue scr => ue.all lineWf && scrWf scr
  | .ld _ ue scr => ue.all lineWf && scrWf scr
  | .st _ scr => scrWf scr
  | .mma _ scr => scrWf scr
  | .accIn _ scr => scrWf scr
  | .accOut _ scr => scrWf scr
  | .vop _ scr => scrWf scr
  | .transpose _ scr => scrWf scr
  | .reduce _ ue scr => ue.all lineWf && scrWf scr
  | .reduceStreamRun _ _ scr => scrWf scr
  | .steeredWrite x a d _ => x < 1024 && a < 2 ^ 52 && d.length ≤ 8160
  | .redPartial l _ => l < 64
  | .gather _ ue => ue.all lineWf
  | .gatherReduce _ ue => ue.all lineWf
  | .rowFilter _ ue => ue.all lineWf
  | .scoreFilter _ ue => ue.all lineWf
  | .compress _ ue => ue.all lineWf
  | .expand _ ue => ue.all lineWf
  | .expandBlockDecode _ ue scr => ue.all lineWf && scrWf scr
  | .messageIngress d m => d < 4 && m.wf
  | .creditReturn l sm _ => l < 64 && sm < 11
  | .egressPosition d e _ => d < 4 && e < 0x25
  | .gateEntryExpiry d e => d < 4 && e < 0x25
  | .egGateSwitch p d e => portWf p && d < 4 && e < 0x25
  | .tmTelemRdWrite p d _ => portWf p && d < 4
  | .map p => portWf p
  | .unmap p => portWf p
  | .setFlags p => portWf p
  | .query p => portWf p
  | .pmapCommandDone => true
  | .migrationChunkCopy pg _ _ ue => pg < 2 ^ 31 && ue.all lineWf
  | .sourceFree pg => pg < 2 ^ 31
  | .wsOpen _ ue => ue.all lineWf
  | .wsClose _ => true
  | .wsStage _ => true
  | .wsStageDone _ => true
  | .cpOpen _ => true
  | .cpAppend _ ue => ue.all lineWf
  | .cpSeal _ => true
  | .cpStatus _ => true
  | .cpReplay _ => true
  | .cpClose _ => true
  | .mirrorRebuild _ t => t < 64
  | .pageScrub pg => pg < 2 ^ 31
  | .pageScrubComplete pg => pg < 2 ^ 31
  | .writeCacheFill l pg u => l < 64 && pg < 2 ^ 31 && u < 128
  | .destage l => l < 64
  | .folding l _ => l < 64
  | .flashDieFailure l _ => l < 64
  | .garbageCollection l _ _ => l < 64
  | .wearLevelling l _ _ => l < 64
  | .readRefresh l _ _ => l < 64
  | .secureDiscard l pg _ _ => l < 64 && pg < 2 ^ 31
  | .secureDiscardComplete l pg => l < 64 && pg < 2 ^ 31
  | .rdCur a x l _ => a.wf && x < 1024 && lineWf l
  | .rdS a x l _ => a.wf && x < 1024 && lineWf l
  | .rdOwn a x l _ => a.wf && x < 1024 && lineWf l
  | .upgrade a x l => a.wf && x < 1024 && lineWf l
  | .wrLine a x l d _ => a.wf && x < 1024 && lineWf l && d.length == 64
  | .wrPart a x ad d => a.wf && x < 1024 && ad < 2 ^ 52 && 1 ≤ d.length && ad % 64 + d.length ≤ 64
  | .homeAtomic a x ad o => a.wf && x < 1024 && ad < 2 ^ 52 && o.wf
  | .combinedAdd x ad n ms => x < 1024 && ad < 2 ^ 52 && (n == 4 || n == 8 || n == 16) && ms.all (fun m => m.agent.wf && m.operand < 2 ^ (8 * n))
  | .snpCur c l => c < 64 && lineWf l
  | .snpData c l => c < 64 && lineWf l
  | .snpInv c l => c < 64 && lineWf l
  | .rspI a l => a.wf && lineWf l
  | .rspS a l => a.wf && lineWf l
  | .biRsp h l d => h < 48 && lineWf l && d.all (fun b => b.length == 64)
  | .dirtyEvict a l d => a.wf && lineWf l && d.length == 64
  | .cleanEvict a l => a.wf && lineWf l
  | .serviceCoreEviction c l => c < 64 && lineWf l
  | .biSnpTimeout h => h < 48
  | .recallDone d => 1 ≤ d && d < 4
  | .linkSlotReceive l _ _ _ _ ms _ _ => l < 64 && ms.all Msg.wf
  | .e2eTimeout l p sm => l < 64 && p < 256 && sm < 13
  | .rd l ue => l < 64 && ue.all lineWf
  | .rdData l => l < 64
  | .wr l => l < 64
  | .wrResp l => l < 64
  | .atomic l => l < 64
  | .atomicResp l => l < 64
  | .mirrorWr l => l < 64
  | .abortNotice l => l < 64
  | .epochNotice l => l < 64
  | .hello l _ => l < 64
  | .tRd l a n x => l < 64 && a < 2 ^ 52 && 64 ≤ n && n ≤ 4096 && n % 64 == 0 && x < 1024
  | .tRdData l => l < 64
  | .tWr l a x d => l < 64 && a < 2 ^ 52 && x < 1024 && 64 ≤ d.length && d.length ≤ 4096 && d.length % 64 == 0
  | .tWrResp l => l < 64
  | .tAtomic l a x o => l < 64 && a < 2 ^ 52 && x < 1024 && o.wf
  | .tAtomicResp l => l < 64
  | .tFlCmd l c lv d b p => l < 64 && c < 3 && lv ≤ 8 && d < 2 ^ 10 && b < 2 ^ 22 && p < 2 ^ 16
  | .tFlResp l pg u _ _ _ => l < 64 && pg < 2 ^ 31 && u < 128
  | .linkTrained l n _ k => l < 64 && (n == 4 || n == 8) && k.length == 16
  | .linkDown l _ => l < 64
  | .rtArm p _ => portWf p
  | .rtDisarm p _ => portWf p
  | .rtArmEpochWrite p _ => portWf p
  | .hpDisable p n => portWf p && n < 48
  | .hpRetrain p n => portWf p && n < 48
  | .lpDisable p n => portWf p && n < 64
  | .lpRetrain p n => portWf p && n < 64
  | .hostPortTrained n _ => n < 48
  | .hostPortDown n => n < 48
  | .memRead p a _ ue => p < 48 && a % 64 == 0 && ue.all lineWf
  | .memWrite p a d _ _ => p < 48 && a % 64 == 0 && d.length == 64
  | .atomicOp p _ o => p < 48 && o.wf
  | .configRequest p m => p < 48 && m.all (fun v => v.1 < 2048)
  | .ideKeyProgram p _ => p < 48
  | .expanderLoss n => n < 48
  | .hrefLoss g => g < 12
  | .hrefRestore g => g < 12
  | .pllLockLoss k => k < 12
  | .pllRelock k => k < 12
  | .define p x sl => portWf p && x < 1024 && sl < 64
  | .occult p x => portWf p && x < 1024
  | .release p x => portWf p && x < 1024
  | .replayStoreRelease l x => l < 64 && x < 1024
  | .seal p _ => portWf p
  | .maintEnter p _ => portWf p
  | .debugLevelRequest p _ => portWf p
  | .attestationKeyMade _ => true
  | .getIdentity _ p _ => portWf p
  | .getAttKey _ p _ => portWf p
  | .getReport _ p n => portWf p && n.length ≤ 32
  | .dbgTraceRdWrite p _ => portWf p
  | .replayFinished e => e < 256
  | .faultCtx p x => portWf p && x < 1024
  | .abortCtx p x => portWf p && x < 1024
  | .dieReset p u _ => portWf p && u < 4
  | .moduleReset p _ => portWf p
  | .retrainStack p u _ => portWf p && u < 8
  | .stackRetrainDone n => n < 8
  | .retrainTimeout sm n => if sm then n < 8 else n < 64
  | .dieResetDone d => d < 4
  | .dieResetTimeout d => d < 4
  | .d2dPathFailure a b => a < 4 && b < 4
  | .admitArm p k _ => portWf p && k < 4
  | .mirrorResync r pg => r < 16 && pg < 2 ^ 31
  | .hmLogRdWrite p _ => portWf p
  | .moduleStart _ _ _ _ _ => true
  | .modReady _ => true
  | .startTimeout => true
  | .startImageLoad _ => true
  | .pwrEnLow => true
  | .resetNLow => true
  | .norRequest => true
  | .norRelease w => w.all (fun b => b.1 < 2 ^ 28)
  | .verify p _ => portWf p
  | .verifyDone _ _ => true
  | .write p _ => portWf p
  | .writeDone _ => true
  | .abort p _ => portWf p
  | .powerSample x => x.dieC.length == 4 && x.stackC.length == 8
  | .full p => portWf p
  | .idle p => portWf p
  | .retain p => portWf p
  | .off p _ => portWf p
  | .powerTransitionDone => true
  | .sysclkLoss => true
  | .extest _ => true
  | .idcode => true
  | .samplePreload _ => true
  | .secStatus => true
  | .debugAccess d => d.wf
  | .bypass => true
  | .tapReset => true
  | .flashDieRebuild l pg u _ => l < 64 && pg < 2 ^ 31 && u < 128
  | .serviceCoreAccess c x l d => c < 64 && x < 1024 && lineWf l && d.all (fun b => b.length == 64)
  | .grant c l sm d => c < 64 && lineWf l && sm < 4 && d.all (fun b => b.length == 64)
  | .standbyPowerLoss => true

end Sys2Proof
end

