-- ==== Sys2Proof/Tests/Slice0.lean ====
section
/-! SUPPORT. Small states, each built from the state after reset, on which the hypotheses of the statements hold together, and tests of single
steps against values worked out from the spec. -/

namespace Sys2Proof.Tests
open Sys2Proof.Machine
set_option Elab.async false

/-- Registers set and in force. -/
def put (l : List (Nat × Word)) (s : State) : State := l.foldl (fun t p => t.wrf p.1 p.2) s

/-- A module past its start, every die operating, host port 0 an owner port and UP, with these registers besides. -/
def up (l : List (Nat × Word)) : State :=
  put ((0x10, 0x3333) :: (hostBlock 0, 0x2002) :: l) { State.reset with pwr := { PwrS.reset with phase := .ready } }

-- time and Ephemerides ---------------------------------------------------------------------------------------------------

/-- The timebase is LOCKING. -/
def locking : State := up [(0x104, 1)]

theorem witness_MerCtrlIsCheckedAndFrameReadsCapture_MerCtrlWriteIsPendingOrDiscarded :
    (up []).accepts 0 0x100 = true ∧ nbits 0x100008 0 9 = 8 ∧ nbits 0x100008 16 5 = 16 ∧ nbits 0x040100 0 9 = 256 ∧ nbits 0x040100 16 5 = 4
      ∧ nbits 0x100007 0 9 = 7 ∧ nbits 0x030008 16 5 = 3 := by decide

theorem witness_MerCtrlIsCheckedAndFrameReadsCapture_FrameReadCapturesTheHighWord : (up []).accepts 0 0x108 = true := by decide

theorem witness_TimeStateFollowsNetworkTime :
    (up []).ready = true ∧ (0 : Nat) = (up []).fld 0x118 0 7 ∧ 0 = (up []).fld 0x118 8 1 ∧ 1 ≠ (up []).fld 0x118 0 7
      ∧ locking.ready = true ∧ locking.timeState = 1 := by decide

/-- A standby image in state st: 1 LOADING, 2 CHECKING, 3 ACCEPTED, 5 ARMED; three images in the library. -/
def image : Image := { id := 7, units := 32, log2Period := 0, eng := [], link := [], mig := [] }
def standby (st : Nat) : State :=
  let s := up ((ephReg 0 0x4C, 3) :: (ephReg 0 0x24, 1) :: (List.range 4).map (fun d => (ephReg d 0, BitVec.ofNat 32 (16 * st))))
  { s with eph := { s.eph with source := some (.library 0), standby := some image, armed := if st = 5 then some 1 else none } }
/-- An image is active; a re-check runs on the standby image. -/
def active : State := let s := standby 3; { s with eph := { s.eph with active := some image, recheck := 5 } }

theorem witness_StandbySlotIsLoadedAndDiscarded_LoadsFillTheStandbySlot :
    (standby 4).accepts 0 (ephReg 0 0x18) = true ∧ (standby 4).standbyState = 4 ∧ (standby 5).accepts 0 (ephReg 0 0x18) = true
      ∧ (standby 5).standbyState = 5 ∧ ((standby 4).rd (ephReg 0 0x4C)).toNat = 3 := by decide

theorem witness_StandbySlotIsLoadedAndDiscarded_DiscardAndStop :
    (standby 5).accepts 0 (ephReg 0 0x18) = true ∧ (standby 5).standbyState = 5 ∧ (∀ e, (standby 5).eph.armed = some e → 16 ≤ e * 2 ^ 12)
      ∧ active.accepts 0 (ephReg 0 0x18) = true ∧ active.eph.active = some image ∧ active.eph.stopAt = none ∧ (standby 5).eph.active = none :=
  ⟨by decide, by decide, fun e h => by cases h; decide, by decide, by decide, by decide, by decide⟩

theorem witness_ImageReadAndCheck :
    (standby 1).eph.source = some (.library 0) ∧ (standby 1).standbyState = 1 ∧ ((standby 1).imageBytes (.library 0) []).2 = false
      ∧ ((standby 1).imageBytes (.pool 0) [0]).2 = true ∧ (standby 2).standbyState = 2 ∧ (standby 2).eph.recheck = 0
      ∧ ((standby 2).admission [] false).1 ≠ 0 := by decide

theorem witness_ArmAndDisarm :
    (standby 3).accepts 0 (ephReg 0 0x20) = true ∧ (standby 3).standbyState = 3 ∧ (standby 3).eph.armed = none
      ∧ 16 ≤ (standby 3).targetEpoch 1 * 2 ^ 12 ∧ (standby 3).targetEpoch 0 = 0
      ∧ (standby 5).accepts 0 (ephReg 0 0x20) = true ∧ (standby 5).eph.armed = some 1 ∧ (standby 5).eph.recheck = 0 ∧ 16 ≤ 1 * 2 ^ 12
      ∧ (standby 5).accepts 0 (ephReg 0 0x24) = true ∧ active.eph.standby = some image ∧ active.eph.recheck ≠ 0
      ∧ periodBad image active.time.units = none ∧ lengthBad image active.time.epochLog2 = none ∧ periodBad image 8 ≠ none := by decide

-- queues and counters ----------------------------------------------------------------------------------------------------

/-- Queue 3 in a state, its ring of 64 slots between head 5 and tail 9. -/
def queue (st : Nat) : State :=
  up [(queueBlock 3 + 4, 0x601), (queueBlock 3 + 0x18, BitVec.ofNat 32 st), (queueBlock 3 + 0x20, 9), (queueBlock 3 + 0x24, 5), (queueBlock 3 + 0x28, 5),
      (queueBlock 3 + 0x2C, 4)]

theorem witness_DoorbellsMoveTheTail :
    (queue 1).accepts 0 (queueBlock 3 + 0x40) = true ∧ qState (queue 1) 3 = 1 ∧ (queue 1).fld (queueBlock 3 + 4) 8 5 = 6
      ∧ (queue 1).rd (queueBlock 3 + 0x20) - (queue 1).rd (queueBlock 3 + 0x28) = 4 ∧ ((69 : Word) - (queue 1).rd (queueBlock 3 + 0x28)).toNat = 2 ^ 6
      ∧ (queue 3).accepts 0 (queueBlock 3 + 0x40) = true ∧ qState (queue 3) 3 = 3 := by decide

theorem witness_QueuesAreConfiguredAndEnabled_QueueConfigurationIsLockedWhileRunning :
    (queue 0).accepts 0 (queueBlock 3 + 4) = true ∧ qCfgBad 0x601 = false ∧ qState (queue 0) 3 = 0 ∧ qRingFits (queue 0) 3 0x601 = true
      ∧ qRingFits (queue 0) 3 0x600 = true ∧ qCfgBad 0x500 = true ∧ qState (queue 1) 3 = 1
      ∧ (0x701 ^^^ (queue 1).rd (queueBlock 3 + 4)) &&& qCfgMask ≠ 0 := by decide

theorem witness_QueuesAreConfiguredAndEnabled_EnableStartsAndStopsAQueue :
    (queue 1).accepts 0 (queueBlock 3 + 4) = true ∧ qState (queue 1) 3 = 1 ∧ qState (queue 0) 3 = 0
      ∧ (queue 0).accepts 0 (queueBlock 3 + 4) = true ∧ (queue 3).accepts 0 (queueBlock 3 + 4) = true ∧ qState (queue 3) 3 = 3 := by decide

theorem witness_RingBaseWriteClearsTheIndices :
    (queue 0).accepts 0 (queueBlock 3 + 8) = true ∧ qState (queue 0) 3 = 0 ∧ (queue 1).accepts 0 (queueBlock 3 + 8) = true ∧ qState (queue 1) 3 = 1
      ∧ (queue 0).accepts 0 (queueBlock 3 + 0xC) = true := by decide

theorem witness_ReadIndicesAndCountersAreWrittenInBounds_ReadIndicesStayBehindWriteIndices :
    (queue 1).accepts 0 (queueBlock 3 + 0x30) = true ∧ (queue 1).accepts 0 (dieReg 2 0x540) = true ∧ (queue 1).accepts 0 0x734 = true
      ∧ (queue 1).accepts 0 0x81C = true := by decide

/-- Context 1 is LIVE in slice 0, which holds die 0; counter 2 stands at 9, with its notification armed at 10 for host port 0. -/
def counter : State :=
  up [(ctxReg 1 0, 1), (sliceReg 0 0 0x18, 0x01000101), (counterBlock 2, 9), (counterBlock 2 + 0x1C, 1), (counterBlock 2 + 0x20, 10)]

theorem witness_ReadIndicesAndCountersAreWrittenInBounds_CounterWritesByHalves : counter.accepts 0 (counterBlock 2) = true ∧ counter.accepts 0 (counterBlock 2 + 8) = true := by decide

theorem witness_BindingsAreCheckedAndNotificationsFireOnce_BindingsAreCheckedAndTakeEffectAtTheBoundary :
    counter.accepts 0 (counterBlock 2 + 0x10) = true ∧ counter.boundElsewhere 2 (0x80000C01 &&& 0x80FFFFFF) = false ∧ counter.defined 1 = true
      ∧ counter.sliceDie (counter.ctxSlice 1) 0 = true ∧ counter.defined 2 = false ∧ nbits 0x80000002 0 10 = 2
      ∧ counter.accepts 0 (counterBlock 2 + 0x18) = true := by decide

theorem witness_BindingsAreCheckedAndNotificationsFireOnce_NotificationFiresOnceTheThresholdIsReached :
    counter.accepts 0 (counterBlock 2 + 0x1C) = true ∧ counter.accepts 0 (counterBlock 2 + 0x20) = true
      ∧ counter.bit (counterBlock 2 + 0x1C) 0 = true ∧ counter.ctrVal 2 = 9 ∧ counter.rd64 (counterBlock 2 + 0x20) = 10 := by decide

-- operations ---------------------------------------------------------------------------------------------------------------

/-- A descriptor with this opcode, and fields given as first bit and value. -/
def desc (code : Nat) (l : List (Nat × Nat)) : BitVec 512 :=
  l.foldl (fun d p => d ||| BitVec.ofNat 512 p.2 <<< p.1) (BitVec.ofNat 512 code)

/-- Context 1 is LIVE at generation 1, holds pages 0 to 2, and counter 2 is its handle 7. -/
def pool (l : List (Nat × Word)) : State :=
  let s := up ((ctxReg 1 0, 1) :: (ctxReg 1 4, 1) :: (counterBlock 2 + 0x10, bindWord 1 7) :: (queueBlock 3, 1) :: (sliceReg 0 0 0x10, 1)
    :: (sliceReg 0 0 0x18, 0x01000F01) :: l)
  { s with tier := { s.tier with rights := [(0, 1), (1, 1), (2, 1)] } }

/-- Operation 5 of queue 3 for context 1. -/
def op (d : BitVec 512) : Op := { id := 5, queue := 3, index := 0, ctx := 1, gen := 1, desc := d, dynamic := true }

/-- It is in flight. -/
def flying (o : Op) : State := { pool [] with ops := [o] }

theorem flying_settled (o : Op) : (flying o).settled := fun _ => rfl
theorem flying_reads (o : Op) (a n : Nat) : (flying o).readCheck [] a n = .ok := by
  have h : ∀ l : List Nat, l.foldl (fun st p => st.worst ((flying o).lostCheck p)) .ok = Status.ok := by
    intro l
    induction l with
    | nil => rfl
    | cons p l ih => exact ih
  have b : (flying o).badLines [] = [] := rfl
  simp only [State.readCheck, h, b, List.any_nil, Bool.and_false, Bool.false_eq_true, if_false]

/-- It runs on engine 2, in the window from granule 1 on. -/
def onEngine (o : Op) : Op := { o with engine := some 2, scr := 1, gran := 4, dynamic := false }

def dNop : BitVec 512 := desc 0 [(16, 7)]
/-- COUNTER_OP that adds 5 to handle 7; and one with a reserved code. -/
def dCtr : BitVec 512 := desc 3 [(128, 7), (192, 5)]
def dCtrBad : BitVec 512 := desc 3 [(128, 7), (144, 2)]
/-- FILL of 24 bytes from 0x40; COPY of 100 bytes from 0x10 to 0x200010; a COPY onto itself. -/
def dFill : BitVec 512 := desc 2 [(128, 0x40), (192, 24), (256, 0x0807060504030201)]
def dCopy : BitVec 512 := desc 1 [(128, 0x10), (192, 0x200010), (256, 100)]
def dCopyBad : BitVec 512 := desc 1 [(128, 0x10), (192, 0x20), (256, 100)]

theorem witness_GenericOperationsHaveTheirEffect_NopAndCounterOperation :
    (flying (op dNop)).runsOp 5 (op dNop) 0 ∧ (flying (op dCtr)).runsOp 5 (op dCtr) 3 ∧ (flying (op dCtr)).ctr 1 (ctrTarget dCtr) = some 2
      ∧ ctrOp dCtr = 0 ∧ (flying (op dCtr)).streamsBound 2 ∧ (flying (op dCtrBad)).runsOp 5 (op dCtrBad) 3 ∧ ctrOp dCtrBad = 2 := by
  decide +kernel

theorem witness_GenericOperationsHaveTheirEffect_CopyAndFillWriteTheirDestination :
    (flying (op dFill)).runsOp 5 (op dFill) 2 ∧ (flying (op dFill)).fillCheck 1 dFill = .ok ∧ (flying (op dFill)).isAway 0x40 24 = false
      ∧ (flying (op dFill)).plainFor 1 0x40 24 ∧ (flying (op dFill)).settled ∧ (flying (op dCopy)).runsOp 5 (op dCopy) 1
      ∧ (flying (op dCopy)).copyCheck 1 dCopy = .ok ∧ (flying (op dCopy)).isAway 0x10 100 = false ∧ (flying (op dCopy)).isAway 0x200010 100 = false
      ∧ (flying (op dCopy)).readCheck [] 0x10 100 = .ok ∧ (flying (op dCopy)).plainFor 1 0x200010 100 ∧ (flying (op dCopy)).settled
      ∧ (flying (op dCopyBad)).runsOp 5 (op dCopyBad) 1 ∧ (flying (op dCopyBad)).copyCheck 1 dCopyBad ≠ .ok
      ∧ (flying (op (desc 2 []))).runsOp 5 (op (desc 2 [])) 2 ∧ (flying (op (desc 2 []))).fillCheck 1 (desc 2 []) ≠ .ok := by
  refine ⟨?_, ?_, ?_, ?_, flying_settled _, ?_, ?_, ?_, ?_, ?_, ?_, flying_settled _, ?_, ?_,
    ?_, ?_⟩ <;> decide +kernel

/-- Queue 3 runs, and its head descriptor, a NOP, is read; without one, its ring lies outside its context's pages. -/
def head (l : List Head) : State :=
  let s := pool [(queueBlock 3 + 4, 0x601), (queueBlock 3 + 0x18, 1), (queueBlock 3 + 0x20, 1), (queueBlock 3 + 0xC, 1)]
  { s with heads := l }
def nopHead : Head := { queue := 3, index := 0, desc := dNop, met := true }

/-- The head once read. -/
def readHead : State := (qRead ((head [nopHead]).atCycle 0) 3 [] false).1

theorem witness_HeadsStartAndCompletionsCount_HeadDescriptorStarts :
    (head [nopHead]).ready = true ∧ (head [nopHead]).dieUp (3 / 4096) = true ∧ (head [nopHead]).pwr.state = 0
      ∧ qState ((head [nopHead]).atCycle 0) 3 = 1 ∧ qWaiting ((head [nopHead]).atCycle 0) 3 = none
      ∧ ((head [nopHead]).atCycle 0).rd (queueBlock 3 + 0x20) ≠ ((head [nopHead]).atCycle 0).rd (queueBlock 3 + 0x24)
      ∧ (qRead ((head [nopHead]).atCycle 0) 3 [] false).2 = some nopHead ∧ (readHead).runsDynamic 3 = true
      ∧ (qOps readHead 3).length ≤ qMax readHead 3 ∧ qOps readHead 3 = [] ∧ readHead.suspect (readHead.newOp nopHead true).ctx = false
      ∧ readHead.dynFull 0 = false ∧ readHead.slotTurn 3 = true ∧ readHead.opCheck (readHead.newOp nopHead true) = .ok
      ∧ opEngine (dOpcode dNop) = false ∧ (head [nopHead]).op (head [nopHead]).nextOp = none := by decide +kernel

theorem witness_HeadsStartAndCompletionsCount_HeadDescriptorStarts_unmapped :
    (head []).ready = true ∧ (head []).dieUp (3 / 4096) = true ∧ (head []).pwr.state = 0 ∧ qState (head []) 3 = 1 ∧ qWaiting (head []) 3 = none
      ∧ (head []).rd (queueBlock 3 + 0x20) ≠ (head []).rd (queueBlock 3 + 0x24)
      ∧ (head []).heads.find? (fun k => k.queue == 3 && k.index == ((head []).rd (queueBlock 3 + 0x24)).toNat) = none ∧ (head []).logPlain 3
      ∧ (head []).mapCheck ((head []).ffld (queueBlock 3) 0 10) false (ringSlot (head []) 3 0) 64 ≠ .ok := by decide +kernel

/-- A NOP has ended with a code. -/
def ended (st : Status) : Op := { op dNop with phase := .executed st }

theorem witness_HeadsStartAndCompletionsCount_CompletionAddsOne :
    (flying (ended .permission)).op 5 = some (ended .permission) ∧ (flying (ended .permission)).ctxState 1 ≠ 3
      ∧ (flying (ended .permission)).mirrorBusy 1 = false ∧ (flying (ended .permission)).opAwaits 5 = false
      ∧ (flying (ended .permission)).cacheBusy 1 = false ∧ (flying (ended .permission)).invalBusy 1 = false
      ∧ (flying (ended .permission)).ctr 1 (dDone dNop) = some 2 ∧ (flying (ended .permission)).streamsBound 2
      ∧ (flying (ended .permission)).logPlain 3 ∧ (ended .permission).stats = [] ∧ (ended .permission).engine = none := by decide +kernel

/-- An active Ephemeris starts queue 3 on engine 2 at ACLK 100 of every frame; the head is a NOP. -/
def entry : EngEntry :=
  { frame := 0, start := 100, cost := 400, engine := 2, unit := 0, ctx := 1, queue := 3, scrBase := 1, scrGran := 4, targetA := 0, classA := 0,
    unitsA := 0, targetB := 0, classB := 0, unitsB := 0 }
def scheduled (l : List Op) : State :=
  let s := pool [(queueBlock 3 + 4, 0x603), (queueBlock 3 + 0x18, 1), (queueBlock 3 + 0x20, 1)]
  { s with heads := [nopHead], ops := l, eph := { s.eph with active := some { image with eng := [entry] } } }
def stopped : Op := { onEngine (op (desc 0x10 [])) with entry := some 0, phase := .stepping }

/-- The head once read at the entry's `START`. -/
def readEntry : State := (qRead ((scheduled []).atCycle 100) 3 [] false).1

theorem witness_EntriesStartAndStopTheirOperation :
    (scheduled []).ready = true ∧ (scheduled []).pwr.state = 0 ∧ ((scheduled []).overrunDue 100).health = (scheduled []).health
      ∧ entry.frame = (scheduled []).time.frame % ({ image with eng := [entry] } : Image).period
      ∧ ((scheduled []).atCycle 100).engineOp 2 = none ∧ ((scheduled []).atCycle 100).entrySkipped entry = false
      ∧ ((scheduled []).atCycle 100).suspect 1 = false ∧ qOps ((scheduled []).atCycle 100) 3 = []
      ∧ (dieOps ((scheduled []).atCycle 100) 0).length < 65536
      ∧ ((scheduled []).atCycle 100).rd (queueBlock 3 + 0x20) ≠ ((scheduled []).atCycle 100).rd (queueBlock 3 + 0x24)
      ∧ ((scheduled []).atCycle 100).bellOld 3 = true ∧ (qRead ((scheduled []).atCycle 100) 3 [] false).2 = some nopHead
      ∧ opUnit (dOpcode dNop) entry.unit = true ∧ (qTake readEntry 3).opCheck (placeAt (readEntry.newOp nopHead false) 0 entry) = .ok
      ∧ dispatchCost + switchCost [entry] entry + (qTake readEntry 3).unitCost dNop ≤ entry.cost
      ∧ (scheduled []).op (scheduled []).nextOp = none := by
  decide +kernel

theorem witness_EntriesStartAndStopTheirOperation_due : (scheduled []).overrunDue 100 = scheduled [] := rfl

theorem witness_EntriesStartAndStopTheirOperation_stop :
    (scheduled [stopped]).ops.find? (fun p => p.entry == some 0 && p.onEngine) = some stopped ∧ stopped.engine = some 2
      ∧ (scheduled [stopped]).ctx.overruns = [] ∧ (scheduled [stopped]).op 5 = some stopped := by
  decide +kernel

-- array programs, reductions ----------------------------------------------------------------------------------------------

/-- An ARRAY_PROGRAM of one instruction at 0x100; its base register 0 is 0x1000. The state holds the instruction. -/
def dArr : BitVec 512 := desc 0x10 [(128, 0x100), (192, 0x1000), (448, 1), (464, 4), (480, 254)]
def arrays (i : Nat) : State :=
  let s := flying (onEngine (op dArr))
  { s with mem := (putBytes [] 0x100 (leBytes 16 i)) }

/-- LD of two rows of one line to line 0; ST of them; MMA of INT8 from lines 0 and 32; ACC_IN; ACC_OUT; VOP; TRANSPOSE of bytes. -/
def iLd : BitVec 128 := BitVec.ofNat 128 (0x01 + 2 ^ 64 * 2 + 2 ^ 80 + 2 ^ 96 * 64)
def iSt : BitVec 128 := BitVec.ofNat 128 (0x02 + 2 ^ 64 * 2 + 2 ^ 80 + 2 ^ 96 * 64)
def iMma : BitVec 128 := BitVec.ofNat 128 (0x10 + 2 ^ 8 * 0xAA + 2 ^ 17 + 2 ^ 48 * 32)
def iAccIn : BitVec 128 := BitVec.ofNat 128 (0x11 + 2 ^ 8 * 0xC)
def iAccOut : BitVec 128 := BitVec.ofNat 128 (0x12 + 2 ^ 8 * 0xC)
def iVop : BitVec 128 := BitVec.ofNat 128 (0x20 + 2 ^ 12 * 0xC + 2 ^ 16 * 0xC + 2 ^ 48 * 2 + 2 ^ 64 * 4 + 2 ^ 80)
def iTr : BitVec 128 := BitVec.ofNat 128 (0x21 + 2 ^ 48 * 32)

/-- Operation 5 steps through the program of one instruction. -/
def stepping (i : BitVec 128) : Op :=
  { onEngine (op dArr) with
    phase := .stepping
    run := { prog := [i], acc0 := some { int := true, cells := List.replicate 1024 1 } } }

theorem witness_ArrayProgramIsDecodedFirst :
    (arrays iLd.toNat).runsOp 5 (onEngine (op dArr)) 0x10 ∧ (arrays iLd.toNat).apCheck 1 dArr 4 = .ok
      ∧ (arrays iLd.toNat).readCheck [] 0x100 16 = .ok ∧ ((arrays iLd.toNat).apDecode 1 dArr 4 ((arrays iLd.toNat).apFetch dArr)).1 = .ok
      ∧ (arrays 0xFF).runsOp 5 (onEngine (op dArr)) 0x10 ∧ (arrays 0xFF).apCheck 1 dArr 4 = .ok ∧ (arrays 0xFF).readCheck [] 0x100 16 = .ok
      ∧ ((arrays 0xFF).apDecode 1 dArr 4 ((arrays 0xFF).apFetch dArr)).1 ≠ .ok := by
  refine ⟨?_, ?_, ?_, ?_, ?_, ?_, ?_, ?_⟩ <;> decide +kernel

theorem witness_LdAndStMoveRowsBetweenPoolAndScratch_LdFillsScratchLines :
    (flying (stepping iLd)).atInstr 5 (stepping iLd) iLd 0x01 {} ∧ 64 * (0 + 2 * 1) ≤ 4096 * (576 - 1)
      ∧ (flying (stepping iLd)).ldRead dArr iLd.toNat [] = .ok := by
  refine ⟨?_, ?_, ?_⟩ <;> decide +kernel

theorem witness_LdAndStMoveRowsBetweenPoolAndScratch_StWritesRowsOfPoolMemory :
    (flying (stepping iSt)).atInstr 5 (stepping iSt) iSt 0x02 {} ∧ (flying (stepping iSt)).settled
      ∧ ∀ r, r < 2 → (flying (stepping iSt)).plainFor 1 (ldBase dArr iSt.toNat + r * ldStride iSt.toNat) (64 * ldUnits iSt.toNat) := by
  refine ⟨?_, flying_settled _, ?_⟩ <;> decide +kernel

theorem witness_MmaAccumulatesIntoItsTile :
    (flying (stepping iMma)).atInstr 5 (stepping iMma) iMma 0x10 {} ∧ fmtIsInt (mmaA iMma.toNat) = true := by
  refine ⟨?_, ?_⟩ <;> decide +kernel

theorem witness_AccumulatorMovesAndVectorStepsWriteTheirLines_AccumulatorsMoveToAndFromScratch :
    (flying (stepping iAccIn)).atInstr 5 (stepping iAccIn) iAccIn 0x11 {} ∧ (flying (stepping iAccOut)).atInstr 5 (stepping iAccOut) iAccOut 0x12 {}
      ∧ ((stepping iAccOut).tile (accOf iAccOut.toNat)).isSome = true := by
  refine ⟨?_, ?_, ?_⟩ <;> decide +kernel

theorem witness_AccumulatorMovesAndVectorStepsWriteTheirLines_VopAndTransposeWriteTheirLines :
    (flying (stepping iVop)).atInstr 5 (stepping iVop) iVop 0x20 {} ∧ (flying (stepping iTr)).atInstr 5 (stepping iTr) iTr 0x21 {}
      ∧ nbits iTr.toNat 8 2 ≤ 2 ∧ 64 * (nbits iTr.toNat 48 16 + 32 * rowLines (32 * 2 ^ 3)) ≤ 4096 * (576 - 1) := by
  decide +kernel

/-- OR of two vectors of four INT32 at 0x1000, 64 B apart, to 0x2000; the same as a stream reduction with identity 9. -/
def dRed : BitVec 512 :=
  desc 0x20 [(128, 0x1000), (192, 0x2000), (256, 64), (288, 4), (320, 2), (352, 0xCC4), (384, 1), (400, 9), (416, 7), (432, 8)]
def dRedS : BitVec 512 := dRed ||| desc 0x20 [(365, 1)]

/-- The same, its blocks forwarded to a parent. -/
def dRedF : BitVec 512 := dRed ||| desc 0x20 [(367, 1), (454, 1)]
def dRedSF : BitVec 512 := dRedS ||| desc 0x20 [(367, 1), (454, 1)]

theorem witness_ReduceWritesItsResultVector :
    (flying (op dRed)).runsOp 5 (op dRed) 0x20 ∧ isStream dRed = false ∧ rdForward dRed = false
      ∧ (flying (op dRed)).redMemCheck 1 dRed (op dRed).limit = .ok ∧ (flying (op dRed)).settled
      ∧ (∀ c, c < 2 → ∀ a n, a + n ≤ rdVB dRed → (flying (op dRed)).readCheck [] (rdSrc dRed + c * rdStride dRed + a) n = .ok)
      ∧ (flying (op dRed)).plainFor 1 0x2000 64 ∧ rdOp dRed = 4 ∧ rdIn dRed = 0xC :=
  ⟨by decide +kernel, by decide +kernel, by decide +kernel, by decide +kernel, flying_settled _, fun _ _ _ _ _ => flying_reads _ _ _, by decide +kernel, by decide +kernel, by decide +kernel⟩

theorem witness_ReduceWritesItsResultVector_forward :
    (flying (op dRedF)).runsOp 5 (op dRedF) 0x20 ∧ isStream dRedF = false ∧ rdForward dRedF = true
      ∧ (flying (op dRedF)).redMemCheck 1 dRedF (op dRedF).limit = .ok ∧ (flying (op (desc 0x20 []))).runsOp 5 (op (desc 0x20 [])) 0x20
      ∧ (flying (op (desc 0x20 []))).redMemCheck 1 (desc 0x20 []) (op (desc 0x20 [])).limit ≠ .ok := by
  decide +kernel

/-- The reduction open on engine 2, with receipts of so many inputs, steered. -/
def red (n st : Nat) : Stream :=
  { ctx := 1, redId := 9, queue := 3, engine := 2, scr := 1, gran := 4, desc := dRedS, steer := st,
    lanes := List.replicate (rdLanes dRedS) (laneIdentity 4 0xC), receipt := (List.range n).map (fun i => (i, 0, false)), waiting := [],
    invalid := false }
def stream (l : List Stream) : State := { flying (onEngine (op dRedS)) with reds := l }

/-- Its forwarding run. -/
def forward (l : List Stream) : State := { flying (onEngine (op dRedSF)) with reds := l }

theorem stream_settled (l : List Stream) : (stream l).settled := fun _ => rfl

theorem witness_StreamReductionsTakeSteeredWritesAndFinish_StreamReductionsOpenAbsorbAndFinish :
    (stream []).runsOp 5 (onEngine (op dRedS)) 0x20 ∧ isStream dRedS = true ∧ (stream []).redOf (onEngine (op dRedS)) = none
      ∧ (stream []).redStreamCheck 1 dRedS (onEngine (op dRedS)).limit false = .ok
      ∧ (stream [red 1 1]).runsOp 5 (onEngine (op dRedS)) 0x20 ∧ (stream [red 1 1]).redOf (onEngine (op dRedS)) = some (red 1 1)
      ∧ ((stream [red 1 1]).scrIn (onEngine (op dRedS)).win {}).scrBad (onEngine (op dRedS)).win 0 (red 1 1).lines = false
      ∧ (red 1 1).inputsDone ≠ rdCount dRedS ∧ (stream [red 2 1]).redOf (onEngine (op dRedS)) = some (red 2 1) ∧ (red 2 1).inputsDone = rdCount dRedS
      ∧ ((stream [red 2 1]).scrIn (onEngine (op dRedS)).win {}).scrBad (onEngine (op dRedS)).win 0 (red 2 1).lines = false
      ∧ (red 2 1).maxWeight ≤ 2 ^ 20 ∧ rdForward dRedS = false ∧ (stream [red 2 1]).settled
      ∧ (stream [red 2 1]).plainFor 1 0x2000 (laneResult dRedS 0 (red 2 1).lanes).length := by
  refine ⟨?_, ?_, ?_, ?_, ?_, ?_, ?_, ?_, ?_, ?_, ?_, ?_, ?_, stream_settled _, ?_⟩ <;> decide +kernel

theorem witness_StreamReductionsTakeSteeredWritesAndFinish_StreamReductionsOpenAbsorbAndFinish_forward :
    (forward [red 2 1]).runsOp 5 (onEngine (op dRedSF)) 0x20 ∧ isStream dRedSF = true ∧ rdForward dRedSF = true
      ∧ (forward [red 2 1]).redOf (onEngine (op dRedSF)) = some (red 2 1) ∧ (red 2 1).inputsDone = rdCount dRedSF := by
  decide +kernel

theorem witness_StreamReductionsTakeSteeredWritesAndFinish_SteeredWritesAreDelivered :
    (stream [red 0 1]).steered 1 0x1000 (List.replicate 128 (0 : Byte)).length = [red 0 1] ∧ rdSrc dRedS = 0x1000
      ∧ 0x1000 + 128 ≤ 0x1000 + ingestLen dRedS ∧ (∀ i, i < 2 → ∃ q, slotOf dRedS (0x1000 + 64 * i) = some q ∧ 64 * q.2 < rdVB dRedS)
      ∧ (stream [red 0 2]).steered 1 0x1000 128 = [red 0 2] ∧ (stream [red 0 2]).steered 1 0x1001 64 = [red 0 2] := by
  refine ⟨by decide +kernel, by decide +kernel, by decide +kernel, fun i h => ⟨(i, 0), ?_⟩, by decide +kernel, by decide +kernel⟩
  interval_cases i <;> decide +kernel

-- gather, filters, compression --------------------------------------------------------------------------------------------

/-- A dynamic operation 5 in flight, with these bytes in pool memory. -/
def holding (d : BitVec 512) (l : List (Nat × List Byte)) : State :=
  { flying (op d) with mem := l.foldl (fun m p => putBytes m p.1 p.2) [] }
theorem holding_settled (d : BitVec 512) (l : List (Nat × List Byte)) : (holding d l).settled := fun _ => rfl
def words (l : List Nat) : List Byte := l.flatMap (leBytes 4)

/-- GATHER of rows 1, 9 (past the table's four) and 3, with and without zero rows. -/
def dGather (z : Nat) : BitVec 512 :=
  desc 0x30 [(128, 0x1000), (192, 0x100), (256, 0x2000), (320, 3), (352, 64), (384, 128), (416, 4), (448, 2), (464, z)]
def gatherS (z : Nat) : State := holding (dGather z) [(0x100, words [1, 9, 3]), (0x1080, List.replicate 64 7)]

theorem witness_GathersWriteTheRowsTheirListsName_GatherCopiesTheIndexedRows :
    (gatherS 2).runsOp 5 (op (dGather 2)) 0x30 ∧ (gatherS 2).gatherCheck 1 (dGather 2) 576 = .ok ∧ (gatherS 2).gatherList (dGather 2) = .ok
      ∧ (gatherS 2).readCheck [] 0x100 12 = .ok ∧ (∀ i, i < 4 → (gatherS 2).readCheck [] (0x1000 + i * 128) 64 = .ok) ∧ (gatherS 2).settled
      ∧ (gatherS 2).plainFor 1 0x2000 192 ∧ (gatherS 0).runsOp 5 (op (dGather 0)) 0x30 ∧ (gatherS 0).gatherCheck 1 (dGather 0) 576 = .ok
      ∧ (gatherS 0).readCheck [] 0x100 12 = .ok ∧ (gatherS 0).gatherList (dGather 0) ≠ .ok := by
  refine ⟨?_, ?_, ?_, ?_, ?_, holding_settled _ _, ?_, ?_, ?_, ?_, ?_⟩ <;> decide +kernel

/-- Two bags, of two rows and of one, added as INT32; the offsets of the second list do not ascend. -/
def dBags : BitVec 512 :=
  desc 0x31 [(128, 0x1000), (192, 0x100), (256, 0x2000), (320, 2), (352, 3), (384, 4), (416, 64), (432, 2), (448, 0xCC0)]
def bags (offs : List Nat) : State :=
  holding dBags [(0x100, words offs), (0x140, words [1, 2, 3]), (0x1040, words [5]), (0x1080, words [6]), (0x10C0, words [7])]

theorem witness_GathersWriteTheRowsTheirListsName_GatherReducePoolsEachBag :
    (bags [0, 2, 3]).runsOp 5 (op dBags) 0x31 ∧ (bags [0, 2, 3]).gatherReduceCheck 1 dBags 576 = .ok ∧ (bags [0, 2, 3]).bagList dBags = .ok
      ∧ (bags [0, 2, 3]).readCheck [] 0x100 (grOffs dBags + 12) = .ok
      ∧ (∀ i, i < 4 → (bags [0, 2, 3]).readCheck [] (0x1000 + i * 64) 64 = .ok) ∧ (bags [0, 2, 3]).settled
      ∧ (bags [0, 2, 3]).plainFor 1 0x2000 (2 * grOB dBags) ∧ (bags [0, 4, 3]).runsOp 5 (op dBags) 0x31
      ∧ (bags [0, 4, 3]).gatherReduceCheck 1 dBags 576 = .ok ∧ (bags [0, 4, 3]).bagList dBags ≠ .ok := by
  refine ⟨?_, ?_, ?_, ?_, ?_, holding_settled _ _, ?_, ?_, ?_, ?_⟩ <;> decide +kernel

/-- Rows of one line whose first word (U32) exceeds 5, in every mode. -/
def dRows (mode : Nat) : BitVec 512 :=
  desc 0x32 [(128, 0x1000), (192, 0x2000), (256, 4), (288, 1), (304, 2), (352, 0x440000), (384, 5), (416, mode * 2 ^ 26)]
def rowsS (mode : Nat) : State := holding (dRows mode) [(0x1000, words [9]), (0x1040, words [3]), (0x1080, words [6])]

theorem witness_FiltersSendWhatMatches_RowFilterSendsTheMatchingRows :
    ∀ m ∈ [0, 1, 2], (rowsS m).runsOp 5 (op (dRows m)) 0x32 ∧ (rowsS m).rowFilterCheck 1 (dRows m) 576 = .ok
      ∧ (∀ i, i < 4 → (rowsS m).readCheck [] (0x1000 + i * 64) 64 = .ok) ∧ (rowsS m).settled
      ∧ (rowsS m).plainFor 1 0x2000 (rfOutBytes (dRows m)) ∧ (rowsS m).rowHits (dRows m) = [0, 2] := by
  intro m h
  refine ⟨?_, ?_, ?_, holding_settled _ _, ?_, ?_⟩ <;> (revert m; decide +kernel)

/-- Two blocks of sixteen BF16 keys of 64 elements, the best one kept and copied; a reserved key format. -/
def dScore (fmt : Nat) : BitVec 512 :=
  desc 0x33 [(128, 0x100), (192, 0x200), (256, 0x8000), (320, 2), (336, 1), (400, 8), (416, fmt * 0x1100 + 0x12), (448, 1)]
def scoreS (fmt : Nat) : State :=
  holding (dScore fmt) [(0x100, List.replicate 128 0x3F), (0x200, words [0x1000, 0, 0x4000, 0, 0x2000, 0, 0x5000, 0]),
    (0x1000, List.replicate 64 0x3F)]

theorem witness_FiltersSendWhatMatches_ScoreFilterStaysInItsOutput :
    (scoreS 1).runsOp 5 (op (dScore 1)) 0x33 ∧ (scoreS 1).scoreFilterCheck 1 (dScore 1) 576 = .ok
      ∧ (scoreS 1).blockList 1 (dScore 1) = .ok ∧ (scoreS 1).poison = [] ∧ (scoreS 1).settled
      ∧ (scoreS 1).plainFor 1 0x8000 (sfOutBytes (dScore 1)) ∧ (scoreS 9).runsOp 5 (op (dScore 9)) 0x33
      ∧ (scoreS 9).scoreFilterCheck 1 (dScore 9) 576 = .permission := by
  refine ⟨?_, ?_, ?_, ?_, holding_settled _ _, ?_, ?_, ?_⟩ <;> decide +kernel

theorem holding_not_lost (d : BitVec 512) (l : List (Nat × List Byte)) (p : Nat) : (holding d l).lostCheck p = .ok := rfl

/-- 100 bytes with every method enabled. -/
def dComp : BitVec 512 := desc 0x40 [(128, 0x100), (192, 0x1000), (256, 100), (288, 192), (352, 0x74), (368, 2), (384, 0x2000)]
def compS : State := holding dComp [(0x100, List.replicate 90 7)]

theorem witness_CompressedStreamsHoldTheirBytes_CompressStaysInItsExtents :
    compS.runsOp 5 (op dComp) 0x40 ∧ compS.compressCheck 1 dComp 576 = .ok ∧ (∀ b, b < 1 → compS.readCheck [] (0x100 + 4096 * b) (min 4096 (100 - 4096 * b)) = .ok) ∧ compS.settled
      ∧ compS.plainFor 1 0x1000 192 ∧ compS.plainFor 1 0x2000 64 ∧ cdiv (cmRaw dComp) 4096 = 1 := by
  refine ⟨?_, ?_, ?_, holding_settled _ _, ?_, ?_, ?_⟩ <;> decide +kernel

theorem witness_CompressedStreamsHoldTheirBytes_CompressedBlocksYieldTheirBytes :
    (List.replicate 100 (7 : Byte)).length % 4 = 0 ∧ (zChoose 4 7 (List.replicate 100 7)).1 = 3 := by decide +kernel

/-- EXPAND of a stream of so many bytes that declares so many, to memory or (control bit 3) to the array. -/
def dExp (comp decl ctrl : Nat) : BitVec 512 :=
  desc 0x41 [(128, 0x100), (192, 0x1000), (256, comp), (288, decl), (352, ctrl), (368, 4), (384, 0x2000), (448, 0x3000)]
/-- The stream, and a feed program of one VOP that reads lines 128 to 131 and writes 132 and 133. -/
def expS (d : BitVec 512) (l : List Byte) : State :=
  holding d [(0x100, l), (0x3000, leBytes 64 (desc 0 [(128, 0x4000), (448, 1), (464, 4), (480, 382)]).toNat),
    (0x4000, leBytes 16 (0x20 + 2 ^ 12 * 0xC + 2 ^ 16 * 0xC + 2 ^ 32 * 128 + 2 ^ 48 * 130 + 2 ^ 64 * 132 + 2 ^ 80))]

/-- A stream of one block of 100 bytes; two blocks of 4,096 zeros; and one such block where only 100 bytes are declared. -/
def dOne : BitVec 512 := dExp 192 100 0
def one : State := expS dOne (zBlock 0 0 false 0 (List.replicate 100 7)).2
def zeros (k : Nat) : List Byte := zHeader 1 4096 0 0 k false 0
def dTwo : BitVec 512 := dExp 128 8192 8
def two : State := expS dTwo (zeros 0 ++ zeros 1)
def dOver : BitVec 512 := dExp 64 100 8
def tooBig : State := expS dOver (zeros 0)

/-- The operation before its first block: the feed record, then the program. -/
def feed (d : BitVec 512) : Op :=
  { onEngine (op d) with
    phase := .stepping
    run := { prog := (List.range 4).map (fun i => BitVec.ofNat 128 (leNat (two.bytes (0x3000 + 16 * i) 16)))
                       ++ [BitVec.ofNat 128 (leNat (two.bytes 0x4000 16))] } }

theorem witness_ExpandDecodesBlocks :
    one.runsOp 5 (op dOne) 0x41 ∧ one.expandCheck 1 dOne 576 = .ok ∧ exSink dOne = false ∧ one.settled
      ∧ one.plainFor 1 0x1000 128 ∧ one.plainFor 1 0x2000 64 ∧ exResEn dOne = false
      ∧ one.readCheck [] 0x100 192 = .ok ∧ exComp dOne = 64 + le (one.bytes 0x100 64) 6 2 ∧ le (one.bytes 0x100 64) 4 2 = 100
      ∧ (zDecode dOne 0 0 (one.zHead dOne 0) (one.zPay dOne 0)).st = .ok := by
  refine ⟨?_, ?_, ?_, holding_settled _ _, ?_, ?_, ?_, ?_, ?_, ?_, ?_⟩ <;> decide +kernel

theorem witness_ExpandDecodesBlocks_feed :
    two.runsOp 5 (op dTwo) 0x41 ∧ two.expandCheck 1 dTwo 576 = .ok ∧ exSink dTwo = true ∧ two.readCheck [] 0x3000 64 = .ok
      ∧ two.feedCheck (op dTwo) (two.feedRecord dTwo) = .ok ∧ feedHead (two.feedRecord dTwo) = 0 ∧ two.readCheck [] 0x4000 16 = .ok
      ∧ two.feedDecode (op dTwo) (two.feedRecord dTwo) (two.apFetch (two.feedRecord dTwo)) = .ok ∧ exDecl dTwo ≠ 0
      ∧ two.zReadCheck [] dTwo 0 0 = .ok ∧ (zDecode dTwo 0 0 (two.zHead dTwo 0) (two.zPay dTwo 0)).st = .ok ∧ 0 < feedBlocks dTwo
      ∧ ¬ (exComp dTwo ≤ (zDecode dTwo 0 0 (two.zHead dTwo 0) (two.zPay dTwo 0)).next ∧ feedBlocks dTwo ≤ 1)
      ∧ tooBig.zReadCheck [] dOver 0 0 = .ok ∧ (zDecode dOver 0 0 (tooBig.zHead dOver 0) (tooBig.zPay dOver 0)).st = .expansionOverflow := by
  refine ⟨?_, ?_, ?_, ?_, ?_, ?_, ?_, ?_, ?_, ?_, ?_, ?_, ?_, ?_, ?_⟩ <;> decide +kernel

theorem witness_ExpandDecodesBlocks_body :
    ((({ two with ops := [feed dTwo] }).mark 0x100 64).feedBlock (feed dTwo) (List.replicate 4096 0) []).2.2 = .ok := by decide +kernel
-- switch core, gates, frames, registers -----------------------------------------------------------------------------------

/-- A Bulk message of context 1 from link port 0 to egress 0x10 of die 0. A policer of die 0 drops what exceeds it; queue 0x10 has no room. -/
def msg : SwMsg := { ingress := 0x40, egress := 0x10, cls := 1, ctx := 1, cells := 2, arrived := 2, colour := 2 }
def policed : State := up [(linkBlock 0, 0x82), (tmReg 0 1, 0x10050000), (polReg 0 5 0, 0x17), (egReg 0 0x10 0xC, 100)]
def room : State := up [(linkBlock 0, 0x82), (egReg 0 0x10 0xC, 100)]
def noRoom : State := up [(linkBlock 0, 0x82), (egReg 0 0x10 0xC, 0)]

theorem witness_MessagesQueueAndPositionsCarryOneCell_MessagesQueueOrAreCounted :
    room.ready = true ∧ room.dieUp 0 = true ∧ room.enters 0 msg = true ∧ room.unmatched msg = false ∧ (room.police 0 msg).2.2.2 = false
      ∧ (room.police 0 msg).2.2.1 = false ∧ room.noRoom 0 msg false = false ∧ ((room.police 0 msg).1.offPath 0 msg).joins 0 msg = none
      ∧ policed.enters 0 msg = true ∧ policed.unmatched msg = false ∧ (policed.police 0 msg).2.2.2 = true
      ∧ noRoom.enters 0 msg = true ∧ noRoom.unmatched msg = false ∧ (noRoom.police 0 msg).2.2.2 = false
      ∧ noRoom.noRoom 0 msg (noRoom.police 0 msg).2.2.1 = true := by decide +kernel

/-- Link port 2 is UP, and a Bulk message is held back there. -/
def link2 : State := let s := up [(linkBlock 2, 2)]; { s with sw := { s.sw with stalled := [(0, { msg with ingress := 0x42 }, false)] } }
/-- Every position of the slot at egress 0x10 is used. -/
def usedUp : State := let s := room; { s with sw := { s.sw with served := [((0, 0x10), 3840)] } }

theorem witness_MessagesQueueAndPositionsCarryOneCell_PositionsCarryOneCell :
    room.ready = true ∧ room.dieUp 0 = true ∧ validEgress 0 0x10 = true ∧ room.at 0 0x10 = []
      ∧ room.usedPositions 0 0x10 < room.egressRate 0 0x10 ∧ usedUp.egressRate 0 0x10 ≤ usedUp.usedPositions 0 0x10
      ∧ link2.ready = true ∧ link2.fld (linkBlock 2) 0 3 = 2 ∧ link2.givenOf 2 (creditStream 0) + 3 ≤ link2.creditMax
      ∧ (∀ p ∈ link2.sw.stalled, ¬ (p.2.1.ingress = 0x42 ∧ swKind p.2.1 = creditStream 0))
      ∧ ∃ p ∈ link2.sw.stalled, p.2.1.ingress = 0x42 ∧ swKind p.2.1 = creditStream 1 := by
  decide +kernel

/-- The gates of egress 0x10 run their first list: eight slots of class 0, none, and the rest of class 1; the first entry has run out. -/
def gated : State :=
  let s := up [(linkBlock 0, 0x82), (egReg 0 0x10 0x10, 1), (egReg 0 0x10 0x100, 0x801), (egReg 0 0x10 0x104, 2), (egReg 0 0x10 0x108, 0x80001002)]
  { s with sw := { s.sw with gates := [{ die := 0, e := 0x10, entry := 0, left := 0, switchFrom := none }] } }

theorem witness_GatesFollowTheirLists :
    gated.ready = true ∧ gated.time.slot + 1 < gated.time.units ∧ gated.slotEntries gated.time.frame (gated.time.slot + 1) = []
      ∧ gated.gate 0 0x10 = some { die := 0, e := 0x10, entry := 0, left := 0, switchFrom := none } ∧ gated.gateOn 0 0x10 = true
      ∧ gated.gateAfter 0 0x10 0 = some 2 ∧ gated.accepts 0 (egReg 0 0x10 0x10) = true ∧ validEgress 0 0x10 = true := by decide

/-- OFF is pending. -/
def offPending : State := let s := up []; { s with pwr := { s.pwr with cmd := some 4 } }

theorem witness_FrameBoundariesAdvanceTheFrame :
    (up []).ready = true ∧ (up []).pwr.cmd ≠ some 4 ∧ (up []).timeState = 0 ∧ ((up []).time.frame + 1) % 2 ^ (up []).time.epochLog2 ≠ 0
      ∧ offPending.ready = true ∧ offPending.pwr.cmd = some 4 := by decide

theorem witness_RegistersFollowAccessCodesAndWindows_RegisterWritesFollowTheAccessCodes :
    (∀ off ∈ [0x018, 0x114, 0x118, 0x204, 0x240, 0x244, 0x24C, 0x314, 0x614, 0x718, 0x804, 0x824, 0x844, 0x848, 0x908, 0x918, 0xA0C, 0xA10, 0xA18,
        0x10000, 0x10018, 0x04000104, 0x04000800, 0x0C600004, 0x06200014, 0x06200018, 0x07000008, 0x07800008], (up []).accepts 0 off = true)
      ∧ (up []).serves = true ∧ (up []).reach 0x708 = true ∧ (up []).owner 1 = false ∧ (regInfo 0x114).rws = 0 ∧ (up []).owner 0 = true
      ∧ (∀ d, d < 4 → (up []).dieUp d = true) := by decide

/-- Host port 1 of slice 0 sees queue 3 (context 1) in its slot 0, and counter 2 in its slot 0. -/
def tenant : State :=
  put [(qmapReg 1 0, 0x80000003), (cmapReg 1 0, 0x80000002), (queueBlock 3 + 0x20, 9), (0x700, 0x11)]
    (up [(ctxReg 1 0, 1), (sliceReg 0 0 0, 2), (sliceReg 0 0 0x18, 0x01000101), (queueBlock 3, 1), (counterBlock 2 + 0x10, 0x80000001)])

theorem witness_RegistersFollowAccessCodesAndWindows_TenantWindowReachesMappedSlotsOnly :
    tenant.serves = true ∧ tenant.slotAt 1 0x1000 = .closed ∧ (tenant.frd (qmapReg 1 1)).getLsbD 31 = false ∧ tenant.slotAt 1 0x20 = .queue 3 0x20
      ∧ tenant.reach (queueBlock 3) = true ∧ tenant.slotAt 1 0x1000008 = .counter 2 8 ∧ tenant.reach (counterBlock 2) = true := by decide

theorem witness_OnlyOwnerPortsManageTheModule :
    (up []).serves = true ∧ (up []).owner 1 = false ∧ ∀ off ∈ [ephReg 0 0x18, queueBlock 3 + 0x40, counterBlock 2, counterBlock 2 + 8, counterBlock 2 + 0x18,
      counterBlock 2 + 0x20, queueBlock 3 + 0x30, 0x250, ctxReg 1 8, 0x704, 0x734, 0x808, 0x81C, 0xA1C, 0x904, dieReg 0 0x540, 0x108], (up []).reach off = true := by
  decide
-- links -------------------------------------------------------------------------------------------------------------------

/-- Link port 2 runs ZFL to module 9, which trunk 0 reaches; context 1 is LIVE at generation 1 in slice 0 with that port. `l` came in there. -/
def fabric (l : List Msg) : State :=
  let s := pool [(linkBlock 2, 0x90002), (routeReg 0 (4 * 9), 1), (routeReg 0 0x2000, 2), (sliceReg 0 0 8, 4)]
  { s with link := { s.link with rx := l.map (fun m => (2, m)) } }
theorem fabric_settled (l : List Msg) : (fabric l).settled := fun _ => rfl
theorem fabric_quiet (l : List Msg) : (fabric l).quiet := ⟨rfl, rfl, rfl⟩

/-- A message from module 9 for context 1. -/
def zfl (kind : Nat) : Msg := { kind := kind, src := 9, ctx := 1, gen := 1, addr := 0x1000, seq := 5, stream := 1 }
def slotMsg : Msg := { zfl 1 with seq := 0, crc := msgCrc { zfl 1 with seq := 0 } }

theorem witness_LinkMessagesAreTakenInSequenceAndSentAgain_LinkSlotsAreTakenInSequence :
    (fabric []).ready = true ∧ (fabric []).lpState 2 = 2 ∧ (fabric []).ztl 2 = false ∧ kindOk false slotMsg.kind = true
      ∧ slotMsg.dst = (fabric []).moduleNo ∧ slotMsg.stream ≠ 7 ∧ slotMsg.seq = ((fabric []).lane 9 1).rxNext ∧ slotMsg.seq < 2 ^ 24
      ∧ slotMsg.crc = msgCrc slotMsg ∧ ({ slotMsg with crc := 0 } : Msg).crc ≠ msgCrc { slotMsg with crc := 0 } := by decide +kernel

/-- A copy of a request to module 9 is kept. -/
def keeping : State :=
  let s := fabric []
  { s with link := { s.link with replay := [{ link := 2, peer := 9, msg := zfl 1, retries := 0, sent := true }] } }

theorem witness_LinkMessagesAreTakenInSequenceAndSentAgain_TimeoutsSendAgain :
    (fabric []).ready = true ∧ (fabric []).kept ((fabric []).peerKey 2 9) 1 = [] ∧ keeping.ready = true
      ∧ keeping.kept (keeping.peerKey 2 9) 1 = [{ link := 2, peer := 9, msg := zfl 1, retries := 0, sent := true }] ∧ 0 < keeping.e2eRetry
      ∧ keeping.carries 2 1 = true := by decide +kernel

def rdM : Msg := { zfl 1 with sub := 128 }
def wrM : Msg := { zfl 3 with payload := List.replicate 64 7 }
def mwM : Msg := { zfl 8 with payload := List.replicate 64 7, addr := 2 ^ 21 }
/-- ADD of 5 to a word of 8 B. -/
def atM : Msg := { zfl 5 with sub := 0x80, payload := leBytes 32 5 }
def atA : Atomic := { code := nbits atM.sub 0 4, size := nbits atM.sub 4 5, operand := leNat (atM.payload.take 16),
                      swap := leNat ((atM.payload.drop 16).take 16), posted := false }
/-- Page 1 is mirrored with module 9. -/
def mirrored (l : List Msg) : State := put [(mirrorReg 0 0, 1), (mirrorReg 0 4, 1), (mirrorReg 0 8, 0x109)] (fabric l)
theorem mirrored_settled (l : List Msg) : (mirrored l).settled := fun _ => rfl

theorem witness_ZflRequestsAreServed :
    (fabric [rdM]).brought 2 1 rdM ∧ (fabric [rdM]).passes 2 rdM ∧ (fabric [rdM]).answerable rdM = true ∧ wholeLines rdM.addr rdM.sub = .ok
      ∧ (fabric [rdM]).routedHere 0 rdM.addr rdM.sub = .ok ∧ (fabric [rdM]).mapCheck 1 false rdM.addr rdM.sub = .ok
      ∧ (fabric [rdM]).readCheck [] rdM.addr rdM.sub = .ok ∧ rdM.mcast = false ∧ (fabric [rdM]).quiet := by
  decide +kernel

theorem witness_ZflRequestsAreServed_wr :
    (fabric [wrM]).brought 2 3 wrM ∧ (fabric [wrM]).passes 2 wrM ∧ (fabric [wrM]).answerable wrM = true ∧ wholeLines wrM.addr 64 = .ok
      ∧ (fabric [wrM]).routedHere 0 wrM.addr 64 = .ok ∧ (fabric [wrM]).mapCheck 1 true wrM.addr 64 = .ok
      ∧ (fabric [wrM]).cacheFull wrM.addr 64 = none ∧ wrM.mcast = false ∧ wrM.posted = false ∧ (fabric [wrM]).settled
      ∧ (fabric [wrM]).plainFor 1 wrM.addr 64 := by
  refine ⟨?_, ?_, ?_, ?_, ?_, ?_, ?_, ?_, ?_, fabric_settled _, ?_⟩ <;> decide +kernel

theorem witness_ZflRequestsAreServed_mirror :
    (mirrored [mwM]).brought 2 8 mwM ∧ (mirrored [mwM]).passes 2 mwM ∧ (mirrored [mwM]).answerable mwM = true ∧ wholeLines mwM.addr 64 = .ok
      ∧ (mirrored [mwM]).routedHere 0 mwM.addr 64 = .ok ∧ (mirrored [mwM]).mirrorInto mwM mwM.addr 1 64 = .ok ∧ (mirrored [mwM]).unitsTake mwM.addr 64 = true
      ∧ (mirrored [mwM]).cacheFull mwM.addr 64 = none ∧ mwM.mcast = false ∧ mwM.posted = false ∧ (mirrored [mwM]).settled := by
  refine ⟨?_, ?_, ?_, ?_, ?_, ?_, ?_, ?_, ?_, ?_, mirrored_settled _⟩ <;> decide +kernel

theorem witness_ZflRequestsAreServed_atomic :
    (fabric [atM]).brought 2 5 atM ∧ (fabric [atM]).passes 2 atM ∧ (fabric [atM]).answerable atM = true ∧ (fabric [atM]).routedHere 0 atM.addr 1 = .ok
      ∧ (fabric [atM]).homeFree (atM.addr / 64) ∧ (fabric [atM]).dirEnt (atM.addr / 64) = none ∧ (fabric [atM]).poison.contains (atM.addr / 64) = false
      ∧ (fabric [atM]).reqCheck { line := atM.addr / 64, agent := .zfl 2, ctx := 1, kind := .atom (atM.addr % 64) atA, via := .msg atM } = .ok
      ∧ atM.mcast = false ∧ atM.posted = false ∧ (fabric [atM]).settled ∧ (fabric [atM]).plainFor 1 atM.addr atA.size := by
  refine ⟨?_, ?_, ?_, ?_, ?_, ?_, ?_, ?_, ?_, ?_, fabric_settled _, ?_⟩ <;> decide +kernel

def stale (k : Nat) : Msg := { zfl k with gen := 2 }
theorem witness_ZflRequestsAreServed_stale :
    ∀ k ∈ [1, 3, 8, 5], (fabric [stale k]).brought 2 k (stale k) ∧ (fabric [stale k]).answerable (stale k) = true
      ∧ (fabric [stale k]).defined 1 = true ∧ (stale k).gen ≠ (fabric [stale k]).ctxGen 1 := by
  intro k h
  refine ⟨?_, ?_, ?_, ?_⟩ <;> (revert k; decide +kernel)

/-- A partial block of group 0 of input 1 for reduction 9, and one of an input that it does not have. -/
def partM (input : Nat) : Msg := { zfl 7 with addr := 9 + 2 ^ 16 * input + 2 ^ 44 * 4 + 2 ^ 48 * 0xC, payload := List.replicate 512 0 }
def partial' (input : Nat) : State := { fabric [partM input] with reds := [red 0 1] }

theorem witness_ResponsesAndPartialsReachTheirOwner_PartialBlocksWaitForTheirReduction :
    (partial' 1).brought 2 7 (partM 1) ∧ (partial' 1).passes 2 (partM 1) ∧ (partial' 1).openRed 1 9 = some (red 0 1)
      ∧ (partial' 1).partRefused 1 9 1 0 = false ∧ nbits (partM 1).addr 44 4 = rdOp dRedS ∧ nbits (partM 1).addr 48 4 = rdIn dRedS
      ∧ (partial' 2).brought 2 7 (partM 2) ∧ (partial' 2).passes 2 (partM 2) ∧ (partial' 2).partRefused 1 9 2 0 = true := by
  refine ⟨?_, ?_, ?_, ?_, ?_, ?_, ?_, ?_, ?_⟩ <;> decide +kernel

/-- A request of kind q is outstanding at module 9 for someone, and a response of kind k is there. -/
def awaiting (q k : Nat) (w : Who) (n : Nat) : State :=
  let s := fabric [{ zfl k with payload := List.replicate n 3 }]
  { s with link := { s.link with awaits := [{ peer := 9, kind := q, ctx := 1, gen := 1, addr := 0x1000, who := w, len := n }] } }

theorem witness_ResponsesAndPartialsReachTheirOwner_ResponsesEndTheirRequest :
    (awaiting 1 2 (.host 0 0x1000 0 0) 64).brought 2 2 { zfl 2 with payload := List.replicate 64 3 }
      ∧ ((awaiting 1 2 (.host 0 0x1000 0 0) 64).tagCheck 2 0 1 1).1 = .ok
      ∧ ((awaiting 1 2 (.host 0 0x1000 0 0) 64).link.awaits.find? (fun a => a.peer == 9 && (answers 2).contains a.kind && a.ctx == 1 && a.addr == 0x1000)).isSome
        = true
      ∧ (awaiting 3 4 .tray 0).brought 2 4 (zfl 4)
      ∧ ((awaiting 3 4 .tray 0).link.awaits.find? (fun a => a.peer == 9 && (answers 4).contains a.kind && a.ctx == 1 && a.addr == 0x1000)).isSome = true
      ∧ ((awaiting 3 2 .tray 0).link.awaits.find? (fun a => a.peer == 9 && (answers 2).contains a.kind && a.ctx == 1 && a.addr == 0x1000)) = none := by
  refine ⟨?_, ?_, ?_, ?_, ?_, ?_⟩ <;> decide +kernel

/-- A notice of origin 5, serial 7, with context 1 at generation 1 as its tag; and the notice of a flip. -/
def abortM : Msg := { zfl 0x10 with payload := leBytes 8 0 ++ [5, 1, 0, 1] ++ leBytes 4 7 ++ leBytes 4 (1 + 2 ^ 10) }
def epochM (e : Nat) : Msg := { zfl 0x11 with payload := leBytes 8 e ++ leBytes 8 0 }
def noticed (seen : Bool) : State :=
  let s := fabric [abortM]
  { s with ctx := { s.ctx with aborts := if seen then
      [{ origin := 5, serial := 7, reason := 1, frame := 0, tags := [], hops := 0, sends := 0, from? := none, acted := true }] else [] } }
def flipping (e : Nat) : State := let s := fabric [epochM e]; { s with eph := { s.eph with rtArm := some 3 } }

theorem witness_NoticesAreActedOnOnce :
    (noticed false).ready = true ∧ (noticed false).link.rx.find? (fun p => p.1 == 2 && p.2.kind == 0x10) = some (2, abortM)
      ∧ leNat ((abortM.payload.drop 11).take 1) = 1 ∧ (noticed false).ctx.aborts = []
      ∧ (∃ a ∈ (noticed true).ctx.aborts, a.origin = leNat ((abortM.payload.drop 8).take 1) ∧ a.serial = leNat ((abortM.payload.drop 12).take 4))
      ∧ (flipping 3).ready = true ∧ (flipping 3).link.rx.find? (fun p => p.1 == 2 && p.2.kind == 0x11) = some (2, epochM 3)
      ∧ (flipping 3).flipArmed.map (fun f => (f.1, f.2.toNat)) = some (leNat ((epochM 3).payload.take 8), leNat (((epochM 3).payload.drop 8).take 4))
      ∧ (flipping 4).flipArmed.map (fun f => (f.1, f.2.toNat)) ≠ some (leNat ((epochM 4).payload.take 8), leNat (((epochM 4).payload.drop 8).take 4)) := by
  refine ⟨by decide +kernel, by decide +kernel, by decide +kernel, by decide +kernel, ⟨_, List.mem_singleton.2 rfl, by decide +kernel, by decide +kernel⟩, ?_, ?_,
    ?_, ?_⟩ <;> decide +kernel

/-- Link port 2 trains; the Almanac expects module 9. -/
def hello : Hello := { ztl := false, module := 9, serial := 77 }
def training (h : Option Hello) : State :=
  let s := put [(linkBlock 2, 1)] (fabric [])
  let t := { s with alm := { s.alm with linkWords := [0, 0, 0x900] } }
  match h with
  | some h => t.setPort { t.port 2 with hello := some h }
  | none => t

theorem witness_PortsTrainWithTheExpectedPeer :
    (training none).pwr.phase ≠ .dark ∧ (training none).lpState 2 = 1 ∧ (training none).expects 2 hello = true
      ∧ (training none).expects 2 { hello with ztl := true, kind := 1 } = false ∧ ((training (some hello)).port 2).hello = some hello
      ∧ hello.ztl = false ∧ hello.module < 256 ∧ (training (some hello)).link.replay = []
      ∧ (fabric []).ready = true ∧ (fabric []).lpState 2 = 2 := by decide +kernel

/-- Link port 4 runs a DRAM tray (kind 1) or a flash tray (kind 2), which holds page 0. -/
def onTray (kind : Nat) : State :=
  let s := put [(linkBlock 4, BitVec.ofNat 32 (0xA + 512 * kind))] (pool [])
  { s with tier := { s.tier with pages := [{ page := 0, entry := 1, tier := kind, unit := 0x44, group := 0, heat := 0, frames := 0, marked := false,
                                             lost := false, move := none, repin := false, isNew := false }] } }
theorem onTray_settled (k : Nat) : (onTray k).settled := fun _ => rfl
/-- The flash tray's translation: one stripe, which holds unit 3 of page 0. -/
def unit3 : FCopy := { page := 0, unit := 3, row := 0, pos := 0, valid := true, data := [] }
def stripe : FStripe :=
  { group := 0, no := 0, buffer := false, closed := false, copies := [unit3], parity := [], blocks := List.replicate 16 (some { erases := 0, reads := 0 }),
    leaving := none, dests := [] }
def flashTray : Tray :=
  { link := 4, dies := 32, blocks := 8, pSlc := 4, rated := 3000, cache := [], waits := [], stripes := [stripe], nextStripe := 1, free := [], spares := [],
    target := [], failed := [], retired := [], rebuild := [], discards := [], checkpoint := [], journal := [], reading := [2, 0] }
def onFlash : State := { onTray 2 with flash := { trays := [flashTray], held := [] } }
/-- The tray is operating, and the 8,192 units in its write cache are dirty; a WR to page 0 is there. -/
def fullTray : Tray := { flashTray with cache := List.replicate 8192 { page := 9, unit := 0, dirty := true } }
def fullCache : State :=
  let s := put [(linkBlock 4, 0x40A), (trayReg 4 0, 1)] (fabric [wrM])
  { s with tier := onFlash.tier, flash := { trays := [fullTray], held := [] } }

theorem fullTray_room : fullTray.room 0 0 = false := by
  simp only [Tray.room, fullTray, List.any_replicate, List.length_replicate]
  decide

theorem witness_ZflRequestsAreServed_full :
    fullCache.brought 2 3 wrM ∧ fullCache.passes 2 wrM ∧ fullCache.answerable wrM = true ∧ fullCache.routedHere 0 wrM.addr 64 = .ok
      ∧ fullCache.mapCheck 1 true wrM.addr 64 = .ok ∧ fullCache.settled ∧ fullCache.plainFor 1 wrM.addr 64
      ∧ fullCache.flashUnits wrM.addr 64 = [(4, 0, 0)] ∧ fullCache.trayWorks 4 = true ∧ fullTray.room 0 0 = false :=
  ⟨by decide +kernel, by decide +kernel, by decide +kernel, by decide +kernel, by decide +kernel, fun _ => rfl, by decide +kernel, by decide +kernel,
    by decide +kernel, fullTray_room⟩

theorem witness_TraysAreAskedOverZtl :
    wholeLines 0x1000 64 = .ok ∧ (onTray 1).onDramTray 4 0x1000 64 = true ∧ (onTray 1).mapCheck 1 false 0x1000 64 = .ok
      ∧ (onTray 1).mapCheck 1 true 0x1000 64 = .ok ∧ (onTray 1).mapCheck 2 false 0x1000 64 ≠ .ok ∧ (onTray 1).mapCheck 2 true 0x1000 64 ≠ .ok
      ∧ (onTray 1).settled ∧ (onTray 1).onDramTray 4 0x1000 atA.size = true ∧ (onTray 1).mapCheck 1 true 0x1000 atA.size = .ok
      ∧ atomOk (0x1000 % 64) atA = true ∧ onFlash.ready = true ∧ onFlash.linkUp 4 = true ∧ onFlash.fld (linkBlock 4) 9 2 = 2
      ∧ onFlash.tray 4 = some flashTray ∧ flashTray.reading = [2, 0] ∧ flashTray.find 0 3 = some (stripe, unit3)
      ∧ 16 * stripe.group + unit3.pos ∉ flashTray.failed := by
  refine ⟨?_, ?_, ?_, ?_, ?_, ?_, onTray_settled _, ?_, ?_, ?_, ?_, ?_, ?_, ?_, ?_, ?_, ?_⟩ <;> decide +kernel
-- ports -------------------------------------------------------------------------------------------------------------------

/-- A flip is armed for epoch e; `RT_ARM_EPOCH` holds 1. -/
def flip (e : Option Nat) : State := let s := up [(0x608, 1)]; { s with eph := { s.eph with rtArm := e } }

theorem witness_FlipsAreArmedAndClocksAreWatched_FlipsAreArmedAndDisarmed :
    (flip none).accepts 0 0x604 = true ∧ (flip none).eph.rtArm = none ∧ (flip none).eph.compArm = none ∧ 2 ≤ nbits 0x202 8 8
      ∧ (flip none).time.frame + 16 ≤ (flip none).targetEpoch ((flip none).rd 0x608) * 2 ^ (flip none).time.epochLog2
      ∧ (flip none).compositionOk (1 - (flip none).version) = true ∧ ¬ (up []).time.frame + 16 ≤ (up []).targetEpoch ((up []).rd 0x608) * 2 ^ 12
      ∧ nbits 0x102 8 8 < 2 ∧ (flip (some 1)).accepts 0 0x604 = true ∧ (flip (some 1)).eph.rtArm = some 1
      ∧ (flip (some 1)).time.frame + 16 ≤ 1 * 2 ^ (flip (some 1)).time.epochLog2 ∧ ¬ (flip (some 0)).time.frame + 16 ≤ 0
      ∧ (flip (some 1)).accepts 0 0x608 = true := by decide +kernel

/-- Links may train, and so may link port 2 and host port 0. -/
def trains : State :=
  let s := put [(0x828, 1), (0x14, 0x1000)] (fabric [])
  { s with alm := { s.alm with linkWords := [0, 0, 0x901], hostWords := [0x10] } }
theorem clear (s : State) (n : Nat) (h : s.coh = .reset) : s.hostClear n := by
  rw [State.hostClear, h]
  exact ⟨fun _ h => (List.not_mem_nil h).elim, fun _ h => (List.not_mem_nil h).elim, fun _ h => (List.not_mem_nil h).elim, rfl⟩

theorem witness_PortsComeAndGo_PortControlTakesPortsDownAndUp :
    trains.accepts 0 (linkBlock 2 + 4) = true ∧ trains.lpState 2 ≠ 0 ∧ trains.accepts 0 (linkBlock 3 + 4) = true ∧ trains.lpState 3 = 0
      ∧ trains.bit 0x828 0 = true ∧ (trains.alm.linkWords.getD 2 0).getLsbD 0 = true ∧ trains.dieTrains (2 / 16) = true
      ∧ trains.accepts 0 (hostBlock 0 + 4) = true ∧ trains.hostClear 0 ∧ trains.fld (hostBlock 0) 0 3 ≠ 5 ∧ trains.hostRate 0 ≠ 0
      ∧ trains.bit 0x14 (12 + 0 / 4) = true ∧ trains.dieTrains (0 / 12) = true := by
  refine ⟨?_, ?_, ?_, ?_, ?_, ?_, ?_, ?_, clear _ _ rfl, ?_, ?_, ?_, ?_⟩ <;> decide +kernel

/-- Host port 0 is in state st. -/
def host0 (st : Nat) : State := put [(hostBlock 0, BitVec.ofNat 32 (0x2010 + st))] trains
/-- An expander behind host port 5. -/
def expander : State :=
  let s := put [(hostBlock 5, 4)] trains
  { s with tier := { s.tier with units := [{ tier := 1, unit := 0x85, free := 64, up := true }] } }
/-- A device is being trained there. -/
def newDevice : State := let s := put [(hostBlock 5, 4), (0x14, 0x2000)] trains; { s with alm := { s.alm with hostWords := [0x10, 0, 0, 0, 0, 0x12] } }
def starting : State := let s := host0 2; { s with pwr := { s.pwr with phase := .starting } }

theorem witness_PortsComeAndGo_HostPortsComeAndGo :
    (host0 1).pwr.phase ≠ .dark ∧ (host0 1).hpMayTrain 0 = true ∧ hostLinkOk { gen := 3, rate := 4, width := 16, flit256 := true } = true
      ∧ (host0 1).fld (hostBlock 0) 0 3 = 1 ∧ (host0 1).downstream 0 = false ∧ (host0 2).hostUp 0 = true ∧ (host0 2).hostClear 0
      ∧ 2 ≤ (host0 2).fld (hostBlock 0) 3 2 ∧ expander.ready = true ∧ expander.fld (hostBlock 5) 0 3 = 4
      ∧ expander.tier.units.any (fun x => x.unit == 0x80 + 5) = true ∧ expander.tier.lostUnits.contains (0x80 + 5) = false
      ∧ starting.pwr.phase = .starting ∧ starting.fld (hostBlock 0) 0 3 = 2
      ∧ newDevice.pwr.phase ≠ .dark ∧ newDevice.hpMayTrain 5 = true ∧ newDevice.fld (hostBlock 5) 0 3 = 4 ∧ newDevice.downstream 5 = true
      ∧ newDevice.tier.units.any (fun x => x.unit == 0x85) = false ∧ (host0 2).ready = true := by
  refine ⟨?_, ?_, ?_, ?_, ?_, ?_, clear _ _ rfl, ?_, ?_, ?_, ?_, ?_, ?_, ?_, ?_, ?_, ?_, ?_, ?_, ?_⟩ <;> decide +kernel

theorem witness_FlipsAreArmedAndClocksAreWatched_ClocksAndReferences :
    trains.pwr.phase ≠ .dark ∧ trains.bit 0x14 12 = true ∧ (∀ n ∈ groupPorts 0, trains.hostClear n) ∧ (host0 0).fld (hostBlock 0) 0 3 = 0
      ∧ (host0 0).hostRate 0 ≠ 0 ∧ (host0 0).bit (hostBlock 0 + 4) 0 = false ∧ (host0 0).dieTrains (0 / 12) = true
      ∧ State.reset.pwr.phase = .dark := by
  refine ⟨?_, ?_, fun n _ => clear _ n rfl, ?_, ?_, ?_, ?_, ?_⟩ <;> decide +kernel

/-- Window 0 of host port 0 shows pool addresses from 0x1000 on to context 1. -/
def window : State :=
  put [(hostBlock 0 + 0x100, 0x10000), (hostBlock 0 + 0x104, 0x1000), (hostBlock 0 + 0x10C, 0x4001), (sliceReg 0 0 0, 1)] (pool [])
theorem window_settled : window.settled := fun _ => rfl
/-- FetchAdd of 5 to 8 B, and an operation no host may ask for. -/
def fetchAdd : Atomic := { code := 0, size := 8, operand := 5, swap := 0, posted := false }
def odd : Atomic := { fetchAdd with code := 3 }

/-- The page of the window is on the tray whose write cache is full. -/
def windowFull : State := { put [(linkBlock 4, 0x40A), (trayReg 4 0, 1)] window with tier := fullCache.tier, flash := fullCache.flash }

theorem witness_HostRequestsReachTheirWindow :
    window.admits 0 64 0 1 0x1040 ∧ window.bit (hostBlock 0) 14 = false ∧ window.lineDom (0x1040 / 64) = 0 ∧ window.mapCheck 1 false 0x1040 64 = .ok
      ∧ window.readCheck [] 0x1040 64 = .ok ∧ window.windowRo 0 0 = false
      ∧ window.mapCheck 1 true 0x1040 64 = .ok ∧ window.settled ∧ window.plainFor 1 0x1040 64 ∧ window.cacheFull 0x1040 64 = none
      ∧ window.cacheFull 0x1040 1 = none ∧ window.homeFree (0x1040 / 64)
      ∧ window.dirEnt (0x1040 / 64) = none ∧ window.poison.contains (0x1040 / 64) = false
      ∧ window.reqCheck { line := 0x1040 / 64, agent := .host 0, ctx := 1, kind := .atom (0x1040 % 64) fetchAdd, via := .host 64 0 } = .ok
      ∧ window.plainFor 1 0x1040 8 ∧ window.serves = true ∧ window.hostUp 0 = true ∧ window.windowOf 0 (2 ^ 28) = none := by
  refine ⟨?_, ?_, ?_, ?_, ?_, ?_, ?_, window_settled, ?_, ?_, ?_, ?_, ?_, ?_, ?_, ?_, ?_, ?_, ?_⟩ <;> decide +kernel

theorem witness_HostRequestsReachTheirWindow_full :
    windowFull.admits 0 64 0 1 0x1040 ∧ windowFull.mapCheck 1 true 0x1040 64 = .ok ∧ windowFull.plainFor 1 0x1040 64
      ∧ windowFull.flashUnits 0x1040 64 = [(4, 0, 0)] ∧ windowFull.trayWorks 4 = true ∧ fullTray.room 0 0 = false := by
  refine ⟨?_, ?_, ?_, ?_, ?_, fullTray_room⟩ <;> decide +kernel
-- pool map, services, flash -----------------------------------------------------------------------------------------------

/-- Context 1 has quota and share in every column, and stack 0 is empty. -/
def tiers (l : List (Nat × Word)) : State :=
  let s := pool ([0, 4, 8].flatMap (fun o => [(quotaReg 1 o, (100 : Word)), (shareReg 0 o, 100)]) ++ [(quotaReg 1 0x18, 0x40004)] ++ l)
  { s with tier := { s.tier with units := [{ tier := 0, unit := 0, free := 64512 * 32, up := true }] } }
/-- Page p of context 1 on stack 0. -/
def page1 (p : Nat) : Page :=
  { page := p, entry := 0xFF001, tier := 0, unit := 0, group := 0, heat := 0, frames := 0, marked := false, lost := false, move := none,
    repin := false, isNew := false }
/-- The command block names two pages from page `first` on, for context 1 pinned to the stack tier; pages 8 and 9 are mapped. -/
def pmap (first : Nat) (cmd : Option (Status × Nat × Nat)) : State :=
  let s := tiers [(0x240, BitVec.ofNat 32 (first * 2 ^ 21)), (0x248, 2), (0x24C, 0xFF401)]
  { s with tier := { s.tier with pages := [page1 8, page1 9], cmd := cmd } }

theorem witness_PoolMapCommandsAreAllOrNothing :
    (pmap 5 none).accepts 0 0x250 = true ∧ (pmap 5 none).tier.cmd = none ∧ (pmap 5 none).pmapMap.2 = .ok ∧ (pmap 8 none).pmapMap.2 ≠ .ok
      ∧ (pmap 8 none).pmapUnmap.2 = .ok ∧ (pmap 8 none).pmapSetFlags.2 = .ok ∧ (pmap 8 (some (.ok, 8, 2))).tier.cmd = some (.ok, 8, 2) := by
  decide +kernel

/-- Page 8 moves to stack 1; source backing of page 5 waits for its last access, that of page 6 for scrub, and that of page 7 is scrubbed. -/
def moving : State :=
  let s := tiers []
  let m : Move := { tier := 0, unit := 1, group := 0, done := 31 }
  { s with tier := { s.tier with
      pages := [{ page1 8 with move := some m }]
      freed := [{ page := 5, ctx := 1, tier := 0, unit := 0, group := 0 }]
      scrubs := [{ page := 6, ctx := 1, tier := 0, unit := 0, group := 0, started := false },
                 { page := 7, ctx := 1, tier := 0, unit := 0, group := 0, started := true }] } }
theorem moving_settled : moving.settled := fun _ => rfl

theorem witness_PagesMoveAndAreScrubbed :
    (moving.page 8).map (fun g => (g.move.map (·.done), g.lost, entryCtx g.entry)) = some (some 31, false, 1)
      ∧ (moving.tier.freed.find? (fun f => f.page == 5)).map (·.ctx) = some 1
      ∧ (moving.tier.scrubs.find? (fun r => r.page == 6 && r.tier != 2 && !r.started)).map (·.ctx) = some 1 ∧ moving.page 6 = none ∧ moving.settled
      ∧ moving.atBoundary = true ∧ moving.tier.gone = []
      ∧ (moving.page 8).map (fun g => g.move.map (fun m => (moving.chunkFlash g m).any (fun k => (moving.tray k.1).any (fun y => !y.room k.2.1 k.2.2))))
        = some (some false)
      ∧ (moving.tier.scrubs.find? (fun r => r.page == 7 && r.started)).map (·.ctx) = some 1 := by
  refine ⟨?_, ?_, ?_, ?_, moving_settled, ?_, ?_, ?_, ?_⟩ <;> decide +kernel

/-- WS_OPEN of two layers, pages 1 and 2, with counter 2 as both counters; the stream it opens, as stream 77; WS_CLOSE of it. -/
def dOpen : BitVec 512 := desc 0x58 [(128, 0x100), (256, 0x1000), (320, 2), (336, 1), (352, 7), (368, 7)]
def dClose : BitVec 512 := desc 0x59 [(128, 77), (256, 0x1000)]
def stream77 : WStream :=
  { id := 77, ctx := 1, layers := [(2 ^ 21, 1), (2 ^ 22, 1)], window := 1, adv := 7, ready := 7, staged := 0, staging := none, chunks := 0, copies := [],
    stopped := false, closing := false }
def weights (d : BitVec 512) (l : List WStream) : State :=
  let s := tiers []
  { s with
    ops := [op d]
    mem := putBytes [] 0x100 (leBytes 8 (2 ^ 21) ++ leBytes 8 1 ++ leBytes 8 (2 ^ 22) ++ leBytes 8 1)
    tier := { s.tier with streams := l, pages := [{ page1 1 with entry := 0x4FF001 }, { page1 2 with entry := 0x4FF001 }] } }
theorem weights_settled (d : BitVec 512) (l : List WStream) : (weights d l).settled := fun _ => rfl

theorem witness_WeightStreamsAreOpenedStagedAndClosed :
    (weights dOpen []).runsOp 5 (op dOpen) 0x58 ∧ (weights dOpen []).wsOwn 1 dOpen = .ok ∧ (weights dOpen []).readCheck [] 0x100 32 = .ok
      ∧ (weights dOpen []).wsLayerCheck 1 dOpen ((weights dOpen []).layerTable dOpen) = .ok ∧ (weights dOpen []).settled
      ∧ (weights dOpen []).plainFor 1 0x1000 64 ∧ (weights dOpen []).tier.streams = []
      ∧ (weights dClose [stream77]).runsOp 5 (op dClose) 0x59 ∧ (weights dClose [stream77]).wsFind 77 = some stream77
      ∧ (weights dClose [stream77]).resCheck 1 dClose = .ok ∧ (weights dClose [stream77]).settled ∧ (weights dClose [stream77]).plainFor 1 0x1000 64
      ∧ (weights dClose []).runsOp 5 (op dClose) 0x59 ∧ (weights dClose []).wsFind 77 = none := by
  refine ⟨?_, ?_, ?_, ?_, weights_settled _ _, ?_, ?_, ?_, ?_, ?_, weights_settled _ _, ?_, ?_, ?_⟩ <;>
    decide +kernel

/-- Its first layer is being staged on stack 0; its first chunk is copied next, and then the last one was. The layer's copy stands already. -/
def staging77 : WStream := { stream77 with staging := some 0, copies := [(0, 0)] }
def staged77 : WStream := { staging77 with chunks := 32 }
def kept77 : WStream := { stream77 with copies := [(0, 0)] }

theorem witness_WeightStreamsAreOpenedStagedAndClosed_stage :
    (weights dOpen [stream77]).wsFind 77 = some stream77 ∧ stream77.staged < (weights dOpen [stream77]).wsAdvance stream77 + stream77.window
      ∧ (weights dOpen [stream77]).use 1 0 + 1 ≤ ((weights dOpen [stream77]).frd (quotaReg 1 0)).toNat
      ∧ (weights dOpen [stream77]).copyStack 1 1 = some 0
      ∧ (weights dOpen [kept77]).wsFind 77 = some kept77 ∧ kept77.staged < (weights dOpen [kept77]).wsAdvance kept77 + kept77.window
      ∧ (weights dOpen [kept77]).ctr 1 7 = some 2 ∧ (weights dOpen [kept77]).streamsOf 3 = [] := by decide +kernel

/-- The streams' counters: handle 8 counts what is ready. -/
def ready8 (w : WStream) : State :=
  let s := put [(counterBlock 3 + 0x10, bindWord 1 8)] (weights dOpen [{ w with ready := 8 }])
  s

theorem witness_WeightStreamsAreOpenedStagedAndClosed_chunks :
    ((ready8 staging77).page 1).map (fun g => g.move.isNone) = some true ∧ (ready8 staging77).stager 1 = some ({ staging77 with ready := 8 }, 0)
      ∧ (ready8 staging77).lostCheck 1 = .ok ∧ chunkLines 1 0 ((ready8 staging77).poison ++ []) = []
      ∧ chunkLines 1 0 ((ready8 staging77).poison ++ [2 ^ 15]) ≠ []
      ∧ (ready8 staged77).wsFind 77 = some { staged77 with ready := 8 } ∧ staged77.chunks = 32 * (staged77.layer 0).2.2
      ∧ (ready8 staged77).ctr 1 8 = some 3 ∧ (ready8 staged77).streamsOf 3 = []
      ∧ (ready8 kept77).wsFind 77 = some { kept77 with ready := 8 } ∧ (ready8 kept77).ctr 1 8 = some 3 ∧ (ready8 kept77).streamsOf 3 = [] := by
  decide +kernel

/-- A sequence of context 1 in a phase: one layer, one head, blocks of sixteen BF16 tokens of 64 elements, four tokens so far. -/
def seq1 (phase : Nat) : Seq :=
  { slot := 3, serial := 1, owner := 1, phase := phase, layersN := 1, headsN := 1, d := 64, kFmt := 1, bt := 16, vby := 64, maxTokens := 64,
    tokens := [4], dirAddr := 2 ^ 21, tables := [2 ^ 21 + 64], blocks := [(0, 2 ^ 22, 2 ^ 22 + 2048)], pages := [1, 2], mirrors := [], replayFrom := 4,
    reason := 1, handoff := none }
/-- A request k with these fields, its result line at 0x1000, beside these sequences. -/
def dSeq (k : Nat) (l : List (Nat × Nat)) : BitVec 512 := desc k ((256, 0x1000) :: l)
def seqs (d : BitVec 512) (l : List Seq) : State :=
  let s := tiers []
  { s with
    ops := [op d]
    tier := { s.tier with seqs := l, rights := [(0, 1), (1, 0x14FF001), (2, 0x14FF001)],
                          pages := [{ page1 1 with entry := 0x14FF001 }, { page1 2 with entry := 0x14FF001 }] } }

theorem seqs_page (d : BitVec 512) (l : List Seq) (p : Nat) (g : Page) (h : (seqs d l).page p = some g) : g.lost = false := by
  have m : g ∈ (seqs d l).tier.pages := List.mem_of_find?_eq_some h
  have e : (seqs d l).tier.pages = [{ page1 1 with entry := 0x14FF001 }, { page1 2 with entry := 0x14FF001 }] := rfl
  rw [e] at m
  simp only [List.mem_cons, List.not_mem_nil, or_false] at m
  rcases m with rfl | rfl <;> rfl

theorem seqs_kept (d : BitVec 512) (l : List Seq) (p : Nat) : (seqs d l).lostCheck p = .ok := by
  have now : (seqs d l).pageNow p = (seqs d l).page p := rfl
  rw [State.lostCheck, now]
  split
  · rename_i g h
    simp [seqs_page d l p g h]
  · rfl

theorem seqs_takes (d : BitVec 512) (l : List Seq) : (seqs d l).poolTakes := by
  refine ⟨fun _ => rfl, fun p => ?_, ?_, ?_, fun r h => (List.not_mem_nil h).elim⟩
  · have h : ∀ r ∈ List.range 16, (seqs d l).mirrorValid r = false := by
      have : ∀ r ∈ List.range 16, (seqs 0 []).mirrorValid r = false := by decide +kernel
      exact this
    refine List.find?_eq_none.2 (fun r hr => ?_)
    simp [h r hr]
  · exact fun g hg => by
      have e : ∀ g ∈ (seqs 0 []).tier.pages, ((seqs 0 []).chunkUnits g.loc g.page).all (seqs 0 []).takesWrites = true := by decide +kernel
      exact e g hg
  · have e : ∀ x ∈ (seqs 0 []).tier.units, (seqs 0 []).takesWrites x.unit = true := by decide +kernel
    exact e

/-- CP_OPEN of the shape of `seq1`. -/
def dCp : BitVec 512 := dSeq 0x50 [(320, 64), (352, 0x10000), (384, 1)]

theorem bestLoc_stack (s : State) (sl p : Nat) : s.bestLoc sl 0 p = s.bestLoc sl 0 0 := by
  unfold State.bestLoc
  congr 1
  refine List.filter_congr (fun l hl => ?_)
  simp only [State.sliceLocs, if_true, List.mem_map, List.mem_filter, List.mem_range] at hl
  obtain ⟨u, hu, rfl⟩ := hl
  have h : u ≠ 255 := by omega
  have e : ∀ q, s.chunkUnit { tier := 0, unit := u, group := 0 } q = fun _ => u := fun q => by
    funext c
    simp [State.chunkUnit, h]
  simp only [State.locRoom, State.chunkUnits, e]

theorem seqs_noRoute (v k : Nat) (hv : v < 2) (hk : k < 256) : ((seqs dCp []).rd (routeReg v (0x800 + 16 * k + 8))).toNat.testBit 9 = false := by
  have h : ∀ v ∈ List.range 2, ∀ k ∈ List.range 256, ((seqs dCp []).rd (routeReg v (0x800 + 16 * k + 8))).toNat.testBit 9 = false := by decide +kernel
  exact h v (List.mem_range.2 hv) k (List.mem_range.2 hk)

theorem seqs_route (p : Nat) : (seqs dCp []).routeOf (seqs dCp []).version p = .here ∨ (seqs dCp []).routeOf (seqs dCp []).version p = .none := by
  have v : (seqs dCp []).version = 0 := by decide +kernel
  rw [v]
  have h : (List.range 256).find? (fun k => ((seqs dCp []).rd (routeReg 0 (0x800 + 16 * k + 4 * 2))).toNat.testBit 9
      && decide (((seqs dCp []).rd (routeReg 0 (0x800 + 16 * k + 4 * 0))).toNat ≤ p)
      && decide (p ≤ ((seqs dCp []).rd (routeReg 0 (0x800 + 16 * k + 4 * 1))).toNat)) = none :=
    List.find?_eq_none.2 (fun k hk => by simp [seqs_noRoute 0 k (by omega) (List.mem_range.1 hk)])
  rw [State.routeOf, h]
  cases ((seqs dCp []).rights p).isSome <;> simp

theorem freeRun_fresh (s : State) (a : Nat) (h1 : s.page a = none) (h2 : s.rights a = none) (h3 : a < 2 ^ 31)
    (h4 : s.routeOf s.version a = .here ∨ s.routeOf s.version a = .none) : s.fresh.2.freeRun 1 a = some a := by
  have e : s.fresh.2.routeOf s.fresh.2.version a = s.routeOf s.version a := rfl
  have p1 : s.fresh.2.page a = none := h1
  have p2 : s.fresh.2.rights a = none := h2
  have p3 : a + 1 ≤ 2147483648 := by omega
  unfold State.freeRun
  dsimp only
  rw [List.find?_cons]
  rcases h4 with h4 | h4 <;> simp [e, h4, p1, p2, p3]

theorem choose_stack (s : State) (x p : Nat) (l : Loc) (hl : s.bestLoc (s.ctxSlice x) 0 0 = some l)
    (hr : decide (s.tierFree 0 < (s.frd 0x20C).toNat + 1) = false ∧ (s.tierRefuse x 0 true).quota = false ∧ (s.tierRefuse x 0 true).other = false) :
    s.choose x p 0 255 (pinTiers 0) = (some l, false) := by
  have hp : s.pinLoc x p 0 255 = some l := by
    rw [State.pinLoc, if_pos rfl, bestLoc_stack]
    exact hl
  have q : quotaOf 0 = 0 := rfl
  have n : ¬ s.tierFree 0 ≤ (s.frd 0x20C).toNat := by
    have := of_decide_eq_false hr.1
    omega
  simp [pinTiers, State.choose, hp, q, n, hr.2.1, hr.2.2]

theorem svc_one (s : State) (x a : Nat) (l : Loc) (ha : s.fresh.2.freeRun 1 (s.fresh.1.toNat % 2 ^ 31) = some a)
    (h : s.fresh.2.choose x a 0 255 (pinTiers 0) = (some l, false)) : (s.svcPages x 1).2.1 = .ok := by
  have e : (List.range 1).map (· + a) = [a] := by simp
  unfold State.svcPages
  simp only [ha, State.placeAll, e, State.tryAll, h]
  rfl

/-- The service finds room wherever its first address falls. -/
theorem seqs_room : ((seqs dCp []).svcPages 1 1).2.1 = .ok := by
  have key : ∀ b : Nat, ∃ a, (seqs dCp []).fresh.2.freeRun 1 (b % 2 ^ 31) = some a := by
    intro b
    by_cases hb : b % 2 ^ 31 = 0 ∨ b % 2 ^ 31 = 1 ∨ b % 2 ^ 31 = 2
    · rcases hb with h | h | h <;> rw [h]
      all_goals exact Option.isSome_iff_exists.1 (by decide +kernel)
    · have h3 : b % 2 ^ 31 < 2 ^ 31 := Nat.mod_lt _ (by decide)
      have h4 := seqs_route (b % 2 ^ 31)
      generalize b % 2 ^ 31 = a at *
      have h1 : (seqs dCp []).page a = none := List.find?_eq_none.2 (fun g hg => by
        have e : (seqs dCp []).tier.pages = [{ page1 1 with entry := 0x14FF001 }, { page1 2 with entry := 0x14FF001 }] := rfl
        rw [e] at hg
        simp only [List.mem_cons, List.not_mem_nil, or_false] at hg
        rcases hg with rfl | rfl <;> simp [page1] <;> omega)
      have h2 : (seqs dCp []).rights a = none := by
        have e : (seqs dCp []).tier.rights = [(0, 1), (1, 0x14FF001), (2, 0x14FF001)] := rfl
        rw [State.rights, e, List.find?_eq_none.2]
        · rfl
        · intro g hg
          simp only [List.mem_cons, List.not_mem_nil, or_false] at hg
          rcases hg with rfl | rfl | rfl <;> simp <;> omega
      exact ⟨a, freeRun_fresh _ a h1 h2 h3 h4⟩
  obtain ⟨a, ha⟩ := key (seqs dCp []).fresh.1.toNat
  have hb : ((seqs dCp []).fresh.2.bestLoc ((seqs dCp []).fresh.2.ctxSlice 1) 0 0).isSome = true := by decide +kernel
  obtain ⟨l, hl⟩ := Option.isSome_iff_exists.1 hb
  exact svc_one _ _ _ _ ha (choose_stack _ 1 _ l hl (by decide +kernel))

theorem witness_CachePoolRequestsKeepTheirSequence :
    (seqs dCp []).runsOp 5 (op dCp) 0x50 ∧ (seqs dCp []).poolTakes ∧ coBad dCp = false ∧ (seqs dCp []).resCheck 1 dCp = .ok ∧ coMax dCp ≠ 0
      ∧ 0 < (seqs dCp []).ffld (quotaReg 1 0x18) 0 16
      ∧ (seqs dCp []).use 1 1 + (((seqs dCp []).mirrorTrays 0 (coSeq dCp 1 0 0 0 []).metaPages []).take 2).length
          * (coSeq dCp 1 0 0 0 []).metaPages ≤ ((seqs dCp []).frd (quotaReg 1 4)).toNat ∧ (coSeq dCp 1 0 0 0 []).metaPages = 1 := by
  refine ⟨?_, seqs_takes _ _, ?_, ?_, ?_, ?_, ?_, ?_⟩ <;> decide +kernel

/-- CP_APPEND of two tokens after the fourth; CP_SEAL, CP_STATUS, CP_CLOSE; CP_REPLAY with the token of the lost sequence. -/
def dAppend : BitVec 512 := dSeq 0x51 [(128, 0x10003), (192, 0x3000), (320, 4), (352, 2)]
def dSeal : BitVec 512 := dSeq 0x52 [(128, 0x10003)]
def dStatus : BitVec 512 := dSeq 0x53 [(128, 0x10003)]
def dReplay : BitVec 512 := dSeq 0x54 [(128, 0x10003), (320, leNat (replayToken (seq1 3)))]
def dCpClose : BitVec 512 := dSeq 0x55 [(128, 0x10003)]

/-- CP_SEAL with handoff, to context 1 itself. -/
def dHand : BitVec 512 := dSeq 0x52 [(128, 0x10003), (320, 1), (335, 1)]

theorem witness_CachePoolRequestsKeepTheirSequence_append :
    (seqs dAppend [seq1 1]).runsOp 5 (op dAppend) 0x51 ∧ (seqs dAppend [seq1 1]).poolTakes ∧ (seqs dAppend [seq1 1]).cpSeq (op dAppend) = some (seq1 1)
      ∧ (seq1 1).handoff = none ∧ (seqs dAppend [seq1 1]).cpBehind (op dAppend) = false
      ∧ caLayer dAppend < (seq1 1).layersN ∧ caFirst dAppend = (seq1 1).tokens.getD (caLayer dAppend) 0 ∧ caBuf dAppend % 64 = 0
      ∧ (seqs dAppend [seq1 1]).resCheck 1 dAppend = .ok ∧ caCount dAppend ≠ 0 ∧ caFirst dAppend + caCount dAppend ≤ (seq1 1).maxTokens
      ∧ (seqs dAppend [seq1 1]).mapCheck 1 false (caBuf dAppend) (caBytes (seq1 1) dAppend) = .ok
      ∧ (seqs dAppend [seq1 1]).readCheck [] (caBuf dAppend) (caBytes (seq1 1) dAppend) = .ok
      ∧ cdiv ((newBlocks (seq1 1) dAppend 0).length * ((seq1 1).kb + (seq1 1).vby)) (2 ^ 21) = 0 := by
  refine ⟨?_, seqs_takes _ _, ?_, ?_, ?_, ?_, ?_, ?_, ?_, ?_, ?_, ?_, ?_, ?_⟩ <;> decide +kernel

theorem witness_CachePoolRequestsKeepTheirSequence_rest :
    (seqs dSeal [seq1 1]).cpSeq (op dSeal) = some (seq1 1) ∧ (seqs dSeal [seq1 1]).resCheck 1 dSeal = .ok ∧ (seqs dSeal [seq1 1]).runsOp 5 (op dSeal) 0x52
      ∧ (seqs dSeal [seq1 1]).settled ∧ (seqs dSeal [seq1 1]).plainFor 1 0x1000 64 ∧ (seqs dSeal [seq1 1]).cpBehind (op dSeal) = false
      ∧ csHandoff dSeal = false ∧ (seqs dHand [seq1 1]).runsOp 5 (op dHand) 0x52 ∧ (seqs dHand [seq1 1]).cpSeq (op dHand) = some (seq1 1)
      ∧ (seqs dHand [seq1 1]).resCheck 1 dHand = .ok ∧ csHandoff dHand = true ∧ (seqs dHand [seq1 1]).handoffCheck (seq1 1) (csTo dHand) = .ok
      ∧ (seqs dStatus [seq1 1]).runsOp 5 (op dStatus) 0x53 ∧ (seqs dStatus [seq1 1]).cpSeq (op dStatus) = some (seq1 1)
      ∧ (seqs dStatus [seq1 1]).resCheck 1 dStatus = .ok
      ∧ (seqs dCpClose [seq1 1]).runsOp 5 (op dCpClose) 0x55 ∧ (seqs dCpClose [seq1 1]).cpSeq (op dCpClose) = some (seq1 1)
      ∧ (seqs dCpClose [seq1 1]).resCheck 1 dCpClose = .ok := by
  refine ⟨?_, ?_, ?_, fun _ => rfl, ?_, ?_, ?_, ?_, ?_, ?_, ?_, ?_, ?_, ?_, ?_, ?_, ?_, ?_⟩ <;> decide +kernel

theorem witness_CachePoolRequestsKeepTheirSequence_replay :
    (seqs dReplay [seq1 3]).runsOp 5 (op dReplay) 0x54 ∧ (seqs dReplay [seq1 3]).cpSeq (op dReplay) = some (seq1 3)
      ∧ (seqs dReplay [seq1 3]).resCheck 1 dReplay = .ok ∧ (seqs dReplay [seq1 3]).poolTakes
      ∧ (crc32c ((leBytes 16 (db dReplay 40 16)).take 14)).toNat % 2 ^ 16 = le (leBytes 16 (db dReplay 40 16)) 14 2
      ∧ le (leBytes 16 (db dReplay 40 16)) 0 8 = db dReplay 16 8 ∧ le (leBytes 16 (db dReplay 40 16)) 8 4 = 4 ∧ 4 ≤ (seq1 3).replayFrom
      ∧ ((seqs dReplay [seq1 3]).cpRehome (seq1 3)).2 = .ok
      ∧ ((((seqs dReplay [seq1 3]).cpRehome (seq1 3)).1.cpCut (seq1 3) 4).1.cpPublish (((seqs dReplay [seq1 3]).cpRehome (seq1 3)).1.cpCut (seq1 3) 4).2
          (List.range 1)).2 = .ok := by
  refine ⟨?_, ?_, ?_, seqs_takes _ _, ?_, ?_, ?_, ?_, ?_, ?_⟩ <;> decide +kernel

theorem witness_CachePoolRequestsKeepTheirSequence_none :
    ∀ p ∈ [(dAppend, 0x51), (dSeal, 0x52), (dStatus, 0x53), (dReplay, 0x54), (dCpClose, 0x55)],
      (seqs p.1 []).runsOp 5 (op p.1) p.2 ∧ (seqs p.1 []).cpSeq (op p.1) = none ∧ (seqs p.1 []).resCheck 1 p.1 = .ok
        ∧ (seqs p.1 []).plainFor 1 (svRes p.1) 64 := by
  decide +kernel

/-- A DRAM tray on link port 5 makes up tray group 0, and has room. -/
def rebuilding : State :=
  let s := seqs dSeal [seq1 1]
  { s with tier := { s.tier with units := [{ tier := 1, unit := 0x45, free := 64, up := true }] }, alm := { s.alm with groups := [(1, 0, [5])] } }

theorem witness_CachePoolRequestsKeepTheirSequence_mirror :
    (rebuilding.tier.seqs.find? (fun q => q.handle == 0x10003)) = some (seq1 1) ∧ (seq1 1).mirrors.length < 2 ∧ rebuilding.trayGroup 5 = some 0
      ∧ rebuilding.groupKind 0 = 1 ∧ rebuilding.groupSlice 0 = rebuilding.ctxSlice 1 ∧ rebuilding.unitUp (0x40 + 5) = true ∧ 32 * (seq1 1).metaPages ≤ rebuilding.unitFree (0x40 + 5) := by decide +kernel

/-- Flash tray on link port 4: a buffer stripe with unit 3 of page 0, a closed main stripe with unit 4, whose blocks were read often, free blocks on
each of sixteen dies, unit 5 dirty in its cache. Page 0 lies there. -/
def worn (r : Nat) : List (Option FBlock) := List.replicate 16 (some { erases := 9, reads := r })
def bufferStripe : FStripe := { stripe with buffer := true, blocks := worn 0 }
def unit4 : FCopy := { unit3 with unit := 4, pos := 3 }
def mainStripe : FStripe := { stripe with no := 1, closed := true, copies := [unit4], parity := [(0, [])], blocks := worn 100000 }
def flash4 (free : Nat × Nat) (l : List FStripe) : Tray :=
  { flashTray with dies := 16, cache := [{ page := 0, unit := 5, dirty := true }], stripes := l, nextStripe := 2, free := List.replicate 16 [free],
                   spares := List.replicate 16 8, target := List.replicate 16 8 }
def flashS (y : Tray) (l : List (Nat × Word)) : State :=
  let s := put ((trayReg 4 0, 1) :: l) (onTray 2)
  { s with flash := { trays := [y], held := [(4, 0, 7, .holdoverTimeout)] } }
def wideTray : Tray := flash4 (9, 600) [bufferStripe, mainStripe]
def lowTray : Tray := flash4 (900, 40) [bufferStripe, mainStripe]
def flashed : State := flashS wideTray []
def low : State := flashS lowTray []

theorem witness_FlashKeepsUnitsAndDropsDiscardedPages_FlashTranslationKeepsEveryUnit :
    flashed.tray 4 = some wideTray ∧ flashed.unitHere 4 0 7 = true ∧ flashed.trayWorks 4 = true ∧ wideTray.room 0 7 = true
      ∧ wideTray.cache.find? (·.dirty) = some { page := 0, unit := 5, dirty := true } ∧ flashed.unitHere 4 0 5 = true
      ∧ ((flashed.groupFor wideTray true 0 5).orElse (fun _ => flashed.groupFor wideTray false 0 5)).isSome = true
      ∧ flashed.atBoundary = true ∧ wideTray.numbered ∧ flashed.movable wideTray bufferStripe true
      ∧ wideTray.stripes.find? (fun v => v.buffer && v.leaving.isNone) = some bufferStripe
      ∧ low.tray 4 = some lowTray ∧ low.trayWorks 4 = true ∧ low.atBoundary = true ∧ lowTray.numbered ∧ low.movable lowTray mainStripe true
      ∧ 0 < lowTray.groups ∧ lowTray.minFree 0 < (low.frd 0x30C).toNat ∧ low.discardFirst lowTray = false ∧ low.victim lowTray 0 = some mainStripe
      ∧ (lowTray.dieWears 3).foldl min ((lowTray.dieWears 3).headD 0) + (low.frd 0x310).toNat < (lowTray.dieWears 3).foldl max 0
      ∧ lowTray.stripes.find? (fun v => v.group == 3 / 16 && v.leaving.isNone && (v.blocks.getD (3 % 16) none).any (fun k =>
          k.erases == (lowTray.dieWears 3).foldl min ((lowTray.dieWears 3).headD 0))) = some bufferStripe
      ∧ low.movable lowTray bufferStripe true ∧ lowTray.stripe 1 = some mainStripe
      ∧ ∃ k, some k ∈ mainStripe.blocks ∧ 100000 ≤ k.reads := by
  refine ⟨?_, ?_, ?_, ?_, ?_, ?_, ?_, ?_, ⟨?_, ?_⟩, Or.inr ⟨rfl, ?_⟩, ?_, ?_, ?_, ?_, ⟨?_, ?_⟩, Or.inr ⟨rfl, ?_⟩, ?_, ?_, ?_, ?_, ?_, ?_, Or.inr ⟨rfl, ?_⟩, ?_,
    ⟨_, List.mem_cons_self, Nat.le_refl _⟩⟩ <;> decide +kernel

/-- Die 3 has failed, and unit 4 of page 0 lay there. -/
def brokenTray : Tray := { flash4 (9, 600) [bufferStripe, { mainStripe with blocks := (worn 0).set 3 none }] with failed := [3], rebuild := [(0, 4)] }
/-- Page 0 was unmapped: its backing on the tray awaits secure discard; in the second state the tray is done with it. -/
def discarded (y : Tray) : State :=
  let s := flashS y [(0x318, 1)]
  { s with tier := { s.tier with pages := [], scrubs := [{ page := 0, ctx := 1, tier := 2, unit := 0x44, group := 0, started := false }] } }
def doneTray : Tray := { flash4 (9, 600) [] with cache := [], discards := [0] }

theorem witness_FlashKeepsUnitsAndDropsDiscardedPages_FlashDiesFailAndPagesAreDiscarded :
    flashed.tray 4 = some wideTray ∧ 3 < wideTray.dies ∧ wideTray.failed = [] ∧ wideTray.rebuild = [] ∧ (∀ g ∈ flashed.tier.pages, g.lost = false)
      ∧ (∀ x ∈ flashed.tierCtxs, x < 1024) ∧ (flashS brokenTray []).tray 4 = some brokenTray ∧ (0, 4) ∈ brokenTray.rebuild
      ∧ (flashS brokenTray []).trayWorks 4 = true ∧ (flashS brokenTray []).atBoundary = true
      ∧ (brokenTray.find 0 4).map (fun k => (k.2, k.1.group, k.1.rebuilt k.2)) = some (unit4, 0, some [])
      ∧ (brokenTray.program ((flashS brokenTray []).mainPages 4) 0 false 0 4 []).isSome = true
      ∧ (discarded wideTray).tray 4 = some wideTray ∧ (discarded wideTray).toDiscard wideTray 0 = true ∧ (discarded wideTray).atBoundary = true
      ∧ (discarded wideTray).tier.gone = [] ∧ wideTray.numbered ∧ ((discarded wideTray).discardAll wideTray 0 true true).2.2 = true
      ∧ ((discarded doneTray).tier.scrubs.find? (fun r => r.page == 0 && r.tier == 2)).map (·.ctx) = some 1
      ∧ ((discarded doneTray).chunkUnits { tier := 2, unit := 0x44, group := 0 } 0).contains (0x40 + 4) = true := by
  refine ⟨?_, ?_, ?_, ?_, ?_, ?_, ?_, ?_, ?_, ?_, ?_, ?_, ?_, ?_, ?_, ?_, ⟨?_, ?_⟩, ?_, ?_, ?_⟩ <;> decide +kernel

theorem witness_FlashKeepsUnitsAndDropsDiscardedPages_FlashDiesFailAndPagesAreDiscarded_done :
    ∀ u ∈ (discarded doneTray).chunkUnits { tier := 2, unit := 0x44, group := 0 } 0, ∀ y, (discarded doneTray).tray (u - 0x40) = some y → 0 ∈ y.discards := by
  intro u hu y hy
  have h : ∀ u ∈ (discarded doneTray).chunkUnits { tier := 2, unit := 0x44, group := 0 } 0, u = 0x44 := by decide +kernel
  rw [h u hu] at hy
  have e : (discarded doneTray).tray (0x44 - 0x40) = some doneTray := by decide +kernel
  rw [e] at hy
  cases hy
  decide
-- coherence ---------------------------------------------------------------------------------------------------------------

/-- Page 8 is shared in domain 1, of which context 1 is a member and host port 0, of CXL 3.1, a port. -/
def shared (c : CohS) : State :=
  let s := pool [(domReg 1 0, 1), (domReg 1 4, 1), (memberReg 1 0, 2), (hostBlock 0, 0x201A), (sliceReg 0 0 0, 1)]
  { s with coh := c, tier := { s.tier with rights := (8, 0x100001) :: s.tier.rights } }
/-- A line of it, and requests for that line. -/
def sLine : Nat := 8 * 2 ^ 15 + 5
def creq (a : Agent) (k : ReqKind) : CReq := { line := sLine, agent := a, ctx := 1, kind := k, via := .agent }
def plus : AddMember := { agent := .unit 1, operand := 5, posted := false }
def add8 : Atomic := { code := 0, size := 8, operand := 5, swap := 0, posted := false }

theorem witness_HomesServeLinesThatNoCacheHolds :
    (∀ a ∈ [Agent.host 0, .core 3], (shared .reset).tracks ((shared .reset).lineDom sLine) a = true
      ∧ ∀ k ∈ [ReqKind.rdCur, .rdS, .rdOwn, .upgrade, .wrPart 8 [1, 2], .wrLine (List.replicate 64 7), .atom 8 add8],
          (shared .reset).homeTakes (creq a k))
      ∧ (shared .reset).homeTakes (creq (.unit 1) (.cadd 8 8 [plus, plus]))
      ∧ ((shared .reset).plainFor 1 (64 * sLine + 8) 8 ∧ (shared .reset).plainFor 1 (64 * sLine) 64 ∧ (shared .reset).plainFor 1 (64 * sLine + 8) 2)
      ∧ ∀ k ∈ [ReqKind.rdCur, .rdS, .rdOwn, .upgrade, .wrLine []],
          (shared .reset).reqCheck { creq (.core 3) k with ctx := 2 } = .permission
            ∧ (shared .reset).needsWay { creq (.core 3) k with ctx := 2 } = false := by
  unfold State.homeTakes State.homeFree
  refine ⟨?_, ?_, ?_, ?_⟩ <;> decide +kernel
/-- The page is lost; and the line has an entry, which has an uncorrectable error. -/
def lostShared : State :=
  let s := shared .reset
  { s with tier := { s.tier with pages := [{ page1 8 with entry := 0x100001, lost := true }] } }

theorem witness_HomesServeLinesThatNoCacheHolds_lost :
    ∀ k ∈ [ReqKind.rdCur, .rdS, .rdOwn, .upgrade, .wrLine []],
      lostShared.serves = true ∧ lostShared.homeFree sLine ∧ lostShared.reqCheck (creq (.core 3) k) = .mediaUncorrectable
        ∧ lostShared.needsWay (creq (.core 3) k) = false := by
  decide +kernel
theorem shared_settled : (shared .reset).settled := fun _ => rfl

/-- The line's entry; a request that waits for agent w; the homes with them. -/
def dirE (st : HomeSt) (l : List Agent) : DirEnt := { line := sLine, dom := 1, st := st, holders := l, alloc := 0 }
def txn (a : Agent) (k : ReqKind) (w : Agent) (d : Option (List Byte)) : Txn :=
  { req := creq a k, waits := [w], data := d, dirty := false, awaitWb := [], shared := true, atHome := false }
def homes (e : DirEnt) (l : List Txn) : CohS := { CohS.reset with dir := [e], txns := l }
/-- A response of core 3. -/
def rsp (k : Nat) (stale : Bool) : Snoop := { core := 3, line := sLine, kind := k, stale := stale }
def answering (e : DirEnt) (u : Txn) (r : Snoop) : State := shared { homes e [u] with rsps := [r] }
/-- Core 3 has sent the line back, with these data. -/
def evicting (e : DirEnt) (l : List Txn) (d : Option (List Byte)) : State := shared { homes e l with evicting := [(3, sLine, d)] }
def line7 : List Byte := List.replicate 64 7

theorem witness_HomesServeLinesThatNoCacheHolds_entry :
    ∀ k ∈ [ReqKind.rdCur, .rdS, .rdOwn, .wrLine []],
      (shared (homes (dirE .em [.core 3]) [])).homeFree sLine
        ∧ (shared (homes (dirE .em [.core 3]) [])).reqCheck { creq (.core 4) k with dirUe := true } = .ok
        ∧ (shared (homes (dirE .em [.core 3]) [])).lineDom sLine = 1
        ∧ (shared (homes (dirE .em [.core 3]) [])).dirEnt sLine = some (dirE .em [.core 3])
        ∧ (shared (homes (dirE .em [.core 3]) [])).domAgents 1 ≠ [] := by
  decide +kernel

/-- Host 0 still owes its answer to an invalidation of the line, of which two bytes were written meanwhile. -/
def inval0 : Inval := { host := 0, line := sLine, owner := true, writes := [(64 * sLine + 8, [1, 2])] }
def owing : State := shared { CohS.reset with invals := [inval0] }

theorem witness_SnoopsAndEvictionsEndCopies_inval :
    owing.coh.invals.find? (fun i => i.host == 0 && i.line == sLine) = some inval0 ∧ owing.coh.waitq = []
      ∧ owing.plainSpan (64 * sLine) 64 = true ∧ line7.length = 64 := by decide +kernel

theorem witness_SnoopsAndEvictionsEndCopies_answers :
    (∀ b : Bool, ∀ k ∈ [0, 1],
        (answering (dirE .em [.core 3]) (txn (.core 4) .rdOwn (.core 3) none) (rsp k b)).coh.rsps.find? (fun r => r.core == 3 && r.line == sLine && r.kind == k)
          = some (rsp k b))
      ∧ (let s := answering (dirE .em [.core 3]) (txn (.core 4) .rdOwn (.core 3) none) (rsp 0 false)
        s.awaitsOnly (txn (.core 4) .rdOwn (.core 3) none) sLine (.core 3) ∧ (s.dirEnt sLine).any (fun e => e.owner == some (.core 3)) = true)
      ∧ (let s := answering (dirE .s [.core 3]) (txn (.core 4) .rdOwn (.core 3) none) (rsp 0 false)
        s.awaitsOnly (txn (.core 4) .rdOwn (.core 3) none) sLine (.core 3) ∧ (s.dirEnt sLine).any (fun e => e.owner == some (.core 3)) = false
          ∧ s.poison.contains sLine = false)
      ∧ (let s := answering (dirE .em [.core 3]) (txn (.core 4) .rdS (.core 3) (some line7)) (rsp 1 false)
        s.awaitsOnly (txn (.core 4) .rdS (.core 3) (some line7)) sLine (.core 3) ∧ s.dirEnt sLine = some (dirE .em [.core 3])
          ∧ s.poison.contains sLine = false) := by
  unfold State.awaitsOnly
  refine ⟨?_, ?_, ?_, ?_⟩ <;> decide +kernel

theorem witness_SnoopsAndEvictionsEndCopies_hosts :
    (shared (homes (dirE .em [.host 0]) [txn (.core 4) .rdOwn (.host 0) none])).awaitsOnly (txn (.core 4) .rdOwn (.host 0) none) sLine (.host 0)
      ∧ (shared (homes (dirE .em [.host 0]) [])).dirEnt sLine = some (dirE .em [.host 0])
      ∧ (shared (homes (dirE .em [.host 0]) [txn (.unit 0) .rdCur (.host 0) none])).awaitsOnly (txn (.unit 0) .rdCur (.host 0) none) sLine (.host 0)
      ∧ (shared (homes (dirE .em [.host 0]) [])).bit 0x72C 0 = false ∧ (shared (homes (dirE .em [.host 0]) [])).lineDom sLine = 1
      ∧ (put [(domReg 1 0xC, 0x20)] (shared .reset)).bit (domReg 1 0xC) 5 = true ∧ (put [(domReg 1 0xC, 0x20)] (shared .reset)).recalling 1 = false := by
  unfold State.awaitsOnly
  refine ⟨?_, ?_, ?_, ?_, ?_, ?_, ?_⟩ <;> decide +kernel

theorem witness_SnoopsAndEvictionsEndCopies_evictions :
    (∀ d ∈ [some line7, none], (evicting (dirE .em [.core 3]) [] d).coh.evicting.find? (fun e => e.1 == 3 && e.2.1 == sLine) = some (3, sLine, d))
      ∧ (evicting (dirE .em [.core 3]) [txn (.host 0) .rdS (.core 3) none] (some line7)).awaitsOnly (txn (.host 0) .rdS (.core 3) none) sLine (.core 3)
      ∧ (evicting (dirE .em [.core 3]) [txn (.host 0) .rdS (.core 3) none] (some line7)).dirEnt sLine = some (dirE .em [.core 3]) := by
  unfold State.awaitsOnly
  refine ⟨?_, ?_, ?_⟩ <;> decide +kernel

/-- Core 3 has the line in state st, and is snooped; a grant is on its way to it. -/
def coreHas (st : CacheSt) (k : Nat) : State :=
  shared { CohS.reset with caches := [{ core := 3, line := sLine, st := st, data := line7 }], snoops := [{ core := 3, line := sLine, kind := k, stale := false }] }
def granting (g : Nat) (d : Option (List Byte)) (w : Option (List Byte)) : State :=
  shared { CohS.reset with flight := [{ core := 3, line := sLine, state := g, data := d }], pending := [(3, sLine, w)] }

theorem witness_ServiceCoresFollowTheirStateTable :
    (∀ st ∈ [CacheSt.m, .o, .e, .s], ∀ k ∈ [0, 1, 2], (coreHas st k).cacheLine 3 sLine = some { core := 3, line := sLine, st := st, data := line7 }
        ∧ (coreHas st k).coh.snoops.find? (fun p => p.core == 3 && p.line == sLine && p.kind == k) = some { core := 3, line := sLine, kind := k, stale := false })
      ∧ (coreHas .m 0).coreRuns 3 = true ∧ (coreHas .m 0).lineDom sLine ≠ 0 ∧ (coreHas .m 0).sec.steps.contains (256 + 3) = false
      ∧ (∀ w, (((coreHas .m 0).ctxCheck 1).worst ((coreHas .m 0).pageCheck 1 (sLine / 2 ^ 15) w false)).worst ((coreHas .m 0).lostCheck (sLine / 2 ^ 15)) = .ok)
      ∧ (∀ g ∈ [1, 2, 3], (granting g (some line7) none).coh.flight.find? (fun f => f.core == 3 && f.line == sLine && f.state == g && f.data == some line7)
          = some { core := 3, line := sLine, state := g, data := some line7 }) := by
  refine ⟨?_, ?_, ?_, ?_, ?_, ?_⟩ <;> decide +kernel

-- contexts and security ---------------------------------------------------------------------------------------------------

/-- Context 1 in state st at generation g; slice 0 is valid. -/
def ctxIn (st g : Nat) : State :=
  up [(ctxReg 1 0, BitVec.ofNat 32 st), (ctxReg 1 4, BitVec.ofNat 32 g), (sliceReg 0 0 0x18, 0x01000F01)]
def released : State := let s := ctxIn 3 1; { s with link := { s.link with replay := [{ link := 2, peer := 9, msg := zfl 1, retries := 0, sent := false }] } }

theorem witness_ContextCommandsAwaitTheirBoundary :
    (ctxIn 0 1).accepts 0 (ctxReg 1 8) = true ∧ (ctxIn 0 1).ctx.cmds.any (fun k => k.ctx == 1) = false ∧ (ctxIn 0 1).ctxState 1 = 0
      ∧ (ctxIn 0 1).sliceValid 0 = true ∧ (ctxIn 0 1).brokenDomains 1 0 = [] ∧ (ctxIn 0 1).ctxGen 1 < (ctxIn 0 1).ctxTarget 1
      ∧ (ctxIn 0 1).ctxTarget 1 ≤ 0x3FFFFF ∧ (ctxIn 0 1).sliceValid 1 = false ∧ (ctxIn 1 1).ctxState 1 = 1 ∧ (ctxIn 2 1).ctxState 1 = 2
      ∧ (ctxIn 2 0x3FFFFF).ctxGen 1 = 0x3FFFFF ∧ released.ready = true ∧ released.ctxState 1 = 3
      ∧ (∀ r ∈ released.link.replay, r.sent = false) := by
  refine ⟨?_, ?_, ?_, ?_, ?_, ?_, ?_, ?_, ?_, ?_, ?_, ?_, ?_, ?_⟩ <;> decide +kernel

/-- `SEC_STATE` and the debug level. -/
def secured (st level : Nat) : State := up [(0x700, BitVec.ofNat 32 (st + 16 * level))]

theorem witness_SecurityStateMovesOneWay :
    (∀ st ∈ [0, 1, 2], ∀ l ∈ [0, 1, 2], (secured st l).accepts 0 0x704 = true ∧ (secured st l).accepts 0 0x720 = true ∧ (secured st l).secState = st
      ∧ (secured st l).dbgLevel = l ∧ (secured st l).sec.entering = none)
      ∧ (nbits 1 0 2 ≤ 1 ∧ nbits 2 0 2 = 2) := by
  refine ⟨?_, ?_⟩ <;> decide +kernel

/-- Attestation has a certified key, or none; the power state is ps. -/
def attested (b : Bool) (ps : Nat) : State :=
  let s := secured 1 0
  { s with sec := { s.sec with attReady := b }, pwr := { s.pwr with state := ps } }

theorem witness_AttestationAnswersWithItsKeys :
    (∀ b : Bool, ∀ ps ∈ [0, 2], (attested b ps).pwr.phase ≠ .dark ∧ (attested b ps).hostUp 0 = true ∧ (attested b ps).owner 0 = true
      ∧ (attested b ps).pwr.state = ps ∧ (attested b ps).sec.attReady = b ∧ (attested b ps).sec.idCounter < 1048576
      ∧ ((attested b ps).rd 0x714).toNat < 65536
      ∧ 1048576 ≤ ({ attested b ps with sec := { (attested b ps).sec with idCounter := 1048576 } } : State).sec.idCounter) ∧ (List.replicate 32 (0 : Byte)).length = 32 := by
  refine ⟨?_, ?_⟩ <;> decide +kernel

-- health ------------------------------------------------------------------------------------------------------------------

theorem witness_RecoveryCommandsAndAdmissionAct_RecoveryCommandsActOnTheirUnit :
    (∀ st ∈ [0, 1, 2], (ctxIn st 1).accepts 0 0x808 = true) ∧ (ctxIn 1 1).serving 1 = true ∧ (ctxIn 0 1).serving 1 = false := by
  refine ⟨?_, ?_, ?_⟩ <;> decide +kernel

/-- A search on engine 2 replays context 1. -/
def search (rest : List Nat) : Search := { engine := 2, suspects := 1 :: rest, replaying := true, left := 3 }
def searching (rest : List Nat) : State :=
  let s := put [(engineBlock 2 + 4, 0x10), (healthReg 1 4, 0x10)] (ctxIn 1 1)
  { s with health := { s.health with searches := [search rest] } }

theorem witness_ReplaysAndRetrainsEndOrEscalate_ReplaysReleaseTheirSuspect :
    ∀ rest ∈ [[], [7]], (searching rest).health.searches = [search rest] ∧ (1 : Nat) ∉ rest ∧ ∀ y ∈ (search rest).suspects, y < 1024 := by
  decide +kernel

/-- Stack 1 retrains for the n-th time in this epoch; link port 2 retrains; die 1 is being reset, with its paths down; all paths are up. -/
def retraining (n : Nat) : State :=
  let s := put [(0x800, 0x100)] (up [])
  { s with health := { s.health with stackRetraining := [1], stackTries := [(1, n)] },
           tier := { s.tier with units := [{ tier := 0, unit := 1, free := 0, up := false }] } }
def portRetrains : State := up [(linkBlock 2, 3)]
def dieReset1 : State := let s := up [(0x10, 0x3323), (dieReg 2 8, 9)]; { s with health := { s.health with resetting := [1] } }
def paths : State := up [(dieReg 1 8, 0xD), (dieReg 2 8, 0xB), (dieReg 0 8, 0xE)]

/-- Stack 3, of die 1, is out of service when its die comes back. -/
def dieReset1Out : State := { dieReset1 with health := { dieReset1.health with stackOut := [0, 3] }, tier := { dieReset1.tier with units := [⟨0, 0, 0, false⟩, ⟨0, 3, 0, false⟩] } }

theorem witness_ReplaysAndRetrainsEndOrEscalate_UnitsComeBackOrEscalate :
    (retraining 1).ready = true ∧ (retraining 1).health.stackRetraining = [1]
      ∧ (retraining 1).tier.units.find? (fun x => x.unit == 1) = some { tier := 0, unit := 1, free := 0, up := false }
      ∧ (retraining 1).tier.pages = [] ∧ (retraining 1).tier.seqs = [] ∧ (retraining 1).tier.scrubs = []
      ∧ ((retraining 1).health.stackTries.find? (fun p => p.1 == 1)).elim 0 (·.2) < 2
      ∧ 2 ≤ ((retraining 2).health.stackTries.find? (fun p => p.1 == 1)).elim 0 (·.2) ∧ (retraining 2).bit 0x800 17 = false
      ∧ portRetrains.lpState 2 = 3 ∧ 1 ∈ dieReset1.health.resetting ∧ dieReset1.fld 0x10 4 4 = 2 ∧ dieReset1.dieUp 2 = true
      ∧ dieReset1.ready = true ∧ dieReset1.coh.dir = [] ∧ dieReset1.coh.waitq = [] ∧ dieReset1.coh.txns = []
      ∧ (∀ k ∈ dieReset1.health.stackOut, k / 2 ≠ 1) ∧ (3 ∈ dieReset1Out.health.stackOut ∧ dieReset1Out.fld 0x10 4 4 = 2 ∧ dieReset1Out.coh.dir = [])
      ∧ paths.bit (dieReg 1 8) 2 = true ∧ paths.bit (dieReg 0 8) 1 = true := by
  refine ⟨?_, ?_, ?_, ?_, ?_, ?_, ?_, ?_, ?_, ?_, ?_, ?_, ?_, ?_, ?_, ?_, ?_, ?_, ?_, ?_, ?_⟩ <;> decide +kernel

/-- Region 0, pages 1 and 2 of partner 9, is in RESYNC, with page 2 left. -/
def resyncing : State :=
  let s := put [(mirrorReg 0 0, 1), (mirrorReg 0 4, 2), (mirrorReg 0 8, 0x509)] (fabric [])
  { s with health := { s.health with resync := [(0, [2])] } }

/-- The same with page 2 lost. -/
def resyncLost : State := { resyncing with tier := { resyncing.tier with pages := [{ page := 2, entry := 1, tier := 0, unit := 0, group := 0, heat := 0, frames := 0, marked := false, lost := true, move := none, repin := false, isNew := false }] } }

theorem witness_RecoveryCommandsAndAdmissionAct_MirrorsAreAdmittedAndResynced :
    (up [(0x840, 0x309)]).accepts 0 0x840 = true ∧ (up [(0x840, 0x309)]).bit 0x840 8 = true ∧ (up [(0x840, 0x309)]).fld 0x840 0 8 = 9
      ∧ resyncing.ready = true ∧ resyncing.mirrorValid 0 = true ∧ resyncing.mirrorState 0 = 2 ∧ (resyncing.resyncLeft 0).contains 2 = true
      ∧ resyncing.link.awaits = [] ∧ (resyncing.resyncLeft 0).contains 1 = false ∧ (resyncing.page 2).any (·.lost) = false ∧ resyncing.poison = []
      ∧ (resyncLost.ready && resyncLost.mirrorValid 0 && (resyncLost.resyncLeft 0).contains 2 && (resyncLost.page 2).any (·.lost)) = true
      ∧ resyncLost.mirrorState 0 = 2 ∧ resyncLost.link.awaits = [] := by
  refine ⟨?_, ?_, ?_, ?_, ?_, ?_, ?_, ?_, ?_, ?_, ?_, ?_, ?_, ?_⟩ <;> decide +kernel

-- start, power and pins ---------------------------------------------------------------------------------------------------

/-- Bytes 0 to 67 of the header, its section table, and the start of the fabric section, each other byte 0. -/
def sparse (l : List (Nat × Nat)) (k : Nat) : Byte := ((l.find? (fun p => p.1 == k)).elim 0 (fun p => BitVec.ofNat 8 p.2))
def headBytes : List (Nat × Nat) :=
  [(0, 0x5A), (1, 0x47), (2, 0x41), (3, 0x4C), (4, 1), (8, 0x80), (9, 0xB9), (14, 6),
   (0x80, 1), (0x85, 1), (0x88, 0x40), (0x90, 2), (0x94, 0x40), (0x95, 1), (0x99, 0x84), (0xA0, 3), (0xA4, 0x40), (0xA5, 0x85), (0xA9, 0x20),
   (0xB0, 4), (0xB4, 0x40), (0xB5, 0xA5), (0xB8, 0x40), (0xB9, 6), (0xC0, 5), (0xC4, 0x80), (0xC5, 0xAB), (0xC8, 0x40), (0xC9, 2),
   (0xD0, 6), (0xD4, 0xC0), (0xD5, 0xAD), (0xD8, 0x84), (0xD9, 0xB)]
def fabricBytes : List (Nat × Nat) := [(0, 0x20), (2, 0x10), (10, 0xFF), (64, 1)]

/-- A valid Almanac of 47,488 bytes: 32 units to a frame, no start image, port 0 an owner port, no slice; beyond it NOR reads 0xFF, a copy 0. -/
def img (nor : Bool) (a : Nat) : Byte :=
  if a < 256 then (if 16 ≤ a ∧ a < 84 then Config.almKeyByte (a - 16) else sparse headBytes a)
  else if a < 320 then 0
  else if a < 34112 then (if a < 388 then sparse fabricBytes (a - 320) else 0)
  else if a < 42304 then (if (a - 34112) % 128 = 64 then 1 else 0)
  else if a < 44480 then (if a = 42304 then 1 else 0)
  else if a < 44548 then Config.fwKeyByte (a - 44480)
  else if a < 50308 then 0 else if nor then 0xFF else 0

theorem img_format : ∀ b, almFormatOk (img b) = true := by decide +kernel
theorem img_off : ∀ b, almOff (img b) 1 = 256 ∧ almOff (img b) 2 = 320 ∧ almOff (img b) 3 = 34112 ∧ almOff (img b) 4 = 42304
    ∧ almOff (img b) 5 = 43904 ∧ almOff (img b) 6 = 44480 := by decide +kernel
theorem img_zero (b : Bool) (a : Nat) (h : 388 ≤ a ∧ a < 34112) : img b a = 0 := by
  unfold img; rw [if_neg (by omega), if_neg (by omega), if_pos (by omega), if_neg (by omega)]
theorem img_slice (b : Bool) (a : Nat) (h : 34112 ≤ a ∧ a < 42304) (k : (a - 34112) % 128 ≠ 64) : img b a = 0 := by
  unfold img; rw [if_neg (by omega), if_neg (by omega), if_neg (by omega), if_pos (by omega), if_neg k]
theorem img_weight (b : Bool) (sl : Nat) (h : sl < 64) : img b (34112 + 128 * sl + 64) = 1 := by
  unfold img; rw [if_neg (by omega), if_neg (by omega), if_neg (by omega), if_pos (by omega), if_pos (by omega)]
theorem nat_zero (f : Nat → Byte) (a : Nat) (h : ∀ i, i < 4 → f (a + i) = 0) : almNat f a 4 = 0 := by
  have h0 : f a = 0 := h 0 (by decide)
  simp [almNat, almBytes, List.range_succ, h0, h 1, h 2, h 3, leNat]
theorem img_route (b : Bool) (i : Nat) (h : i < 4096) : routeWord (img b) i = 0 := by
  unfold routeWord; rw [(img_off b).2.1, nat_zero _ _ fun j hj => img_zero b _ (by omega)]; rfl
theorem img_sliceWord (b : Bool) (sl i : Nat) (h : sl < 64) (k : i < 16) : sliceWord (img b) sl i = 0 := by
  unfold sliceWord; rw [(img_off b).2.2.1, nat_zero _ _ fun j hj => img_slice b _ (by omega) (by omega)]; rfl
theorem img_keys (b : Bool) : keyOk (img b) 0x10 Config.almKeyHash true = true ∧ keyOk (img b) (almOff (img b) 6) Config.fwKeyHash true = true := by
  have h1 : almBytes (img b) 0x10 68 = (List.range 68).map Config.almKeyByte := by
    refine List.map_congr_left fun i hi => ?_
    have hi := List.mem_range.1 hi
    unfold img; rw [if_pos (by omega), if_pos (by omega), Nat.add_sub_cancel_left]
  have h2 : almBytes (img b) 44480 68 = (List.range 68).map Config.fwKeyByte := by
    refine List.map_congr_left fun i hi => ?_
    have hi := List.mem_range.1 hi
    unfold img
    rw [if_neg (by omega), if_neg (by omega), if_neg (by omega), if_neg (by omega), if_neg (by omega), if_pos (by omega), Nat.add_sub_cancel_left]
  simp [keyOk, (img_off b).2.2.2.2.2, h1, h2, Config.almKeyHash, Config.fwKeyHash]
theorem img_reserved (b : Bool) : almReservedOk (img b) = true := by
  have o := img_off b
  have z (a n : Nat) (h : 388 ≤ a ∧ a + n ≤ 34112) : (List.range n).all (fun i => img b (a + i) == 0) = true :=
    List.all_eq_true.2 fun i hi => by have := List.mem_range.1 hi; simp [img_zero b (a + i) (by omega)]
  unfold almReservedOk
  simp only [Bool.and_eq_true, o.2.1, o.2.2.1]
  refine ⟨⟨⟨⟨⟨⟨⟨⟨⟨⟨⟨⟨⟨⟨⟨⟨?_, ?_⟩, ?_⟩, ?_⟩, ?_⟩, ?_⟩, ?_⟩, ?_⟩, ?_⟩, ?_⟩, ?_⟩, ?_⟩, z _ _ (by decide)⟩, ?_⟩, ?_⟩, ?_⟩, ?_⟩
  case refine_12 => exact List.all_eq_true.2 fun i hi => by simp [img_route b i (List.mem_range.1 hi)]
  case refine_13 =>
    refine List.all_eq_true.2 fun sl hs => ?_
    have hs := List.mem_range.1 hs
    simp only [Bool.and_eq_true, decide_eq_true_eq, List.all_eq_true, List.mem_range, beq_iff_eq]
    refine ⟨⟨?_, fun i hi => img_slice b _ (by omega) (by omega)⟩, fun i hi => by simp [img_sliceWord b sl i hs hi]⟩
    simp [sliceWeight, o.2.2.1, almNat, almBytes, img_weight b sl hs, leNat]
  all_goals (clear z o; revert b; decide +kernel)
theorem each_keep {α : Type} (P : State → Prop) (f : α → State → State) :
    ∀ (l : List α), (∀ x ∈ l, ∀ t, P t → P (f x t)) → ∀ s, P s → P (s.each l f)
  | [], _, _, hs => hs
  | x :: l, h, s, hs => each_keep P f l (fun y hy => h y (.tail _ hy)) (f x s) (h x (.head _) s hs)
theorem img_slices (b : Bool) : almSlicesOk (img b) = true := by
  let P (t : State) : Prop := ∀ a, a < 64 → t.rd (sliceReg 0 a 24) = 0
  have h0 : P State.reset := by
    have : ∀ a ∈ List.range 64, State.reset.rd (sliceReg 0 a 24) = 0 := by decide +kernel
    exact fun a ha => this a (List.mem_range.2 ha)
  have h := each_keep P (fun sl t => t.each (List.range 7) (fun i u => u.wr (sliceReg 0 sl (4 * i)) (sliceWord (img b) sl i))) (List.range 64)
    (fun sl hs t ht => each_keep P _ _ (fun i hi u hu a ha => by
      simp only [img_sliceWord b sl i (List.mem_range.1 hs) (by have := List.mem_range.1 hi; omega), State.rd_wr]
      split
      · rfl
      · exact hu a ha) t ht) State.reset h0
  unfold almSlicesOk State.compositionOk
  refine List.all_eq_true.2 fun a ha => ?_
  have := h a (List.mem_range.1 ha)
  simp [this]
theorem img_groups : ∀ b, ((List.range 16).map (trayGroupOf (img b))).filter (fun g => g.1 != 0) = [] := by decide +kernel
theorem img_regions : ∀ b, (List.range 16).filter (fun r => (mirrorWord (img b) r 2).testBit 8) = [] := by decide +kernel
theorem img_ports : ∀ b, (List.range 48).any (fun n => (hostWord (img b) n).testBit 0) = true
    ∧ (List.range 48).all (fun n => !((hostWord (img b) n).testBit 0 && (hostWord (img b) n).testBit 1)) = true
    ∧ (List.range 64).all (fun n => !(linkWord (img b) n).testBit 1 || nbits (linkWord (img b) n) 2 2 != 0) = true := by decide +kernel
theorem img_ok (b : Bool) : almCheck (img b) 0 true true = 0 := by
  have m : merCtrlOk (merInit (img b)) = true ∧ (startImageOf (img b) == 0xFF) = true ∧ almRollback (img b) = 0 := by revert b; decide +kernel
  have h : almContentOk (img b) = true := by
    unfold almContentOk
    simp only [img_reserved, img_slices, img_groups, img_regions, img_ports, m]
    rfl
  simp [almCheck, img_format, img_keys, h, m]

theorem sget_listed (d : Nat → Byte) (f : Nat → Byte) (a : Nat) : ∀ n, sget d ((List.range n).map (fun i => (i, f i))) a = if a < n then f a else d a
  | 0 => rfl
  | n + 1 => by
    have h := sget_listed d f a n
    unfold sget at h ⊢
    rw [List.range_succ, List.map_append, List.find?_append]
    cases e : ((List.range n).map (fun i => (i, f i))).find? (fun p => p.1 == a) with
    | some p =>
      have := List.mem_map.1 (List.mem_of_find?_eq_some e)
      obtain ⟨i, hi, rfl⟩ := this
      have hk : i = a := by simpa using List.find?_some e
      have hi := List.mem_range.1 hi
      subst hk
      simp [show i < n + 1 by omega]
    | none =>
      rw [e] at h
      by_cases ha : a = n
      · subst ha; simp
      · have : ¬ n = a := fun x => ha x.symm
        have hb : (n == a) = false := by simpa using this
        simp only [List.map_cons, List.map_nil, List.find?_cons, hb, List.find?_nil, Option.none_or]
        by_cases hl : a < n
        · simp only [hl, if_true] at h; simp [h, show a < n + 1 by omega]
        · simp [show ¬ a < n + 1 by omega]

/-- In Dark, with the first n bytes of this Almanac in the NOR. -/
def dark (n : Nat) : State := { State.reset with alm := { AlmS.reset with nor := (List.range n).map (fun i => (i, img true i)) } }
theorem dark_byte (n a : Nat) : (dark n).norByte a = if a < n then img true a else 0xFF := sget_listed _ _ a n
theorem dark_nor : (dark 50308).norByte = img true := by
  funext a
  rw [dark_byte]
  split
  · rfl
  · unfold img
    rw [if_neg (by omega), if_neg (by omega), if_neg (by omega), if_neg (by omega), if_neg (by omega), if_neg (by omega), if_neg (by omega)]
    rfl

theorem witness_StartChecksTheAlmanacAndEndsReadyOrDark_StartChecksTheAlmanacAndLoadsIt :
    (∀ n, (dark n).pwr.phase = .dark ∧ (dark n).pwr.norReqN = true ∧ (dark n).pwr.refused = false ∧ (dark n).sec.bootEpoch = 0
      ∧ (dark n).sec.almFloor = 0) ∧ almCheck (dark 50308).norByte 0 true true = 0 :=
  ⟨fun _ => ⟨rfl, rfl, rfl, rfl, rfl⟩, dark_nor ▸ img_ok true⟩

theorem witness_StartChecksTheAlmanacAndEndsReadyOrDark_StartEndsReadyOrDark :
    starting.pwr.phase = .starting
      ∧ ∀ st ∈ [1, 2], let s := put [(0x104, BitVec.ofNat 32 st)] { up [] with alm := { AlmS.reset with startImage := 2 } }
        s.ready = true ∧ s.alm.startImage ≠ 0xFF ∧ s.timeState = st ∧ s.standbyState = 0 := by
  refine ⟨rfl, ?_⟩
  decide +kernel

theorem witness_PinsTakeTheModuleToDarkAndLendTheNor :
    starting.pwr.phase = .starting ∧ (up []).pwr.phase = .ready ∧ (up []).pwr.norGrantN = true ∧ (dark 0).pwr.phase = .dark := ⟨rfl, rfl, rfl, rfl⟩

/-- The update is in state st, with the first n bytes of a valid image as the copy. -/
def updating (n st : Nat) : State :=
  { up [(0xA10, 0x100), (0xA18, 50308), (0xA20, BitVec.ofNat 32 st)] with alm := { AlmS.reset with copy := (List.range n).map (img false) } }
theorem updating_len (n st : Nat) : (updating n st).alm.copy.length = n := (List.length_map _).trans List.length_range
theorem updating_byte (n st i : Nat) : (updating n st).alm.copy.getD i 0 = if i < n then img false i else 0 := by
  show ((List.range n).map (img false)).getD i 0 = _
  by_cases h : i < n
  · simp [List.getD_eq_getElem?_getD, h]
  · rw [List.getD_eq_getElem?_getD, List.getElem?_eq_none (by simpa using h), if_neg h]
    rfl
theorem updating_copy (st : Nat) : (fun i => (updating 50308 st).alm.copy.getD i 0) = img false := by
  funext i
  rw [updating_byte]
  split
  · rfl
  · unfold img
    rw [if_neg (by omega), if_neg (by omega), if_neg (by omega), if_neg (by omega), if_neg (by omega), if_neg (by omega), if_neg (by omega)]
    rfl

theorem witness_AlmanacUpdateVerifiesThenWrites :
    (∀ st ∈ [0, 1, 2, 3, 4, 5], (updating 9 st).accepts 0 0xA1C = true ∧ (updating 9 st).updState = st)
      ∧ (updating 9 0).rd 0xA18 ≠ 0 ∧ ((updating 9 0).rd 0xA18).toNat ≤ 0x0FF00000 ∧ (updating 9 0).readCheck [] 0x100 50308 = .ok
      ∧ (∀ n, (updating n 1).ready = true ∧ (updating n 1).sec.almFloor = 0) ∧ (updating 50308 1).alm.copy.length = almLen (img false) + 2820
      ∧ almCheck (fun i => (updating 50308 1).alm.copy.getD i 0) 0 true true = 0
      ∧ almCheck (fun i => (updating 50308 1).alm.copy.getD i 0) 0 false true = 3 := by
  have f : almCheck (img false) 0 false true = 3 := by simp [almCheck, img_format, keyOk]
  have l : almLen (img false) = 47488 := by decide +kernel
  rw [updating_copy, updating_len, l]
  exact ⟨by decide +kernel, by decide +kernel, by decide +kernel, by decide +kernel, fun _ => ⟨rfl, rfl⟩, rfl, img_ok false, f⟩

/-- A sample, with this input voltage, of a module in order. -/
def sample (v : Nat) : Sample := { vinMv := v, iinMa := 5000, pinW := 300, dieC := [50, 50, 50, 50], stackC := List.replicate 8 40, railsOk := true }
/-- The power state goes to g, with a held command. -/
def going (g : Nat) : State := { up [] with pwr := { (up []).pwr with going := some g, held := [.sysclkLoss] } }

theorem witness_PowerFollowsSamplesAndCommands :
    (up []).pwr.standby = true ∧ shutdownCause (sample 71000) (((up []).pwr.runs.zip (sampleBad (sample 71000))).map (fun p => if p.2 then p.1 + 1 else 0)) = some 2
      ∧ shutdownCause (sample 68000) (((up []).pwr.runs.zip (sampleBad (sample 68000))).map (fun p => if p.2 then p.1 + 1 else 0)) = none
      ∧ (up []).accepts 0 0x904 = true ∧ (going 0).pwr.going = some 0 ∧ (going 2).pwr.going = some 2 := by
  refine ⟨?_, ?_, ?_, ?_, ?_, ?_⟩ <;> decide +kernel

-- test access port and queue ----------------------------------------------------------------------------------------------

/-- At debug level l, engine 2 and core 3 are halted. -/
def debugged (l : Nat) : State := let s := secured 2 l; { s with sec := { s.sec with haltedEngines := [2], haltedCores := [3] } }
theorem debugged_settled (l : Nat) : (debugged l).settled := fun _ => rfl

theorem witness_TestPortOpensAtIntrusiveOnly :
    (∀ l ∈ [0, 1, 2], (debugged l).pwr.phase ≠ .dark ∧ (debugged l).ready = true ∧ (debugged l).dbgLevel = l ∧ (debugged l).pwr.state ≠ 2
      ∧ 2 ∈ (debugged l).sec.haltedEngines ∧ 3 ∈ (debugged l).sec.haltedCores) ∧ (dark 0).pwr.phase = .dark ∧ scratchByte 9 5 = true := by
  refine ⟨?_, rfl, ?_⟩ <;> decide +kernel

/-- Two commands wait. -/
def queued : State := { up [] with pending := [.sysclkLoss, .tapReset] }

theorem witness_StepServesTheFrontCommand : queued.pending = .sysclkLoss :: [.tapReset] ∧ (up []).pending = [] := ⟨rfl, rfl⟩

theorem witness_StepKeepsCanonicalForm : queued.wf = true ∧ ∃ t, step queued = .next t := ⟨by decide +kernel, _, rfl⟩

theorem witness_StoreWritesItsBytesAlone : (pool []).settled ∧ coveredLine 0x1000 64 0x40 = true := ⟨fun _ => rfl, by decide⟩

-- well-formedness ---------------------------------------------------------------------------------------------------------

/-- Operands in their ranges. -/
def okAtomic : Atomic := { code := 0, size := 8, operand := 5, swap := 0, posted := false }
def okSw : SwMsg := { ingress := 0, egress := 0, cls := 0 }
def okLink : HostLink := { gen := 3, rate := 4, width := 16, flit256 := true }

/-- Terms that break one check each. -/
def bad1 : List Instr := [
  .registerWrite 48 0 0, .registerWrite 0 0x20000000 0, .registerWrite 0 2 0, .tenantWindowAccess 48 0 true .both 0,
  .tenantWindowAccess 0 0x2000000 true .both 0, .tenantWindowAccess 0 2 true .both 0, .ptpMessage 256 0 (.sync false 0),
  .merCtrlWrite 48 0, .merFrameLoRead 48, .loadPool 48, .loadLibrary 48 0, .loadLibrary 0 256, .discardStandby 48, .stopActive 48,
  .imageReadDone [2 ^ 46], .ephArm 48 true, .ephDisarm 48, .ephArmEpochWrite 48 0, .entryStart 131072 [] true, .entryStart 0 [2 ^ 46] true,
  .frameOverrun 131072, .doorbell 48 0 0 0, .doorbell 0 16384 0 0, .qCfgWrite 48 0 0, .qCfgWrite 0 16384 0]
theorem test_ill_formed_terms_1 : bad1.all (fun i => !i.wf) = true := by decide +kernel
def bad2 : List Instr := [
  .queueEnable 48 0, .queueEnable 0 16384, .queueDisable 48 0, .queueDisable 0 16384, .qRingLoWrite 48 0 0, .qRingLoWrite 0 16384 0,
  .qLogRdWrite 48 0 0, .qLogRdWrite 0 16384 0, .descriptorRead 16384 0 [] true, .descriptorRead 0 0 [2 ^ 46] true, .copy 0 [2 ^ 46],
  .cValueWrite 48 0 .both 0, .cValueWrite 0 65536 .both 0, .cAddWrite 48 0 .both 0, .cAddWrite 0 65536 .both 0, .cBindWrite 48 0 0,
  .cBindWrite 0 65536 0, .cFailClrWrite 48 0 0, .cFailClrWrite 0 65536 0, .cNotifyCfgWrite 48 0 0, .cNotifyCfgWrite 0 65536 0,
  .cNotifyValueWrite 48 0 .both 0, .cNotifyValueWrite 0 65536 .both 0, .arrayProgram 0 true [2 ^ 46] {},
  .arrayProgram 0 true [] { bad := [36864] }]
theorem test_ill_formed_terms_2 : bad2.all (fun i => !i.wf) = true := by decide +kernel
def bad3 : List Instr := [
  .ld 0 [2 ^ 46] {}, .ld 0 [] { bad := [36864] }, .st 0 { bad := [36864] }, .mma 0 { bad := [36864] }, .accIn 0 { bad := [36864] },
  .accOut 0 { bad := [36864] }, .vop 0 { bad := [36864] }, .transpose 0 { bad := [36864] }, .reduce 0 [2 ^ 46] {},
  .reduce 0 [] { bad := [36864] }, .reduceStreamRun 0 true { bad := [36864] }, .steeredWrite 1024 0 [] true,
  .steeredWrite 0 (2 ^ 52) [] true, .steeredWrite 0 0 (List.replicate 8161 7) true, .redPartial 64 true, .gather 0 [2 ^ 46],
  .gatherReduce 0 [2 ^ 46], .rowFilter 0 [2 ^ 46], .scoreFilter 0 [2 ^ 46], .compress 0 [2 ^ 46], .expand 0 [2 ^ 46],
  .expandBlockDecode 0 [2 ^ 46] {}, .expandBlockDecode 0 [] { bad := [36864] }, .messageIngress 4 okSw,
  .messageIngress 0 { okSw with cls := 8 }]
theorem test_ill_formed_terms_3 : bad3.all (fun i => !i.wf) = true := by decide +kernel
def bad4 : List Instr := [
  .creditReturn 64 0 0, .creditReturn 0 11 0, .egressPosition 4 0 true, .egressPosition 0 0x25 true, .gateEntryExpiry 4 0,
  .gateEntryExpiry 0 0x25, .egGateSwitch 48 0 0, .egGateSwitch 0 4 0, .egGateSwitch 0 0 0x25, .tmTelemRdWrite 48 0 0,
  .tmTelemRdWrite 0 4 0, .map 48, .unmap 48, .setFlags 48, .query 48, .migrationChunkCopy (2 ^ 31) none true [],
  .migrationChunkCopy 0 none true [2 ^ 46], .sourceFree (2 ^ 31), .wsOpen 0 [2 ^ 46], .cpAppend 0 [2 ^ 46], .mirrorRebuild 0 64,
  .pageScrub (2 ^ 31), .pageScrubComplete (2 ^ 31), .writeCacheFill 64 0 0, .writeCacheFill 0 (2 ^ 31) 0]
theorem test_ill_formed_terms_4 : bad4.all (fun i => !i.wf) = true := by decide +kernel
def bad5 : List Instr := [
  .writeCacheFill 0 0 128, .destage 64, .folding 64 true, .flashDieFailure 64 0, .garbageCollection 64 0 true, .wearLevelling 64 0 true,
  .readRefresh 64 0 true, .secureDiscard 64 0 true true, .secureDiscard 0 (2 ^ 31) true true, .secureDiscardComplete 64 0,
  .secureDiscardComplete 0 (2 ^ 31), .rdCur (.host 48) 0 0 true, .rdCur (.host 0) 1024 0 true, .rdCur (.host 0) 0 (2 ^ 46) true,
  .rdS (.host 48) 0 0 true, .rdS (.host 0) 1024 0 true, .rdS (.host 0) 0 (2 ^ 46) true, .rdOwn (.host 48) 0 0 true,
  .rdOwn (.host 0) 1024 0 true, .rdOwn (.host 0) 0 (2 ^ 46) true, .upgrade (.host 48) 0 0, .upgrade (.host 0) 1024 0,
  .upgrade (.host 0) 0 (2 ^ 46), .wrLine (.host 48) 0 0 line7 true, .wrLine (.host 0) 1024 0 line7 true]
theorem test_ill_formed_terms_5 : bad5.all (fun i => !i.wf) = true := by decide +kernel
def bad6 : List Instr := [
  .wrLine (.host 0) 0 (2 ^ 46) line7 true, .wrLine (.host 0) 0 0 [7] true, .wrPart (.host 48) 0 0 [7], .wrPart (.host 0) 1024 0 [7],
  .wrPart (.host 0) 0 (2 ^ 52) [7], .wrPart (.host 0) 0 0 [], .wrPart (.host 0) 0 0 (7 :: line7), .homeAtomic (.host 48) 0 0 okAtomic,
  .homeAtomic (.host 0) 1024 0 okAtomic, .homeAtomic (.host 0) 0 (2 ^ 52) okAtomic, .homeAtomic (.host 0) 0 0 { okAtomic with code := 16 },
  .combinedAdd 1024 0 8 [], .combinedAdd 0 (2 ^ 52) 8 [], .combinedAdd 0 0 5 [],
  .combinedAdd 0 0 8 [{ agent := .core 64, operand := 0, posted := false }],
  .combinedAdd 0 0 8 [{ agent := .core 0, operand := 2 ^ 64, posted := false }], .snpCur 64 0, .snpCur 0 (2 ^ 46), .snpData 64 0,
  .snpData 0 (2 ^ 46), .snpInv 64 0, .snpInv 0 (2 ^ 46), .rspI (.host 48) 0, .rspI (.host 0) (2 ^ 46), .rspS (.host 48) 0]
theorem test_ill_formed_terms_6 : bad6.all (fun i => !i.wf) = true := by decide +kernel
def bad7 : List Instr := [
  .rspS (.host 0) (2 ^ 46), .biRsp 48 0 none, .biRsp 0 (2 ^ 46) none, .biRsp 0 0 (some [7]), .dirtyEvict (.host 48) 0 line7,
  .dirtyEvict (.host 0) (2 ^ 46) line7, .dirtyEvict (.host 0) 0 [7], .cleanEvict (.host 48) 0, .cleanEvict (.host 0) (2 ^ 46),
  .serviceCoreEviction 64 0, .serviceCoreEviction 0 (2 ^ 46), .biSnpTimeout 48, .recallDone 0, .recallDone 4,
  .linkSlotReceive 64 true true [] [] [] 0 0, .linkSlotReceive 0 true true [] [] [{ kind := 256 }] 0 0, .e2eTimeout 64 0 0,
  .e2eTimeout 0 256 0, .e2eTimeout 0 0 13, .rd 64 [], .rd 0 [2 ^ 46], .rdData 64, .wr 64, .wrResp 64, .atomic 64]
theorem test_ill_formed_terms_7 : bad7.all (fun i => !i.wf) = true := by decide +kernel
def bad8 : List Instr := [
  .atomicResp 64, .mirrorWr 64, .abortNotice 64, .epochNotice 64, .hello 64 { ztl := true }, .tRd 64 0 64 0, .tRd 0 (2 ^ 52) 64 0,
  .tRd 0 0 63 0, .tRd 0 0 4097 0, .tRd 0 0 65 0, .tRd 0 0 64 1024, .tRdData 64, .tWr 64 0 0 line7, .tWr 0 (2 ^ 52) 0 line7,
  .tWr 0 0 1024 line7, .tWr 0 0 0 [], .tWr 0 0 0 (List.replicate 4160 7), .tWr 0 0 0 (7 :: line7), .tWrResp 64, .tAtomic 64 0 0 okAtomic,
  .tAtomic 0 (2 ^ 52) 0 okAtomic, .tAtomic 0 0 1024 okAtomic, .tAtomic 0 0 0 { okAtomic with code := 16 }, .tAtomicResp 64,
  .tFlCmd 64 0 0 0 0 0]
theorem test_ill_formed_terms_8 : bad8.all (fun i => !i.wf) = true := by decide +kernel
def bad9 : List Instr := [
  .tFlCmd 0 3 0 0 0 0, .tFlCmd 0 0 9 0 0 0, .tFlCmd 0 0 0 (2 ^ 10) 0 0, .tFlCmd 0 0 0 0 (2 ^ 22) 0, .tFlCmd 0 0 0 0 0 (2 ^ 16),
  .tFlResp 64 0 0 true true true, .tFlResp 0 (2 ^ 31) 0 true true true, .tFlResp 0 0 128 true true true,
  .linkTrained 64 4 0 (List.replicate 16 0), .linkTrained 0 5 0 (List.replicate 16 0), .linkTrained 0 4 0 [], .linkDown 64 true,
  .rtArm 48 0, .rtDisarm 48 0, .rtArmEpochWrite 48 0, .hpDisable 48 0, .hpDisable 0 48, .hpRetrain 48 0, .hpRetrain 0 48, .lpDisable 48 0,
  .lpDisable 0 64, .lpRetrain 48 0, .lpRetrain 0 64, .hostPortTrained 48 okLink, .hostPortDown 48]
theorem test_ill_formed_terms_9 : bad9.all (fun i => !i.wf) = true := by decide +kernel
def bad10 : List Instr := [
  .memRead 48 0 true [], .memRead 0 65 true [], .memRead 0 0 true [2 ^ 46], .memWrite 48 0 line7 0 true, .memWrite 0 65 line7 0 true,
  .memWrite 0 0 [7] 0 true, .atomicOp 48 0 okAtomic, .atomicOp 0 0 { okAtomic with code := 16 }, .configRequest 48 none,
  .configRequest 0 (some (2048, true)), .ideKeyProgram 48 0, .expanderLoss 48, .hrefLoss 12, .hrefRestore 12, .pllLockLoss 12,
  .pllRelock 12, .define 48 0 0, .define 0 1024 0, .define 0 0 64, .occult 48 0, .occult 0 1024, .release 48 0, .release 0 1024,
  .replayStoreRelease 64 0, .replayStoreRelease 0 1024]
theorem test_ill_formed_terms_10 : bad10.all (fun i => !i.wf) = true := by decide +kernel
def bad11 : List Instr := [
  .seal 48 0, .maintEnter 48 0, .debugLevelRequest 48 0, .getIdentity true 48 true, .getAttKey true 48 true, .getReport true 48 [],
  .getReport true 0 (List.replicate 33 0), .dbgTraceRdWrite 48 0, .replayFinished 256, .faultCtx 48 0, .faultCtx 0 1024, .abortCtx 48 0,
  .abortCtx 0 1024, .dieReset 48 0 0, .dieReset 0 4 0, .moduleReset 48 0, .retrainStack 48 0 0, .retrainStack 0 8 0, .stackRetrainDone 8,
  .retrainTimeout true 8, .dieResetDone 4, .dieResetTimeout 4, .d2dPathFailure 4 0, .d2dPathFailure 0 4, .admitArm 48 0 0]
theorem test_ill_formed_terms_11 : bad11.all (fun i => !i.wf) = true := by decide +kernel
def bad12 : List Instr := [
  .admitArm 0 4 0, .mirrorResync 16 0, .mirrorResync 0 (2 ^ 31), .hmLogRdWrite 48 0, .norRelease [(2 ^ 28, 0)], .verify 48 0, .write 48 0,
  .abort 48 0, .powerSample { sample 0 with dieC := [] }, .powerSample { sample 0 with stackC := [] }, .full 48, .idle 48, .retain 48,
  .off 48 0, .debugAccess (.haltEngine 256), .flashDieRebuild 64 0 0 true, .flashDieRebuild 0 (2 ^ 31) 0 true,
  .flashDieRebuild 0 0 128 true, .serviceCoreAccess 64 0 0 none, .serviceCoreAccess 0 1024 0 none, .serviceCoreAccess 0 0 (2 ^ 46) none,
  .serviceCoreAccess 0 0 0 (some [7]), .grant 64 0 0 none, .grant 0 (2 ^ 46) 0 none, .grant 0 0 4 none]
theorem test_ill_formed_terms_12 : bad12.all (fun i => !i.wf) = true := by decide +kernel
def bad13 : List Instr := [
  .grant 0 0 0 (some [7])]
theorem test_ill_formed_terms_13 : bad13.all (fun i => !i.wf) = true := by decide +kernel
theorem test_ill_formed_messages : ([{ okSw with ingress := 256 }, { okSw with egress := 0x25 }, { okSw with ctx := 1024 }, { okSw with label := 2 ^ 20 }, { okSw with cells := 0 }, { okSw with cells := 33 }, { okSw with arrived := 0 }, { okSw with arrived := 2 }, { okSw with coh := 6 }, { okSw with colour := 4 }] : List SwMsg).all (fun m => !m.wf) = true := by decide +kernel
theorem test_ill_formed_headers : ([{ kind := 256 }, { kind := 1, cls := 8 }, { kind := 1, colour := 4 }, { kind := 1, ctx := 1024 }, { kind := 1, gen := 2 ^ 22 }, { kind := 1, src := 256 }, { kind := 1, dst := 256 }, { kind := 1, group := 64 }, { kind := 1, sub := 2 ^ 16 }, { kind := 1, seq := 2 ^ 24 }, { kind := 1, stream := 16 }, { kind := 1, addr := 2 ^ 64 }, { kind := 1, label := 2 ^ 32 }, { kind := 1, payload := List.replicate 8161 0 }] : List Msg).all (fun m => !m.wf) = true := by decide +kernel
theorem test_ill_formed_atomics : ([{ okAtomic with code := 16 }, { okAtomic with size := 32 }, { okAtomic with operand := 2 ^ 128 }, { okAtomic with swap := 2 ^ 128 }] : List Atomic).all (fun m => !m.wf) = true := by decide +kernel
theorem test_ill_formed_debug_accesses : ([.releaseEngine 256, .haltCore 64, .releaseCore 64, .readReg 2, .writeReg 0x20000000 0, .readScratch 320 0, .readScratch 0 (2 ^ 22), .writeScratch 320 0 0, .writeScratch 0 (2 ^ 22) 0, .readPool (2 ^ 52), .writePool (2 ^ 52) 0, .stepEngine 256, .stepCore 64] : List DebugAct).all (fun m => !m.wf) = true := by decide +kernel
theorem test_ill_formed_agents : ([.host 48, .core 64, .unit 4, .zfl 64] : List Agent).all (fun m => !m.wf) = true := by decide +kernel
theorem test_well_formed_terms : ([.rdCur (.core 63) 1023 (2 ^ 46 - 1) true, .wrLine (.host 47) 0 0 line7 false, .memWrite 47 64 line7 0 true, .messageIngress 3 okSw,
    .powerSample (sample 60000), .retrainTimeout false 63, .linkTrained 63 8 0 (List.replicate 16 0), .recallDone 3] : List Instr).all Instr.wf = true := by decide +kernel

-- the manual's worked examples ----------------------------------------------------------------------------------------------

/-- "Management aperture": engine 0xB7, queue 9,000, host port 29 and link port 41 all lie on die 2. -/
theorem test_register_blocks : engineBlock 0xB7 = 0x0E237000 ∧ queueBlock 9000 = 0x0D328000 ∧ hostBlock 29 = 0x0F050000
    ∧ linkBlock 41 = 0x0F890000 := by decide +kernel

/-- A doorbell after R122: 0xF0 is accepted across the index wrap, 0xF1 only after the head moves. -/
theorem test_doorbell_range : bellOk 0xFFFFFFF0 0x10 0xF0 8 = true ∧ bellOk 0xFFFFFFF0 0xF0 0xF1 8 = false
    ∧ bellOk 0 0xF0 0xF1 8 = true := by decide +kernel

/-- R171, R172: the block of 10, -7, 2.9, 0.3 and 0.6 in MXFP4 (the last three as 29, 3 and 6 tenths in FP32). -/
theorem test_mxfp4 : mxConv 9 ((fp32.decode 0x41200000 :: [0xC0E00000, 0x4039999A, 0x3E99999A, 0x3F19999A].map fp32.decode)) false
    = (0x80, [6, 0xE, 3, 0, 1]) := by decide +kernel

/-- A reduction of single values. -/
def reduceOne (op inF outF : Nat) (l : List Nat) : Nat :=
  finishSub op inF outF false 0 (l.foldl (absorb op inF) { a := if redSum op then 0 else redIdentity op inF, flags := 0 })

/-- R203-R208: 2^24 + 1 + 1 - 2^24 is 2, exactly. -/
theorem test_sum_is_exact : reduceOne 0 0 0 [0x4B800000, 0x3F800000, 0x3F800000, 0xCB800000] = 0x40000000 := by decide +kernel
/-- R206: one rounding at the end. -/
theorem test_sum_rounds_once : reduceOne 0 0 1 [0x3F800000, 0x3B800000, 0x37800000, 0x80000000] = 0x3F81 := by decide +kernel
/-- R206: zeros keep their sign when all are -0. -/
theorem test_sum_zeros : reduceOne 0 0 1 [0x80000000, 0x80000000] = 0x8000 ∧ reduceOne 0 0 1 [0x40400000, 0xC0400000, 0, 0x80000000] = 0 := by
  decide +kernel
/-- R206: infinities. -/
theorem test_sum_infinities : reduceOne 0 0 1 [0x7F800000, 0x40A00000] = 0x7F80 ∧ reduceOne 0 0 1 [0x7F800000, 0xFF800000] = 0x7FC0 := by
  decide +kernel
/-- R209, R210. -/
theorem test_min_max_xor : reduceOne 1 0 0 [0, 0x80000000, 0x40E00000] = 0x80000000
    ∧ reduceOne 2 0 0 [0x3FC00000, 0x7FC00000, 0x40400000] = 0x7FC00000 ∧ reduceOne 5 0xA 0xA [0x5A, 0x0F, 0xF0, 0x33] = 0x96 := by decide +kernel
/-- R206, R208: 9 + 16 + 144 = 169. -/
theorem test_sum_of_squares : reduceOne 6 0 0 [0x40400000, 0x40800000, 0xC1400000, 0] = 0x43290000 := by decide +kernel

/-- Four periods of the compression example: 128 B of BF16 that hold 1.0 every 16 elements. -/
def gradient : List Byte := (List.range 4).flatMap (fun _ => [0x80, 0x3F] ++ List.replicate 30 0)

/-- R271-R275: SPARSE takes a bitmap of 8 B and four values; the header of the example. -/
theorem test_compress_chooses_sparse : (zChoose 2 7 gradient).1 = 2 ∧ (zChoose 2 7 gradient).2 = [1, 0, 1, 0, 1, 0, 1, 0, 0x80, 0x3F, 0x80, 0x3F, 0x80, 0x3F, 0x80, 0x3F]
    ∧ (zHeader 2 4096 512 1 0 true 0).take 10 = [0x5A, 0x47, 1, 2, 0, 0x10, 0, 2, 1, 1] := by decide +kernel
/-- R273: PLANE_RLE takes 4 B for each period of a plane. -/
theorem test_plane_rle : rleCode 64 (plane 2 0 gradient) = (List.range 4).flatMap (fun _ => [0, 0x80, 0x8D, 0]) := by decide +kernel
/-- Cases A and B of the expansion example: all bytes, and none from the second value on when it is cut off. -/
theorem test_sparse_yield : (sparseYield 2 64 (sparseCode 2 gradient)).data = gradient
    ∧ (sparseYield 2 64 ((sparseCode 2 gradient).take 10)).data = gradient.take 32 := by decide +kernel

/-- R315, R316: green, yellow and red of the two-rate example. -/
theorem test_policer_colours :
    (mark3 true false 0 (256 * 8192) { die := 0, pol := 0, c := 256 * 8192, p := 256 * 16384 }).1 = 0
    ∧ (mark3 true false 0 (256 * 8192) { die := 0, pol := 0, c := 256 * 125, p := 256 * 8442 }).1 = 1
    ∧ (mark3 true false 0 (256 * 8192) { die := 0, pol := 0, c := 256 * 250, p := 256 * 500 }).1 = 2 := by decide +kernel

/-- R384: pages a tray offers, in QLC and in TLC. -/
theorem test_flash_offered : offered 256 (trayData 32768) 2048 = 114163200 ∧ offered 256 (trayData 32768) 1536 = 85622400 := by decide +kernel
/-- R412: the home of line 0x4_0000_01C0. -/
theorem test_home_slice : homeSlice (0x4000001C0 / 64) = 7 := by decide +kernel

end Sys2Proof.Tests
end

section
/-! PROOFS. Frames and reads: what `sameBut` and `only` give, and what a register reads after writes over a list. -/

namespace Sys2Proof.Machine

theorem sameBut_refl (ps : List Part) (s : State) : sameBut ps s s := (only_refl ps [] s).1

theorem sameBut_trans {ps : List Part} {s t u : State} (h : sameBut ps s t) (k : sameBut ps t u) : sameBut ps s u := by
  intro p hp
  have a := h p hp
  have b := k p hp
  cases p <;> exact Eq.trans b a

theorem sameBut_mono {ps qs : List Part} {s t : State} (h : sameBut ps s t) (hp : ∀ p ∈ ps, p ∈ qs) : sameBut qs s t :=
  fun p k => h p (fun e => k (hp p e))

theorem rd_each_ne {α : Type} {l : List α} {f : α → State → State} {j : Nat} (h : ∀ a ∈ l, ∀ t, (f a t).rd j = t.rd j) (s : State) :
    (s.each l f).rd j = s.rd j := by
  induction l generalizing s with
  | nil => rfl
  | cons a l ih => exact (ih (fun b hb => h b (by simp [hb])) (f a s)).trans (h a (by simp) s)

/-- Where one element of the list gives a register its value and no other touches it, it reads that value after the whole list. -/
theorem rd_each_mem {α : Type} {l : List α} {f : α → State → State} {j : Nat} {v : Word} {a : α} (ha : a ∈ l)
    (hv : ∀ t, (f a t).rd j = v) (hb : ∀ b ∈ l, b ≠ a → ∀ t, (f b t).rd j = t.rd j) (s : State) : (s.each l f).rd j = v := by
  induction l generalizing s with
  | nil => cases ha
  | cons b l ih =>
    by_cases hl : a ∈ l
    · exact ih hl (fun c hc => hb c (by simp [hc])) (f b s)
    · obtain rfl : a = b := by simpa [hl] using ha
      exact (rd_each_ne (fun c hc => hb c (by simp [hc]) (fun e => hl (e ▸ hc))) (f a s)).trans (hv s)

/-- A read of sparse data of which only the keys that satisfy `q` were kept. -/
theorem sget_filter_key {α : Type} {d : Nat → α} (q : Nat → Bool) (m : List (Nat × α)) (k : Nat) :
    sget d (m.filter (fun p => q p.1)) k = if q k then sget d m k else d k := by
  induction m with
  | nil => simp [sget_nil]
  | cons p m ih =>
    rw [List.filter_cons]
    by_cases hp : p.1 = k
    · cases hq : q k <;> simp [hp, hq, sget_cons, ih]
    · cases hq : q p.1 <;> simp [hp, sget_cons, ih]

theorem bit_wrFld_low {s : State} {o w v i : Nat} (h : w ≤ i) : (s.wrFld o 0 w v).bit o i = s.bit o i := by
  simp only [State.bit, State.rd_wrFld_same, BitVec.getLsbD_ofNat, nput, nbits, pow_zero, Nat.div_one, Nat.mul_one]
  have hx := (s.rd o).isLt
  rw [BitVec.getLsbD]
  generalize (s.rd o).toNat = x at hx ⊢
  have hd : (x - x % 2 ^ w + v % 2 ^ w) / 2 ^ w = x / 2 ^ w := by
    have hp : 0 < 2 ^ w := Nat.two_pow_pos w
    rw [show x - x % 2 ^ w = 2 ^ w * (x / 2 ^ w) by have := Nat.div_add_mod x (2 ^ w); omega, Nat.mul_add_div hp,
      Nat.div_eq_of_lt (Nat.mod_lt _ hp), Nat.add_zero]
  obtain ⟨k, rfl⟩ := Nat.exists_eq_add_of_le h
  rw [Nat.add_comm w k, Nat.testBit_add, hd, ← Nat.testBit_add]
  by_cases hi : k + w < 32
  · simp [hi]
  · rw [decide_eq_false hi, Bool.false_and, Nat.testBit_lt_two_pow (lt_of_lt_of_le hx (Nat.pow_le_pow_right (by decide) (by omega)))]

end Sys2Proof.Machine
end

section
/-! PROOFS. Dark (R514, R545): what is left of a state, and a start that fails (R556, R564). -/

namespace Sys2Proof.Machine

theorem only_norProgram (l : List Nat) (s : State) (n : Nat) : only [.alm, .freeCtr] l s (s.norProgram n) :=
  only_trans (only_each _ (fun _ _ t => only_put_alm l t _ (by simp)) s) (only_put_alm l _ _ (by simp))

theorem only_norPartial (l : List Nat) (s : State) : only [.alm, .freeCtr] l s s.norPartial.1 :=
  only_trans (only_fresh l s (by simp)) (only_trans (only_norProgram l _ _)
    (only_trans (only_put_freeCtr l _ _ (by simp)) (only_trans (only_put_alm l _ _ (by simp)) (only_put_alm l _ _ (by simp)))))

/-- The state of which Dark keeps its part: an update under way is cut short (R567). -/
def State.updateCut (s : State) : State := if s.updState == 3 then s.norPartial.1 else s

theorem only_updateCut (s : State) : only [.alm, .freeCtr] [] s s.updateCut := by
  unfold State.updateCut
  split
  · exact only_norPartial [] s
  · exact only_refl _ _ _

theorem updateCut_of_idle {s : State} (h : s.updState ≠ 3) : s.updateCut = s := by
  simp [State.updateCut, h]

/-- What Dark keeps of a state; the rest stands as at reset (R545). -/
def State.darkKeep (t : State) : State :=
  { State.reset with
    pending := t.pending
    regs := t.keptRegs
    sec := { SecS.reset with
      bootEpoch := t.sec.bootEpoch
      idCounter := t.sec.idCounter
      almFloor := t.sec.almFloor
      fuseSealed := t.sec.fuseSealed }
    alm := { AlmS.reset with nor := t.alm.nor }
    flash := { t.flash with held := [] }
    pwr := { PwrS.reset with
      vinMv := t.pwr.vinMv
      pwrEn := t.pwr.pwrEn
      resetN := t.pwr.resetN
      norReqN := t.pwr.norReqN
      norGrantN := true
      hrefGone := t.pwr.hrefGone
      faultN := t.pwr.faultN
      shutdown := t.pwr.shutdown
      failReason := t.pwr.failReason
      resetCause := t.pwr.resetCause
      standby := t.pwr.standby
      refused := t.pwr.refused
      wasReset := t.pwr.wasReset
      tapIr := t.pwr.tapIr
      tapData := t.pwr.tapData }
    out := t.out
    freeCtr := t.freeCtr }

theorem dark_eq (s : State) : s.dark = s.updateCut.darkKeep.when (!s.updateCut.pwr.norReqN) (·.norGrant) := rfl

theorem rd_darkKeep (t : State) (off : Nat) : t.darkKeep.rd off = if darkKept off then t.rd off else resetVal off :=
  sget_filter_key darkKept t.regs off

/-- A NOR request that waits takes its pins, and nothing else. -/
theorem only_dark (s : State) : only [.pwr] [] s.updateCut.darkKeep s.dark := by
  rw [dark_eq]
  exact only_when _ _ (fun _ => only_put_pwr [] _ _ (by simp))

theorem dark_phase (s : State) : s.dark.pwr.phase = .dark := by
  rw [dark_eq]
  cases s.updateCut.pwr.norReqN <;> rfl

theorem dark_wentDark (s : State) : s.wentDark s.dark [] := by
  obtain ⟨hp, hr⟩ := only_dark s
  obtain ⟨kp, kr⟩ := only_updateCut s
  have hsec : s.dark.sec = s.updateCut.darkKeep.sec := hp .sec (by simp)
  have ksec : s.updateCut.sec = s.sec := kp .sec (by simp)
  have kflash : s.updateCut.flash = s.flash := kp .flash (by simp)
  have hflash : s.dark.flash = { s.flash with held := [] } := by
    rw [← kflash]; exact hp .flash (by simp)
  refine ⟨dark_phase s, (hp .pending (by simp)).trans (kp .pending (by simp)), hp .mem (by simp), hp .poison (by simp), hp .scr (by simp),
    hp .scrPoison (by simp), hp .ops (by simp), hp .heads (by simp), hp .reds (by simp), hp .tier (by simp), hp .sw (by simp),
    hp .coh (by simp), hp .link (by simp), hflash, hp .ctx (by simp), hp .health (by simp), hp .eph (by simp), hp .time (by simp),
    (hp .out (by simp)).trans (kp .out (by simp)), ?_, ?_, ?_, ?_, ?_, ?_⟩
  · rw [hsec, ← ksec]; rfl
  · rw [hsec, ← ksec]; rfl
  · rw [hsec, ← ksec]; rfl
  · rw [hsec, ← ksec]; rfl
  · intro h
    have ha : s.dark.alm = s.updateCut.darkKeep.alm := hp .alm (by simp)
    rw [ha, updateCut_of_idle h]; rfl
  · intro off _
    rw [hr off (by simp), rd_darkKeep, kr off (by simp)]

/-- A failed start is Dark with its reason latched (R556, R564). -/
theorem startFail_wentDark (s : State) (r : Nat) : s.wentDark (s.startFail r) [0xA00] := by
  obtain ⟨_, h1, h2, h3, h4, h5, h6, h7, h8, h9, h10, h11, h12, h13, h14, h15, h16, h17, h18, h19, h20, h21, h22, h23, hr⟩ := dark_wentDark s
  refine ⟨dark_phase s, h1, h2, h3, h4, h5, h6, h7, h8, h9, h10, h11, h12, h13, h14, h15, h16, h17, h18, h19, h20, h21, h22, h23, ?_⟩
  intro off ho
  exact (State.rd_wrn_ne _ _ _ _ (by simpa using ho)).trans (hr off (by simp))

theorem startFail_rd (s : State) (r : Nat) : (s.startFail r).rd 0xA00 = BitVec.ofNat 32 r := State.rd_wrn_same _ _ _

end Sys2Proof.Machine
end

section
/-! PROOFS. A start that passes its checks (R557-R561): the Almanac's registers stage by stage, and the registers of the start. -/

namespace Sys2Proof.Machine

/-- The Almanac's single registers. -/
def State.almScalars (s : State) (f : Nat → Byte) : State :=
  let n := ((List.range 64).filter (fun l => (linkWord f l).testBit 1)).length
  let s1 := (((s.wrn 0xA00 (2 ^ 16 * almRollback f)).wrn 0xA04 (almLen f)).wrn 0xA08 s.sec.almFloor).wrn 0x600 (almNat f (almOff f 1) 1)
  let s2 := ((((s1.wrn 0x740 (almNat f (almOff f 1 + 4) 4)).wr 0x100 (merInit f)).wrn 0x104 8).wr 0x118 (ptpInit f)).wrn 0x300 (almNat f (almOff f 4) 1)
  (s2.wrn 0x1C (n + 2 ^ 8 * (64 - n))).wrn (ephReg 0 0x4C) (libCount f)

/-- The registers of each die, link port and host port. -/
def State.almDies (s : State) (f : Nat → Byte) : State :=
  s.each (List.range 4) (fun d t =>
    (t.wrn (dieReg d 8) (0xF - 2 ^ d)).wrn (dieReg d 0x10) (bitSet 16 (fun j => (linkWord f (16 * d + j)).testBit 1)))
def State.almLinks (s : State) (f : Nat → Byte) : State :=
  s.each (List.range 64) (fun l t => t.wrn (linkBlock l) (if (linkWord f l).testBit 1 then 8 else 0))
def State.almHosts (s : State) (f : Nat → Byte) : State :=
  s.each (List.range 48) (fun p t => t.wrn (hostBlock p) (if (hostWord f p).testBit 0 then 2 ^ 13 else 0))

/-- The tables: mirror regions, routes, slices, shares. -/
def State.almMirrors (s : State) (f : Nat → Byte) : State :=
  s.each (List.range 16) (fun r t => t.each [0, 1, 2] (fun i u => u.wrn (mirrorReg r (4 * i)) (mirrorWord f r i)))
def State.almRoutes (s : State) (f : Nat → Byte) : State :=
  s.each [0, 1] (fun v t => t.each (List.range 4096) (fun i u => u.wr (routeReg v (4 * i)) (routeWord f i)))
def State.almSlices (s : State) (f : Nat → Byte) : State :=
  s.each [0, 1] (fun v t => t.each (List.range 64) (fun sl u => u.each (List.range 7) (fun i w => w.wr (sliceReg v sl (4 * i)) (sliceWord f sl i))))
def State.almShares (s : State) (f : Nat → Byte) : State :=
  s.each (List.range 64) (fun sl t => t.each [0, 1, 2] (fun i u => u.wrn (shareReg sl (4 * i)) (shareWord f sl i)))

theorem almRegs_eq (s : State) (f : Nat → Byte) :
    s.almRegs f = (((((((s.almScalars f).almDies f).almLinks f).almHosts f).almMirrors f).almRoutes f).almSlices f).almShares f := rfl

-- each stage changes registers alone, and those of its block

theorem sameBut_wr (ps : List Part) (s : State) (o : Nat) (v : Word) : sameBut ps s (s.wr o v) :=
  (only_wr ps s v (List.mem_singleton.2 rfl)).1

theorem sameBut_wrn (ps : List Part) (s : State) (o n : Nat) : sameBut ps s (s.wrn o n) := sameBut_wr ps s o _

theorem sameBut_each {α : Type} {ps : List Part} {l : List α} {f : α → State → State} (h : ∀ a t, sameBut ps t (f a t)) (s : State) :
    sameBut ps s (s.each l f) := by
  induction l generalizing s with
  | nil => exact sameBut_refl _ s
  | cons a l ih => exact sameBut_trans (h a s) (ih (f a s))

theorem sameBut_almScalars (s : State) (f : Nat → Byte) : sameBut [] s (s.almScalars f) := by
  unfold State.almScalars
  repeat' with_reducible first
    | exact sameBut_refl _ _
    | refine sameBut_trans ?_ (sameBut_wrn _ _ _ _)

theorem sameBut_almDies (s : State) (f : Nat → Byte) : sameBut [] s (s.almDies f) := by
  unfold State.almDies
  exact sameBut_each (fun _ _ => sameBut_trans (sameBut_wrn _ _ _ _) (sameBut_wrn _ _ _ _)) s

theorem sameBut_almLinks (s : State) (f : Nat → Byte) : sameBut [] s (s.almLinks f) := by
  unfold State.almLinks
  exact sameBut_each (fun _ _ => sameBut_wrn _ _ _ _) s

theorem sameBut_almHosts (s : State) (f : Nat → Byte) : sameBut [] s (s.almHosts f) := by
  unfold State.almHosts
  exact sameBut_each (fun _ _ => sameBut_wrn _ _ _ _) s

theorem sameBut_almMirrors (s : State) (f : Nat → Byte) : sameBut [] s (s.almMirrors f) := by
  unfold State.almMirrors
  exact sameBut_each (fun _ t => sameBut_each (fun _ _ => sameBut_wrn _ _ _ _) t) s

theorem sameBut_almRoutes (s : State) (f : Nat → Byte) : sameBut [] s (s.almRoutes f) := by
  unfold State.almRoutes
  exact sameBut_each (fun _ t => sameBut_each (fun _ _ => sameBut_wr _ _ _ _) t) s

theorem sameBut_almSlices (s : State) (f : Nat → Byte) : sameBut [] s (s.almSlices f) := by
  unfold State.almSlices
  exact sameBut_each (fun _ t => sameBut_each (fun _ u => sameBut_each (fun _ _ => sameBut_wr _ _ _ _) u) t) s

theorem sameBut_almShares (s : State) (f : Nat → Byte) : sameBut [] s (s.almShares f) := by
  unfold State.almShares
  exact sameBut_each (fun _ t => sameBut_each (fun _ _ => sameBut_wrn _ _ _ _) t) s

theorem sameBut_almRegs (s : State) (f : Nat → Byte) : sameBut [] s (s.almRegs f) := by
  rw [almRegs_eq]
  exact sameBut_trans (sameBut_almScalars s f) <| sameBut_trans (sameBut_almDies _ f) <| sameBut_trans (sameBut_almLinks _ f) <|
    sameBut_trans (sameBut_almHosts _ f) <| sameBut_trans (sameBut_almMirrors _ f) <| sameBut_trans (sameBut_almRoutes _ f) <|
    sameBut_trans (sameBut_almSlices _ f) (sameBut_almShares _ f)

theorem rd_almDies (s : State) (f : Nat → Byte) {j : Nat} (h : ∀ d, d < 4 → j ≠ dieReg d 8 ∧ j ≠ dieReg d 0x10) :
    (s.almDies f).rd j = s.rd j :=
  rd_each_ne (fun d hd t => by
    obtain ⟨h1, h2⟩ := h d (List.mem_range.1 hd)
    rw [State.rd_wrn_ne _ _ _ _ h2, State.rd_wrn_ne _ _ _ _ h1]) s

theorem rd_almLinks (s : State) (f : Nat → Byte) {j : Nat} (h : ∀ l, l < 64 → j ≠ linkBlock l) : (s.almLinks f).rd j = s.rd j :=
  rd_each_ne (fun l hl _ => State.rd_wrn_ne _ _ _ _ (h l (List.mem_range.1 hl))) s

theorem rd_almHosts (s : State) (f : Nat → Byte) {j : Nat} (h : ∀ n, n < 48 → j ≠ hostBlock n) : (s.almHosts f).rd j = s.rd j :=
  rd_each_ne (fun n hn _ => State.rd_wrn_ne _ _ _ _ (h n (List.mem_range.1 hn))) s

theorem rd_almMirrors (s : State) (f : Nat → Byte) {j : Nat} (h : j < 0xC0000 ∨ 0xC0100 ≤ j) : (s.almMirrors f).rd j = s.rd j :=
  rd_each_ne (fun r hr t => rd_each_ne (fun i hi u => State.rd_wrn_ne _ _ _ _ (by
    have := List.mem_range.1 hr
    have : i < 3 := by simp at hi; omega
    unfold mirrorReg; omega)) t) s

theorem rd_almRoutes (s : State) (f : Nat → Byte) {j : Nat} (h : j < 0x80000 ∨ 0x88000 ≤ j) : (s.almRoutes f).rd j = s.rd j :=
  rd_each_ne (fun v hv t => rd_each_ne (fun i hi u => State.rd_wr_ne _ _ _ _ (by
    have := List.mem_range.1 hi
    have : v < 2 := by simp at hv; omega
    unfold routeReg; omega)) t) s

theorem rd_almSlices (s : State) (f : Nat → Byte) {j : Nat} (h : j < 0x70000 ∨ 0x72000 ≤ j) : (s.almSlices f).rd j = s.rd j :=
  rd_each_ne (fun v hv t => rd_each_ne (fun sl hs u => rd_each_ne (fun i hi w => State.rd_wr_ne _ _ _ _ (by
    have := List.mem_range.1 hi
    have := List.mem_range.1 hs
    have : v < 2 := by simp at hv; omega
    unfold sliceReg; omega)) u) t) s

theorem rd_almShares (s : State) (f : Nat → Byte) {j : Nat} (h : j < 0x20000 ∨ 0x20800 ≤ j) : (s.almShares f).rd j = s.rd j :=
  rd_each_ne (fun sl hs t => rd_each_ne (fun i hi u => State.rd_wrn_ne _ _ _ _ (by
    have := List.mem_range.1 hs
    have : i < 3 := by simp at hi; omega
    unfold shareReg; omega)) t) s

-- what the Almanac's registers read

theorem rd_almRegs_slice (s : State) (f : Nat → Byte) {v sl i : Nat} (hv : v < 2) (hs : sl < 64) (hi : i < 7) :
    (s.almRegs f).rd (sliceReg v sl (4 * i)) = sliceWord f sl i := by
  rw [almRegs_eq, rd_almShares _ _ (by unfold sliceReg; omega), State.almSlices]
  have inner : ∀ t : State, (t.each (List.range 64) (fun sl u => u.each (List.range 7) (fun i w =>
      w.wr (sliceReg v sl (4 * i)) (sliceWord f sl i)))).rd (sliceReg v sl (4 * i)) = sliceWord f sl i := by
    refine rd_each_mem (List.mem_range.2 hs) (fun u => ?_) (fun b hb hne u => ?_)
    · refine rd_each_mem (List.mem_range.2 hi) (fun w => State.rd_wr_same _ _ _) (fun c hc hne w => ?_) u
      exact State.rd_wr_ne _ _ _ _ (by unfold sliceReg; omega)
    · refine rd_each_ne (fun c hc w => State.rd_wr_ne _ _ _ _ ?_) u
      have := List.mem_range.1 hc
      unfold sliceReg; omega
  refine rd_each_mem (a := v) ?_ ?_ (fun b hb hne t => ?_) _
  · simp; omega
  · exact inner
  refine rd_each_ne (fun sl' hs' u => rd_each_ne (fun i' hi' w => State.rd_wr_ne _ _ _ _ ?_) u) t
  have := List.mem_range.1 hs'
  have := List.mem_range.1 hi'
  unfold sliceReg; omega

theorem rd_almRegs_route (s : State) (f : Nat → Byte) {v i : Nat} (hv : v < 2) (hi : i < 4096) :
    (s.almRegs f).rd (routeReg v (4 * i)) = routeWord f i := by
  rw [almRegs_eq, rd_almShares _ _ (by unfold routeReg; omega), rd_almSlices _ _ (by unfold routeReg; omega), State.almRoutes]
  refine rd_each_mem (a := v) (by simp; omega) (fun t => ?_) (fun b hb hne t => ?_) _
  · refine rd_each_mem (List.mem_range.2 hi) (fun w => State.rd_wr_same _ _ _) (fun c hc hne w => ?_) t
    exact State.rd_wr_ne _ _ _ _ (by unfold routeReg; omega)
  · refine rd_each_ne (fun c hc w => State.rd_wr_ne _ _ _ _ ?_) t
    have := List.mem_range.1 hc
    unfold routeReg; omega

/-- The tables lie apart from what a register outside them reads. -/
theorem rd_almTables (s : State) (f : Nat → Byte) {j : Nat} (h : j < 0x20000 ∨ 0xC0100 ≤ j) :
    ((((s.almMirrors f).almRoutes f).almSlices f).almShares f).rd j = s.rd j := by
  rw [rd_almShares _ _ (by omega), rd_almSlices _ _ (by omega), rd_almRoutes _ _ (by omega), rd_almMirrors _ _ (by omega)]

theorem hostBlock_inj {m n : Nat} (hm : m < 48) (hn : n < 48) (h : hostBlock m = hostBlock n) : m = n := by
  unfold hostBlock dieBase at h; omega

theorem linkBlock_inj {m n : Nat} (hm : m < 64) (hn : n < 64) (h : linkBlock m = linkBlock n) : m = n := by
  unfold linkBlock dieBase at h; omega

theorem hostBlock_high (n : Nat) : 0x07000000 ≤ hostBlock n := by unfold hostBlock dieBase; omega

theorem linkBlock_high (n : Nat) : 0x07800000 ≤ linkBlock n := by unfold linkBlock dieBase; omega

theorem linkBlock_ne_hostBlock {l n : Nat} : linkBlock l ≠ hostBlock n := by
  unfold linkBlock hostBlock dieBase; omega

theorem rd_almRegs_host (s : State) (f : Nat → Byte) {n : Nat} (hn : n < 48) :
    (s.almRegs f).rd (hostBlock n) = BitVec.ofNat 32 (if (hostWord f n).testBit 0 then 2 ^ 13 else 0) := by
  have := hostBlock_high n
  rw [almRegs_eq, rd_almTables _ _ (by omega), State.almHosts]
  exact rd_each_mem (List.mem_range.2 hn) (fun t => State.rd_wrn_same _ _ _)
    (fun m hm hne t => State.rd_wrn_ne _ _ _ _ (fun e => hne (hostBlock_inj hn (List.mem_range.1 hm) e).symm)) _

theorem rd_almRegs_link (s : State) (f : Nat → Byte) {l : Nat} (hl : l < 64) :
    (s.almRegs f).rd (linkBlock l) = BitVec.ofNat 32 (if (linkWord f l).testBit 1 then 8 else 0) := by
  have := linkBlock_high l
  rw [almRegs_eq, rd_almTables _ _ (by omega), rd_almHosts _ _ (fun n _ => linkBlock_ne_hostBlock), State.almLinks]
  exact rd_each_mem (List.mem_range.2 hl) (fun t => State.rd_wrn_same _ _ _)
    (fun m hm hne t => State.rd_wrn_ne _ _ _ _ (fun e => hne (linkBlock_inj hl (List.mem_range.1 hm) e).symm)) _

theorem rd_almRegs_mer (s : State) (f : Nat → Byte) : (s.almRegs f).rd 0x100 = merInit f := by
  rw [almRegs_eq, rd_almTables _ _ (by omega), rd_almHosts _ _ (fun n _ => by have := hostBlock_high n; omega),
    rd_almLinks _ _ (fun l _ => by have := linkBlock_high l; omega), rd_almDies _ _ (fun d _ => by unfold dieReg dieBase; omega)]
  simp (disch := decide) only [State.almScalars, State.rd_wrn_ne, State.rd_wr_ne, State.rd_wr_same]

end Sys2Proof.Machine
end

section
/-! PROOFS. The registers of a start, and the start that goes through (R46-R48, R557, R558, R561). -/

namespace Sys2Proof.Machine

-- the error log sends no message while no host port is up

theorem msix_of_down {s : State} {port : Nat} (h : s.hostUp port = false) (v : Nat) : s.msix port v = s := by
  simp [State.msix, h]

theorem hostBlock_notMem_errRegs (n : Nat) : hostBlock n ∉ errRegs := by
  have := hostBlock_high n
  simp only [errRegs, List.mem_cons, List.mem_map, List.mem_range, not_or, not_exists, not_and]
  exact ⟨by omega, by omega, fun i hi => by omega⟩

theorem hostUp_of_rd {s t : State} {n : Nat} (h : t.rd (hostBlock n) = s.rd (hostBlock n)) : t.hostUp n = s.hostUp n := by
  simp [State.hostUp, State.fld, h]

theorem errLog_link {s : State} (h : ∀ n, s.hostUp n = false) (k st so x a d : Nat) : (s.errLog k st so x a d).link = s.link := by
  unfold State.errLog
  split
  · rfl
  · extract_lets slot tag ws s1 s2
    have h12 : only [] errRegs s s2 := by
      refine only_trans (only_each _ (fun p hp t => only_wrn [] t _ ?_) s) (only_wrap [] s1 1 (by simp [errRegs]))
      exact mem_errRegs _ _ (Nat.mod_lt _ (by decide)) (List.mem_range.1 (List.of_mem_zip hp).2)
    have hl : s2.link = s.link := h12.1 .link (by simp)
    clear_value s2
    split
    · exact hl
    · rename_i s3 _
      have hr : ∀ n, s3.rd (hostBlock n) = s.rd (hostBlock n) := fun n => h12.2 (hostBlock n) (hostBlock_notMem_errRegs n)
      have hd : ∀ n, s3.hostUp n = false := fun n => (hostUp_of_rd (hr n)).trans (h n)
      rw [State.when, msix_of_down (hd _), ite_self]
      exact hl

/-- The registers of the start before what it records. -/
def State.startBase (s : State) : State :=
  (((((s.wrn 0x10 0x3333).wrn 0x14 s.clocksOk).wrn 0x80C (if s.pwr.shutdown != 0 then 5 else s.pwr.resetCause)).wrn 0x92C s.pwr.shutdown).wrn 0x700
    (if s.sec.fuseSealed then 1 else 0)).wrn 0x708 s.sec.bootEpoch

theorem only_startBase (s : State) : only [] [0x10, 0x14, 0x80C, 0x92C, 0x700, 0x708] s s.startBase := by
  unfold State.startBase
  repeat' with_reducible first
    | exact only_refl _ _ _
    | refine only_trans ?_ (only_wrn _ _ _ (by simp))

theorem only_idSync (s : State) : only [] [0x70C, 0x718] s s.idSync :=
  only_trans (only_wrn [] s _ (by simp)) (only_when _ _ (fun _ => only_set [] _ _ (by simp)))

/-- What the start records in the log and in the events beside its registers. -/
def recordRegs : List Nat := [0x70C, 0x718] ++ errRegs

theorem mem_recordRegs {o : Nat} : o ∈ recordRegs ↔ o ∈ [0x70C, 0x718] ∨ o ∈ errRegs := by
  unfold recordRegs
  exact List.mem_append

theorem startRegs_eq (s : State) :
    s.startRegs = (s.startBase.idSync.when s.journalBad (·.set 0x718 0x10)).when s.pwr.wasReset
      (·.errLogOpen 9 noCtx 0 (if s.pwr.shutdown != 0 then s.pwr.shutdown else if s.pwr.shutdown != 0 then 5 else s.pwr.resetCause)) := rfl

theorem only_startRecords (s : State) : only [.health, .out, .freeCtr, .link] recordRegs s.startBase s.startRegs := by
  rw [startRegs_eq]
  have hid : only [.health, .out, .freeCtr, .link] recordRegs s.startBase s.startBase.idSync :=
    only_mono (only_idSync s.startBase) (fun p hp => absurd hp (List.not_mem_nil)) (fun o ho => mem_recordRegs.2 (.inl ho))
  have h718 : 0x718 ∈ recordRegs := mem_recordRegs.2 (.inl (by simp))
  have hset : only [.health, .out, .freeCtr, .link] recordRegs s.startBase.idSync (s.startBase.idSync.when s.journalBad (·.set 0x718 0x10)) :=
    only_when _ _ (fun _ => only_set _ _ _ h718)
  refine only_trans hid (only_trans hset (only_when _ _ (fun _ => ?_)))
  exact only_errLogOpen _ _ _ _ _ (by simp) (by simp) (by simp) (by simp) (fun o ho => mem_recordRegs.2 (.inr ho))

theorem rd_startRegs {s : State} {j : Nat} (h : j ∉ recordRegs) : s.startRegs.rd j = s.startBase.rd j := (only_startRecords s).2 j h

theorem notMem_recordRegs {j : Nat} (h1 : j ≠ 0x70C) (h2 : j ≠ 0x718) (h3 : j ≠ 0x818) (h4 : j ≠ 0x820) (h5 : j < 0x90000 ∨ 0xB0000 ≤ j) :
    j ∉ recordRegs := by
  simp only [mem_recordRegs, errRegs, List.mem_cons, List.mem_map, List.mem_range, List.not_mem_nil, or_false, not_or, not_exists, not_and]
  exact ⟨⟨h1, h2⟩, h3, h4, fun i hi => by omega⟩

/-- A register that the start does not set reads as before. -/
theorem rd_startRegs_ne {s : State} {j : Nat} (h : 0x1000 ≤ j) (h5 : j < 0x90000 ∨ 0xB0000 ≤ j) : s.startRegs.rd j = s.rd j := by
  rw [rd_startRegs (notMem_recordRegs (by omega) (by omega) (by omega) (by omega) h5)]
  exact (only_startBase s).2 j (by simp; omega)

theorem startRegs_link {s : State} (h : ∀ n, s.hostUp n = false) : s.startRegs.link = s.link := by
  have hb : only [] ([0x10, 0x14, 0x80C, 0x92C, 0x700, 0x708] ++ [0x70C, 0x718]) s
      (s.startBase.idSync.when s.journalBad (·.set 0x718 0x10)) :=
    only_trans (only_mono (only_startBase s) (by simp) (fun o ho => List.mem_append_left _ ho))
      (only_trans (only_mono (only_idSync _) (by simp) (fun o ho => List.mem_append_right _ ho))
        (only_when _ _ (fun _ => only_set _ _ _ (by simp))))
  rw [startRegs_eq]
  generalize s.startBase.idSync.when s.journalBad (·.set 0x718 0x10) = u at hb ⊢
  have hl : u.link = s.link := hb.1 .link (by simp)
  have hd : ∀ n, u.hostUp n = false := fun n =>
    (hostUp_of_rd (hb.2 _ (by have := hostBlock_high n; simp; omega))).trans (h n)
  cases s.pwr.wasReset with
  | false => exact hl
  | true => exact (errLog_link (s := u.fresh.2) hd _ _ _ _ _ _).trans hl

end Sys2Proof.Machine
end

section
/-! PROOFS. MODULE_START (R32, R545, R552, R553, R556-R558, R560). -/

namespace Sys2Proof.Machine

theorem bitSet_succ (n : Nat) (p : Nat → Bool) : bitSet (n + 1) p = bitSet n p + if p n then 2 ^ n else 0 := by
  unfold bitSet
  rw [List.range_succ, List.filter_append, List.foldl_append]
  cases hp : p n <;> simp [hp]

theorem bitSet_lt (n : Nat) (p : Nat → Bool) : bitSet n p < 2 ^ n := by
  induction n with
  | zero => simp [bitSet]
  | succ n ih => rw [bitSet_succ, Nat.pow_succ]; split <;> omega

theorem testBit_bitSet {n i : Nat} (p : Nat → Bool) (h : i < n) : (bitSet n p).testBit i = p i := by
  induction n with
  | zero => omega
  | succ n ih =>
    rw [bitSet_succ]
    rcases Nat.lt_succ_iff_lt_or_eq.1 h with hi | rfl
    · split
      · rw [Nat.add_comm, Nat.testBit_two_pow_add_gt hi, ih hi]
      · rw [Nat.add_zero, ih hi]
    · have hb := Nat.testBit_lt_two_pow (bitSet_lt i p)
      split
      · rw [Nat.add_comm, Nat.testBit_two_pow_add_eq, hb]; simp [*]
      · simp [*]

theorem clocksOk_testBit (s : State) (i : Nat) :
    s.clocksOk.testBit i = if i < 12 then (0xFFF : Nat).testBit i else (bitSet 12 (fun g => !s.pwr.hrefGone.contains g)).testBit (i - 12) := by
  unfold State.clocksOk
  rw [Nat.add_comm, Nat.testBit_two_pow_mul_add _ (by decide)]

/-- The start that goes through, before the Almanac is loaded: the floor has risen, the module is starting. -/
def State.goInit (s : State) (f : Nat → Byte) : State :=
  { s with
    sec := { s.sec with almFloor := if (f 6).getLsbD 0 then max s.sec.almFloor (almRollback f) else s.sec.almFloor }
    pwr := { s.pwr with phase := .starting, faultN := true, failReason := 0 } }

/-- Every register is in force. -/
def State.inForce (s : State) : State := { s with force := s.regs }

theorem sameBut_inForce (s : State) : sameBut [.force] s s.inForce := (only_put_force [] s _ (by simp)).1

theorem rd_inForce (s : State) (j : Nat) : s.inForce.rd j = s.rd j := rfl

def State.goForce (s : State) (f : Nat → Byte) : State := ((s.goInit f).almLoad f).startRegs.inForce

theorem startGo_eq (s : State) (f : Nat → Byte) :
    s.startGo f = (s.goForce f).each ((List.range 48).filter (s.goForce f).hpMayTrain) (fun n w => w.hpTrain n) := by
  unfold State.startGo State.goForce State.goInit State.inForce
  rfl

theorem rd_goForce (s : State) (f : Nat → Byte) (j : Nat) : (s.goForce f).rd j = ((s.goInit f).almLoad f).startRegs.rd j := rd_inForce _ j

/-- What the Almanac gives beyond registers. -/
def AlmS.loaded (a : AlmS) (f : Nat → Byte) : AlmS :=
  { a with
    library := (List.range (libCount f)).map (libImage f)
    startImage := startImageOf f
    lockWait := lockWaitOf f
    hostWords := (List.range 48).map (fun p => BitVec.ofNat 32 (hostWord f p))
    linkWords := (List.range 64).map (fun l => BitVec.ofNat 32 (linkWord f l))
    sliceW := (List.range 64).map (sliceWeight f)
    groups := (List.range 16).map (trayGroupOf f) }

theorem almLoad_alm (s : State) (f : Nat → Byte) : (s.almLoad f).alm = s.alm.loaded f := sameBut_almRegs _ f .alm (by simp)

theorem almLoad_time (s : State) (f : Nat → Byte) :
    (s.almLoad f).time = { s.time with units := nbits (merInit f).toNat 0 9, epochLog2 := nbits (merInit f).toNat 16 5 } :=
  sameBut_almRegs _ f .time (by simp)

theorem almLoad_sec (s : State) (f : Nat → Byte) : (s.almLoad f).sec =
    { s.sec with
      almHash := Config.shake256 (almBytes f 0 (almLen f))
      fwHash := Config.shake256 (almBytes f (almOff f 6 + 128) (fwLen f)) } := sameBut_almRegs _ f .sec (by simp)

theorem almLoad_pwr (s : State) (f : Nat → Byte) : (s.almLoad f).pwr = s.pwr := sameBut_almRegs _ f .pwr (by simp)

theorem sameBut_almLoad (s : State) (f : Nat → Byte) : sameBut [.alm, .sec, .time] s (s.almLoad f) := by
  unfold State.almLoad
  refine sameBut_trans ?_ (sameBut_mono (sameBut_almRegs _ f) (by simp))
  intro p hp
  cases p <;> first | rfl | simp at hp

/-- No host port is up once the Almanac has set them. -/
theorem almLoad_hostUp (s : State) (f : Nat → Byte) (n : Nat) : (s.almLoad f).hostUp n = false := by
  by_cases hn : n < 48
  · have hrd : (s.almLoad f).rd (hostBlock n) = _ := rd_almRegs_host _ f hn
    rw [State.hostUp, State.fld, hrd]
    split <;> simp [nbits]
  · simp [State.hostUp, hn]

theorem sameBut_goForce (s : State) (f : Nat → Byte) :
    sameBut [.force, .time, .health, .sec, .alm, .pwr, .out, .freeCtr] s (s.goForce f) := by
  have h1 : sameBut [.sec, .pwr] s (s.goInit f) :=
    sameBut_trans (only_put_sec [] s (s.goInit f).sec (by simp)).1 (only_put_pwr [] { s with sec := (s.goInit f).sec } (s.goInit f).pwr (by simp)).1
  have h2 : sameBut [.sec, .pwr, .alm, .time] s ((s.goInit f).almLoad f) :=
    sameBut_trans (sameBut_mono h1 (by simp)) (sameBut_mono (sameBut_almLoad _ f) (by simp))
  obtain ⟨h3, _⟩ := only_startBase ((s.goInit f).almLoad f)
  obtain ⟨h4, _⟩ := only_startRecords ((s.goInit f).almLoad f)
  intro p hp
  by_cases hl : p = .link
  · subst hl
    have hf : (s.goForce f).link = ((s.goInit f).almLoad f).startRegs.link := sameBut_inForce _ .link (by simp)
    exact hf.trans ((startRegs_link (almLoad_hostUp (s.goInit f) f)).trans (h2 .link (by simp)))
  · refine sameBut_trans (ps := [.health, .out, .freeCtr, .link, .sec, .pwr, .alm, .time, .force]) (sameBut_mono h2 (by simp))
      (sameBut_trans (sameBut_mono h3 (by simp)) (sameBut_trans (sameBut_mono h4 (by simp)) (sameBut_mono (sameBut_inForce _) (by simp)))) p ?_
    simp at hp ⊢
    tauto

theorem rd_startGo {s : State} {f : Nat → Byte} {j : Nat} (h : ∀ n, n < 48 → j ≠ hostBlock n) :
    (s.startGo f).rd j = ((s.goInit f).almLoad f).startRegs.rd j := by
  rw [startGo_eq, rd_each_ne (fun n hn t => ?_), rd_goForce]
  exact State.rd_wrFld_ne _ _ _ _ _ _ (h n (by simpa using (List.mem_filter.1 hn).1))

theorem rd_startGo_block {s : State} {f : Nat → Byte} {j : Nat} (h : ∀ n, n < 48 → j ≠ hostBlock n) (h1 : 0x1000 ≤ j)
    (h2 : j < 0x90000 ∨ 0xB0000 ≤ j) : (s.startGo f).rd j = ((s.goInit f).almLoad f).rd j :=
  (rd_startGo h).trans (rd_startRegs_ne h1 h2)

theorem sameBut_startGo (s : State) (f : Nat → Byte) :
    sameBut [.force, .time, .health, .sec, .alm, .pwr, .out, .freeCtr] s (s.startGo f) := by
  rw [startGo_eq]
  exact sameBut_trans (sameBut_goForce s f) (sameBut_each (fun _ _ => sameBut_wrn _ _ _ _) _)

/-- Beside the log nothing changes after the Almanac is loaded. -/
theorem startGo_parts (s : State) (f : Nat → Byte) :
    sameBut [.force, .health, .out, .freeCtr, .link] ((s.goInit f).almLoad f) (s.startGo f) := by
  obtain ⟨h3, _⟩ := only_startBase ((s.goInit f).almLoad f)
  obtain ⟨h4, _⟩ := only_startRecords ((s.goInit f).almLoad f)
  have h5 : sameBut [.force, .health, .out, .freeCtr, .link] ((s.goInit f).almLoad f) (s.goForce f) := by
    refine sameBut_trans (sameBut_mono h3 (by simp)) (sameBut_trans (sameBut_mono h4 (by simp)) ?_)
    exact sameBut_mono (sameBut_inForce _) (by simp)
  rw [startGo_eq]
  exact sameBut_trans h5 (sameBut_each (fun _ _ => sameBut_wrn _ _ _ _) _)

theorem startGo_pwr (s : State) (f : Nat → Byte) : (s.startGo f).pwr = (s.goInit f).pwr := (startGo_parts s f .pwr (by simp)).trans (almLoad_pwr _ f)

theorem startGo_alm (s : State) (f : Nat → Byte) : (s.startGo f).alm = s.alm.loaded f := (startGo_parts s f .alm (by simp)).trans (almLoad_alm _ f)

theorem startGo_time (s : State) (f : Nat → Byte) :
    (s.startGo f).time = { s.time with units := nbits (merInit f).toNat 0 9, epochLog2 := nbits (merInit f).toNat 16 5 } :=
  (startGo_parts s f .time (by simp)).trans (almLoad_time _ f)

theorem startGo_bootEpoch (s : State) (f : Nat → Byte) : (s.startGo f).sec.bootEpoch = s.sec.bootEpoch := by
  rw [(startGo_parts s f .sec (by simp)).trans (almLoad_sec _ f)]; rfl

theorem startGo_owner (s : State) (f : Nat → Byte) {n : Nat} (hn : n < 48) : (s.startGo f).owner n = (hostWord f n).testBit 0 := by
  have hg : (s.goForce f).bit (hostBlock n) 13 = (hostWord f n).testBit 0 := by
    have := hostBlock_high n
    rw [State.bit, rd_goForce, rd_startRegs_ne (by omega) (by omega)]
    rw [show ((s.goInit f).almLoad f).rd (hostBlock n) = _ from rd_almRegs_host _ f hn]
    split <;> simp [*]
  have he : ∀ (l : List Nat), (∀ m ∈ l, m < 48) → ∀ t : State, (t.each l (fun n w => w.hpTrain n)).bit (hostBlock n) 13 = t.bit (hostBlock n) 13 := by
    intro l
    induction l with
    | nil => exact fun _ _ => rfl
    | cons m l ih =>
      intro hm t
      refine (ih (fun k hk => hm k (by simp [hk])) (t.hpTrain m)).trans ?_
      by_cases hmn : m = n
      · subst hmn; exact bit_wrFld_low (by decide)
      · have : hostBlock n ≠ hostBlock m := fun e => hmn (hostBlock_inj hn (hm m (by simp)) e).symm
        simp only [State.bit, State.hpTrain, State.rd_wrFld_ne _ _ _ _ _ _ this]
  rw [State.owner, startGo_eq, he _ (fun m hm => by simpa using (List.mem_filter.1 hm).1), hg]
  simp [hn]

theorem startGo_ztl (s : State) (f : Nat → Byte) {l : Nat} (hl : l < 64) : (s.startGo f).ztl l = (linkWord f l).testBit 1 := by
  have := linkBlock_high l
  rw [State.ztl, State.bit, rd_startGo_block (fun n _ => linkBlock_ne_hostBlock) (by omega) (by omega)]
  rw [show ((s.goInit f).almLoad f).rd (linkBlock l) = _ from rd_almRegs_link _ f hl]
  split <;> simp [*]

theorem startGo_slice (s : State) (f : Nat → Byte) {w sl i : Nat} (hw : w < 2) (hs : sl < 64) (hi : i < 7) :
    (s.startGo f).rd (sliceReg w sl (4 * i)) = sliceWord f sl i := by
  have hlt : 0x70000 ≤ sliceReg w sl (4 * i) ∧ sliceReg w sl (4 * i) < 0x72000 := by unfold sliceReg; omega
  rw [rd_startGo_block (fun n _ => by have := hostBlock_high n; omega) (by omega) (by omega)]
  exact rd_almRegs_slice _ f hw hs hi

theorem startGo_route (s : State) (f : Nat → Byte) {w i : Nat} (hw : w < 2) (hi : i < 4096) :
    (s.startGo f).rd (routeReg w (4 * i)) = routeWord f i := by
  have hlt : 0x80000 ≤ routeReg w (4 * i) ∧ routeReg w (4 * i) < 0x88000 := by unfold routeReg; omega
  rw [rd_startGo_block (fun n _ => by have := hostBlock_high n; omega) (by omega) (by omega)]
  exact rd_almRegs_route _ f hw hi

theorem low_ne_hostBlock {j : Nat} (h : j < 0x1000) : ∀ n, n < 48 → j ≠ hostBlock n := fun n _ => by
  have := hostBlock_high n
  omega

theorem startGo_low {s : State} {f : Nat → Byte} {j : Nat} (h : j < 0x1000) (h1 : j ≠ 0x70C) (h2 : j ≠ 0x718) (h3 : j ≠ 0x818)
    (h4 : j ≠ 0x820) : (s.startGo f).rd j = ((s.goInit f).almLoad f).startBase.rd j :=
  (rd_startGo (low_ne_hostBlock h)).trans (rd_startRegs (notMem_recordRegs h1 h2 h3 h4 (by omega)))

theorem startGo_clocks (s : State) (f : Nat → Byte) :
    (∀ g, g < 12 → (s.startGo f).bit 0x14 (12 + g) = !s.pwr.hrefGone.contains g) ∧ ∀ k, k < 12 → (s.startGo f).bit 0x14 k = true := by
  have hr : (s.startGo f).rd 0x14 = BitVec.ofNat 32 ((s.goInit f).almLoad f).clocksOk := by
    rw [startGo_low (by decide) (by decide) (by decide) (by decide) (by decide)]
    simp (disch := decide) only [State.startBase, State.rd_wrn_ne, State.rd_wrn_same]
  have hp : ((s.goInit f).almLoad f).pwr.hrefGone = s.pwr.hrefGone := by rw [almLoad_pwr]; rfl
  constructor
  · intro g hg
    rw [State.bit, hr, BitVec.getLsbD_ofNat, clocksOk_testBit, if_neg (by omega), Nat.add_sub_cancel_left, testBit_bitSet _ hg, hp,
      decide_eq_true (by omega), Bool.true_and]
  · intro k hk
    rw [State.bit, hr, BitVec.getLsbD_ofNat, clocksOk_testBit, if_pos hk]
    have hall : ∀ k, k < 12 → (decide (k < 32) && (0xFFF : Nat).testBit k) = true := by decide
    exact hall k hk

theorem rd_startGo_dies (s : State) (f : Nat → Byte) : (s.startGo f).rd 0x10 = 0x3333 := by
  rw [startGo_low (by decide) (by decide) (by decide) (by decide) (by decide)]
  simp (disch := decide) only [State.startBase, State.rd_wrn_ne, State.rd_wrn_same]
  rfl

theorem rd_startGo_bootEpoch (s : State) (f : Nat → Byte) : (s.startGo f).rd 0x708 = BitVec.ofNat 32 s.sec.bootEpoch := by
  rw [startGo_low (by decide) (by decide) (by decide) (by decide) (by decide)]
  simp only [State.startBase, State.rd_wrn_same, almLoad_sec]
  rfl

theorem rd_startGo_secState (s : State) (f : Nat → Byte) : (s.startGo f).rd 0x700 = if s.sec.fuseSealed then 1 else 0 := by
  rw [startGo_low (by decide) (by decide) (by decide) (by decide) (by decide)]
  simp (disch := decide) only [State.startBase, State.rd_wrn_ne, State.rd_wrn_same, almLoad_sec, State.goInit]
  cases s.sec.fuseSealed <;> rfl

theorem rd_startGo_cause (s : State) (f : Nat → Byte) :
    (s.startGo f).rd 0x80C = BitVec.ofNat 32 (if s.pwr.shutdown ≠ 0 then 5 else s.pwr.resetCause) := by
  rw [startGo_low (by decide) (by decide) (by decide) (by decide) (by decide)]
  simp (disch := decide) only [State.startBase, State.rd_wrn_ne, State.rd_wrn_same, almLoad_pwr, State.goInit, bne_iff_ne]

theorem rd_startGo_mer (s : State) (f : Nat → Byte) : (s.startGo f).rd 0x100 = merInit f := by
  rw [startGo_low (by decide) (by decide) (by decide) (by decide) (by decide), (only_startBase _).2 0x100 (by simp)]
  exact rd_almRegs_mer _ f

end Sys2Proof.Machine
end

section
/-! PROOFS. The end of a start: ready, late, the start image (R557, R561-R564); and the obligation on starts. -/

namespace Sys2Proof.Machine

-- MODULE_START

theorem moduleStart_held {s : State} {v : Nat} (a b c d : Bool)
    (h : s.pwr.phase ≠ .dark ∨ v < 59000 ∨ s.pwr.norReqN = false ∨ s.pwr.refused = true) : exec (.moduleStart v a b c d) s = .next s := by
  have hc : (s.pwr.phase == .dark && decide (59000 ≤ v) && s.pwr.norReqN && !s.pwr.refused) = false := by
    rcases h with h | h | h | h
    · simp [h]
    · simp [show ¬ 59000 ≤ v by omega]
    · simp [h]
    · simp [h]
  show Host.Outcome.next (s.when _ _) = _
  rw [hc]; rfl

theorem moduleStart_eq {s : State} {v : Nat} (a b c d : Bool) (h : s.pwr.phase = .dark) (hv : 59000 ≤ v) (hn : s.pwr.norReqN = true)
    (hr : s.pwr.refused = false) : exec (.moduleStart v a b c d) s = .next (s.start v a b c d) := by
  show Host.Outcome.next (s.when _ _) = _
  simp [h, hv, hn, hr]

/-- The standby domain has noted the input and the pins, and the boot epoch has reached `e`. -/
def State.startAt (s : State) (v e : Nat) : State :=
  { s with
    pwr := { s.pwr with vinMv := v, pwrEn := true, resetN := true, standby := true }
    sec := { s.sec with bootEpoch := e } }

theorem start_cases (s : State) (v : Nat) (a b c d : Bool) : s.start v a b c d =
    if a = false then (s.startAt v s.sec.bootEpoch).startFail 8
    else if s.sec.bootEpoch = 0xFFFFFFFF then (s.startAt v s.sec.bootEpoch).startFail 7
    else if b = false then (s.startAt v (s.sec.bootEpoch + 1)).startFail 1
    else if almCheck s.norByte s.sec.almFloor c d ≠ 0 then (s.startAt v (s.sec.bootEpoch + 1)).startFail (almCheck s.norByte s.sec.almFloor c d)
    else (s.startAt v (s.sec.bootEpoch + 1)).startGo s.norByte := by
  simp only [State.start, Bool.not_eq_true', beq_iff_eq, bne_iff_ne]
  rfl

/-- The ways a start fails, in the order of its checks (R556): the reason, and the boot epoch it leaves. -/
def State.startFails (s : State) (a b c d : Bool) (r e : Nat) : Prop :=
  (a = false ∧ r = 8 ∧ e = s.sec.bootEpoch) ∨ (a = true ∧ s.sec.bootEpoch = 0xFFFFFFFF ∧ r = 7 ∧ e = s.sec.bootEpoch)
    ∨ (a = true ∧ s.sec.bootEpoch ≠ 0xFFFFFFFF ∧ b = false ∧ r = 1 ∧ e = s.sec.bootEpoch + 1)
    ∨ (a = true ∧ s.sec.bootEpoch ≠ 0xFFFFFFFF ∧ b = true ∧ r = almCheck s.norByte s.sec.almFloor c d ∧ r ≠ 0 ∧ e = s.sec.bootEpoch + 1)

theorem start_of_startFails {s : State} {v r e : Nat} {a b c d : Bool} (h : s.startFails a b c d r e) :
    s.start v a b c d = (s.startAt v e).startFail r := by
  rw [start_cases]
  rcases h with ⟨ha, rfl, rfl⟩ | ⟨ha, he, rfl, rfl⟩ | ⟨ha, he, hb, rfl, rfl⟩ | ⟨ha, he, hb, rfl, hr, rfl⟩
  · rw [if_pos ha]
  · rw [if_neg (by simp [ha]), if_pos he]
  · rw [if_neg (by simp [ha]), if_neg he, if_pos hb]
  · rw [if_neg (by simp [ha]), if_neg he, if_neg (by simp [hb]), if_pos hr]

theorem start_of_checks {s : State} {v : Nat} {a b c d : Bool} (ha : a = true) (he : s.sec.bootEpoch ≠ 0xFFFFFFFF) (hb : b = true)
    (hk : almCheck s.norByte s.sec.almFloor c d = 0) : s.start v a b c d = (s.startAt v (s.sec.bootEpoch + 1)).startGo s.norByte := by
  rw [start_cases, if_neg (by simp [ha]), if_neg he, if_neg (by simp [hb]), if_neg (by simp [hk])]

theorem sameBut_startAt (s : State) (v e : Nat) : sameBut [.sec, .pwr] s (s.startAt v e) :=
  sameBut_trans (only_put_sec [] s (s.startAt v e).sec (by simp)).1 (only_put_pwr [] { s with sec := (s.startAt v e).sec } (s.startAt v e).pwr (by simp)).1

-- MOD_READY

/-- The module is ready with its stacks, before its registers say so. -/
def State.readyParts (s : State) (test : Word) : State :=
  { s with
    tier := { s.tier with units := (List.range 8).map (fun k =>
      ({ tier := 0, unit := k, free := stackChunks, up := test.getLsbD 0 || nbits test.toNat 4 4 != 4 || nbits test.toNat 8 8 != k } : UnitFree)) }
    health := { s.health with stackOut := if !test.getLsbD 0 && nbits test.toNat 4 4 == 4 then [nbits test.toNat 8 8] else [] }
    pwr := { s.pwr with phase := .ready, modReady := true, wasReset := false, shutdown := 0 } }

/-- Its registers: the self-test, an engine that failed it, the pool. -/
def State.readyRegs (s : State) (test : Word) : State :=
  (((s.wr 0x828 (test &&& 0xFFF1)).wrn 0x92C 0).when (!test.getLsbD 0 && nbits test.toNat 4 4 == 1) (fun v =>
    (v.wrf (engineBlock (nbits test.toNat 8 8) + 0x14) 1).wrFld (engineBlock (nbits test.toNat 8 8) + 4) 0 3 3)).syncUse []

/-- Link ports train. -/
def State.trainLinks (s : State) : State := s.each ((List.range 64).filter s.mayTrain) (fun l v => v.trainStart l 1)

theorem goReady_eq (s : State) (test : Word) : s.goReady test = ((s.readyParts test).readyRegs test).trainLinks.inForce := by
  unfold State.goReady State.readyParts State.readyRegs State.trainLinks State.inForce
  rfl

theorem only_syncUse_nil (s : State) : only [] [0x214, 0x218, 0x21C, 0x228] s (s.syncUse []) := by
  simp only [State.syncUse, State.each_nil]
  exact only_trans (only_wrn _ _ _ (by simp)) (only_trans (only_wrn _ _ _ (by simp)) (only_trans (only_wrn _ _ _ (by simp)) (only_wrn _ _ _ (by simp))))

theorem only_wrf {ps : List Part} {l : List Nat} (s : State) {o : Nat} (v : Word) (h : Part.force ∈ ps) (ho : o ∈ l) : only ps l s (s.wrf o v) :=
  only_trans (only_wr ps s v ho) (only_put_force l _ _ h)

theorem only_readyRegs (s : State) (test : Word) :
    only [.force] ([0x828, 0x92C, engineBlock (nbits test.toNat 8 8) + 0x14, engineBlock (nbits test.toNat 8 8) + 4] ++ [0x214, 0x218, 0x21C, 0x228]) s
      (s.readyRegs test) := by
  refine only_trans ?_ (only_mono (only_syncUse_nil _) (by simp) (fun o ho => List.mem_append_right _ ho))
  refine only_trans (only_trans (only_wr _ _ _ (by simp)) (only_wrn _ _ _ (by simp))) (only_when _ _ (fun _ => ?_))
  exact only_trans (only_wrf _ _ (by simp) (by simp)) (only_wrFld _ _ _ _ _ (by simp))

theorem only_trainStart (s : State) (l state : Nat) : only [.link] [linkBlock l] s (s.trainStart l state) :=
  only_trans (only_put_link _ s _ (by simp)) (only_trans (only_wrFld _ _ _ _ _ (by simp)) (only_wrFld _ _ _ _ _ (by simp)))

theorem only_trainLinks (s : State) : only [.link] ((List.range 64).map linkBlock) s s.trainLinks := by
  unfold State.trainLinks
  refine only_each _ (fun l hl t => only_mono (only_trainStart t l 1) (by simp) (fun o ho => ?_)) s
  exact List.mem_map.2 ⟨l, (List.mem_filter.1 hl).1, (List.mem_singleton.1 ho).symm⟩

theorem trainLinks_of_failed {s : State} (h : s.bit 0x828 0 = false) : s.trainLinks = s := by
  have hm : (List.range 64).filter s.mayTrain = [] := List.filter_eq_nil_iff.2 (fun l _ => by simp [State.mayTrain, h])
  rw [State.trainLinks, hm, State.each_nil]

theorem rd_readyRegs_test (s : State) (test : Word) : (s.readyRegs test).rd 0x828 = test &&& 0xFFF1 := by
  have he : ∀ o, 0x828 ≠ engineBlock (nbits test.toNat 8 8) + o := fun o => by unfold engineBlock dieBase; omega
  unfold State.readyRegs
  rw [(only_syncUse_nil _).2 _ (by simp)]
  cases (!test.getLsbD 0 && nbits test.toNat 4 4 == 1)
  · simp
  · simp [State.rd_wrf, he]

theorem readyParts_units (s : State) (test : Word) {k : Nat} (hk : k < 8) :
    ((s.readyParts test).tier.units.find? (fun x => x.unit == k)).map (fun x => (x.tier, x.free)) = some (0, 2064384) := by
  interval_cases k <;> rfl

theorem goReady_parts (s : State) (test : Word) : sameBut [.force, .link] (s.readyParts test) (s.goReady test) := by
  rw [goReady_eq]
  exact sameBut_trans (sameBut_mono (only_readyRegs _ test).1 (by simp))
    (sameBut_trans (sameBut_mono (only_trainLinks _).1 (by simp)) (sameBut_mono (sameBut_inForce _) (by simp)))

theorem sameBut_readyParts (s : State) (test : Word) : sameBut [.tier, .health, .pwr] s (s.readyParts test) := by
  let s1 : State := { s with tier := (s.readyParts test).tier }
  let s2 : State := { s1 with health := (s.readyParts test).health }
  have h1 : sameBut [.tier, .health, .pwr] s s1 := (only_put_tier [] s _ (by simp)).1
  have h2 : sameBut [.tier, .health, .pwr] s1 s2 := (only_put_health [] s1 _ (by simp)).1
  exact sameBut_trans h1 (sameBut_trans h2 (only_put_pwr [] s2 (s.readyParts test).pwr (by simp)).1)

theorem rd_goReady_test (s : State) (test : Word) : (s.goReady test).rd 0x828 = test &&& 0xFFF1 := by
  rw [goReady_eq, rd_inForce, (only_trainLinks _).2, rd_readyRegs_test]
  simp only [List.mem_map, not_exists, not_and]
  intro l _
  have := linkBlock_high l
  omega

/-- No link port trains after a failed self-test. -/
theorem rd_goReady_link {s : State} {test : Word} (h : test.getLsbD 0 = false) (l : Nat) :
    (s.goReady test).rd (linkBlock l) = s.rd (linkBlock l) := by
  have hb : ((s.readyParts test).readyRegs test).bit 0x828 0 = false := by
    rw [State.bit, rd_readyRegs_test, BitVec.getLsbD_and, h, Bool.false_and]
  have hn : nbits test.toNat 8 8 < 256 := Nat.mod_lt _ (by decide)
  rw [goReady_eq, rd_inForce, trainLinks_of_failed hb, (only_readyRegs _ test).2]
  · rfl
  · have := linkBlock_high l
    simp only [engineBlock, linkBlock, dieBase, List.mem_append, List.mem_cons, List.not_mem_nil, or_false, not_or] at *
    omega

-- START_IMAGE_LOAD

/-- A load has begun (R93). -/
def State.loading (s : State) (src : Source) (start : Bool) : State :=
  { s with eph := { s.eph with source := some src, bytes := [], readFault := false, standby := none, startImage := start } }

theorem load_of_free {s : State} (h : s.standbyState ≠ 1 ∧ s.standbyState ≠ 2 ∧ s.standbyState ≠ 5) (src : Source) (start : Bool) :
    s.load src start = (s.loading src start).setStandby 1 0 := by
  obtain ⟨h1, h2, h5⟩ := h
  simp [State.load, State.loading, h1, h2, h5]

theorem only_loading (s : State) (src : Source) (start : Bool) : only [.eph] [] s (s.loading src start) := only_put_eph _ _ _ (by simp)

/-- The start image is loaded once. -/
def State.imageTaken (s : State) : State := { s with alm := { s.alm with startImage := 0xFF } }

theorem only_imageTaken (s : State) : only [.alm] [] s s.imageTaken := only_put_alm _ _ _ (by simp)

theorem imageTaken_eph (s : State) : s.imageTaken.eph = s.eph := rfl

theorem rd_imageTaken (s : State) (j : Nat) : s.imageTaken.rd j = s.rd j := rfl

theorem rd_loading (s : State) (src : Source) (start : Bool) (j : Nat) : (s.loading src start).rd j = s.rd j := rfl

theorem imageTaken_standbyState (s : State) : s.imageTaken.standbyState = s.standbyState := rfl

/-- The end of a start without time: LOCK_TIMEOUT. -/
def State.lockNoted (s : State) (locked : Bool) : State := s.when (!locked) (·.set 0xA0C 0x2)

theorem only_lockNoted (s : State) (locked : Bool) : only [] [0xA0C] s (s.lockNoted locked) :=
  only_when _ _ (fun _ => only_set _ _ _ (by simp))

theorem startImageLoad_eq {s : State} {b : Bool} (hr : s.ready = true) (hi : s.alm.startImage ≠ 0xFF) (hb : b = true ↔ s.timeState = 2) :
    exec (.startImageLoad b) s = .next ((s.lockNoted b).load (.library s.alm.startImage) true).imageTaken := by
  have hc : (s.ready && s.alm.startImage != 0xFF && b == (s.timeState == 2)) = true := by
    have : b = (s.timeState == 2) := by rw [Bool.eq_iff_iff, hb]; simp
    simp [hr, hi, this]
  show Host.Outcome.next (s.when _ _) = _
  rw [hc]
  rfl

theorem startImage_loaded {s : State} {b : Bool} (hr : s.ready = true) (hi : s.alm.startImage ≠ 0xFF) (hb : b = true ↔ s.timeState = 2)
    (hs : s.standbyState ≠ 1 ∧ s.standbyState ≠ 2 ∧ s.standbyState ≠ 5) :
    ∃ t, exec (.startImageLoad b) s = .next t ∧ only [.eph, .alm] (0xA0C :: standbyRegs) s t ∧ t.alm.startImage = 0xFF ∧ t.standbyState = 1
      ∧ t.eph.source = some (.library s.alm.startImage) ∧ t.eph.active = s.eph.active
      ∧ t.rd 0xA0C = (if b then s.rd 0xA0C else s.rd 0xA0C ||| 2) := by
  have hlock := only_lockNoted s b
  have hstand : (s.lockNoted b).standbyState = s.standbyState := fld_of_rd (hlock.2 _ (by decide)) 4 3
  have hload := load_of_free (s := s.lockNoted b) (by rw [hstand]; exact hs) (.library s.alm.startImage) true
  have hrec := only_loading (s.lockNoted b) (.library s.alm.startImage) true
  have heph : (s.lockNoted b).eph = s.eph := hlock.1 .eph (by simp)
  refine ⟨_, startImageLoad_eq hr hi hb, ?_, rfl, ?_, ?_, ?_, ?_⟩ <;> rw [hload]
  · refine only_trans (only_mono hlock (by simp) (by simp)) (only_trans (only_mono hrec (by simp) (by simp)) ?_)
    refine only_trans (only_setStandby _ _ _ _ (fun d hd => ?_)) (only_mono (only_imageTaken _) (by simp) (by simp))
    constructor <;> exact List.mem_cons_of_mem _ (List.mem_flatMap.2 ⟨d, List.mem_range.2 hd, by simp⟩)
  · exact (imageTaken_standbyState _).trans (setStandby_state _ 1 0 (by decide))
  · rw [imageTaken_eph, setStandby_eph]; rfl
  · rw [imageTaken_eph, setStandby_eph, ← heph]; rfl
  · have hne : ∀ o d : Nat, 0xA0C ≠ ephReg d o := fun o d => by unfold ephReg dieReg dieBase; omega
    rw [rd_imageTaken, setStandby_rd _ 1 0 0xA0C (fun d _ => hne 0 d) (fun d _ => hne 8 d), rd_loading]
    cases b
    · exact State.rd_set_same s 0xA0C 2
    · rfl

/-- Settles O51, by the stages of a start: a failed check is Dark with its reason, the others load the Almanac; then ready, late, the image. -/
theorem startChecksTheAlmanacAndEndsReadyOrDark : Obligations.StartChecksTheAlmanacAndEndsReadyOrDark := by
  unfold Obligations.StartChecksTheAlmanacAndEndsReadyOrDark
  refine ⟨⟨fun s v a b c d h => moduleStart_held a b c d h, fun s v r e a b c d hd hv hn hr => ⟨fun hf => ?_, fun ha he hb hk => ?_⟩⟩,
    fun s w hs => ?_, fun s hs => ?_, fun s b hr hi hb hst => startImage_loaded hr hi hb hst⟩
  case _ =>
    obtain ⟨hphase, hpend, -, -, -, -, -, -, -, -, -, -, -, hflash, -, -, -, -, hout, -, hboot, -⟩ := startFail_wentDark (s.startAt v e) r
    refine ⟨(s.startAt v e).startFail r, ?_, hphase, rfl, rfl, rfl, startFail_rd _ r, hboot, hflash, hpend, hout⟩
    rw [moduleStart_eq a b c d hd hv hn hr, start_of_startFails hf]
  case _ =>
    refine ⟨(s.startAt v (s.sec.bootEpoch + 1)).startGo s.norByte, ?_,
      sameBut_trans (sameBut_mono (sameBut_startAt s v _) (by simp)) (sameBut_startGo _ _), by rw [startGo_pwr]; rfl, by rw [startGo_pwr]; rfl,
      startGo_bootEpoch _ _, by rw [startGo_alm]; rfl, rd_startGo_bootEpoch _ _, rd_startGo_secState _ _, rd_startGo_dies _ _,
      (startGo_clocks _ _).1, (startGo_clocks _ _).2, rd_startGo_cause _ _, rd_startGo_mer _ _, by rw [startGo_time], by rw [startGo_time],
      fun n hn => startGo_owner _ _ hn, fun l hl => startGo_ztl _ _ hl, fun w sl i hw hs hi => startGo_slice _ _ hw hs hi,
      fun w i hw hi => startGo_route _ _ hw hi, ?_, by rw [startGo_alm]; rfl, by rw [startGo_alm]; rfl⟩
    · rw [moduleStart_eq a b c d hd hv hn hr, start_of_checks ha he hb hk]
    · rw [startGo_alm]; simp [AlmS.loaded]
  case _ =>
    have hp := goReady_parts s w
    refine ⟨s.goReady w, ?_, sameBut_trans (sameBut_mono (sameBut_readyParts s w) (by simp)) (sameBut_mono hp (by simp)), ?_, ?_,
      rd_goReady_test s w, by rw [goReady_eq]; rfl, fun k hk => ?_, fun h l _ => rd_goReady_link h l⟩
    · show Host.Outcome.next (s.when _ _) = _
      simp [hs]
    · rw [State.ready, show (s.goReady w).pwr = _ from hp .pwr (by simp)]; rfl
    · rw [show (s.goReady w).pwr = _ from hp .pwr (by simp)]; rfl
    · rw [show (s.goReady w).tier = _ from hp .tier (by simp)]
      exact readyParts_units s w hk
  case _ =>
    refine ⟨s.startFail 9, ?_, startFail_wentDark s 9, startFail_rd s 9, rfl, rfl⟩
    show Host.Outcome.next (s.when _ _) = _
    simp [hs]

end Sys2Proof.Machine
end

section
/-! PROOFS. Flash trays: what the operations on a tray's stripes leave alone, and what they do to the stripes (R380, R386, R389, R393). -/

namespace Sys2Proof.Machine

-- what an operation on stripes leaves alone

/-- Trays that differ in their stripes, free blocks and journal alone. -/
def Tray.sameRest (t u : Tray) : Prop :=
  { u with stripes := t.stripes, nextStripe := t.nextStripe, free := t.free, journal := t.journal } = t

theorem Tray.sameRest_refl (t : Tray) : t.sameRest t := rfl

theorem Tray.sameRest_trans {t u w : Tray} (h : t.sameRest u) (k : u.sameRest w) : t.sameRest w := by
  unfold Tray.sameRest at *
  rw [← k] at h
  exact h

section
variable {t u : Tray} (h : t.sameRest u)
include h

theorem Tray.sameRest_link : u.link = t.link := (congrArg Tray.link h :)
theorem Tray.sameRest_cache : u.cache = t.cache := (congrArg Tray.cache h :)
theorem Tray.sameRest_failed : u.failed = t.failed := (congrArg Tray.failed h :)
theorem Tray.sameRest_rebuild : u.rebuild = t.rebuild := (congrArg Tray.rebuild h :)
theorem Tray.sameRest_discards : u.discards = t.discards := (congrArg Tray.discards h :)

end

-- stripes

theorem FStripe.endRow_copies (v : FStripe) (r : Nat) : (v.endRow r).copies = v.copies ∧ (v.endRow r).no = v.no := by
  unfold FStripe.endRow
  split <;> exact ⟨rfl, rfl⟩

theorem FStripe.close_copies (v : FStripe) : v.close.copies = v.copies ∧ v.close.no = v.no := by
  unfold FStripe.close
  cases v.copies.getLast? with
  | none => exact ⟨rfl, rfl⟩
  | some c => exact v.endRow_copies c.row

theorem FStripe.close_live (v : FStripe) : v.close.live = v.live := by rw [FStripe.live, v.close_copies.1]; rfl

/-- A unit goes into a stripe behind the copies that it holds, as the one the map names (R386). -/
theorem FStripe.put_copies (v : FStripe) (n p u : Nat) (d : List Host.Cell) :
    (v.put n p u d).no = v.no ∧ ∃ c : FCopy, (v.put n p u d).copies = v.copies ++ [c] ∧ c.page = p ∧ c.unit = u ∧ c.valid = true := by
  unfold FStripe.put
  extract_lets at_ fresh w x
  have hx : x.copies = w.copies ∧ x.no = w.no := by
    unfold x
    split
    · exact w.endRow_copies _
    · exact ⟨rfl, rfl⟩
  split
  · exact ⟨x.close_copies.2.trans hx.2, _, x.close_copies.1.trans hx.1, rfl, rfl, rfl⟩
  · exact ⟨hx.2, _, hx.1, rfl, rfl, rfl⟩

/-- The map names this copy for the unit. -/
def FCopy.names (c : FCopy) (p u : Nat) : Bool := c.page == p && c.unit == u && c.valid

/-- The map names no copy of the unit in this stripe any more (R380). -/
def FStripe.unmap (p u : Nat) (v : FStripe) : FStripe :=
  { v with copies := v.copies.map (fun c => if c.names p u then { c with valid := false } else c) }

theorem unmapUnit_stripes (t : Tray) (p u : Nat) : (t.unmapUnit p u).stripes = t.stripes.map (FStripe.unmap p u) := by
  unfold Tray.unmapUnit
  extract_lets mine stale w
  split
  · rename_i h
    simp only [Bool.not_eq_true', List.any_eq_false, Bool.not_eq_true] at h
    refine (List.map_congr_left (g := id) (fun v hv => ?_)).trans (List.map_id _) |>.symm
    have hc : v.copies.map (fun c => if c.names p u then { c with valid := false } else c) = v.copies :=
      (List.map_congr_left (g := id) (fun c hc => if_neg (by simpa [FCopy.names, mine] using h v hv c hc))).trans (List.map_id _)
    rw [FStripe.unmap, hc]; rfl
  · rfl

theorem unmapUnit_rest (t : Tray) (p u : Nat) : t.sameRest (t.unmapUnit p u) ∧ (t.unmapUnit p u).nextStripe = t.nextStripe := by
  unfold Tray.unmapUnit
  extract_lets mine stale w
  split <;> exact ⟨rfl, rfl⟩

-- opening and programming

/-- The least-worn free block of a die goes to a new stripe. -/
theorem openBlocks_fst (t : Tray) (l : List Nat) (b : List (Option FBlock)) (f : Tray × List (Option FBlock) → Nat → Tray × List (Option FBlock))
    (hf : ∀ q d, ∃ r, (f q d).1 = { q.1 with free := r }) : ∃ r, (l.foldl f (t, b)).1 = { t with free := r } := by
  have h : ∀ (l : List Nat) (q : Tray × List (Option FBlock)), ∃ r, (l.foldl f q).1 = { q.1 with free := r } := by
    intro l
    induction l with
    | nil => exact fun q => ⟨q.1.free, rfl⟩
    | cons d l ih =>
      intro q
      obtain ⟨r, hr⟩ := hf q d
      obtain ⟨r', hr'⟩ := ih (f q d)
      exact ⟨r', by rw [List.foldl_cons, hr', hr]⟩
  exact h l (t, b)

theorem openNew_some {t w : Tray} {g : Nat} {b : Bool} (h : t.openNew g b = some w) :
    ∃ (f : List (List (Nat × Nat))) (v : FStripe), v.no = t.nextStripe ∧ v.copies = [] ∧
      w = { t with stripes := t.stripes ++ [v], nextStripe := t.nextStripe + 1, free := f } := by
  unfold Tray.openNew at h
  split at h
  · cases h
  · extract_lets r v at h
    obtain ⟨f, hf⟩ : ∃ f, r.1 = { t with free := f } := by
      refine openBlocks_fst t (groupDies g) [] _ (fun q d => ?_)
      split
      · split
        · exact ⟨q.1.free, rfl⟩
        · exact ⟨_, rfl⟩
      · exact ⟨q.1.free, rfl⟩
    refine ⟨f, v, rfl, rfl, ?_⟩
    rw [← Option.some.inj h]
    show ({ r.1 with stripes := r.1.stripes ++ [v], nextStripe := t.nextStripe + 1 } : Tray) = _
    rw [hf]

/-- The tray with the open stripe of a group: as it was, or with a new stripe. -/
theorem withOpen_some {t w : Tray} {g : Nat} {b : Bool} {v : FStripe} (h : t.withOpen g b = some (w, v)) :
    v ∈ w.stripes ∧ v.closed = false ∧ (w = t ∨ ∃ (f : List (List (Nat × Nat))) (x : FStripe), x.no = t.nextStripe ∧ x.copies = [] ∧
      w = { t with stripes := t.stripes ++ [x], nextStripe := t.nextStripe + 1, free := f }) := by
  have hfind : ∀ {l : List FStripe}, l.find? (fun s => s.group == g && s.buffer == b && !s.closed) = some v → v ∈ l ∧ v.closed = false := by
    intro l hl
    have := List.find?_some hl
    simp only [Bool.and_eq_true, Bool.not_eq_true'] at this
    exact ⟨List.mem_of_find?_eq_some hl, this.2⟩
  unfold Tray.withOpen at h
  extract_lets find at h
  split at h
  · rename_i v' hv
    cases h
    exact ⟨(hfind hv).1, (hfind hv).2, .inl rfl⟩
  · obtain ⟨u, hu, hs⟩ := Option.bind_eq_some_iff.1 h
    obtain ⟨v', hv, he⟩ := Option.map_eq_some_iff.1 hs
    cases he
    exact ⟨(hfind hv).1, (hfind hv).2, .inr (openNew_some hu)⟩

/-- A program opens a stripe, unmaps the unit, and puts it there (R386, R393). -/
theorem program_some {t z : Tray} {m g p u n r : Nat} {b : Bool} {d : List Host.Cell} (h : t.program m g b p u d = some (z, n, r)) :
    ∃ (t0 : Tray) (v0 v w : FStripe) (e : MapEnt) (c : FCopy), t.withOpen g b = some (t0, v0) ∧ (t0.unmapUnit p u).stripe v0.no = some v
      ∧ v.no = n ∧ w.no = n ∧ w.copies = v.copies ++ [c] ∧ c.page = p ∧ c.unit = u ∧ c.valid = true
      ∧ z = ((t0.unmapUnit p u).setStripe w).journalled e := by
  unfold Tray.program at h
  obtain ⟨⟨t0, v0⟩, ho, hs⟩ := Option.bind_eq_some_iff.1 h
  obtain ⟨v, hv, he⟩ := Option.map_eq_some_iff.1 hs
  cases he
  obtain ⟨hno, c, hc, hp, hu, hval⟩ := v.put_copies (if b then t.pSlc else m) p u d
  exact ⟨t0, v0, v, _, _, c, ho, hv, rfl, hno, hc, hp, hu, hval, rfl⟩

theorem sameRest_program {t z : Tray} {m g p u : Nat} {b : Bool} {d : List Host.Cell} {x : Nat × Nat} (h : t.program m g b p u d = some (z, x)) :
    t.sameRest z := by
  obtain ⟨t0, v0, v, w, e, c, ho, -, -, -, -, -, -, -, rfl⟩ := program_some h
  refine Tray.sameRest_trans (Tray.sameRest_trans ?_ (unmapUnit_rest t0 p u).1) rfl
  rcases (withOpen_some ho).2.2 with rfl | ⟨f, x, -, -, rfl⟩ <;> rfl

theorem sameRest_copyUnits (m g : Nat) (l : List FCopy) (t : Tray) : t.sameRest (t.copyUnits m g l).1 := by
  induction l generalizing t with
  | nil => exact t.sameRest_refl
  | cons c l ih =>
    unfold Tray.copyUnits
    split
    · exact t.sameRest_refl
    · rename_i x hx
      exact Tray.sameRest_trans (sameRest_program hx) (ih x.1)

-- erasing

theorem eraseStripe_stripes (t : Tray) (v : FStripe) :
    t.sameRest (t.eraseStripe v) ∧ (t.eraseStripe v).stripes = t.stripes.filter (fun q => q.no != v.no) := by
  unfold Tray.eraseStripe
  extract_lets u
  have h : ∀ (l : List (Nat × Option FBlock)) (t : Tray), ∃ f, l.foldl (fun (u : Tray) b =>
      match b.2 with
      | some k => u.setFree (16 * v.group + b.1) (giveBlock (k.erases + 1) (u.free.getD (16 * v.group + b.1) []))
      | none => u) t = { t with free := f } := by
    intro l
    induction l with
    | nil => exact fun t => ⟨t.free, rfl⟩
    | cons b l ih =>
      intro t
      rw [List.foldl_cons]
      cases hb : b.2 with
      | none => exact ih t
      | some k => obtain ⟨f, hf⟩ := ih (t.setFree (16 * v.group + b.1) (giveBlock (k.erases + 1) (t.free.getD (16 * v.group + b.1) []))); exact ⟨f, hf⟩
  obtain ⟨f, hf⟩ : ∃ f, u = { t with free := f } := h _ t
  rw [hf]
  exact ⟨rfl, rfl⟩

/-- Stripes leave a tray when it settles; those that stay are as they were, and one that holds a valid unit stays. -/
theorem settle_stripes (t : Tray) : t.sameRest t.settle.1 ∧
    t.settle.1.stripes = t.stripes.filter (fun q => (t.stripes.filter t.mayErase).all (fun v => q.no != v.no)) := by
  have h : ∀ (l : List FStripe) (q : Tray × Nat),
      q.1.sameRest (l.foldl (fun q v => (q.1.eraseStripe v, if v.leaving == some true then q.2 + 1 else q.2)) q).1
      ∧ (l.foldl (fun q v => (q.1.eraseStripe v, if v.leaving == some true then q.2 + 1 else q.2)) q).1.stripes
        = q.1.stripes.filter (fun w => l.all (fun v => w.no != v.no)) := by
    intro l
    induction l with
    | nil => exact fun q => ⟨q.1.sameRest_refl, by simp⟩
    | cons v l ih =>
      intro q
      obtain ⟨h1, h2⟩ := ih (q.1.eraseStripe v, if v.leaving == some true then q.2 + 1 else q.2)
      obtain ⟨e1, e2⟩ := eraseStripe_stripes q.1 v
      refine ⟨Tray.sameRest_trans e1 h1, ?_⟩
      rw [List.foldl_cons, h2]
      dsimp only
      rw [e2, List.filter_filter]
      simp only [List.all_cons, Bool.and_comm]
  exact h _ (t, 0)

theorem mem_settle {t : Tray} {w : FStripe} (h : w ∈ t.settle.1.stripes) : w ∈ t.stripes := by
  rw [(settle_stripes t).2] at h
  exact (List.mem_filter.1 h).1

end Sys2Proof.Machine
end

section
/-! PROOFS. Which stripe of a flash tray the map names for a unit, and that moves keep every unit mapped (R380, R388, R393). -/

namespace Sys2Proof.Machine

/-- The map names a copy of unit u of page p in stripe n. -/
def Tray.maps (t : Tray) (n p u : Nat) : Prop := ∃ w ∈ t.stripes, w.no = n ∧ ∃ c ∈ w.live, c.page = p ∧ c.unit = u

theorem unmap_live (v : FStripe) (p u : Nat) (c : FCopy) : c ∈ (v.unmap p u).live ↔ c ∈ v.live ∧ ¬(c.page = p ∧ c.unit = u) := by
  simp only [FStripe.live, FStripe.unmap, List.mem_filter, List.mem_map]
  constructor
  · rintro ⟨⟨k, hk, rfl⟩, hv⟩
    split at hv
    · cases hv
    · rename_i hn
      rw [if_neg hn]
      simp only [FCopy.names, Bool.and_eq_true, beq_iff_eq, not_and] at hn
      exact ⟨⟨hk, hv⟩, fun h => hn h hv⟩
  · rintro ⟨⟨hc, hv⟩, hn⟩
    exact ⟨⟨c, hc, if_neg (by simpa [FCopy.names, hv] using hn)⟩, hv⟩

theorem maps_unmapUnit (t : Tray) (p u n p' u' : Nat) : (t.unmapUnit p u).maps n p' u' ↔ t.maps n p' u' ∧ ¬(p' = p ∧ u' = u) := by
  unfold Tray.maps
  rw [unmapUnit_stripes]
  constructor
  · rintro ⟨w, hw, hn, c, hc, rfl, rfl⟩
    obtain ⟨v, hv, rfl⟩ := List.mem_map.1 hw
    obtain ⟨hl, hne⟩ := (unmap_live v p u c).1 hc
    exact ⟨⟨v, hv, hn, c, hl, rfl, rfl⟩, hne⟩
  · rintro ⟨⟨v, hv, hn, c, hc, rfl, rfl⟩, hne⟩
    exact ⟨_, List.mem_map_of_mem hv, hn, c, (unmap_live v p u c).2 ⟨hc, hne⟩, rfl, rfl⟩

theorem maps_setStripe (t : Tray) (w : FStripe) (n p u : Nat) :
    (t.setStripe w).maps n p u ↔ if n = w.no then (∃ q ∈ t.stripes, q.no = n) ∧ ∃ c ∈ w.live, c.page = p ∧ c.unit = u else t.maps n p u := by
  have hs : ∀ x, x ∈ (t.setStripe w).stripes ↔ ∃ q ∈ t.stripes, (if q.no == w.no then w else q) = x := fun x => List.mem_map
  unfold Tray.maps
  simp only [hs]
  split
  · rename_i hn
    constructor
    · rintro ⟨x, ⟨q, hq, rfl⟩, hx, hc⟩
      by_cases he : q.no = w.no
      · rw [if_pos (by simpa using he)] at hc
        exact ⟨⟨q, hq, he.trans hn.symm⟩, hc⟩
      · rw [if_neg (by simpa using he)] at hx
        exact absurd (hx.trans hn) he
    · rintro ⟨⟨q, hq, hqn⟩, hc⟩
      exact ⟨w, ⟨q, hq, if_pos (by simpa using hqn.trans hn)⟩, hn.symm, hc⟩
  · rename_i hn
    constructor
    · rintro ⟨x, ⟨q, hq, rfl⟩, hx, hc⟩
      by_cases he : q.no = w.no
      · rw [if_pos (by simpa using he)] at hx
        exact absurd hx.symm hn
      · rw [if_neg (by simpa using he)] at hx hc
        exact ⟨q, hq, hx, hc⟩
    · rintro ⟨q, hq, hqn, hc⟩
      exact ⟨q, ⟨q, hq, if_neg (by simpa using fun e => hn (hqn.symm.trans e))⟩, hqn, hc⟩

-- numbers

theorem numbered_unique {t : Tray} (h : t.numbered) {v w : FStripe} (hv : v ∈ t.stripes) (hw : w ∈ t.stripes) (he : v.no = w.no) : v = w :=
  List.inj_on_of_nodup_map h.1 hv hw he

theorem numbered_of_nos {t u : Tray} (h : t.numbered) (hs : u.stripes.map (·.no) = t.stripes.map (·.no)) (hn : u.nextStripe = t.nextStripe) :
    u.numbered := by
  refine ⟨hs ▸ h.1, fun v hv => ?_⟩
  have hm : v.no ∈ u.stripes.map (·.no) := List.mem_map_of_mem hv
  rw [hs] at hm
  obtain ⟨w, hw, he⟩ := List.mem_map.1 hm
  rw [hn, ← he]
  exact h.2 w hw

theorem nos_setStripe (t : Tray) (w : FStripe) : (t.setStripe w).stripes.map (·.no) = t.stripes.map (·.no) := by
  simp only [Tray.setStripe, List.map_map]
  refine List.map_congr_left (fun q _ => ?_)
  by_cases h : q.no = w.no <;> simp [h]

theorem numbered_setStripe {t : Tray} (h : t.numbered) (w : FStripe) : (t.setStripe w).numbered :=
  numbered_of_nos h (nos_setStripe t w) rfl

theorem numbered_unmapUnit {t : Tray} (h : t.numbered) (p u : Nat) : (t.unmapUnit p u).numbered := by
  refine numbered_of_nos h ?_ (unmapUnit_rest t p u).2
  rw [unmapUnit_stripes, List.map_map]
  rfl

theorem withOpen_numbered {t w : Tray} {g : Nat} {b : Bool} {v : FStripe} (h : t.numbered) (ho : t.withOpen g b = some (w, v)) :
    w.numbered ∧ (∀ n p u, w.maps n p u ↔ t.maps n p u) ∧ ∀ x ∈ t.stripes, x ∈ w.stripes := by
  rcases (withOpen_some ho).2.2 with rfl | ⟨f, x, hx, hc, rfl⟩
  · exact ⟨h, fun _ _ _ => Iff.rfl, fun _ h => h⟩
  · refine ⟨⟨?_, fun y hy => ?_⟩, fun n p u => ?_, fun y hy => List.mem_append_left _ hy⟩
    · rw [List.map_append, List.nodup_append]
      refine ⟨h.1, by simp, fun a ha b hb hab => ?_⟩
      obtain ⟨y, hy, rfl⟩ := List.mem_map.1 ha
      have := h.2 y hy
      simp only [List.map_cons, List.map_nil, List.mem_singleton] at hb
      omega
    · rcases List.mem_append.1 hy with hy | hy
      · exact Nat.lt_succ_of_lt (h.2 y hy)
      · rw [List.mem_singleton.1 hy, hx]; exact Nat.lt_succ_self _
    · constructor
      · rintro ⟨y, hy, hn, c, hl, hpu⟩
        rcases List.mem_append.1 hy with hy | hy
        · exact ⟨y, hy, hn, c, hl, hpu⟩
        · rw [List.mem_singleton.1 hy, FStripe.live, hc] at hl
          cases hl
      · rintro ⟨y, hy, hrest⟩
        exact ⟨y, List.mem_append_left _ hy, hrest⟩

/-- After a program the map names the unit in the stripe that took it, and there alone; every other unit is named where it was. -/
theorem maps_program {t z : Tray} {m g p u n r : Nat} {b : Bool} {d : List Host.Cell} (h : t.numbered) (hp : t.program m g b p u d = some (z, n, r)) :
    z.numbered ∧ ∀ k p' u', z.maps k p' u' ↔ (k = n ∧ p' = p ∧ u' = u) ∨ (t.maps k p' u' ∧ ¬(p' = p ∧ u' = u)) := by
  obtain ⟨t0, v0, v, w, e, c, ho, hv, rfl, hw, hc, rfl, rfl, hval, rfl⟩ := program_some hp
  obtain ⟨h0, hm0, -⟩ := withOpen_numbered h ho
  have h1 := numbered_unmapUnit h0 c.page c.unit
  have hmem : v ∈ (t0.unmapUnit c.page c.unit).stripes := List.mem_of_find?_eq_some hv
  have hlive : ∀ k, k ∈ w.live ↔ k ∈ v.live ∨ k = c := by
    intro k
    simp only [FStripe.live, hc, List.filter_append, List.mem_append, List.filter_cons_of_pos hval, List.filter_nil, List.mem_singleton]
  refine ⟨numbered_setStripe h1 w, fun k p' u' => ?_⟩
  rw [← hm0, ← maps_unmapUnit]
  refine (maps_setStripe (t0.unmapUnit c.page c.unit) w k p' u').trans ?_
  by_cases hk : k = v.no
  · subst hk
    rw [if_pos hw.symm]
    constructor
    · rintro ⟨-, a, ha, rfl, rfl⟩
      rcases (hlive a).1 ha with ha | rfl
      · exact .inr ⟨v, hmem, rfl, a, ha, rfl, rfl⟩
      · exact .inl ⟨rfl, rfl, rfl⟩
    · rintro (⟨-, rfl, rfl⟩ | ⟨x, hx, hn, a, ha, rfl, rfl⟩)
      · exact ⟨⟨v, hmem, rfl⟩, c, (hlive c).2 (.inr rfl), rfl, rfl⟩
      · rw [numbered_unique h1 hx hmem hn] at ha
        exact ⟨⟨v, hmem, rfl⟩, a, (hlive a).2 (.inl ha), rfl, rfl⟩
  · rw [if_neg (fun e => hk (e.trans hw))]
    simp [hk]

/-- A closed stripe takes no program, and stays closed. -/
def Tray.shut (t : Tray) (n : Nat) : Prop := ∃ w ∈ t.stripes, w.no = n ∧ w.closed = true

theorem shut_program {t z : Tray} {m g p u n r k : Nat} {b : Bool} {d : List Host.Cell} (h : t.numbered) (hs : t.shut k)
    (hp : t.program m g b p u d = some (z, n, r)) : n ≠ k ∧ z.shut k := by
  obtain ⟨t0, v0, v, w, e, c, ho, hv, rfl, hw, -, -, -, -, rfl⟩ := program_some hp
  obtain ⟨h0, -, hsub⟩ := withOpen_numbered h ho
  obtain ⟨x, hx, rfl, hcl⟩ := hs
  have hvn : v.no = v0.no := by simpa using List.find?_some hv
  have hne : v.no ≠ x.no := by
    intro he
    have hv0 := withOpen_some ho
    rw [numbered_unique h0 (hsub x hx) hv0.1 (he.symm.trans hvn), hv0.2.1] at hcl
    cases hcl
  refine ⟨hne, x.unmap p u, ?_, rfl, hcl⟩
  show x.unmap p u ∈ ((t0.unmapUnit p u).setStripe w).stripes
  refine List.mem_map.2 ⟨x.unmap p u, ?_, if_neg ?_⟩
  · rw [unmapUnit_stripes]; exact List.mem_map_of_mem (hsub x hx)
  · rw [beq_iff_eq, hw]
    exact fun he => hne he.symm

/-- Units copied out of a closed stripe are mapped to other stripes, and to it no more. -/
theorem maps_copyUnits {m g k : Nat} (l : List FCopy) {t : Tray} (h : t.numbered) (hs : t.shut k) (ha : (t.copyUnits m g l).2.2 = true) :
    (t.copyUnits m g l).1.numbered
      ∧ (∀ p u, (t.copyUnits m g l).1.maps k p u → t.maps k p u ∧ ∀ c ∈ l, ¬(p = c.page ∧ u = c.unit))
      ∧ ∀ p u, ((∃ n, n ≠ k ∧ t.maps n p u) ∨ ∃ c ∈ l, p = c.page ∧ u = c.unit) → ∃ n, n ≠ k ∧ (t.copyUnits m g l).1.maps n p u := by
  induction l generalizing t with
  | nil => exact ⟨h, fun p u hm => ⟨hm, by simp⟩, fun p u hm => by simpa [Tray.copyUnits] using hm⟩
  | cons c l ih =>
    unfold Tray.copyUnits at ha ⊢
    cases hp : t.program m g false c.page c.unit c.data with
    | none => rw [hp] at ha; cases ha
    | some x =>
      obtain ⟨z, n, r⟩ := x
      rw [hp] at ha
      obtain ⟨hz, hmaps⟩ := maps_program h hp
      obtain ⟨hne, hsz⟩ := shut_program h hs hp
      obtain ⟨h1, h2, h3⟩ := ih hz hsz ha
      refine ⟨h1, fun p u hm => ?_, fun p u hm => h3 p u ?_⟩
      · obtain ⟨hzm, hl⟩ := h2 p u hm
        rcases (hmaps k p u).1 hzm with ⟨he, -⟩ | ⟨ht, hc⟩
        · exact absurd he.symm hne
        · exact ⟨ht, fun a ha => (List.mem_cons.1 ha).elim (fun e => e ▸ hc) (hl a)⟩
      · by_cases hc : p = c.page ∧ u = c.unit
        · exact .inl ⟨n, hne, (hmaps n p u).2 (.inl ⟨rfl, hc⟩)⟩
        · rcases hm with ⟨j, hj, hm⟩ | ⟨a, ha, hpu⟩
          · exact .inl ⟨j, hj, (hmaps j p u).2 (.inr ⟨hm, hc⟩)⟩
          · rcases List.mem_cons.1 ha with rfl | ha
            · exact absurd hpu hc
            · exact .inr ⟨a, ha, hpu⟩

/-- Settling a tray keeps the map. -/
theorem maps_settle {t : Tray} (h : t.numbered) (n p u : Nat) : t.settle.1.maps n p u ↔ t.maps n p u := by
  constructor
  · rintro ⟨w, hw, hrest⟩
    exact ⟨w, mem_settle hw, hrest⟩
  · rintro ⟨w, hw, hn, c, hc, hpu⟩
    refine ⟨w, ?_, hn, c, hc, hpu⟩
    rw [(settle_stripes t).2]
    refine List.mem_filter.2 ⟨hw, List.all_eq_true.2 (fun v hv => ?_)⟩
    obtain ⟨hv, hmay⟩ := List.mem_filter.1 hv
    rw [bne_iff_ne]
    intro he
    obtain rfl := numbered_unique h hw hv he
    simp only [Tray.mayErase, Bool.and_eq_true, List.isEmpty_iff] at hmay
    rw [hmay.1.2] at hc
    cases hc

end Sys2Proof.Machine
end

section
/-! PROOFS. The state and its flash trays: reading back a tray, the tray block that follows it (R399, R403), 64-bit counts. -/

namespace Sys2Proof.Machine

theorem tray_link {s : State} {l : Nat} {y : Tray} (h : s.tray l = some y) : y.link = l := by
  simpa using List.find?_some h

theorem tray_setTray {s : State} {l : Nat} {y z : Tray} (h : s.tray l = some y) (hz : z.link = l) : (s.setTray z).tray l = some z := by
  subst hz
  have hf : ∀ L : List Tray, L.find? (fun t => t.link == z.link) = some y →
      (L.map (fun u => if u.link == z.link then z else u)).find? (fun t => t.link == z.link) = some z := by
    intro L
    induction L with
    | nil => intro h; cases h
    | cons a L ih =>
      intro h
      by_cases ha : a.link = z.link
      · simp [ha]
      · rw [List.find?_cons, beq_eq_false_iff_ne.2 ha] at h
        simp only [List.map_cons, beq_iff_eq, if_neg ha, List.find?_cons, beq_eq_false_iff_ne.2 ha]
        simpa using ih h
  exact hf _ h

theorem tray_of_flash {s t : State} (h : t.flash = s.flash) (l : Nat) : t.tray l = s.tray l := by
  unfold State.tray
  rw [h]

theorem onTray_some {s : State} {l : Nat} {y : Tray} (h : s.tray l = some y) (f : Tray → State) : s.onTray l f = f y := by
  simp only [State.onTray, h]

-- the tray block

/-- The registers of its block that follow a tray; the unit counts, rebuilds and failed programs are counted elsewhere. -/
def syncRegs (l : Nat) : List Nat := 0x314 :: [0, 4, 8, 0xC, 0x10, 0x14, 0x18, 0x1C, 0x30, 0x34].map (trayReg l)

theorem mem_syncRegs {l o : Nat} (h : o ∈ [0, 4, 8, 0xC, 0x10, 0x14, 0x18, 0x1C, 0x30, 0x34]) : trayReg l o ∈ syncRegs l :=
  List.mem_cons_of_mem _ (List.mem_map_of_mem h)

theorem mem_trayRegs {l i : Nat} (h : i < 16) : trayReg l (4 * i) ∈ trayRegs l :=
  List.mem_cons_of_mem _ (List.mem_map.2 ⟨i, List.mem_range.2 h, rfl⟩)

theorem syncRegs_sub (l : Nat) : ∀ o ∈ syncRegs l, o ∈ trayRegs l := by
  intro o ho
  rcases List.mem_cons.1 ho with rfl | ho
  · exact List.mem_cons_self
  · obtain ⟨k, hk, rfl⟩ := List.mem_map.1 ho
    obtain ⟨i, hi, rfl⟩ : ∃ i, i < 16 ∧ 4 * i = k := by
      revert hk
      have : ∀ k ∈ [0, 4, 8, 0xC, 0x10, 0x14, 0x18, 0x1C, 0x30, 0x34], ∃ i, i < 16 ∧ 4 * i = k := by decide
      exact this k
    exact mem_trayRegs hi

theorem notMem_syncRegs {l o : Nat} (ho : o < 0x40) (h : o ∉ [0, 4, 8, 0xC, 0x10, 0x14, 0x18, 0x1C, 0x30, 0x34]) : trayReg l o ∉ syncRegs l := by
  simp only [syncRegs, List.mem_cons, List.mem_map, not_or, not_exists, not_and]
  refine ⟨by unfold trayReg; omega, fun k hk he => h ?_⟩
  have : k = o := by unfold trayReg at he; omega
  simpa [this] using hk

/-- The parts of the tray block before the tray's state is settled. -/
def State.trayBlock (s : State) (t : Tray) (reclaimed : Nat) : State :=
  let b := trayReg t.link
  let n := blockCount t.wears
  let mean := (t.wears.foldl (fun a p => a + p.1 * p.2) 0) / max 1 n
  let top := t.wears.foldl (fun a p => if p.2 = 0 then a else max a p.1) 0
  let buf := (List.range t.groups).foldl (fun a g => a + t.bufferBlocks g * (t.liveDies g).length) 0
  let life := if t.rated = 0 then 10000 else min 10000 (10000 * mean / t.rated)
  let s1 := ((((((s.setTray t).wrn (b 0x04) (t.dies + 2 ^ 10 * t.failed.length)).wrn (b 0x08)
    (offered (t.dies - t.failed.length) (trayData t.blocks) (s.mainPages t.pSlc))).wrn (b 0x0C) (t.spares.foldl (· + ·) 0)).wrn (b 0x10) mean).wrn
      (b 0x14) top).wrn (b 0x18) t.rated
  let s2 := ((s1.wrn (b 0x1C) life).wrn (b 0x30) buf).sat (b 0x34) reclaimed
  s2.when ((List.range t.dies).any (fun d => !t.failed.contains d && t.spares.getD d 0 * 8 < traySpares t.blocks)) (·.set 0x314 0x20)

/-- A unit of the pool takes no writes any more. -/
def TierS.unitDown (t : TierS) (l : Nat) : TierS :=
  { t with units := t.units.map (fun x => if x.unit == 0x40 + l then { x with up := false } else x) }

/-- The last step of the tray block: the tray turns read-only, has been rebuilt, or goes on (R391, R399). -/
def State.trayEnd (u : State) (t : Tray) : State :=
  if t.exhausted && (u.trayState t.link == 1 || u.trayState t.link == 3) then
    { (u.wrFld (trayReg t.link 0) 0 3 2).set 0x314 0x1 with tier := ((u.wrFld (trayReg t.link 0) 0 3 2).set 0x314 0x1).tier.unitDown t.link }
  else if u.trayState t.link == 3 && t.rebuild.isEmpty then u.wrFld (trayReg t.link 0) 0 3 1
  else u

theorem traySync_eq (s : State) (y : Tray) : s.traySync y = (s.trayBlock y.settle.1 y.settle.2).trayEnd y.settle.1 := rfl

theorem only_trayBlock (s : State) (y : Tray) (n : Nat) : only [.flash] (syncRegs y.link) s (s.trayBlock y n) := by
  have hw : ∀ (t : State) (o n : Nat), o ∈ [0, 4, 8, 0xC, 0x10, 0x14, 0x18, 0x1C, 0x30, 0x34] → only [.flash] (syncRegs y.link) t (t.wrn (trayReg y.link o) n) :=
    fun t o n ho => only_wrn _ t n (mem_syncRegs ho)
  have h314 : 0x314 ∈ syncRegs y.link := List.mem_cons_self
  unfold State.trayBlock
  extract_lets b n' mean top buf life s1 s2
  have h0 : only [.flash] (syncRegs y.link) s (s.setTray y) := only_put_flash _ _ _ (by simp)
  have h1 : only [.flash] (syncRegs y.link) s s1 :=
    only_trans h0 <| only_trans (hw _ 4 _ (by decide)) <| only_trans (hw _ 8 _ (by decide)) <| only_trans (hw _ 0xC _ (by decide)) <|
      only_trans (hw _ 0x10 _ (by decide)) <| only_trans (hw _ 0x14 _ (by decide)) (hw _ 0x18 _ (by decide))
  have h2 : only [.flash] (syncRegs y.link) s1 s2 :=
    only_trans (hw _ 0x1C _ (by decide)) <| only_trans (hw _ 0x30 _ (by decide)) (only_sat _ _ _ (mem_syncRegs (by decide)))
  exact only_trans h1 (only_trans h2 (only_when _ _ (fun _ => only_set _ _ _ h314)))

theorem flash_trayBlock (s : State) (y : Tray) (n : Nat) : (s.trayBlock y n).flash = (s.setTray y).flash := by
  unfold State.trayBlock State.when
  extract_lets b n' mean top buf life s1 s2
  have h2 : s2.flash = (s.setTray y).flash := rfl
  clear_value s2
  split
  · exact h2
  · exact h2

theorem bit_set_mono {s : State} {o i : Nat} {m : Word} (h : s.bit o i = true) : (s.set o m).bit o i = true := by
  rw [State.bit, State.rd_set_same, BitVec.getLsbD_or]
  exact Bool.or_eq_true_iff.2 (.inl h)

theorem bit_of_rd {s t : State} {o : Nat} (h : t.rd o = s.rd o) (i : Nat) : t.bit o i = s.bit o i := by rw [State.bit, State.bit, h]

theorem reg314_ne (l o : Nat) : 0x314 ≠ trayReg l o := by unfold trayReg; omega

theorem bit_trayBlock {s : State} (y : Tray) (n : Nat) {i : Nat} (h : s.bit 0x314 i = true) : (s.trayBlock y n).bit 0x314 i = true := by
  unfold State.trayBlock State.when
  extract_lets b n' mean top buf life s1 s2
  have h2 : s2.bit 0x314 i = true := by
    rw [bit_of_rd (s := s) ?_ i]
    · exact h
    · have ht : (s.setTray y).rd 0x314 = s.rd 0x314 := rfl
      simp only [s2, s1, b, State.rd_sat_ne _ _ _ _ (reg314_ne _ _), State.rd_wrn_ne _ _ _ _ (reg314_ne _ _), ht]
  clear_value s2
  split
  · exact bit_set_mono h2
  · exact h2

theorem trayEnd_keeps (u : State) (t : Tray) :
    only [.tier] (syncRegs t.link) u (u.trayEnd t) ∧ (∃ us, (u.trayEnd t).tier = { u.tier with units := us })
      ∧ ∀ i, u.bit 0x314 i = true → (u.trayEnd t).bit 0x314 i = true := by
  have h0 : trayReg t.link 0 ∈ syncRegs t.link := mem_syncRegs (by decide)
  have h314 : 0x314 ∈ syncRegs t.link := List.mem_cons_self
  have hb : ∀ n i, u.bit 0x314 i = true → (u.wrFld (trayReg t.link 0) 0 3 n).bit 0x314 i = true :=
    fun n i hi => (bit_of_rd (State.rd_wrFld_ne _ _ _ _ _ _ (reg314_ne _ _)) i).trans hi
  have hw : ∀ n, only [.tier] (syncRegs t.link) u (u.wrFld (trayReg t.link 0) 0 3 n) := fun n => only_wrFld _ u _ _ _ h0
  unfold State.trayEnd
  split
  · have hs : only [] (syncRegs t.link) u ((u.wrFld (trayReg t.link 0) 0 3 2).set 0x314 0x1) :=
      only_trans (only_wrFld _ u _ _ _ h0) (only_set _ _ _ h314)
    have h1 : ∀ i, u.bit 0x314 i = true → ((u.wrFld (trayReg t.link 0) 0 3 2).set 0x314 0x1).bit 0x314 i = true :=
      fun i hi => bit_set_mono (hb 2 i hi)
    generalize (u.wrFld (trayReg t.link 0) 0 3 2).set 0x314 0x1 = x at hs h1 ⊢
    have hx : x.tier = u.tier := hs.1 .tier (by simp)
    refine ⟨only_trans (only_mono hs (by simp) (fun _ h => h)) (only_put_tier _ x _ (by simp)), ?_, h1⟩
    exact ⟨(x.tier.unitDown t.link).units, by rw [hx]; rfl⟩
  · split
    · exact ⟨hw 1, ⟨u.tier.units, rfl⟩, hb 1⟩
    · exact ⟨only_refl _ _ _, ⟨u.tier.units, rfl⟩, fun i hi => hi⟩

theorem traySync_end (s : State) (y : Tray) :
    only [.tier] (syncRegs y.settle.1.link) (s.trayBlock y.settle.1 y.settle.2) (s.traySync y)
      ∧ (∃ us, (s.traySync y).tier = { (s.trayBlock y.settle.1 y.settle.2).tier with units := us })
      ∧ ∀ i, (s.trayBlock y.settle.1 y.settle.2).bit 0x314 i = true → (s.traySync y).bit 0x314 i = true := by
  rw [traySync_eq]
  exact trayEnd_keeps _ _

theorem settle_link (y : Tray) : y.settle.1.link = y.link := Tray.sameRest_link (settle_stripes y).1

theorem only_traySync {s : State} {l : Nat} {y : Tray} (h : y.link = l) : only [.flash, .tier] (syncRegs l) s (s.traySync y) := by
  have hl : y.settle.1.link = l := (settle_link y).trans h
  have hb := only_trayBlock s y.settle.1 y.settle.2
  have he := (traySync_end s y).1
  rw [hl] at hb he
  exact only_trans (only_mono hb (by simp) (fun _ h => h)) (only_mono he (by simp) (fun _ h => h))

theorem tray_traySync {s : State} {l : Nat} {y0 y : Tray} (h : s.tray l = some y0) (hy : y.link = l) : (s.traySync y).tray l = some y.settle.1 := by
  have hf : (s.traySync y).flash = (s.setTray y.settle.1).flash :=
    ((traySync_end s y).1.1 .flash (by simp)).trans (flash_trayBlock s _ _)
  rw [tray_of_flash hf]
  exact tray_setTray h ((settle_link y).trans hy)

theorem tier_traySync (s : State) (y : Tray) : ∃ us, (s.traySync y).tier = { s.tier with units := us } := by
  obtain ⟨us, hus⟩ := (traySync_end s y).2.1
  have hb : (s.trayBlock y.settle.1 y.settle.2).tier = s.tier := (only_trayBlock s _ _).1 .tier (by simp)
  exact ⟨us, by rw [hus, hb]⟩

theorem bit_traySync {s : State} (y : Tray) {i : Nat} (h : s.bit 0x314 i = true) : (s.traySync y).bit 0x314 i = true :=
  (traySync_end s y).2.2 i (bit_trayBlock _ _ h)

-- 64-bit counts

theorem rd64_wr64 {s : State} {o n : Nat} (h : n < 2 ^ 64) : (s.wr64 o n).rd64 o = n := by
  unfold State.rd64 State.wr64
  rw [State.rd_wrn_same, State.rd_wrn_ne _ _ _ _ (by omega), State.rd_wrn_same, BitVec.toNat_ofNat, BitVec.toNat_ofNat]
  omega

theorem rd64_sat64 (s : State) (o n : Nat) : (s.sat64 o n).rd64 o = min (2 ^ 64 - 1) (s.rd64 o + n) :=
  rd64_wr64 (by omega)

theorem rd64_of_rd {s t : State} {o : Nat} (h : t.rd o = s.rd o) (h4 : t.rd (o + 4) = s.rd (o + 4)) : t.rd64 o = s.rd64 o := by
  rw [State.rd64, State.rd64, h, h4]

theorem only_sat64 (s : State) (o n : Nat) : only [] [o, o + 4] s (s.sat64 o n) := only_wr64 _ _ _ (by simp) (by simp)

theorem only_programmed (s : State) (l n : Nat) : only [] [trayReg l 0x28, trayReg l 0x2C] s (s.programmed l n) := only_sat64 s (trayReg l 0x28) n

theorem only_tray_count {s : State} {l o n : Nat} (h : trayReg l o ∈ trayRegs l) (h4 : trayReg l (o + 4) ∈ trayRegs l) :
    only [.flash, .tier] (trayRegs l) s (s.sat64 (trayReg l o) n) :=
  only_wr64 _ _ _ h h4

/-- A tray takes a new form: its block follows, and its programs count. -/
theorem only_syncProgrammed {s : State} {l n : Nat} {y : Tray} (h : y.link = l) :
    only [.flash, .tier] (trayRegs l) s ((s.traySync y).programmed l n) :=
  only_trans (only_mono (only_traySync h) (by simp) (syncRegs_sub l))
    (only_tray_count (mem_trayRegs (i := 10) (by decide)) (mem_trayRegs (i := 11) (by decide)))

theorem tray_programmed (s : State) (l n k : Nat) : (s.programmed l n).tray k = s.tray k := tray_of_flash rfl k

end Sys2Proof.Machine
end

section
/-! PROOFS. The write cache and destaging (R385, R386). -/

namespace Sys2Proof.Machine

-- the cache takes a unit

theorem mem_eraseP_dirty {l : List CUnit} {c : CUnit} (h : c ∈ l) (hd : c.dirty = true) : c ∈ l.eraseP (fun k => !k.dirty) :=
  (List.mem_eraseP_of_neg (by simp [hd])).2 h

/-- The cache of a tray after it took a unit: the unit is there, dirty when asked, and every dirty unit stays. -/
theorem take_cache (t : Tray) (p u : Nat) (b : Bool) :
    (∃ c ∈ (t.take p u b).cache, c.page = p ∧ c.unit = u ∧ (b = true → c.dirty = true))
      ∧ (∀ c ∈ t.cache, c.dirty = true → c ∈ (t.take p u b).cache) := by
  unfold Tray.take
  extract_lets mine others kept v
  split
  · rename_i h
    simp only [List.any_eq_true, mine, Bool.and_eq_true, Bool.or_eq_true, beq_iff_eq, Bool.not_eq_true'] at h
    obtain ⟨c, hc, ⟨hp, hu⟩, hd⟩ := h
    exact ⟨⟨c, hc, hp, hu, fun hb => hd.resolve_right (by simp [hb])⟩, fun c hc _ => hc⟩
  · rename_i h
    have hv : (if b = true then v.unmapUnit p u else v).cache = v.cache := by
      split
      · exact Tray.sameRest_cache (unmapUnit_rest v p u).1
      · rfl
    rw [hv]
    refine ⟨⟨_, List.mem_append_right _ List.mem_cons_self, rfl, rfl, fun hb => hb⟩, fun c hc hd => ?_⟩
    by_cases hm : mine c = true
    · exact absurd (List.any_eq_true.2 ⟨c, hc, by rw [hm, hd]; rfl⟩) h
    · have ho : c ∈ others := List.mem_filter.2 ⟨hc, by simpa using hm⟩
      refine List.mem_append_left _ ?_
      unfold kept
      split
      · exact ho
      · exact mem_eraseP_dirty ho hd

theorem take_rest (t : Tray) (p u : Nat) (b : Bool) : (t.take p u b).link = t.link ∧ (t.take p u b).waits = t.waits := by
  unfold Tray.take
  extract_lets mine others kept v
  split
  · exact ⟨rfl, rfl⟩
  · split
    · have h := (unmapUnit_rest v p u).1
      exact ⟨(Tray.sameRest_link h :), (congrArg Tray.waits h :)⟩
    · exact ⟨rfl, rfl⟩

/-- WRITE_CACHE_FILL of a unit that lies on the tray, with room for it (R385). -/
theorem writeCacheFill_takes (s : State) (l p u : Nat) (y : Tray) (hy : s.tray l = some y) (hh : s.unitHere l p u = true)
    (hw : s.trayWorks l = true) (hr : y.room p u = true) :
    ∃ t z, exec (.writeCacheFill l p u) s = .next t ∧ only [.flash, .pending] [] s t ∧ t.tray l = some z
      ∧ (∃ c ∈ z.cache, c.page = p ∧ c.unit = u ∧ ((∃ w ∈ y.waits, w.page = p ∧ w.unit = u) → c.dirty = true))
      ∧ (∀ c ∈ y.cache, c.dirty = true → c ∈ z.cache) ∧ (∀ w ∈ z.waits, ¬(w.page = p ∧ w.unit = u))
      ∧ t.pending = (s.flash.held.filter (fun h => h.1 == l && h.2.1 == p && h.2.2.1 == u)).map (·.2.2.2) ++ s.pending := by
  let v : Tray := { y with waits := y.waits.filter (fun c => !(c.page == p && c.unit == u)) }
  let z : Tray := v.take p u (y.waits.any (fun c => c.page == p && c.unit == u))
  let t : State := { s.setTray z with
    flash := { (s.setTray z).flash with held := (s.setTray z).flash.held.filter (fun h => !(h.1 == l && h.2.1 == p && h.2.2.1 == u)) }
    pending := (s.flash.held.filter (fun h => h.1 == l && h.2.1 == p && h.2.2.1 == u)).map (·.2.2.2) ++ (s.setTray z).pending }
  have he : exec (.writeCacheFill l p u) s = .next t := by
    show Host.Outcome.next (s.cacheFill l p u) = _
    unfold State.cacheFill
    rw [onTray_some hy]
    simp [hh, hw, hr, t, z, v]
  obtain ⟨⟨c, hc, hp, hu, hd⟩, hk⟩ := take_cache v p u (y.waits.any (fun c => c.page == p && c.unit == u))
  obtain ⟨hl, hwt⟩ := take_rest v p u (y.waits.any (fun c => c.page == p && c.unit == u))
  have hz : (s.setTray z).tray l = some z := tray_setTray hy ((hl :).trans (tray_link hy :))
  have ho : only [.flash, .pending] [] s t :=
    only_trans (only_put_flash [] s t.flash (by simp)) (only_put_pending [] { s with flash := t.flash } t.pending (by simp))
  refine ⟨t, z, he, ho, hz, ⟨c, hc, hp, hu, ?_⟩, hk, fun w hw => ?_, rfl⟩
  · rintro ⟨w, hw, rfl, rfl⟩
    exact hd (List.any_eq_true.2 ⟨w, hw, by simp⟩)
  · rw [hwt] at hw
    simpa [imp_iff_not_or] using (List.mem_filter.1 hw).2

-- destaging

theorem groupFor_some {s : State} {t z : Tray} {b : Bool} {p u : Nat} (h : s.groupFor t b p u = some z) : t.sameRest z := by
  obtain ⟨g, -, hg⟩ := List.exists_of_findSome?_eq_some h
  extract_lets open_ room at hg
  split at hg
  · obtain ⟨x, hx, rfl⟩ := Option.map_eq_some_iff.1 hg
    exact sameRest_program hx
  · cases hg

/-- The unit counts of a tray stay when its block follows. -/
theorem rd_traySync_count {s : State} {l o : Nat} {y : Tray} (hy : y.link = l) (ho : o < 0x40)
    (h : o ∉ [0, 4, 8, 0xC, 0x10, 0x14, 0x18, 0x1C, 0x30, 0x34]) : (s.traySync y).rd (trayReg l o) = s.rd (trayReg l o) :=
  (only_traySync hy).2 _ (notMem_syncRegs ho h)

/-- DESTAGE of the oldest dirty unit, when a group takes it (R386). -/
theorem destage_programs (s : State) (l : Nat) (y z : Tray) (c : CUnit) (hy : s.tray l = some y) (hc : y.cache.find? (·.dirty) = some c)
    (hh : s.unitHere l c.page c.unit = true) (hw : s.trayWorks l = true)
    (hg : (s.groupFor y true c.page c.unit).orElse (fun _ => s.groupFor y false c.page c.unit) = some z) :
    ∃ t, exec (.destage l) s = .next t ∧ only [.flash, .tier] (trayRegs l) s t
      ∧ t.tray l = some (({ z with cache := z.cache.map (fun k => if k == c then { k with dirty := false } else k) } : Tray).settle).1
      ∧ z.cache = y.cache
      ∧ t.rd64 (trayReg l 0x20) = min (2 ^ 64 - 1) (s.rd64 (trayReg l 0x20) + 1)
      ∧ t.rd64 (trayReg l 0x28) = min (2 ^ 64 - 1) (s.rd64 (trayReg l 0x28) + 1) := by
  have hz : y.sameRest z := by
    cases h : s.groupFor y true c.page c.unit with
    | none => rw [h] at hg; exact groupFor_some hg
    | some x => rw [h] at hg; cases hg; exact groupFor_some h
  let w : Tray := { z with cache := z.cache.map (fun k => if k == c then { k with dirty := false } else k) }
  have hl : w.link = l := (Tray.sameRest_link hz).trans (tray_link hy)
  have he : exec (.destage l) s = .next (((s.traySync w).sat64 (trayReg l 0x20) 1).programmed l 1) := by
    show Host.Outcome.next (s.destage l) = _
    unfold State.destage
    rw [onTray_some hy]
    simp only [hc, hh, hw, hg, Bool.not_true, Bool.false_eq_true, if_false]
    rfl
  have ho := only_traySync (s := s) hl
  have ht := tray_traySync hy hl
  have hr : ∀ o, o < 0x40 → o ∉ [0, 4, 8, 0xC, 0x10, 0x14, 0x18, 0x1C, 0x30, 0x34] → (s.traySync w).rd (trayReg l o) = s.rd (trayReg l o) :=
    fun o h1 h2 => rd_traySync_count hl h1 h2
  generalize s.traySync w = x at he ho ht hr
  have h20 : x.rd64 (trayReg l 0x20) = s.rd64 (trayReg l 0x20) := rd64_of_rd (hr 0x20 (by decide) (by decide)) (hr 0x24 (by decide) (by decide))
  have h28 : x.rd64 (trayReg l 0x28) = s.rd64 (trayReg l 0x28) := rd64_of_rd (hr 0x28 (by decide) (by decide)) (hr 0x2C (by decide) (by decide))
  have o20 := only_sat64 x (trayReg l 0x20) 1
  have o28 := only_programmed (x.sat64 (trayReg l 0x20) 1) l 1
  have hn20 : ∀ o, o ≠ 0x20 → o ≠ 0x24 → (x.sat64 (trayReg l 0x20) 1).rd (trayReg l o) = x.rd (trayReg l o) := fun o h1 h2 =>
    o20.2 _ (by unfold trayReg; simp; omega)
  have hn28 : ∀ o, o ≠ 0x28 → o ≠ 0x2C → ((x.sat64 (trayReg l 0x20) 1).programmed l 1).rd (trayReg l o) = (x.sat64 (trayReg l 0x20) 1).rd (trayReg l o) :=
    fun o h1 h2 => o28.2 _ (by unfold trayReg; simp; omega)
  have hb20 : only [.flash, .tier] (trayRegs l) x (x.sat64 (trayReg l 0x20) 1) :=
    only_tray_count (mem_trayRegs (i := 8) (by decide)) (mem_trayRegs (i := 9) (by decide))
  have hb28 : only [.flash, .tier] (trayRegs l) (x.sat64 (trayReg l 0x20) 1) ((x.sat64 (trayReg l 0x20) 1).programmed l 1) :=
    only_tray_count (mem_trayRegs (i := 10) (by decide)) (mem_trayRegs (i := 11) (by decide))
  refine ⟨_, he, only_trans (only_mono ho (by simp) (syncRegs_sub l)) (only_trans hb20 hb28), ht, Tray.sameRest_cache hz, ?_, ?_⟩
  · rw [rd64_of_rd (hn28 0x20 (by decide) (by decide)) (hn28 0x24 (by decide) (by decide)), rd64_sat64, h20]
  · show State.rd64 (State.sat64 _ (trayReg l 0x28) 1) _ = _
    rw [rd64_sat64, rd64_of_rd (hn20 0x28 (by decide) (by decide)) (hn20 0x2C (by decide) (by decide)), h28]

end Sys2Proof.Machine
end

section
/-! PROOFS. Moving a stripe: folding, collection, wear levelling and read refresh (R388, R392, R393, R395). -/

namespace Sys2Proof.Machine

theorem onTray_activity {s : State} {l : Nat} {y : Tray} (hy : s.tray l = some y) (hw : s.trayWorks l = true) (hb : s.atBoundary = true)
    (f : Tray → State) : s.activity l f = f y := by
  unfold State.activity
  rw [onTray_some hy]
  simp [hw, hb]

/-- A stripe that holds no valid unit was emptied. -/
theorem emptied_of_maps {t : State} {l : Nat} {v : FStripe} {z : Tray} (h : t.tray l = some z) (h0 : ∀ p u, ¬z.maps v.no p u)
    (h1 : ∀ c ∈ v.live, ∃ n, n ≠ v.no ∧ z.maps n c.page c.unit) : t.emptied l v := by
  refine ⟨z, h, fun w hw hn => ?_, fun c hc => ?_⟩
  · exact List.eq_nil_iff_forall_not_mem.2 (fun c hc => h0 c.page c.unit ⟨w, hw, hn, c, hc, rfl, rfl⟩)
  · obtain ⟨n, hn, w, hw, rfl, hk⟩ := h1 c hc
    exact ⟨w, hw, hn, hk⟩

/-- What a change of the marks of a stripe that is left leaves alone. -/
theorem maps_of_copies {t u : Tray} {f : FStripe → FStripe} (hs : u.stripes = t.stripes.map f) (hn : ∀ w, (f w).no = w.no)
    (hc : ∀ w, (f w).copies = w.copies) (n p q : Nat) : u.maps n p q ↔ t.maps n p q := by
  have hl : ∀ w, (f w).live = w.live := fun w => by rw [FStripe.live, hc]; rfl
  unfold Tray.maps
  rw [hs]
  constructor
  · rintro ⟨x, hx, h, hr⟩
    obtain ⟨w, hw, rfl⟩ := List.mem_map.1 hx
    rw [hn] at h
    rw [hl] at hr
    exact ⟨w, hw, h, hr⟩
  · rintro ⟨w, hw, h, hr⟩
    exact ⟨f w, List.mem_map_of_mem hw, (hn w).trans h, by rwa [hl]⟩

theorem readCopy_names (t : Tray) (v : FStripe) (c : FCopy) : (t.readCopy v c).page = c.page ∧ (t.readCopy v c).unit = c.unit := by
  unfold Tray.readCopy
  split <;> exact ⟨rfl, rfl⟩

/-- A stripe of a tray whose units left: closed, and marked as left with the rows that took them. -/
def FStripe.left (n : Nat) (m : Option Bool) (d : List (Nat × Nat)) (w : FStripe) : FStripe :=
  if w.no == n then { w with leaving := m, dests := w.dests ++ d } else w

theorem left_same (n : Nat) (m : Option Bool) (d : List (Nat × Nat)) (w : FStripe) : (w.left n m d).no = w.no ∧ (w.left n m d).copies = w.copies := by
  unfold FStripe.left
  split <;> exact ⟨rfl, rfl⟩

/-- A stripe of a numbered tray that is closed keeps the map, and is shut. -/
theorem close_keeps {y : Tray} {v : FStripe} (hn : y.numbered) (hv : v ∈ y.stripes) :
    (y.setStripe v.close).numbered ∧ (y.setStripe v.close).shut v.no ∧ ∀ n p u, (y.setStripe v.close).maps n p u ↔ y.maps n p u := by
  have hno : v.close.no = v.no := v.close_copies.2
  have hmem : v.close ∈ (y.setStripe v.close).stripes := List.mem_map.2 ⟨v, hv, if_pos (by simp [hno])⟩
  refine ⟨numbered_setStripe hn _, ⟨v.close, hmem, hno, rfl⟩, fun n p u => ?_⟩
  rw [maps_setStripe, v.close_live, hno]
  split
  · rename_i h
    subst h
    constructor
    · exact fun ⟨_, hc⟩ => ⟨v, hv, rfl, hc⟩
    · rintro ⟨w, hw, hwn, hc⟩
      rw [numbered_unique hn hw hv hwn] at hc
      exact ⟨⟨v, hv, rfl⟩, hc⟩
  · exact Iff.rfl

/-- A stripe whose units leave it, all with room and verified, is emptied (R393). -/
theorem moveStripe_empties {s : State} {l : Nat} {y : Tray} {v : FStripe} {b : Bool} (gc : Bool) (hy : s.tray l = some y) (hn : y.numbered)
    (hv : v ∈ y.stripes) (hm : s.movable y v b) :
    only [.flash, .tier] (trayRegs l) s (s.moveStripe y v b gc) ∧ (s.moveStripe y v b gc).emptied l v := by
  have hyl : y.link = l := tray_link hy
  obtain ⟨hcn, hcs, hcm⟩ := close_keeps hn hv
  unfold State.moveStripe
  by_cases hlive : v.live = []
  · rw [if_pos (by simp [hlive])]
    let z : Tray := y.setStripe { v.close with leaving := some gc, dests := [] }
    have hz : ∀ n p u, z.settle.1.maps n p u ↔ z.maps n p u := maps_settle (numbered_setStripe hn _)
    refine ⟨only_mono (only_traySync hyl) (by simp) (syncRegs_sub l), emptied_of_maps (tray_traySync hy hyl) (fun p u => ?_) ?_⟩
    · rw [hz, maps_setStripe]
      have hvl : ({ v.close with leaving := some gc, dests := [] } : FStripe).live = [] := v.close_live.trans hlive
      rw [if_pos v.close_copies.2.symm, hvl]
      rintro ⟨-, c, hc, -⟩
      cases hc
    · rw [hlive]
      intro c hc
      cases hc
  · obtain ⟨rfl, ha⟩ := hm.resolve_left hlive
    rw [if_neg (by simpa using hlive)]
    simp only [Bool.not_true, Bool.false_eq_true, if_false]
    have hrest := sameRest_copyUnits (s.mainPages y.pSlc) v.group (v.live.map (y.readCopy v)) (y.setStripe v.close)
    obtain ⟨h1, h2, h3⟩ := maps_copyUnits (v.live.map (y.readCopy v)) hcn hcs ha
    generalize (y.setStripe v.close).copyUnits (s.mainPages y.pSlc) v.group (v.live.map (y.readCopy v)) = r at *
    let z : Tray := { r.1 with stripes := r.1.stripes.map (FStripe.left v.no (if r.2.2 then some gc else none) r.2.1) }
    have hzm : ∀ n p u, z.maps n p u ↔ r.1.maps n p u :=
      maps_of_copies (t := r.1) (u := z) rfl (fun w => (left_same _ _ _ w).1) (fun w => (left_same _ _ _ w).2)
    have hzn : z.numbered := numbered_of_nos h1 (by simp [z, (left_same _ _ _ _).1]) rfl
    have hzl : z.link = l := (Tray.sameRest_link hrest).trans hyl
    have ht : ((s.traySync z).programmed y.link r.2.1.length).tray l = some z.settle.1 := tray_traySync hy hzl
    refine ⟨?_, emptied_of_maps ht (fun p u => ?_) (fun c hc => ?_)⟩
    · rw [hyl]
      exact only_syncProgrammed hzl
    · rw [maps_settle hzn, hzm]
      intro hmap
      obtain ⟨hold, hleft⟩ := h2 p u hmap
      obtain ⟨w, hw, hwn, c, hc, rfl, rfl⟩ := (hcm _ _ _).1 hold
      rw [numbered_unique hn hw hv hwn] at hc
      obtain ⟨hp, hu⟩ := readCopy_names y v c
      exact hleft _ (List.mem_map_of_mem hc) ⟨hp.symm, hu.symm⟩
    · obtain ⟨hp, hu⟩ := readCopy_names y v c
      obtain ⟨n, hne, hmap⟩ := h3 c.page c.unit (.inr ⟨_, List.mem_map_of_mem hc, hp.symm, hu.symm⟩)
      exact ⟨n, hne, by rwa [maps_settle hzn, hzm]⟩

theorem victim_mem {s : State} {t : Tray} {g : Nat} {v : FStripe} (h : s.victim t g = some v) : v ∈ t.stripes := by
  unfold State.victim at h
  generalize hL : t.stripes.filter _ = L at h
  have hf : ∀ (L : List FStripe) (b : Option FStripe), L.foldl
      (fun (b : Option FStripe) v => match b with
        | none => some v
        | some w => if v.live.length < w.live.length || (v.live.length == w.live.length && v.no < w.no) then some v else some w) b = some v →
      b = some v ∨ v ∈ L := by
    intro L
    induction L with
    | nil => exact fun b h => .inl h
    | cons a L ih =>
      intro b h
      rw [List.foldl_cons] at h
      rcases ih _ h with hb | hb
      · cases b with
        | none => exact .inr (Option.some.inj hb ▸ List.mem_cons_self)
        | some w =>
          dsimp only at hb
          split at hb
          · exact .inr (Option.some.inj hb ▸ List.mem_cons_self)
          · exact .inl hb
      · exact .inr (List.mem_cons_of_mem _ hb)
  have hv : v ∈ L := (hf L none h).resolve_left (by simp)
  rw [← hL] at hv
  exact (List.mem_filter.1 hv).1

/-- Folding, collection, wear levelling and read refresh empty the stripe that they choose (R388, R392, R395). -/
theorem movers_empty (s : State) (l : Nat) (b : Bool) (y : Tray) (v : FStripe) (hy : s.tray l = some y) (hw : s.trayWorks l = true)
    (hb : s.atBoundary = true) (hn : y.numbered) (hm : s.movable y v b) :
    (y.stripes.find? (fun v => v.buffer && v.leaving.isNone) = some v →
      ∃ t, exec (.folding l b) s = .next t ∧ only [.flash, .tier] (trayRegs l) s t ∧ t.emptied l v)
    ∧ (∀ g, g < y.groups → y.minFree g < (s.frd 0x30C).toNat → s.discardFirst y = false → s.victim y g = some v →
      ∃ t, exec (.garbageCollection l g b) s = .next t ∧ only [.flash, .tier] (trayRegs l) s t ∧ t.emptied l v)
    ∧ (∀ d, (y.dieWears d).foldl min ((y.dieWears d).headD 0) + (s.frd 0x310).toNat < (y.dieWears d).foldl max 0 →
        y.stripes.find? (fun v => v.group == d / 16 && v.leaving.isNone
          && (v.blocks.getD (d % 16) none).any (fun k => k.erases == (y.dieWears d).foldl min ((y.dieWears d).headD 0))) = some v →
      ∃ t, exec (.wearLevelling l d b) s = .next t ∧ only [.flash, .tier] (trayRegs l) s t ∧ t.emptied l v)
    ∧ (∀ n, y.stripe n = some v → v.leaving = none → (∃ k, some k ∈ v.blocks ∧ 100000 ≤ k.reads) →
      ∃ t, exec (.readRefresh l n b) s = .next t ∧ only [.flash, .tier] (trayRegs l) s t ∧ t.emptied l v) := by
  have hmove : ∀ gc, v ∈ y.stripes → only [.flash, .tier] (trayRegs l) s (s.moveStripe y v b gc) ∧ (s.moveStripe y v b gc).emptied l v :=
    fun gc hv => moveStripe_empties gc hy hn hv hm
  refine ⟨fun hf => ?_, fun g hg hlow hd hf => ?_, fun d hd hf => ?_, fun n hf hl hk => ?_⟩
  · refine ⟨s.moveStripe y v b false, ?_, hmove false (List.mem_of_find?_eq_some hf)⟩
    show Host.Outcome.next (s.fold l b) = _
    rw [State.fold, onTray_activity hy hw hb, hf]
  · refine ⟨s.moveStripe y v b true, ?_, hmove true (victim_mem hf)⟩
    show Host.Outcome.next (s.collect l g b) = _
    rw [State.collect, onTray_activity hy hw hb]
    simp [hf, hd, Nat.not_le.2 hg, Nat.not_le.2 hlow]
  · refine ⟨s.moveStripe y v b false, ?_, hmove false (List.mem_of_find?_eq_some hf)⟩
    show Host.Outcome.next (s.level l d b) = _
    rw [State.level, onTray_activity hy hw hb]
    simp only [if_neg (Nat.not_le.2 hd), hf]
  · refine ⟨s.moveStripe y v b false, ?_, hmove false (List.mem_of_find?_eq_some hf)⟩
    obtain ⟨k, hk, hr⟩ := hk
    have hany : v.blocks.any (fun b => b.any (fun k => 100000 ≤ k.reads)) = true := List.any_eq_true.2 ⟨some k, hk, by simpa using hr⟩
    show Host.Outcome.next (s.refresh l n b) = _
    rw [State.refresh, onTray_activity hy hw hb]
    simp only [hf, hl, hany, Option.isNone_none, Bool.and_self, if_true]

end Sys2Proof.Machine
end

section
/-! PROOFS. What the pool's users hold (R342, R344, R351), rebuilding a unit (R390, R391), and secure discards that end (R397). -/

namespace Sys2Proof.Machine

theorem State.fld_lt (s : State) (o a w : Nat) : s.fld o a w < 2 ^ w := Nat.mod_lt _ (Nat.two_pow_pos w)

-- the counts of what is held

theorem quotaReg_mem_useRegs {x k : Nat} (hx : x < 1024) (hk : k ∈ [0, 1, 2]) : quotaReg x (0x0C + 4 * k) ∈ useRegs := by
  have h : quotaReg x (0x0C + 4 * k) ∈ [quotaReg x 0x0C, quotaReg x 0x10, quotaReg x 0x14] := by
    simp only [List.mem_cons, List.not_mem_nil, or_false] at hk
    rcases hk with rfl | rfl | rfl <;> simp
  exact List.mem_append_left _ (List.mem_append_right _ (List.mem_flatMap.2 ⟨x, List.mem_range.2 hx, h⟩))

theorem shareReg_mem_useRegs {x k : Nat} (hx : x < 64) (hk : k ∈ [0, 1, 2]) : shareReg x (0x10 + 4 * k) ∈ useRegs := by
  have h : shareReg x (0x10 + 4 * k) ∈ [shareReg x 0x10, shareReg x 0x14, shareReg x 0x18] := by
    simp only [List.mem_cons, List.not_mem_nil, or_false] at hk
    rcases hk with rfl | rfl | rfl <;> simp
  exact List.mem_append_right _ (List.mem_flatMap.2 ⟨x, List.mem_range.2 hx, h⟩)

theorem only_syncUse {xs : List Nat} (h : ∀ x ∈ xs, x < 1024) (s : State) : only [] useRegs s (s.syncUse xs) := by
  have hc : ∀ o ∈ [0x214, 0x218, 0x21C, 0x224, 0x228], o ∈ useRegs :=
    fun o ho => List.mem_append_left _ (List.mem_append_left _ ho)
  unfold State.syncUse
  extract_lets s1
  have h1 : only [] useRegs s s1 := by
    refine only_each xs (fun x hx t => only_each [0, 1, 2] (fun k hk u => ?_) t) s
    exact only_trans (only_wrn _ _ _ (quotaReg_mem_useRegs (h x hx) hk))
      (only_wrn _ _ _ (shareReg_mem_useRegs (State.fld_lt s _ 4 6) hk))
  clear_value s1
  exact only_trans h1 (only_trans (only_wrn _ _ _ (hc _ (by simp))) (only_trans (only_wrn _ _ _ (hc _ (by simp)))
    (only_trans (only_wrn _ _ _ (hc _ (by simp))) (only_wrn _ _ _ (hc _ (by simp))))))

-- rebuilding

theorem find_names {y : Tray} {p u : Nat} {v : FStripe} {c : FCopy} (h : y.find p u = some (v, c)) : c.page = p ∧ c.unit = u := by
  obtain ⟨w, -, hw⟩ := List.exists_of_findSome?_eq_some h
  obtain ⟨k, hk, he⟩ := Option.map_eq_some_iff.1 hw
  cases he
  simpa using List.find?_some hk

/-- FLASH_DIE_REBUILD of a unit that its row gives back and a main stripe takes (R390, R391). -/
theorem flashDieRebuild_rewrites (s : State) (l p u : Nat) (y z : Tray) (v : FStripe) (c : FCopy) (b : List Host.Cell) (at_ : Nat × Nat)
    (hy : s.tray l = some y) (hm : (p, u) ∈ y.rebuild) (hw : s.trayWorks l = true) (hb : s.atBoundary = true) (hf : y.find p u = some (v, c))
    (hr : v.rebuilt c = some b) (hp : y.program (s.mainPages y.pSlc) v.group false c.page c.unit b = some (z, at_)) :
    ∃ t, exec (.flashDieRebuild l p u true) s = .next t ∧ only [.flash, .tier] (trayRegs l) s t
      ∧ t.tray l = some (({ z with rebuild := z.rebuild.erase (p, u) } : Tray).settle).1 ∧ z.rebuild = y.rebuild
      ∧ (t.rd (trayReg l 0x38)).toNat = min 0xFFFFFFFF ((s.rd (trayReg l 0x38)).toNat + 1) := by
  obtain ⟨rfl, rfl⟩ := find_names hf
  have hyl : y.link = l := tray_link hy
  have hz := sameRest_program hp
  let w : Tray := { z with rebuild := z.rebuild.erase (c.page, c.unit) }
  have hl : w.link = l := (Tray.sameRest_link hz).trans hyl
  have he : exec (.flashDieRebuild l c.page c.unit true) s = .next (((s.sat (trayReg l 0x38) 1).traySync w).programmed l 1) := by
    show Host.Outcome.next (s.rebuildUnit l c.page c.unit true) = _
    rw [State.rebuildUnit, onTray_some hy]
    simp only [hf, List.contains_iff_mem.2 hm, hb, Bool.and_self, if_true, State.rewrite, hr, hyl, hw, hp, Bool.not_true, Bool.false_eq_true, if_false]
    rfl
  have h38 : (s.sat (trayReg l 0x38) 1).rd (trayReg l 0x38) = BitVec.ofNat 32 (min 0xFFFFFFFF ((s.rd (trayReg l 0x38)).toNat + 1)) :=
    State.rd_sat_same _ _ _
  have o1 : only [.flash, .tier] (trayRegs l) s (s.sat (trayReg l 0x38) 1) := only_sat _ _ _ (mem_trayRegs (i := 14) (by decide))
  have ht : (s.sat (trayReg l 0x38) 1).tray l = some y := hy
  generalize s.sat (trayReg l 0x38) 1 = x at *
  have o2 : only [] [trayReg l 0x28, trayReg l 0x2C] (x.traySync w) ((x.traySync w).programmed l 1) := only_programmed _ l 1
  refine ⟨_, he, only_trans o1 (only_syncProgrammed hl), ?_, Tray.sameRest_rebuild hz, ?_⟩
  · rw [tray_programmed]
    exact tray_traySync ht hl
  · rw [o2.2 _ (by unfold trayReg; simp), rd_traySync_count hl (by decide) (by decide), h38, BitVec.toNat_ofNat]
    omega

-- discards that end

theorem scrubReg_mem {x o : Nat} (hx : x < 1024) (ho : o ∈ [0, 0x10, 0x18]) : ctxReg x o ∈ scrubRegs := by
  refine List.mem_flatMap.2 ⟨x, List.mem_range.2 hx, ?_⟩
  exact List.mem_map_of_mem (f := ctxReg x) ho

theorem scrubEnd_keeps {r : Scrub} (h : r.ctx < 1024) (s : State) :
    only [.tier] (scrubRegs ++ useRegs) s (s.scrubEnd r) ∧ (s.scrubEnd r).tier.scrubs = s.tier.scrubs.erase r := by
  let s1 : State := { s with tier := { s.tier with scrubs := s.tier.scrubs.erase r } }
  let s0 : State := s1.locGive { tier := r.tier, unit := r.unit, group := r.group } r.page
  let s2 : State := s0.syncScrub r.ctx
  let s3 : State := s2.when (s2.rd (ctxReg r.ctx 0x10) == 0) (·.set (ctxReg r.ctx 0x18) 0x2)
  rw [show s.scrubEnd r = s3.syncUse [r.ctx] from rfl]
  have ho : ∀ o ∈ [0, 0x10, 0x18], ctxReg r.ctx o ∈ scrubRegs ++ useRegs := fun o ho => List.mem_append_left _ (scrubReg_mem h ho)
  have h0 : only [.tier] (scrubRegs ++ useRegs) s s0 :=
    only_trans (only_put_tier _ s _ (by simp)) (only_put_tier _ s1 _ (by simp))
  have e0 : s0.tier.scrubs = s.tier.scrubs.erase r := rfl
  have h2 : only [] (scrubRegs ++ useRegs) s0 s2 := only_trans (only_wrn _ _ _ (ho 0x10 (by decide))) (only_wrFld _ _ _ _ _ (ho 0 (by decide)))
  have h3 : only [] (scrubRegs ++ useRegs) s2 s3 := only_when _ _ (fun _ => only_set _ _ _ (ho 0x18 (by decide)))
  have h4 : only [] (scrubRegs ++ useRegs) s3 (s3.syncUse [r.ctx]) :=
    only_mono (only_syncUse (by simpa using h) s3) (by simp) (fun o ho => List.mem_append_right _ ho)
  have h04 := only_trans h2 (only_trans h3 h4)
  refine ⟨only_trans h0 (only_mono h04 (by simp) (fun _ h => h)), ?_⟩
  rw [h04.1 .tier (by simp)]
  exact e0

/-- SECURE_DISCARD_COMPLETE once every tray is done (R397). -/
theorem secureDiscardComplete_frees (s : State) (l p : Nat) (r : Scrub) (hr : s.tier.scrubs.find? (fun r => r.page == p && r.tier == 2) = some r)
    (hx : r.ctx < 1024) (hl : (s.chunkUnits { tier := r.tier, unit := r.unit, group := r.group } p).contains (0x40 + l) = true)
    (hd : ∀ u ∈ s.chunkUnits { tier := r.tier, unit := r.unit, group := r.group } p, ∀ y, s.tray (u - 0x40) = some y → p ∈ y.discards) :
    ∃ t, exec (.secureDiscardComplete l p) s = .next t ∧ only [.flash, .tier] (0x318 :: scrubRegs ++ useRegs) s t
      ∧ t.tier.scrubs = s.tier.scrubs.erase r ∧ t.rd 0x318 = BitVec.ofNat 32 ((s.rd 0x318).toNat - 1)
      ∧ ∀ y ∈ t.flash.trays, p ∉ y.discards := by
  let s1 : State := { s with flash := { s.flash with trays := s.flash.trays.map (fun t => { t with discards := t.discards.filter (· != p) }) } }
  have hall : (s.chunkUnits { tier := r.tier, unit := r.unit, group := r.group } p).all
      (fun u => (s.tray (u - 0x40)).elim true (fun t => t.discards.contains p)) = true := by
    refine List.all_eq_true.2 (fun u hu => ?_)
    cases h : s.tray (u - 0x40) with
    | none => rfl
    | some y => exact List.contains_iff_mem.2 (hd u hu y h)
  have he : exec (.secureDiscardComplete l p) s = .next ((s1.scrubEnd r).wrn 0x318 ((s.rd 0x318).toNat - 1)) := by
    show Host.Outcome.next (s.discardComplete l p) = _
    simp only [State.discardComplete, hr, hl, hall, Bool.and_self, if_true]
    rfl
  obtain ⟨hk, hs⟩ := scrubEnd_keeps hx s1
  have h0 : only [.flash, .tier] (0x318 :: scrubRegs ++ useRegs) s s1 := only_put_flash _ s _ (by simp)
  have hf : (s1.scrubEnd r).flash = s1.flash := hk.1 .flash (by simp)
  generalize s1.scrubEnd r = x at *
  refine ⟨_, he, only_trans h0 (only_trans (only_mono hk (by simp) (fun o ho => List.mem_cons_of_mem _ ho)) (only_wrn _ _ _ List.mem_cons_self)),
    hs, State.rd_wrn_same _ _ _, fun y hy => ?_⟩
  rw [show (x.wrn 0x318 _).flash = s1.flash from hf] at hy
  obtain ⟨w, -, rfl⟩ := List.mem_map.1 hy
  simp

end Sys2Proof.Machine
end

section
/-! PROOFS. Secure discard: no copy of a discarded page stays on its tray (R396, R397). -/

namespace Sys2Proof.Machine

/-- Stripe n holds a copy of a unit of page p, valid or stale. -/
def Tray.holds (t : Tray) (n p : Nat) : Prop := ∃ w ∈ t.stripes, w.no = n ∧ ∃ c ∈ w.copies, c.page = p

theorem holds_unmapUnit {t : Tray} {a b n p : Nat} (h : (t.unmapUnit a b).holds n p) : t.holds n p := by
  obtain ⟨w, hw, hn, c, hc, hp⟩ := h
  rw [unmapUnit_stripes] at hw
  obtain ⟨v, hv, rfl⟩ := List.mem_map.1 hw
  obtain ⟨k, hk, rfl⟩ := List.mem_map.1 hc
  refine ⟨v, hv, hn, k, hk, ?_⟩
  split at hp <;> exact hp

/-- A stripe put in the place of one that it adds only other pages to. -/
theorem holds_setStripe {t : Tray} {v w : FStripe} {n p : Nat} (hv : v ∈ t.stripes) (hno : w.no = v.no)
    (hc : ∀ c ∈ w.copies, c.page = p → c ∈ v.copies) (h : (t.setStripe w).holds n p) : t.holds n p := by
  obtain ⟨x, hx, hn, c, hcx, hp⟩ := h
  obtain ⟨q, hq, rfl⟩ := List.mem_map.1 hx
  split at hcx
  · rename_i he
    rw [if_pos he] at hn
    exact ⟨v, hv, hno.symm.trans hn, c, hc c hcx hp, hp⟩
  · rename_i he
    rw [if_neg he] at hn
    exact ⟨q, hq, hn, c, hcx, hp⟩

theorem holds_program {t z : Tray} {m g a b n p : Nat} {f : Bool} {d : List Host.Cell} {x : Nat × Nat} (hp : t.program m g f a b d = some (z, x))
    (hne : a ≠ p) (h : z.holds n p) : t.holds n p := by
  obtain ⟨t0, v0, v, w, e, c, ho, hv, hvx, hwx, hc, rfl, -, -, rfl⟩ := program_some hp
  have h1 : (t0.unmapUnit c.page b).holds n p := by
    refine holds_setStripe (List.mem_of_find?_eq_some hv) (hwx.trans hvx.symm) (fun k hk hkp => ?_) h
    rw [hc] at hk
    rcases List.mem_append.1 hk with hk | hk
    · exact hk
    · rw [List.mem_singleton.1 hk] at hkp
      exact absurd hkp hne
  obtain ⟨y, hy, hyn, k, hk, hkp⟩ := holds_unmapUnit h1
  rcases (withOpen_some ho).2.2 with rfl | ⟨f, x, -, hxc, rfl⟩
  · exact ⟨y, hy, hyn, k, hk, hkp⟩
  · rcases List.mem_append.1 hy with hy | hy
    · exact ⟨y, hy, hyn, k, hk, hkp⟩
    · rw [List.mem_singleton.1 hy, hxc] at hk
      cases hk

theorem holds_copyUnits {m g n p : Nat} (l : List FCopy) {t : Tray} (hl : ∀ c ∈ l, c.page ≠ p) (h : (t.copyUnits m g l).1.holds n p) :
    t.holds n p := by
  induction l generalizing t with
  | nil => exact h
  | cons c l ih =>
    unfold Tray.copyUnits at h
    split at h
    · exact h
    · rename_i x hx
      exact holds_program hx (hl c List.mem_cons_self) (ih (fun k hk => hl k (List.mem_cons_of_mem _ hk)) h)

theorem holds_eraseStripe {t : Tray} {v : FStripe} {n p : Nat} (h : (t.eraseStripe v).holds n p) : n ≠ v.no ∧ t.holds n p := by
  obtain ⟨w, hw, hn, hc⟩ := h
  rw [(eraseStripe_stripes t v).2] at hw
  obtain ⟨hw, hne⟩ := List.mem_filter.1 hw
  rw [bne_iff_ne, hn] at hne
  exact ⟨hne, w, hw, hn, hc⟩

/-- One stripe discarded, with its erase: the counts of programs alone change, and a stripe that is gone takes its copies along. -/
theorem discardStripe_drops (s : State) {l p : Nat} {t : Tray} {v : FStripe} (hl : t.link = l) (hv : v ∈ t.stripes) :
    only [] [trayReg l 0x28, trayReg l 0x2C] s (s.discardStripe t v p true true).1
      ∧ t.sameRest (s.discardStripe t v p true true).2.1
      ∧ ((s.discardStripe t v p true true).2.2 = true → ∀ n, (s.discardStripe t v p true true).2.1.holds n p → n ≠ v.no ∧ t.holds n p) := by
  unfold State.discardStripe
  extract_lets others r x
  split
  · exact ⟨only_refl _ _ _, t.sameRest_refl, by simp⟩
  · refine ⟨hl ▸ only_programmed s t.link r.2.1.length, ?_, fun _ n hn => ?_⟩
    · exact Tray.sameRest_trans (u := t.setStripe v.close) rfl (Tray.sameRest_trans (sameRest_copyUnits _ _ _ _) (eraseStripe_stripes r.1 v).1)
    · obtain ⟨hne, hr⟩ := holds_eraseStripe hn
      have hoth : ∀ c ∈ others, c.page ≠ p := by
        intro c hc
        obtain ⟨k, hk, rfl⟩ := List.mem_map.1 hc
        rw [(readCopy_names t v k).1]
        simpa using (List.mem_filter.1 hk).2
      have hset : (t.setStripe v.close).holds n p := holds_copyUnits others hoth hr
      exact ⟨hne, holds_setStripe hv v.close_copies.2 (fun c hc _ => v.close_copies.1 ▸ hc) hset⟩

/-- A stripe by its number is discarded in turn, with its erase. -/
def State.discardStep (p : Nat) (q : State × Tray × Bool) (no : Nat) : State × Tray × Bool :=
  match q.2.1.stripe no with
  | some v =>
    let x := q.1.discardStripe q.2.1 v p true true
    (x.1, x.2.1, q.2.2 && x.2.2)
  | none => q

theorem discardStep_drops (p : Nat) (q : State × Tray × Bool) {l : Nat} (no : Nat) (hl : q.2.1.link = l) :
    only [] [trayReg l 0x28, trayReg l 0x2C] q.1 (State.discardStep p q no).1 ∧ q.2.1.sameRest (State.discardStep p q no).2.1
      ∧ ((State.discardStep p q no).2.2 = true → q.2.2 = true ∧ ∀ n, (State.discardStep p q no).2.1.holds n p → n ≠ no ∧ q.2.1.holds n p) := by
  unfold State.discardStep
  cases hs : q.2.1.stripe no with
  | none =>
    refine ⟨only_refl _ _ _, q.2.1.sameRest_refl, fun h => ⟨h, fun n hn => ⟨?_, hn⟩⟩⟩
    obtain ⟨w, hw, rfl, -⟩ := hn
    have := List.find?_eq_none.1 hs w hw
    simpa using this
  | some v =>
    obtain ⟨h1, h2, h3⟩ := discardStripe_drops q.1 (p := p) hl (List.mem_of_find?_eq_some hs)
    have hno : v.no = no := by simpa using List.find?_some hs
    refine ⟨h1, h2, fun h => ?_⟩
    rw [Bool.and_eq_true] at h
    exact ⟨h.1, hno ▸ h3 h.2⟩

/-- Stripes discarded one after another, with their erases. -/
theorem discardSteps_drop (p l : Nat) (ns : List Nat) (q : State × Tray × Bool) (hl : q.2.1.link = l) :
    only [] [trayReg l 0x28, trayReg l 0x2C] q.1 (ns.foldl (State.discardStep p) q).1
      ∧ q.2.1.sameRest (ns.foldl (State.discardStep p) q).2.1
      ∧ ((ns.foldl (State.discardStep p) q).2.2 = true →
          q.2.2 = true ∧ ∀ n, (ns.foldl (State.discardStep p) q).2.1.holds n p → n ∉ ns ∧ q.2.1.holds n p) := by
  induction ns generalizing q with
  | nil => exact ⟨only_refl _ _ _, q.2.1.sameRest_refl, fun h => ⟨h, fun n hn => ⟨by simp, hn⟩⟩⟩
  | cons no ns ih =>
    obtain ⟨a1, a2, a3⟩ := discardStep_drops p q no hl
    obtain ⟨b1, b2, b3⟩ := ih (State.discardStep p q no) ((Tray.sameRest_link a2).trans hl)
    refine ⟨only_trans a1 b1, Tray.sameRest_trans a2 b2, fun h => ?_⟩
    obtain ⟨hf, hb⟩ := b3 h
    obtain ⟨hq, ha⟩ := a3 hf
    refine ⟨hq, fun n hn => ?_⟩
    obtain ⟨hns, hstep⟩ := hb n hn
    obtain ⟨hno, hold⟩ := ha n hstep
    exact ⟨by simp [hno, hns], hold⟩

theorem sameRest_unmapUnits (l : List Nat) (p : Nat) (t : Tray) : t.sameRest (l.foldl (fun (u : Tray) k => u.unmapUnit p k) t) := by
  induction l generalizing t with
  | nil => exact t.sameRest_refl
  | cons k l ih => exact Tray.sameRest_trans (unmapUnit_rest t p k).1 (ih _)

/-- The tray without its cache entries, waiting writes and awaited rebuilds of a page. -/
def Tray.without (t : Tray) (p : Nat) : Tray :=
  { t with cache := t.cache.filter (fun c => c.page != p), waits := t.waits.filter (fun c => c.page != p), rebuild := t.rebuild.filter (fun c => c.1 != p) }

/-- Every stripe of a tray that holds a copy of a page is discarded, with its erase. -/
def State.discardHeld (s : State) (t : Tray) (p : Nat) : State × Tray × Bool :=
  ((t.stripes.filter (fun v => v.copies.any (fun c => c.page == p))).map (·.no)).foldl (State.discardStep p) (s, t, true)

theorem discardHeld_drops (s : State) {l p : Nat} {t : Tray} (hl : t.link = l) (h : (s.discardHeld t p).2.2 = true) :
    only [] [trayReg l 0x28, trayReg l 0x2C] s (s.discardHeld t p).1 ∧ t.sameRest (s.discardHeld t p).2.1
      ∧ ∀ v ∈ (s.discardHeld t p).2.1.stripes, ∀ c ∈ v.copies, c.page ≠ p := by
  obtain ⟨h1, h2, h3⟩ :=
    discardSteps_drop p l ((t.stripes.filter (fun v => v.copies.any (fun c => c.page == p))).map (·.no)) (s, t, true) hl
  refine ⟨h1, h2, fun v hv c hc hp => ?_⟩
  obtain ⟨hn, w, hw, hwn, k, hk, hkp⟩ := (h3 h).2 v.no ⟨v, hv, rfl, c, hc, hp⟩
  exact hn (hwn ▸ List.mem_map_of_mem (List.mem_filter.2 ⟨hw, List.any_eq_true.2 ⟨k, hk, by simpa using hkp⟩⟩))

theorem discardAll_eq (s : State) (t : Tray) (p : Nat) :
    ∃ t1, (t.without p).sameRest t1 ∧ s.discardAll t p true true = s.discardHeld t1 p := by
  refine ⟨_, sameRest_unmapUnits (List.range 128) p _, ?_⟩
  unfold State.discardAll State.discardHeld
  extract_lets drop t0 t1 hold
  rfl

theorem discardAll_drops (s : State) {l p : Nat} {t : Tray} (hl : t.link = l) (h : (s.discardAll t p true true).2.2 = true) :
    only [] [trayReg l 0x28, trayReg l 0x2C] s (s.discardAll t p true true).1 ∧ (t.without p).sameRest (s.discardAll t p true true).2.1
      ∧ ∀ v ∈ (s.discardAll t p true true).2.1.stripes, ∀ c ∈ v.copies, c.page ≠ p := by
  obtain ⟨t1, ht, he⟩ := discardAll_eq s t p
  rw [he] at h ⊢
  obtain ⟨h1, h2, h3⟩ := discardHeld_drops s ((Tray.sameRest_link ht).trans hl) h
  exact ⟨h1, Tray.sameRest_trans ht h2, h3⟩

/-- SECURE_DISCARD of a page all of whose copies can go (R396). -/
theorem secureDiscard_drops (s : State) (l p : Nat) (y : Tray) (hy : s.tray l = some y) (hd : s.toDiscard y p = true) (hb : s.atBoundary = true)
    (hg : ∀ g ∈ s.tier.gone, g.page ≠ p) (ha : (s.discardAll y p true true).2.2 = true) :
    ∃ t z, exec (.secureDiscard l p true true) s = .next t ∧ only [.flash, .tier] (trayRegs l) s t ∧ t.tray l = some z ∧ p ∈ z.discards
      ∧ (∀ v ∈ z.stripes, ∀ c ∈ v.copies, c.page ≠ p) ∧ (∀ c ∈ z.cache, c.page ≠ p) := by
  obtain ⟨h1, h2, h3⟩ := discardAll_drops s (tray_link hy) ha
  have hgone : s.tier.gone.any (fun g => g.page == p) = false := by
    rw [List.any_eq_false]
    intro g hg'
    simpa using hg g hg'
  generalize hr : s.discardAll y p true true = r at *
  let w : Tray := { r.2.1 with discards := r.2.1.discards ++ [p] }
  have he : exec (.secureDiscard l p true true) s = .next (r.1.traySync w) := by
    show Host.Outcome.next (s.secureDiscard l p true true) = _
    rw [State.secureDiscard, onTray_some hy]
    simp only [hd, hb, hgone, hr, ha, Bool.not_true, Bool.or_self, Bool.false_eq_true, if_false, if_true]
    rfl
  have hyl : (y.without p).link = l := (tray_link hy :)
  have hwl : w.link = l := (Tray.sameRest_link h2).trans hyl
  have hwc : w.cache = y.cache.filter (fun c => c.page != p) := Tray.sameRest_cache h2
  have hwd : p ∈ w.discards := List.mem_append_right _ List.mem_cons_self
  have hws : ∀ v ∈ w.stripes, ∀ c ∈ v.copies, c.page ≠ p := h3
  clear_value w
  have hset := (settle_stripes w).1
  have hx : r.1.tray l = some y := (tray_of_flash (h1.1 .flash (by simp)) l).trans hy
  have hcount : ∀ o ∈ [trayReg l 0x28, trayReg l 0x2C], o ∈ trayRegs l := by
    intro o ho
    simp only [List.mem_cons, List.not_mem_nil, or_false] at ho
    rcases ho with rfl | rfl
    · exact mem_trayRegs (i := 10) (by decide)
    · exact mem_trayRegs (i := 11) (by decide)
  refine ⟨_, _, he, only_trans (only_mono h1 (by simp) hcount) (only_mono (only_traySync hwl) (by simp) (syncRegs_sub l)),
    tray_traySync hx hwl, ?_, fun v hv => hws v (mem_settle hv), fun c hc => ?_⟩
  · rw [Tray.sameRest_discards hset]
    exact hwd
  · rw [Tray.sameRest_cache hset, hwc] at hc
    simpa using (List.mem_filter.1 hc).2

end Sys2Proof.Machine
end

section
/-! PROOFS. A die that fails (R391): no unit is lost that stands on no other failed die, no page moves that still fits. -/

namespace Sys2Proof.Machine

theorem each_induct {α : Type} {p : State → Prop} {f : α → State → State} (h : ∀ a t, p t → p (f a t)) (as : List α) (s : State) (hs : p s) :
    p (s.each as f) := by
  induction as generalizing s with
  | nil => exact hs
  | cons a as ih => exact ih (f a s) (h a s hs)

/-- No sequence loses anything when no page is lost and no mirror goes (R371, R372). -/
theorem cpLoss_none (s : State) (r : Nat) (h : ∀ g ∈ s.tier.pages, g.lost = false) :
    only [.tier] [] s (s.cpLoss [] r) ∧ (s.cpLoss [] r).tier.pages = s.tier.pages := by
  unfold State.cpLoss
  refine each_induct (p := fun t => only [.tier] [] s t ∧ t.tier.pages = s.tier.pages) (fun q0 t ht => ?_) _ _
    ⟨only_put_tier _ s _ (by simp), rfl⟩
  have hq : q0.mirrors.filter (fun l => !([] : List Nat).contains (0x40 + l)) = q0.mirrors := by simp
  have hl : ∀ p, ((t.setSeq q0).page p).any (·.lost) = false := by
    intro p
    cases hf : (t.setSeq q0).page p with
    | none => rfl
    | some g => exact h g (ht.2 ▸ List.mem_of_find?_eq_some hf)
  have hset : only [.tier] [] t (t.setSeq q0) := only_put_tier _ t _ (by simp)
  have hn : ∀ l : List Nat, l.any (fun p => ((t.setSeq q0).page p).any (·.lost)) = false := fun l => by simp [hl]
  simp only [hq, Nat.lt_irrefl, decide_false, State.when, Bool.false_eq_true, if_false, hn, Bool.false_and, List.filter_false,
    List.map_nil]
  have hf : (List.range (q0.layersN * q0.headsN)).flatMap (fun _ => ([] : List Nat)) = [] := by simp
  rw [hf]
  exact ⟨only_trans ht.1 hset, ht.2⟩

theorem shed_zero (s : State) (l : Nat) : s.shed l 0 = s := by
  unfold State.shed
  extract_lets here
  clear_value here
  induction here with
  | nil => rfl
  | cons g L ih => exact ih

/-- Tray l gives up no unit: the pool's counts follow, and no page changes. -/
theorem loseUnits_nil {s : State} {l : Nat} {z : Tray} (hz : s.tray l = some z) (h : ∀ g ∈ s.tier.pages, g.lost = false) :
    only [.flash, .tier] useRegs s (s.loseUnits l []) ∧ (s.loseUnits l []).tray l = some z ∧ (s.loseUnits l []).tier.pages = s.tier.pages := by
  have he : s.loseUnits l [] = ((s.setTray z).cpLoss [] 1).syncUse [] := by
    have hbad : (s.setTray z).tier.pages.filter (fun g => ([] : List Nat).contains g.page && !g.lost) = [] := List.filter_eq_nil_iff.2 (by simp)
    rw [State.loseUnits, onTray_some hz, List.foldl_nil, List.map_nil, List.isEmpty_nil]
    show State.loseFlash (s.setTray z) [] 1 = _
    unfold State.loseFlash
    rw [hbad]
    rfl
  obtain ⟨h1, e1⟩ := cpLoss_none (s.setTray z) 1 h
  have h0 : only [.flash, .tier] useRegs s (s.setTray z) := only_put_flash _ s _ (by simp)
  have t0 : (s.setTray z).tray l = some z := tray_setTray hz (tray_link hz)
  have h2 := only_syncUse (xs := []) (by simp) ((s.setTray z).cpLoss [] 1)
  have hp : (s.setTray z).tier.pages = s.tier.pages := rfl
  rw [he]
  generalize s.setTray z = x at *
  generalize x.cpLoss [] 1 = w at *
  refine ⟨only_trans h0 (only_trans (only_mono h1 (by simp) (by simp)) (only_mono h2 (by simp) (fun _ h => h))), ?_, ?_⟩
  · rw [tray_of_flash (h2.1 .flash (by simp)), tray_of_flash (h1.1 .flash (by simp)), t0]
  · rw [show (w.syncUse []).tier = w.tier from h2.1 .tier (by simp), e1, hp]

/-- The tray that a failed die leaves, when no unit of it is lost: the die's units await rebuild. -/
def Tray.dieOut (t : Tray) (d : Nat) : Tray := { t.dieGone d with rebuild := t.unitsOn d }

theorem dieOut_blocks {t : Tray} {d : Nat} {w : FStripe} (hw : w ∈ (t.dieOut d).stripes) (hg : w.group = d / 16) :
    w.blocks.getD (d % 16) none = none := by
  obtain ⟨v, -, rfl⟩ := List.mem_map.1 hw
  dsimp only at hg ⊢
  split at hg
  · rename_i hne
    rw [hg] at hne
    simp at hne
  · rename_i hne
    rw [if_neg hne]
    by_cases hd : d % 16 < v.blocks.length <;> simp [List.getD_eq_getElem?_getD, hd]

theorem reg314_notMem : 0x314 ∉ useRegs := by
  intro h
  rcases List.mem_append.1 h with h | h
  · rcases List.mem_append.1 h with h | h
    · simp at h
    · obtain ⟨x, -, hx⟩ := List.mem_flatMap.1 h
      simp only [quotaReg, List.mem_cons, List.not_mem_nil, or_false] at hx
      omega
  · obtain ⟨x, -, hx⟩ := List.mem_flatMap.1 h
    simp only [shareReg, List.mem_cons, List.not_mem_nil, or_false] at hx
    omega

/-- A die fails on a tray: the tray takes the die out, marks that it rebuilds, and offers less. -/
def State.dieMarked (s : State) (y : Tray) (l : Nat) : State :=
  let drop := (offered y.dies (trayData y.blocks) (s.mainPages y.pSlc) - offered (y.dies - 1) (trayData y.blocks) (s.mainPages y.pSlc)) * 32
  let s1 := (s.when (s.trayState l == 1) (·.wrFld (trayReg l 0) 0 3 3)).set 0x314 0x2
  { s1 with tier := { s1.tier with units := s1.tier.units.map (fun x => if x.unit == 0x40 + l then { x with free := x.free - drop } else x) } }

theorem dieMarked_keeps (s : State) (y : Tray) (l : Nat) :
    only [.tier] (trayRegs l) s (s.dieMarked y l) ∧ (s.dieMarked y l).tier.pages = s.tier.pages ∧ (s.dieMarked y l).bit 0x314 1 = true := by
  let s0 : State := s.when (s.trayState l == 1) (·.wrFld (trayReg l 0) 0 3 3)
  have h0 : only [] (trayRegs l) s s0 := only_when _ _ (fun _ => only_wrFld _ _ _ _ _ (mem_trayRegs (i := 0) (by decide)))
  have h1 : only [] (trayRegs l) s0 (s0.set 0x314 0x2) := only_set _ _ _ List.mem_cons_self
  have hb : (s0.set 0x314 0x2).bit 0x314 1 = true := by
    rw [State.bit, State.rd_set_same, BitVec.getLsbD_or]
    simp
  have h01 := only_trans h0 h1
  have ht : (s0.set 0x314 0x2).tier = s.tier := h01.1 .tier (by simp)
  have he : ∃ us, s.dieMarked y l = { s0.set 0x314 0x2 with tier := { (s0.set 0x314 0x2).tier with units := us } } := ⟨_, rfl⟩
  obtain ⟨us, he⟩ := he
  rw [he]
  generalize s0.set 0x314 0x2 = x at *
  exact ⟨only_trans (only_mono h01 (by simp) (fun _ h => h)) (only_put_tier _ x _ (by simp)), (congrArg TierS.pages ht :), hb⟩

theorem dieFails_first {s : State} {l d : Nat} {y : Tray} (hy : s.tray l = some y) (hd : d < y.dies) (hf : y.failed = []) (hr : y.rebuild = [])
    (hfree : (offered y.dies (trayData y.blocks) (s.mainPages y.pSlc) - offered (y.dies - 1) (trayData y.blocks) (s.mainPages y.pSlc)) * 32
      ≤ s.unitFree (0x40 + l)) :
    s.dieFails l d = (((s.dieMarked y l).traySync (y.dieOut d)).loseUnits l []).syncUse s.tierCtxs := by
  unfold State.dieFails
  rw [onTray_some hy]
  simp only [hf, hr, Nat.not_le.2 hd, decide_false, List.contains_nil, Bool.or_self, Bool.false_eq_true, if_false, List.filter_nil, List.isEmpty_nil,
    if_true, List.length_nil, Nat.sub_zero, List.foldl_nil, Nat.sub_eq_zero_of_le hfree, shed_zero, List.nil_append,
    Bool.not_false, List.filter_true, List.map_id']
  rfl

/-- FLASH_DIE_FAILURE of a tray's first die to fail (R391). -/
theorem flashDieFailure_first (s : State) (l d : Nat) (y : Tray) (hy : s.tray l = some y) (hd : d < y.dies) (hf : y.failed = []) (hr : y.rebuild = [])
    (hlost : ∀ g ∈ s.tier.pages, g.lost = false) (hx : ∀ x ∈ s.tierCtxs, x < 1024)
    (hfree : (offered y.dies (trayData y.blocks) (s.mainPages y.pSlc) - offered (y.dies - 1) (trayData y.blocks) (s.mainPages y.pSlc)) * 32
      ≤ s.unitFree (0x40 + l)) :
    ∃ t z, exec (.flashDieFailure l d) s = .next t ∧ only [.flash, .tier] (trayRegs l ++ useRegs) s t ∧ t.tray l = some z ∧ z.failed = [d]
      ∧ z.rebuild = y.unitsOn d ∧ (∀ v ∈ z.stripes, v.group = d / 16 → v.blocks.getD (d % 16) none = none) ∧ t.bit 0x314 1 = true
      ∧ t.tier.pages = s.tier.pages := by
  have he : exec (.flashDieFailure l d) s = .next (s.dieFails l d) := rfl
  rw [dieFails_first hy hd hf hr hfree] at he
  have hdl : (y.dieOut d).link = l := (tray_link hy :)
  obtain ⟨a1, a2, a3⟩ := dieMarked_keeps s y l
  have a4 : (s.dieMarked y l).tray l = some y := (tray_of_flash (a1.1 .flash (by simp)) l).trans hy
  generalize s.dieMarked y l = w at *
  have b1 : only [.flash, .tier] (trayRegs l) w (w.traySync (y.dieOut d)) := only_mono (only_traySync hdl) (by simp) (syncRegs_sub l)
  have b2 : (w.traySync (y.dieOut d)).tier.pages = s.tier.pages := by
    obtain ⟨us, hus⟩ := tier_traySync w (y.dieOut d)
    rw [hus]
    exact a2
  have b3 := bit_traySync (y.dieOut d) a3
  have b4 := tray_traySync a4 hdl
  generalize w.traySync (y.dieOut d) = q at *
  obtain ⟨c1, c2, c3⟩ := loseUnits_nil b4 (b2 ▸ hlost)
  generalize q.loseUnits l [] = r at *
  have e1 := only_syncUse hx r
  obtain ⟨hrest, -⟩ := settle_stripes (y.dieOut d)
  have hL : ∀ o ∈ trayRegs l, o ∈ trayRegs l ++ useRegs := fun o ho => List.mem_append_left _ ho
  have hR : ∀ o ∈ useRegs, o ∈ trayRegs l ++ useRegs := fun o ho => List.mem_append_right _ ho
  refine ⟨_, _, he, ?_, (tray_of_flash (e1.1 .flash (by simp)) l).trans c2, ?_, Tray.sameRest_rebuild hrest,
    fun v hv => dieOut_blocks (mem_settle hv), ?_, ?_⟩
  · exact only_trans (only_mono a1 (by simp) hL) (only_trans (only_mono b1 (by simp) hL) (only_trans (only_mono c1 (by simp) hR)
      (only_mono e1 (by simp) hR)))
  · rw [Tray.sameRest_failed hrest]
    show y.failed ++ [d] = [d]
    rw [hf]
    rfl
  · rw [bit_of_rd (e1.2 _ reg314_notMem), bit_of_rd (c1.2 _ reg314_notMem)]
    exact b3
  · rw [show (r.syncUse s.tierCtxs).tier = r.tier from e1.1 .tier (by simp), c3, b2]

/-- Settles O42: the write cache takes what waits for it, destaging programs the oldest dirty unit, moves keep the map, and failed dies and
discarded pages leave their tray. -/
theorem flashKeepsUnitsAndDropsDiscardedPages : Obligations.FlashKeepsUnitsAndDropsDiscardedPages := by
  unfold Obligations.FlashKeepsUnitsAndDropsDiscardedPages
  refine ⟨⟨writeCacheFill_takes, destage_programs, movers_empty⟩, flashDieFailure_first, flashDieRebuild_rewrites, ?_, secureDiscardComplete_frees⟩
  exact fun s l p y hy hd hb hg _ ha => secureDiscard_drops s l p y hy hd hb hg ha

end Sys2Proof.Machine
end

section
/-! PROOFS. `MER_CTRL` and the frame registers (R70, R71, R74). -/

namespace Sys2Proof.Machine

/-- A field all of whose bits are written takes the value's. -/
theorem nbits_masked_write (c v m : Word) {lo w : Nat} (h : lo + w < 32) (hm : m.extractLsb' lo w = BitVec.allOnes w) :
    nbits ((c &&& ~~~m) ||| (v &&& m)).toNat lo w = nbits v.toNat lo w := by
  rw [nbits_ext, nbits_ext]
  congr 1
  rw [BitVec.extractLsb'_or, BitVec.extractLsb'_and, BitVec.extractLsb'_and, BitVec.extractLsb'_not_of_lt h, hm]
  simp

theorem merCtrlOk_iff (v : Word) : merCtrlOk v = true ↔
    8 ≤ nbits v.toNat 0 9 ∧ nbits v.toNat 0 9 ≤ 256 ∧ 4 ≤ nbits v.toNat 16 5 ∧ nbits v.toNat 16 5 ≤ 16 := by
  simp [merCtrlOk, and_assoc]

theorem exec_merCtrlWrite {s : State} {port : Nat} (v : Word) (h : s.accepts port 0x100 = true) :
    exec (.merCtrlWrite port v) s = .next (s.merCtrl port v) :=
  congrArg Host.Outcome.next (regS_accepts h _ v _)

theorem rd_merCtrl_plain {s : State} {port : Nat} (h : s.owner port = true) (v : Word) :
    (s.plainWrite port 0x100 v).rd 0x100 = (s.rd 0x100 &&& ~~~(0x1F01FF : Word)) ||| (v &&& 0x1F01FF) := by
  rw [rd_plain h]
  have hi : regInfo 0x100 = { rws := 0x1F01FF } := rfl
  simp [hi]

/-- A value within the ranges of R70 stores both fields and is pending. -/
theorem merCtrl_of_ok {s : State} {port : Nat} {v : Word} (ho : s.owner port = true) (hv : merCtrlOk v = true) :
    onlyRegs [0x100, 0x104] s (s.merCtrl port v)
      ∧ nbits ((s.merCtrl port v).rd 0x100).toNat 0 9 = nbits v.toNat 0 9
      ∧ nbits ((s.merCtrl port v).rd 0x100).toNat 16 5 = nbits v.toNat 16 5
      ∧ (s.merCtrl port v).rd 0x104 = s.rd 0x104 ||| 4 := by
  have he : s.merCtrl port v = (s.plainWrite port 0x100 v).set 0x104 4 := if_pos hv
  rw [he, State.rd_set_ne _ _ _ _ (by decide), rd_merCtrl_plain ho, State.rd_set_same, plain_ne ho v (by decide)]
  refine ⟨only_trans (only_plain _ ho v (by simp)) (only_set _ _ _ (by simp)), ?_, ?_, rfl⟩ <;>
    exact nbits_masked_write _ _ _ (by decide) (by decide)

/-- Any other value is discarded with `BAD_WRITE`. -/
theorem merCtrl_of_not_ok {s : State} {v : Word} (port : Nat) (hv : ¬ merCtrlOk v = true) :
    onlyRegs [0x114] s (s.merCtrl port v) ∧ (s.merCtrl port v).rd 0x114 = s.rd 0x114 ||| 8 := by
  have he : s.merCtrl port v = s.set 0x114 8 := if_neg hv
  rw [he]
  exact ⟨only_set _ _ _ (by simp), State.rd_set_same _ _ _⟩

/-- The high word of the frame number is captured for a port. -/
def State.captured (s : State) (port : Nat) : State :=
  { s with time := { s.time with
    capture := (port, BitVec.ofNat 32 (s.time.frame / 2 ^ 32)) :: s.time.capture.filter (fun p => p.1 != port) } }

theorem exec_merFrameLoRead {s : State} {port : Nat} (h : s.accepts port 0x108 = true) :
    exec (.merFrameLoRead port) s = .next ((s.captured port).emit (.regData port (BitVec.ofNat 64 (s.time.frame % 2 ^ 32)))) :=
  congrArg Host.Outcome.next (reg_accepts h _ _)

theorem find_captured (s : State) (port n : Nat) : (s.captured port).time.capture.find? (fun p => p.1 == n)
    = if n = port then some (port, BitVec.ofNat 32 (s.time.frame / 2 ^ 32)) else s.time.capture.find? (fun p => p.1 == n) := by
  show List.find? _ (_ :: _) = _
  by_cases h : n = port
  · subst h; simp
  · rw [List.find?_cons_of_neg (by simpa using Ne.symm h), find_filter_ne _ _ _ h, if_neg h]

/-- `MER_FRAME_HI` answers the word captured for the port. -/
theorem regRead_frameHi {t : State} {port : Nat} {w : Word} (h : t.time.capture.find? (fun p => p.1 == port) = some (port, w)) :
    t.regRead (some port) 0x10C = w.toNat := by
  have hf : t.time.capture.find? (fun p => (some port : Option Nat) == some p.1) = some (port, w) := by
    rw [← h]
    congr 1
    funext p
    simp [eq_comm]
  have hr : t.reach 0x10C = true := rfl
  unfold State.regRead
  simp only [hr, hf]
  rfl

/-- Settles O1, by the cases of a write of `MER_CTRL` and the words captured for ports. -/
theorem merCtrlIsCheckedAndFrameReadsCapture : Obligations.MerCtrlIsCheckedAndFrameReadsCapture := by
  unfold Obligations.MerCtrlIsCheckedAndFrameReadsCapture
  refine ⟨fun s port v h => ⟨fun hv => ?_, fun hv => ?_⟩, fun s port h => ?_⟩
  · exact ⟨_, exec_merCtrlWrite v h, merCtrl_of_ok (accepts_owner h) ((merCtrlOk_iff v).2 hv)⟩
  · exact ⟨_, exec_merCtrlWrite v h, merCtrl_of_not_ok port (fun k => hv ((merCtrlOk_iff v).1 k))⟩
  · have hsame : (s.captured port).time.capture.find? (fun p => p.1 == port) = some (port, BitVec.ofNat 32 (s.time.frame / 2 ^ 32)) := by
      rw [find_captured, if_pos rfl]
    refine ⟨_, exec_merFrameLoRead h, only_trans (only_put_time _ _ _ (by simp)) (only_emit _ _ _ (by simp)), rfl, rfl, hsame,
      fun n hn => (find_captured s port n).trans (if_neg hn), fun frame => ?_⟩
    refine (regRead_frameHi ?_).trans (BitVec.toNat_ofNat _ _)
    exact hsame

end Sys2Proof.Machine
end

section
/-! PROOFS. The time state follows network time (R60, R61, R69, R75). -/

namespace Sys2Proof.Machine

theorem timeState_wrFld (s : State) {v : Nat} (h : v < 4) : (s.wrFld 0x104 0 2 v).timeState = v := fld_wrFld _ _ _ _ _ h (by decide)

theorem timeState_of_only {ps : List Part} {l : List Nat} {s t : State} (h : only ps l s t) (hl : 0x104 ∉ l) : t.timeState = s.timeState :=
  fld_of_rd (h.2 _ hl) 0 2

theorem merOffset_toInt {o : Int} (hl : -2147483647 ≤ o) (hu : o ≤ 2147483647) : (merOffset o).toInt = o := by
  have hc : max (-(2 ^ 31 - 1)) (min (2 ^ 31 - 1) o) = o := by omega
  rw [merOffset, hc, BitVec.toInt_ofInt, Int.bmod_def]
  omega

/-- The time state that an offset gives (R61). -/
def State.timeStateFor (s : State) (o : Int) : Nat := if (s.timeState = 1 ∨ s.timeState = 2) ∧ o.natAbs ≤ 100 then 2 else 1

/-- Valid time: offset and time state follow, and only an event may be latched besides. -/
theorem ptp_events (s : State) (net : Nat) (o : Int) :
    onlyRegs [0x114] (((({ s with time := { s.time with net := net, offset := o } } : State).wr 0x110 (merOffset o))).wrFld 0x104 0 2 (s.timeStateFor o))
      (s.ptp net o) := by
  have hst : s.timeStateFor o = if (s.timeState == 1 || s.timeState == 2) && decide (o.natAbs ≤ 100) then 2 else 1 := by
    simp [State.timeStateFor]
  rw [hst]
  exact only_trans (only_when _ _ fun _ => only_set _ _ _ (by simp)) (only_when _ _ fun _ => only_set _ _ _ (by simp))

theorem only_ptp (s : State) (net : Nat) (o : Int) : only [.time] [0x104, 0x110, 0x114] s (s.ptp net o) :=
  only_trans (only_put_time _ _ _ (by simp)) (only_trans (only_wr _ _ _ (by simp)) (only_trans (only_wrFld _ _ _ _ _ (by simp))
    (only_mono (ptp_events s net o) (by simp) (by simp))))

theorem ptp_time (s : State) (net : Nat) (o : Int) : (s.ptp net o).time = { s.time with net := net, offset := o } :=
  (ptp_events s net o).1 .time (by simp)

theorem ptp_timeState (s : State) (net : Nat) (o : Int) : (s.ptp net o).timeState = s.timeStateFor o :=
  (timeState_of_only (ptp_events s net o) (by decide)).trans (timeState_wrFld _ (by unfold State.timeStateFor; split <;> decide))

theorem rd_ptp_offset (s : State) (net : Nat) (o : Int) : (s.ptp net o).rd 0x110 = merOffset o := by
  rw [(ptp_events s net o).2 _ (by decide), State.rd_wrFld_ne _ _ _ _ _ _ (by decide), State.rd_wr_same]

/-- The grid's own time since frame 0, in ns (R57). -/
def State.gridNs (s : State) : Nat := s.time.frame * s.periodNs + s.time.cycle * 5 / 9

/-- The network time that a Sync stands for now. -/
def State.netNow (s : State) (origin arrival : Nat) : Nat := origin + s.time.delay + (s.localNs - arrival)

theorem discipline_of_sync {s : State} {r : Nat × Nat} (h : s.time.sync = some r) :
    s.discipline = s.ptp (s.netNow r.1 r.2 - s.time.cycle * 5 / 9) ((s.gridNs : Int) - s.netNow r.1 r.2) := by
  unfold State.discipline
  rw [h]
  rfl

/-- A Sync is noted and its delay request leaves. -/
def State.synced (s : State) (origin arrival : Nat) : State :=
  ({ s with time := { s.time with syncAt := none, sync := some (origin, arrival), reqAt := some s.localNs } } : State).emit
    (.delayReq (s.fld 0x118 0 7) (s.fld 0x118 8 1))

theorem ptpSync_eq (s : State) (origin arrival : Nat) : s.ptpSync origin arrival
    = (s.synced origin arrival).ptp (s.netNow origin arrival - s.time.cycle * 5 / 9) ((s.gridNs : Int) - s.netNow origin arrival) := by
  have hnet : (s.synced origin arrival).netNow origin arrival = s.netNow origin arrival := rfl
  have hgrid : (s.synced origin arrival).gridNs = s.gridNs := rfl
  have hcycle : (s.synced origin arrival).time.cycle = s.time.cycle := rfl
  have hsync : (s.synced origin arrival).time.sync = some (origin, arrival) := rfl
  rw [← hnet, ← hgrid, ← hcycle]
  exact discipline_of_sync hsync

theorem exec_ptpMessage {s : State} {d tr : Nat} (m : PtpMsg) (hr : s.ready = true) (hd : d = s.fld 0x118 0 7) (ht : tr = s.fld 0x118 8 1) :
    exec (.ptpMessage d tr m) s = .next (s.ptpTake m) := by
  show Host.Outcome.next (s.when _ _) = _
  simp [hr, ← hd, ← ht, State.when]

/-- A Sync, in one step or by its Follow_Up, is valid time. -/
theorem ptpMessage_sync {s : State} {d tr origin arr : Nat} {m : PtpMsg} (hr : s.ready = true) (hd : d = s.fld 0x118 0 7)
    (ht : tr = s.fld 0x118 8 1) (hm : m = .sync false origin ∧ arr = s.localNs ∨ m = .followUp origin ∧ s.time.syncAt = some arr) :
    exec (.ptpMessage d tr m) s = .next (s.ptpSync origin arr) := by
  rw [exec_ptpMessage m hr hd ht]
  rcases hm with ⟨rfl, rfl⟩ | ⟨rfl, hs⟩
  · rfl
  · simp [State.ptpTake, hs]

/-- The mean path delay has been measured, and no response is awaited. -/
def State.delayMeasured (s : State) (delay : Nat) : State := { s with time := { s.time with reqAt := none, delay := delay } }

/-- A response that is awaited sets the mean path delay. -/
theorem ptpTake_delayResp {s : State} {received q : Nat} {r : Nat × Nat} (hs : s.time.sync = some r) (hq : s.time.reqAt = some q) :
    s.ptpTake (.delayResp received)
      = (s.delayMeasured (pathDelay r.1 r.2 q received)).discipline := by
  simp [State.ptpTake, State.delayMeasured, hs, hq]

/-- A message of another domain or transport, or one that nothing awaits, is not taken. -/
theorem ptpMessage_ignored {s : State} {d tr n : Nat} {m : PtpMsg} (h : d ≠ s.fld 0x118 0 7 ∨ tr ≠ s.fld 0x118 8 1
    ∨ m = .followUp n ∧ s.time.syncAt = none ∨ m = .delayResp n ∧ (s.time.sync = none ∨ s.time.reqAt = none)) :
    exec (.ptpMessage d tr m) s = .next s := by
  show Host.Outcome.next (s.when _ (fun t => t.ptpTake m)) = _
  rcases h with h | h | ⟨rfl, h⟩ | ⟨rfl, h⟩
  · simp [h, State.when]
  · simp [h, State.when]
  · have hk : s.ptpTake (.followUp n) = s := by simp [State.ptpTake, h]
    simp [State.when, hk]
  · have hk : s.ptpTake (.delayResp n) = s := by rcases h with h | h <;> simp [State.ptpTake, h]
    simp [State.when, hk]

theorem exec_holdoverTimeout {s : State} (hr : s.ready = true) (hs : s.timeState = 1 ∨ s.timeState = 2) :
    exec .holdoverTimeout s = .next ((s.wrFld 0x104 0 2 3).set 0x114 1) := by
  show Host.Outcome.next (s.when _ _) = _
  simp [hr, State.when, hs]

/-- Settles O2, by what valid time does to the offset and the time state, and which messages are valid time. -/
theorem timeStateFollowsNetworkTime : Obligations.TimeStateFollowsNetworkTime := by
  unfold Obligations.TimeStateFollowsNetworkTime
  refine ⟨fun s d tr origin arr m o hr hd ht hm ho => ?_, fun s d tr origin hr hd ht => ?_, fun s d tr received q r hr hd ht hs hq => ?_,
    fun s d tr n m h => ptpMessage_ignored h, fun s hr hs => ?_⟩
  · have ho' : o = (s.gridNs : Int) - s.netNow origin arr := ho
    have hkeep := only_ptp (s.synced origin arr) (s.netNow origin arr - s.time.cycle * 5 / 9) o
    refine ⟨_, ptpMessage_sync hr hd ht hm, ?_⟩
    rw [ptpSync_eq, ← ho']
    refine ⟨?_, ?_, ?_, ?_, ?_, ptp_timeState _ _ _, fun hl hu => ?_⟩
    · exact only_trans (only_put_time _ _ _ (by simp)) (only_trans (only_emit _ _ _ (by simp)) (only_mono hkeep (by simp) (by simp)))
    · rw [show State.out _ = _ from hkeep.1 .out (by simp), hd, ht]
      rfl
    · rw [ptp_time]
    · rw [ptp_time]; rfl
    · rw [ptp_time]; rfl
    · rw [rd_ptp_offset, merOffset_toInt hl hu]
  · exact ⟨_, exec_ptpMessage _ hr hd ht, only_put_time _ _ _ (by simp), rfl⟩
  · refine ⟨_, exec_ptpMessage _ hr hd ht, ?_⟩
    have hsync : (s.delayMeasured (pathDelay r.1 r.2 q received)).time.sync = some r := hs
    rw [ptpTake_delayResp hs hq, discipline_of_sync hsync, ptp_time]
    exact ⟨only_trans (only_put_time _ _ _ (by simp)) (only_ptp _ _ _), rfl, rfl⟩
  · refine ⟨_, exec_holdoverTimeout hr hs, ?_, ?_, ?_⟩
    · rw [timeState_of_only (only_set [] _ 1 (List.mem_singleton.2 rfl)) (by decide), timeState_wrFld _ (by decide)]
    · rw [State.rd_set_same, State.rd_wrFld_ne _ _ _ _ _ _ (by decide)]
    · exact only_trans (only_wrFld _ _ _ _ _ (by simp)) (only_set _ _ _ (by simp))

end Sys2Proof.Machine
end

section
/-! PROOFS. The standby slot's registers, and commands that load, discard and stop (R93, R107, R113, R114). -/

namespace Sys2Proof.Machine

theorem mem_standbyRegs {d : Nat} (h : d < 4) : ephReg d 0 ∈ standbyRegs ∧ ephReg d 8 ∈ standbyRegs := by
  constructor <;> exact List.mem_flatMap.2 ⟨d, List.mem_range.2 h, by simp⟩

theorem mem_activeRegs {d : Nat} (h : d < 4) : ephReg d 0 ∈ activeRegs ∧ ephReg d 4 ∈ activeRegs := by
  constructor <;> exact List.mem_flatMap.2 ⟨d, List.mem_range.2 h, by simp⟩

/-- The standby state and its identity take their registers alone, in any frame that holds them. -/
theorem only_standby {ps : List Part} {l : List Nat} (s : State) (a b : Nat) (h : ∀ o ∈ standbyRegs, o ∈ l) : only ps l s (s.setStandby a b) :=
  only_setStandby ps s a b (fun _ hd => ⟨h _ (mem_standbyRegs hd).1, h _ (mem_standbyRegs hd).2⟩)

theorem only_standbyState {ps : List Part} {l : List Nat} (s : State) (a : Nat) (h : ∀ o ∈ standbyRegs, o ∈ l) :
    only ps l s (s.setStandbyState a) :=
  only_setStandbyState ps s a (fun _ hd => h _ (mem_standbyRegs hd).1)

/-- The standby state is a field of three bits. -/
theorem setStandbyState_mod (s : State) (a : Nat) : s.setStandbyState a = s.setStandbyState (a % 8) := by
  simp [State.setStandbyState, State.wrFld, nput]

theorem standbyState_of_rd {s t : State} (h : t.rd (ephReg 0 0) = s.rd (ephReg 0 0)) : t.standbyState = s.standbyState := fld_of_rd h 4 3

theorem standbyState_of_only {ps : List Part} {l : List Nat} {s t : State} (h : only ps l s t) (hl : ephReg 0 0 ∉ l) :
    t.standbyState = s.standbyState :=
  standbyState_of_rd (h.2 _ hl)

/-- The other registers of die 0's Ephemeris block lie apart from the standby state and its identity. -/
theorem eph_ne_standby {o : Nat} (h0 : o ≠ 0) (h8 : o ≠ 8) (ho : o < 0x100) :
    (∀ d, d < 4 → ephReg 0 o ≠ ephReg d 0) ∧ ∀ d, d < 4 → ephReg 0 o ≠ ephReg d 8 :=
  ⟨fun d _ e => h0 (ephReg_inj 0 d o 0 ho (by decide) e).2, fun d _ e => h8 (ephReg_inj 0 d o 8 ho (by decide) e).2⟩

theorem rd_setStandby_eph (s : State) (a b : Nat) {o : Nat} (h0 : o ≠ 0) (h8 : o ≠ 8) (ho : o < 0x100) :
    (s.setStandby a b).rd (ephReg 0 o) = s.rd (ephReg 0 o) :=
  setStandby_rd s a b _ (eph_ne_standby h0 h8 ho).1 (eph_ne_standby h0 h8 ho).2

theorem rd_setStandbyState_eph (s : State) (a : Nat) {o : Nat} (h0 : o ≠ 0) (h8 : o ≠ 8) (ho : o < 0x100) :
    (s.setStandbyState a).rd (ephReg 0 o) = s.rd (ephReg 0 o) :=
  setStandbyState_rd s a _ (eph_ne_standby h0 h8 ho).1

/-- CMD_IGNORED is latched, and nothing else changes. -/
theorem ephIgnored_spec (s : State) :
    onlyRegs [ephReg 0 0x28] s s.ephIgnored ∧ s.ephIgnored.rd (ephReg 0 0x28) = s.rd (ephReg 0 0x28) ||| 0x40 :=
  ⟨only_set [] s 0x40 (List.mem_singleton.2 rfl), State.rd_set_same _ _ _⟩

-- loads

theorem load_of_busy {s : State} (h : s.standbyState = 1 ∨ s.standbyState = 2 ∨ s.standbyState = 5) (src : Source) (start : Bool) :
    s.load src start = s.ephIgnored := by
  rcases h with h | h | h <;> simp [State.load, h]

/-- A load that starts replaces what the standby slot held (R93, R114). -/
theorem load_starts {s : State} (h : s.standbyState ≠ 1 ∧ s.standbyState ≠ 2 ∧ s.standbyState ≠ 5) (src : Source) :
    only [.eph] standbyRegs s (s.load src false) ∧ (s.load src false).eph.active = s.eph.active ∧ (s.load src false).standbyState = 1
      ∧ (s.load src false).eph.standby = none ∧ (s.load src false).eph.source = some src := by
  rw [load_of_free h]
  exact ⟨only_trans (only_mono (only_loading _ _ _) (by simp) (by simp)) (only_standby _ _ _ fun _ ho => ho), rfl,
    setStandby_state _ 1 0 (by decide), rfl, rfl⟩

theorem exec_loadPool {s : State} {port : Nat} (h : s.accepts port (ephReg 0 0x18) = true) :
    exec (.loadPool port) s = .next s.loadPool :=
  congrArg Host.Outcome.next (reg_accepts h _ _)

theorem exec_loadLibrary {s : State} {port : Nat} (index : Nat) (h : s.accepts port (ephReg 0 0x18) = true) :
    exec (.loadLibrary port index) s = .next (s.loadLibrary index) :=
  congrArg Host.Outcome.next (reg_accepts h _ _)

theorem loadLibrary_of_lt {s : State} {index : Nat} (h : index < (s.rd (ephReg 0 0x4C)).toNat) :
    s.loadLibrary index = s.load (.library index) false := if_neg (Nat.not_le.2 h)

theorem loadLibrary_ignored {s : State} {index : Nat}
    (h : (s.rd (ephReg 0 0x4C)).toNat ≤ index ∨ s.standbyState = 1 ∨ s.standbyState = 2 ∨ s.standbyState = 5) :
    s.loadLibrary index = s.ephIgnored := by
  by_cases hi : (s.rd (ephReg 0 0x4C)).toNat ≤ index
  · exact if_pos hi
  · rw [loadLibrary_of_lt (Nat.not_le.1 hi)]
    exact load_of_busy (h.resolve_left hi) _ _

-- the end of an arm, and discarding

theorem leadOk_iff (s : State) (e : Nat) : s.leadOk e = true ↔ s.time.frame + 16 ≤ e * 2 ^ s.time.epochLog2 := decide_eq_true_iff

theorem only_endArm (s : State) : only [.eph] [0x604, ephReg 0 0x20] s s.endArm :=
  only_trans (only_put_eph _ _ _ (by simp)) (only_trans (only_wrFld _ _ _ _ _ (by simp)) (only_wrn _ _ _ (by simp)))

theorem rd_endArm_arm (s : State) : s.endArm.rd (ephReg 0 0x20) = 0 := State.rd_wrn_same _ _ _

/-- The standby slot's part of the control state when it is discarded. -/
def EphS.discarded (e : EphS) : EphS :=
  { e with armed := none, compArm := none, source := none, bytes := [], standby := none, recheck := 0, startImage := false }

/-- The arm has ended and the slot holds nothing. -/
def State.slotCleared (s : State) : State := { s.endArm with eph := s.eph.discarded }

theorem only_slotCleared (s : State) : only [.eph] [0x604, ephReg 0 0x20] s s.slotCleared :=
  only_trans (only_endArm s) (only_put_eph _ _ _ (by simp))

theorem discardStandby_of_lead {s : State} (h0 : s.standbyState ≠ 0)
    (hl : s.standbyState = 5 → ∀ e, s.eph.armed = some e → s.time.frame + 16 ≤ e * 2 ^ s.time.epochLog2) :
    s.discardStandby = s.slotCleared.setStandby 0 0 := by
  have hc : (s.standbyState == 5 && !(s.eph.armed.elim true (fun e => s.leadOk e))) = false := by
    by_cases h5 : s.standbyState = 5
    · cases ha : s.eph.armed with
      | none => simp
      | some e => simp [(leadOk_iff s e).2 (hl h5 e ha)]
    · simp [h5]
  simp only [State.discardStandby, hc, Bool.false_eq_true, if_false, beq_eq_false_iff_ne.2 h0]
  rfl

theorem exec_discardStandby {s : State} {port : Nat} (h : s.accepts port (ephReg 0 0x18) = true) :
    exec (.discardStandby port) s = .next s.discardStandby :=
  congrArg Host.Outcome.next (reg_accepts h _ _)

-- stopping

/-- The first multiple of an epoch at or after a frame. -/
theorem cdiv_spec {n m : Nat} (hm : 0 < m) : n ≤ cdiv n m * m ∧ ∀ k, n ≤ k * m → cdiv n m ≤ k := by
  unfold cdiv
  constructor
  · have := Nat.lt_div_mul_add (a := n + m - 1) hm
    omega
  · intro k hk
    exact Nat.lt_succ_iff.1 ((Nat.div_lt_iff_lt_mul hm).2 (by rw [Nat.succ_mul]; omega))

/-- The next epoch's boundary is the first one at least 16 frames ahead. -/
theorem nextEpoch_spec (s : State) : s.time.frame + 16 ≤ s.nextEpoch * 2 ^ s.time.epochLog2
    ∧ ∀ k, s.time.frame + 16 ≤ k * 2 ^ s.time.epochLog2 → s.nextEpoch ≤ k :=
  cdiv_spec (Nat.two_pow_pos _)

/-- Where one element of the list gives a field its value and no other touches its register, the field reads that value after the whole list. -/
theorem fld_each_mem {α : Type} {l : List α} {f : α → State → State} {j lo w v : Nat} {a : α} (ha : a ∈ l)
    (hv : ∀ t, (f a t).fld j lo w = v) (hb : ∀ b ∈ l, b ≠ a → ∀ t, (f b t).rd j = t.rd j) (s : State) : (s.each l f).fld j lo w = v := by
  induction l generalizing s with
  | nil => cases ha
  | cons b l ih =>
    by_cases hl : a ∈ l
    · exact ih hl (fun c hc => hb c (by simp [hc])) (f b s)
    · obtain rfl : a = b := by simpa [hl] using ha
      exact (fld_of_rd (rd_each_ne (fun c hc => hb c (by simp [hc]) (fun e => hl (e ▸ hc))) (f a s)) lo w).trans (hv s)

/-- Every die shows the active state. -/
theorem setActive_fld (s : State) {v : Nat} (id : Nat) (hv : v < 4) {d : Nat} (hd : d < 4) : (s.setActive v id).fld (ephReg d 0) 0 2 = v := by
  refine fld_each_mem (List.mem_range.2 hd) (fun t => ?_) (fun b hb hne t => ?_) s
  · rw [fld_of_rd (State.rd_wrn_ne _ _ _ _ fun e => absurd (ephReg_inj _ _ _ _ (by decide) (by decide) e).2 (by decide))]
    exact fld_wrFld _ _ _ _ _ hv (by decide)
  · rw [State.rd_wrn_ne _ _ _ _ fun e => hne (ephReg_inj _ _ _ _ (by decide) (by decide) e).1.symm,
      State.rd_wrFld_ne _ _ _ _ _ _ fun e => hne (ephReg_inj _ _ _ _ (by decide) (by decide) e).1.symm]

/-- A stop is set for an epoch boundary. -/
def State.stopSet (s : State) : State := { s with eph := { s.eph with stopAt := some (s.nextEpoch * s.epochLen) } }

theorem stopActive_of_active {s : State} {g : Image} (ha : s.eph.active = some g) (hs : s.eph.stopAt = none) :
    s.stopActive = s.stopSet.setActive 2 g.id := by
  simp only [State.stopActive, ha, hs, Option.isSome_none, Bool.false_eq_true, if_false, State.stopSet]

theorem stopActive_ignored {s : State} (ha : s.eph.active = none) : s.stopActive = s.ephIgnored := by
  simp only [State.stopActive, ha]

theorem exec_stopActive {s : State} {port : Nat} (h : s.accepts port (ephReg 0 0x18) = true) :
    exec (.stopActive port) s = .next s.stopActive :=
  congrArg Host.Outcome.next (reg_accepts h _ _)

/-- Settles O3, by the cases of each command to the standby slot. -/
theorem standbySlotIsLoadedAndDiscarded : Obligations.StandbySlotIsLoadedAndDiscarded := by
  unfold Obligations.StandbySlotIsLoadedAndDiscarded
  refine ⟨⟨fun s port h => ⟨_, exec_loadPool h, fun hf => load_starts hf _, fun hb => ?_⟩,
    fun s port index h => ⟨_, exec_loadLibrary index h, fun hi hf => ?_, fun hb => ?_⟩⟩,
    fun s port h h0 hl => ⟨_, exec_discardStandby h, ?_⟩, fun s port g h ha hs => ⟨_, exec_stopActive h, ?_⟩,
    fun s port h ha => ⟨_, exec_stopActive h, ?_⟩⟩
  · rw [show s.loadPool = s.ephIgnored from load_of_busy hb _ _]
    exact ephIgnored_spec s
  · rw [loadLibrary_of_lt hi]
    exact load_starts hf _
  · rw [loadLibrary_ignored hb]
    exact ephIgnored_spec s
  · rw [discardStandby_of_lead h0 hl]
    refine ⟨only_trans (only_mono (only_slotCleared s) (fun _ hp => hp) (fun _ ho => List.mem_append_left _ ho))
      (only_standby _ _ _ fun _ ho => List.mem_append_right _ ho), setStandby_state _ 0 0 (by decide), rfl, rfl, ?_, rfl⟩
    rw [rd_setStandby_eph _ _ _ (by decide) (by decide) (by decide)]
    exact rd_endArm_arm s
  · rw [stopActive_of_active ha hs]
    refine ⟨only_trans (only_put_eph _ _ _ (by simp)) (only_setActive _ _ _ _ fun _ hd => mem_activeRegs hd), ha,
      fun d hd => setActive_fld _ _ (by decide) hd, s.nextEpoch, rfl, nextEpoch_spec s⟩
  · rw [stopActive_ignored ha]
    exact ephIgnored_spec s

end Sys2Proof.Machine
end

section
/-! PROOFS. The read of an image and its check (R91, R93, R112, R563). -/

namespace Sys2Proof.Machine

/-- The result of a check and the state that shows it lie in these registers. -/
theorem only_checkResult (ps : List Part) {l : List Nat} (s : State) (r : Nat × Nat × Nat) (h : ephReg 0 0x1C ∈ l) :
    only ps l s (s.checkResult r) := only_wrn ps s _ h

theorem rd_checkResult (s : State) (r : Nat × Nat × Nat) :
    (s.checkResult r).rd (ephReg 0 0x1C) = BitVec.ofNat 32 (r.1 + 2 ^ 8 * r.2.1 + 2 ^ 10 * r.2.2) := State.rd_wrn_same _ _ _

-- the read

/-- What the log of a read error can change. -/
theorem only_imageUe {l : List Nat} (s : State) (src : Source) (ue : List Nat) (hl : ∀ o ∈ errRegs, o ∈ l) :
    only [.health, .out, .link, .freeCtr] l s (s.imageUe src ue) := by
  cases src with
  | library i => exact only_refl _ _ _
  | pool a =>
    exact only_when _ _ fun _ => only_trans (only_fresh l s (by simp))
      (only_errLog _ _ _ _ _ _ _ (by simp) (by simp) (by simp) hl)

/-- The image's bytes are there for the check. -/
def State.imageHeld (s : State) (b : List Byte) : State := { s with eph := { s.eph with bytes := b } }

/-- The control state after a read that failed. -/
def State.readFailed (s : State) : State := { s with eph := { s.eph with source := none, readFault := true, startImage := false } }

/-- What a failed read leaves, before the loss of a start image is noted. -/
def State.readRejected (s : State) (src : Source) (ue : List Nat) : State :=
  ((s.imageUe src ue).readFailed.checkResult (0x12, 0, 0)).setStandby 4 0

/-- A start image that is rejected is noted. -/
def State.startImageNoted (s : State) (start : Bool) : State := s.when start (·.set 0xA0C 1)

theorem only_startImageNoted (s : State) (start : Bool) : onlyRegs [0xA0C] s (s.startImageNoted start) :=
  only_when _ _ fun _ => only_set _ _ _ (by simp)

theorem startImageReg_ne (d o : Nat) : ephReg d o ∉ [0xA0C] := by
  simp only [List.mem_singleton, ephReg, dieReg, dieBase]
  omega

theorem imageReadDone_good {s : State} {src : Source} {ue : List Nat} (hs : s.eph.source = some src) (h1 : s.standbyState = 1)
    (h : (s.imageBytes src ue).2 = false) :
    exec (.imageReadDone ue) s = .next ((s.imageHeld (s.imageBytes src ue).1).setStandby 2 (le (s.imageBytes src ue).1 0x0C 4)) := by
  show execImageReadDone ue s = _
  simp [execImageReadDone, hs, h1, h, State.imageHeld]

theorem imageReadDone_failed {s : State} {src : Source} {ue : List Nat} (hs : s.eph.source = some src) (h1 : s.standbyState = 1)
    (h : (s.imageBytes src ue).2 = true) :
    exec (.imageReadDone ue) s = .next ((s.readRejected src ue).startImageNoted s.eph.startImage) := by
  show execImageReadDone ue s = _
  simp [execImageReadDone, hs, h1, h, State.readRejected, State.readFailed, State.startImageNoted]

theorem readRejected_eph (s : State) (src : Source) (ue : List Nat) :
    (s.readRejected src ue).eph = { s.eph with source := none, readFault := true, startImage := false } := by
  have he : (s.imageUe src ue).eph = s.eph := (only_imageUe (l := errRegs) s src ue fun _ h => h).1 .eph (by simp)
  rw [← he]
  rfl

theorem rd_readRejected_result (s : State) (src : Source) (ue : List Nat) : (s.readRejected src ue).rd (ephReg 0 0x1C) = 0x12 := by
  rw [State.readRejected, rd_setStandby_eph _ _ _ (by decide) (by decide) (by decide), rd_checkResult]
  rfl

theorem only_readRejected (s : State) (src : Source) (ue : List Nat) :
    only [.eph, .health, .out, .link, .freeCtr] ([0xA0C, ephReg 0 0x1C] ++ standbyRegs ++ errRegs) s (s.readRejected src ue) := by
  have hue := only_mono (only_imageUe (l := errRegs) s src ue fun _ h => h) (qs := [.eph, .health, .out, .link, .freeCtr]) (by simp)
    (fun _ h => List.mem_append_right ([0xA0C, ephReg 0 0x1C] ++ standbyRegs) h)
  exact only_trans hue (only_trans (only_put_eph _ _ _ (by simp)) (only_trans (only_checkResult _ _ _ (by simp))
    (only_standby _ _ _ fun _ h => List.mem_append_left _ (List.mem_append_right _ h))))

-- the check

/-- The control state once the check has ended: the source is done with, `standby` holds the image. -/
def State.checkedAs (s : State) (standby : Option Image) (start : Bool) : State :=
  { s with eph := { s.eph with source := none, standby := standby, startImage := start } }

/-- The image is accepted with result r. -/
def State.accepted (s : State) (g : Image) (r : Nat × Nat × Nat) : State :=
  ((s.checkedAs (some g) s.eph.startImage).checkResult r).setStandby 3 g.id

/-- The image is rejected with result r. -/
def State.rejected (s : State) (g : Image) (r : Nat × Nat × Nat) : State :=
  ((s.checkedAs s.eph.standby false).checkResult r).setStandby 4 g.id

/-- The start image is armed for the next epoch (R563). -/
def State.startArmed (s : State) : State :=
  (({ s with eph := { s.eph with armed := some s.nextEpoch, startImage := false } } : State).setStandbyState 5).wrn (ephReg 0 0x20) 1

section
variable {s : State} {src : Source} (hs : s.eph.source = some src) (h2 : s.standbyState = 2) (hr : s.eph.recheck = 0)
include hs h2 hr

theorem admissionCheckDone_accepts (h0 : (s.admission s.eph.bytes s.eph.readFault).1 = 0) :
    exec .admissionCheckDone s = .next (if s.eph.startImage
      then (s.accepted (parseImage s.eph.bytes) (s.admission s.eph.bytes s.eph.readFault)).startArmed
      else s.accepted (parseImage s.eph.bytes) (s.admission s.eph.bytes s.eph.readFault)) := by
  show Host.Outcome.next (if _ then s else if _ then _ else _) = _
  rw [if_neg (by simp [hs, h2, hr]), if_pos h0]
  rfl

theorem admissionCheckDone_rejects (h0 : (s.admission s.eph.bytes s.eph.readFault).1 ≠ 0) :
    exec .admissionCheckDone s = .next ((s.rejected (parseImage s.eph.bytes) (s.admission s.eph.bytes s.eph.readFault)).startImageNoted
      s.eph.startImage) := by
  show Host.Outcome.next (if _ then s else if _ then _ else _) = _
  rw [if_neg (by simp [hs, h2, hr]), if_neg h0]
  rfl

end

/-- What the check can change (R112). -/
def checkRegs : List Nat := [0xA0C, ephReg 0 0x1C, ephReg 0 0x20] ++ standbyRegs

theorem standby_sub_checkRegs : ∀ o ∈ standbyRegs, o ∈ checkRegs := fun _ h => List.mem_append_right _ h

theorem only_accepted (s : State) (g : Image) (r : Nat × Nat × Nat) : only [.eph] checkRegs s (s.accepted g r) :=
  only_trans (only_put_eph _ _ _ (by simp)) (only_trans (only_checkResult _ _ _ (by simp [checkRegs])) (only_standby _ _ _ standby_sub_checkRegs))

theorem only_rejected (s : State) (g : Image) (r : Nat × Nat × Nat) : only [.eph] checkRegs s (s.rejected g r) :=
  only_trans (only_put_eph _ _ _ (by simp)) (only_trans (only_checkResult _ _ _ (by simp [checkRegs])) (only_standby _ _ _ standby_sub_checkRegs))

theorem only_startArmed (s : State) : only [.eph] checkRegs s s.startArmed :=
  only_trans (only_put_eph _ _ _ (by simp)) (only_trans (only_standbyState _ _ standby_sub_checkRegs) (only_wrn _ _ _ (by simp [checkRegs])))

theorem rd_accepted_result (s : State) (g : Image) (r : Nat × Nat × Nat) :
    (s.accepted g r).rd (ephReg 0 0x1C) = BitVec.ofNat 32 (r.1 + 2 ^ 8 * r.2.1 + 2 ^ 10 * r.2.2) := by
  rw [State.accepted, rd_setStandby_eph _ _ _ (by decide) (by decide) (by decide), rd_checkResult]

theorem rd_rejected_result (s : State) (g : Image) (r : Nat × Nat × Nat) :
    (s.rejected g r).rd (ephReg 0 0x1C) = BitVec.ofNat 32 (r.1 + 2 ^ 8 * r.2.1 + 2 ^ 10 * r.2.2) := by
  rw [State.rejected, rd_setStandby_eph _ _ _ (by decide) (by decide) (by decide), rd_checkResult]

theorem accepted_eph (s : State) (g : Image) (r : Nat × Nat × Nat) : (s.accepted g r).eph = { s.eph with source := none, standby := some g } := rfl

theorem startArmed_eph (s : State) : s.startArmed.eph = { s.eph with armed := some s.nextEpoch, startImage := false } := rfl

theorem nextEpoch_of_time {s t : State} (h : t.time = s.time) : t.nextEpoch = s.nextEpoch := by
  rw [State.nextEpoch, State.nextEpoch, State.epochLen, State.epochLen, h]

theorem nextEpoch_accepted (s : State) (g : Image) (r : Nat × Nat × Nat) : (s.accepted g r).nextEpoch = s.nextEpoch :=
  nextEpoch_of_time ((only_accepted s g r).1 .time (by simp))

theorem rd_startArmed_result (s : State) : s.startArmed.rd (ephReg 0 0x1C) = s.rd (ephReg 0 0x1C) := by
  rw [State.startArmed, State.rd_wrn_ne _ _ _ _ (by decide), rd_setStandbyState_eph _ _ (by decide) (by decide) (by decide)]
  rfl

theorem accepted_state (s : State) (g : Image) (r : Nat × Nat × Nat) : (s.accepted g r).standbyState = 3 := setStandby_state _ _ _ (by decide)

theorem rejected_state (s : State) (g : Image) (r : Nat × Nat × Nat) : (s.rejected g r).standbyState = 4 := setStandby_state _ _ _ (by decide)

theorem startArmed_state (s : State) : s.startArmed.standbyState = 5 :=
  (standbyState_of_rd (State.rd_wrn_ne _ _ _ _ (by decide))).trans (setStandbyState_state _ 5 (by decide))

/-- Settles O4, by the ends of a read and of a check. -/
theorem imageReadAndCheck : Obligations.ImageReadAndCheck := by
  unfold Obligations.ImageReadAndCheck
  refine ⟨fun s ue src hs h1 => ?_, fun s src hs h2 hr => ?_⟩
  · cases hb : (s.imageBytes src ue).2 with
    | false =>
      refine ⟨_, imageReadDone_good hs h1 hb, fun _ => ⟨?_, setStandby_state _ _ _ (by decide), rfl⟩, nofun⟩
      exact only_trans (only_put_eph _ _ _ (by simp)) (only_standby _ _ _ fun _ ho => ho)
    | true =>
      have hnote := only_startImageNoted (s.readRejected src ue) s.eph.startImage
      have heph : ((s.readRejected src ue).startImageNoted s.eph.startImage).eph = _ := (hnote.1 .eph (by simp)).trans (readRejected_eph s src ue)
      refine ⟨_, imageReadDone_failed hs h1 hb, nofun, fun _ => ⟨?_, ?_, ?_, by rw [heph], by rw [heph]⟩⟩
      · exact only_trans (only_readRejected s src ue) (only_mono hnote (by simp) (by simp))
      · rw [standbyState_of_only hnote (startImageReg_ne 0 0)]
        exact setStandby_state _ _ _ (by decide)
      · rw [hnote.2 _ (startImageReg_ne 0 0x1C), rd_readRejected_result]
  · generalize hr' : s.admission s.eph.bytes s.eph.readFault = r
    generalize hg : parseImage s.eph.bytes = g
    by_cases h0 : r.1 = 0
    · refine ⟨_, admissionCheckDone_accepts hs h2 hr (hr' ▸ h0), ?_⟩
      rw [hr', hg]
      cases hi : s.eph.startImage with
      | false =>
        rw [if_neg Bool.false_ne_true, accepted_eph]
        exact ⟨only_accepted s g r, rfl, rfl, rd_accepted_result s g r, fun _ _ => ⟨accepted_state s g r, rfl, rfl⟩,
          fun _ h => absurd h Bool.false_ne_true, fun h => absurd h0 h⟩
      | true =>
        rw [if_pos rfl, startArmed_eph, accepted_eph, nextEpoch_accepted]
        exact ⟨only_trans (only_accepted s g r) (only_startArmed _), rfl, rfl, (rd_startArmed_result _).trans (rd_accepted_result s g r),
          fun _ h => absurd h.symm Bool.false_ne_true,
          fun _ _ => ⟨startArmed_state _, rfl, State.rd_wrn_same _ _ _, s.nextEpoch, rfl, nextEpoch_spec s⟩, fun h => absurd h0 h⟩
    · have hnote := only_startImageNoted (s.rejected g r) s.eph.startImage
      have heph : ((s.rejected g r).startImageNoted s.eph.startImage).eph = (s.rejected g r).eph := hnote.1 .eph (by simp)
      refine ⟨_, admissionCheckDone_rejects hs h2 hr (hr' ▸ h0), ?_⟩
      rw [hr', hg, heph]
      refine ⟨only_trans (only_rejected s g r) (only_mono hnote (by simp) (by simp)), rfl, rfl, ?_, fun h => absurd h h0, fun h => absurd h h0,
        fun _ => ⟨?_, rfl, rfl⟩⟩
      · rw [hnote.2 _ (startImageReg_ne 0 0x1C), rd_rejected_result]
      · rw [standbyState_of_only hnote (startImageReg_ne 0 0), rejected_state]

end Sys2Proof.Machine
end

section
/-! PROOFS. Arming, disarming and the re-check (R102-R104, R106, R115). -/

namespace Sys2Proof.Machine

theorem exec_ephArm {s : State} {port : Nat} (comp : Bool) (h : s.accepts port (ephReg 0 0x20) = true) :
    exec (.ephArm port comp) s = .next (s.ephArm comp) :=
  congrArg Host.Outcome.next (regS_accepts h _ _ _)

theorem exec_ephDisarm {s : State} {port : Nat} (h : s.accepts port (ephReg 0 0x20) = true) :
    exec (.ephDisarm port) s = .next (s.ephDisarm false) :=
  congrArg Host.Outcome.next (regS_accepts h _ _ _)

theorem exec_ephArmEpochWrite {s : State} {port : Nat} (v : Word) (h : s.accepts port (ephReg 0 0x24) = true) :
    exec (.ephArmEpochWrite port v) s = .next (s.ephArmEpoch v) :=
  congrArg Host.Outcome.next (regS_accepts h _ _ _)

theorem bit_of_fld {s : State} {o i : Nat} (h : s.fld o i 1 = 1) : s.bit o i = true := by
  rw [State.bit, BitVec.getLsbD, Nat.testBit_eq_decide_div_mod_eq]
  exact decide_eq_true h

/-- The image is armed for epoch e, with the flip of the composition map when `comp`. -/
def State.armHeld (s : State) (e : Nat) (comp : Bool) : State :=
  { s with eph := { s.eph with armed := some e, compArm := if comp then some e else none } }

/-- The arm shows in the registers. -/
def State.armShown (s : State) (e : Nat) (comp : Bool) : State :=
  ((s.armHeld e comp).rtArmBit.setStandbyState 5).wrn (ephReg 0 0x20) (if comp then 3 else 1)

/-- What arming and disarming show (R112, R465). -/
def armRegs : List Nat := [0x604, ephReg 0 0x20] ++ standbyRegs

theorem standby_sub_armRegs : ∀ o ∈ standbyRegs, o ∈ armRegs := fun _ h => List.mem_append_right _ h

theorem only_armShown (s : State) (e : Nat) (comp : Bool) : only [.eph] armRegs s (s.armShown e comp) :=
  only_trans (only_put_eph _ _ _ (by simp)) (only_trans (only_wrFld _ _ _ _ _ (by simp [armRegs]))
    (only_trans (only_standbyState _ _ standby_sub_armRegs) (only_wrn _ _ _ (by simp [armRegs]))))

theorem armShown_eph (s : State) (e : Nat) (comp : Bool) :
    (s.armShown e comp).eph = { s.eph with armed := some e, compArm := if comp then some e else none } := rfl

theorem armShown_state (s : State) (e : Nat) (comp : Bool) : (s.armShown e comp).standbyState = 5 :=
  (standbyState_of_rd (State.rd_wrn_ne _ _ _ _ (by decide))).trans (setStandbyState_state _ 5 (by decide))

theorem rd_armShown (s : State) (e : Nat) (comp : Bool) : (s.armShown e comp).rd (ephReg 0 0x20) = if comp then 3 else 1 := by
  rw [State.armShown, State.rd_wrn_same]
  cases comp <;> rfl

/-- `RT_CTRL.ARM` reads 1 once a flip is armed with the image (R465). -/
theorem bit_armShown_comp (s : State) (e : Nat) : (s.armShown e true).bit 0x604 1 = true := by
  have hr : (s.armShown e true).rd 0x604 = (s.armHeld e true).rtArmBit.rd 0x604 := by
    rw [State.armShown, State.rd_wrn_ne _ _ _ _ (by decide), setStandbyState_rd _ _ _ fun d _ => by unfold ephReg dieReg dieBase; omega]
  rw [bit_of_rd hr]
  refine bit_of_fld ?_
  have hv : (if (s.armHeld e true).eph.rtArm.isSome || (s.armHeld e true).eph.compArm.isSome then 1 else 0) = 1 := by
    simp [State.armHeld]
  rw [State.rtArmBit, hv]
  exact fld_wrFld _ _ _ _ _ (by decide) (by decide)

/-- An arm that is accepted, with the flip of the composition map or without (R102, R106). -/
theorem ephArm_of_lead {s : State} {e : Nat} {comp : Bool} (he : s.targetEpoch (s.rd (ephReg 0 0x24)) = e) (h3 : s.standbyState = 3)
    (ha : s.eph.armed = none) (hl : s.time.frame + 16 ≤ e * 2 ^ s.time.epochLog2)
    (hc : comp = true → (s.eph.rtArm = none ∨ s.eph.rtArm = some e) ∧ s.compositionOk (1 - s.version) = true) :
    s.ephArm comp = (s.armShown e comp).wakeIdle := by
  have hfree : (s.eph.armed.isSome || s.standbyState != 3) = false := by simp [ha, h3]
  have hlead := (leadOk_iff s e).2 hl
  have hflip : (comp && s.eph.rtArm.any (· != e)) = false := by
    cases comp with
    | false => rfl
    | true => rcases (hc rfl).1 with h | h <;> simp [h]
  have hmap : (comp && !s.compositionOk (1 - s.version)) = false := by
    cases comp with
    | false => rfl
    | true => simp [(hc rfl).2]
  simp only [State.ephArm, he, hfree, hlead, hflip, hmap, Bool.not_true, Bool.false_eq_true, if_false]
  rfl

theorem ephArm_late {s : State} {e : Nat} {comp : Bool} (he : s.targetEpoch (s.rd (ephReg 0 0x24)) = e) (h3 : s.standbyState = 3)
    (ha : s.eph.armed = none) (hl : ¬ s.time.frame + 16 ≤ e * 2 ^ s.time.epochLog2) :
    s.ephArm comp = (s.ephEvent 0x1).wrn (ephReg 0 0x20) 0 := by
  have hfree : (s.eph.armed.isSome || s.standbyState != 3) = false := by simp [ha, h3]
  have hlead : s.leadOk e = false := Bool.eq_false_iff.2 fun h => hl ((leadOk_iff _ _).1 h)
  simp only [State.ephArm, he, hfree, hlead, Bool.not_false, Bool.false_eq_true, if_false, if_true]

theorem wakeIdle_eph (s : State) : s.wakeIdle.eph = s.eph := (only_wakeIdle (ps := [.pwr]) [] s (by simp)).1 .eph (by simp)

theorem rd_wakeIdle (s : State) (o : Nat) : s.wakeIdle.rd o = s.rd o := (only_wakeIdle (ps := [.pwr]) [] s (by simp)).2 o (by simp)

/-- What holds after an accepted arm. -/
theorem armShown_wakeIdle (s : State) (e : Nat) (comp : Bool) :
    only [.eph, .pwr] armRegs s (s.armShown e comp).wakeIdle
      ∧ (s.armShown e comp).wakeIdle.eph = { s.eph with armed := some e, compArm := if comp then some e else none }
      ∧ (s.armShown e comp).wakeIdle.standbyState = 5 ∧ (s.armShown e comp).wakeIdle.rd (ephReg 0 0x20) = if comp then 3 else 1 :=
  ⟨only_trans (only_mono (only_armShown s e comp) (by simp) (fun _ h => h)) (only_wakeIdle _ _ (by simp)),
    (wakeIdle_eph _).trans (armShown_eph _ _ _), (standbyState_of_rd (rd_wakeIdle _ _)).trans (armShown_state _ _ _),
    (rd_wakeIdle _ _).trans (rd_armShown _ _ _)⟩

/-- A late arm shows `ARM_LATE`, and `ARM` reads 0. -/
theorem armLate_spec (s : State) : onlyRegs [ephReg 0 0x20, ephReg 0 0x28] s ((s.ephEvent 0x1).wrn (ephReg 0 0x20) 0)
    ∧ ((s.ephEvent 0x1).wrn (ephReg 0 0x20) 0).bit (ephReg 0 0x20) 0 = false
    ∧ ((s.ephEvent 0x1).wrn (ephReg 0 0x20) 0).rd (ephReg 0 0x28) = s.rd (ephReg 0 0x28) ||| 1 := by
  refine ⟨only_trans (only_set _ _ _ (by simp)) (only_wrn _ _ _ (by simp)), ?_, ?_⟩
  · rw [State.bit, State.rd_wrn_same]
    rfl
  · rw [State.rd_wrn_ne _ _ _ _ (by decide)]
    exact State.rd_set_same _ _ _

theorem ephDisarm_of_lead {s : State} {e : Nat} (ha : s.eph.armed = some e) (hr : s.eph.recheck = 0)
    (hl : s.time.frame + 16 ≤ e * 2 ^ s.time.epochLog2) : s.ephDisarm false = s.endArm.setStandbyState 3 := by
  simp [State.ephDisarm, ha, hr, (leadOk_iff s e).2 hl]

/-- An arm that ends leaves the standby state that it is given, in the frame of a disarm. -/
theorem only_endArm_standby {l : List Nat} (s : State) (a : Nat) (h : ∀ o ∈ armRegs, o ∈ l) : only [.eph] l s (s.endArm.setStandbyState a) :=
  only_trans (only_mono (only_endArm s) (fun _ hp => hp) (fun o ho => h o (List.mem_append_left _ ho)))
    (only_standbyState _ _ fun o ho => h o (standby_sub_armRegs o ho))

-- the re-check

/-- The re-check of R115 has ended. -/
def State.rechecked (s : State) : State := { s with eph := { s.eph with recheck := 0 } }

/-- The result of a re-check: the frame's length, or the epoch's, no longer fits. -/
def State.recheckResult (s : State) (g : Image) : Option (Nat × Nat × Nat) :=
  ((periodBad g s.time.units).map (fun p => (3, p.1, p.2))).orElse (fun _ => (lengthBad g s.time.epochLog2).map (fun p => (4, p.1, p.2)))

theorem recheckResult_eq_none_iff (s : State) (g : Image) :
    s.recheckResult g = none ↔ periodBad g s.time.units = none ∧ lengthBad g s.time.epochLog2 = none := by
  unfold State.recheckResult
  cases periodBad g s.time.units <;> simp [Option.orElse]

/-- The image fails its re-check with result r. -/
def State.recheckFailed (s : State) (r : Nat × Nat × Nat) : State :=
  ((s.rechecked.endArm.checkResult r).setStandbyState 4).ephEvent 0x80

section
variable {s : State} {g : Image} (hg : s.eph.standby = some g) (hr : s.eph.recheck ≠ 0)
include hg hr

theorem recheckDone_good (h : s.recheckResult g = none) : exec .recheckDone s = .next (s.rechecked.setStandbyState s.eph.recheck) := by
  show execRecheckDone s = _
  unfold State.recheckResult at h
  simp only [execRecheckDone, State.rechecked, hg, hr, h, if_false]

theorem recheckDone_bad {r : Nat × Nat × Nat} (h : s.recheckResult g = some r) : exec .recheckDone s = .next (s.recheckFailed r) := by
  show execRecheckDone s = _
  unfold State.recheckResult at h
  simp only [execRecheckDone, State.recheckFailed, State.rechecked, hg, hr, h, if_false]

end

/-- What a re-check can change. -/
def recheckRegs : List Nat := [0x604, ephReg 0 0x1C, ephReg 0 0x20, ephReg 0 0x28] ++ standbyRegs

theorem standby_sub_recheckRegs : ∀ o ∈ standbyRegs, o ∈ recheckRegs := fun _ h => List.mem_append_right _ h

theorem only_recheckFailed (s : State) (r : Nat × Nat × Nat) : only [.eph] recheckRegs s (s.recheckFailed r) := by
  have hsub : ∀ o ∈ [0x604, ephReg 0 0x20], o ∈ recheckRegs := by simp [recheckRegs]
  exact only_trans (only_put_eph _ _ _ (by simp)) (only_trans (only_mono (only_endArm _) (fun _ h => h) hsub)
    (only_trans (only_checkResult _ _ _ (by simp [recheckRegs])) (only_trans (only_standbyState _ _ standby_sub_recheckRegs)
      (only_set _ _ _ (by simp [recheckRegs])))))

theorem recheckFailed_state (s : State) (r : Nat × Nat × Nat) : (s.recheckFailed r).standbyState = 4 :=
  (standbyState_of_rd (State.rd_set_ne _ _ _ _ (by decide))).trans (setStandbyState_state _ 4 (by decide))

theorem recheckFailed_eph (s : State) (r : Nat × Nat × Nat) :
    (s.recheckFailed r).eph = { s.eph with recheck := 0, armed := none, compArm := none } := rfl

theorem rd_recheckFailed_event (s : State) (r : Nat × Nat × Nat) :
    (s.recheckFailed r).rd (ephReg 0 0x28) = s.rd (ephReg 0 0x28) ||| 0x80 := by
  have hend : s.rechecked.endArm.rd (ephReg 0 0x28) = s.rd (ephReg 0 0x28) := (only_endArm s.rechecked).2 _ (by decide)
  rw [State.recheckFailed, State.ephEvent, State.rd_set_same, rd_setStandbyState_eph _ _ (by decide) (by decide) (by decide), State.checkResult,
    State.rd_wrn_ne _ _ _ _ (by decide), hend]

/-- Settles O5, by the cases of an arm, a disarm, a write of the target and a re-check. -/
theorem armAndDisarm : Obligations.ArmAndDisarm := by
  unfold Obligations.ArmAndDisarm
  refine ⟨fun s port h h3 ha => ⟨_, exec_ephArm false h, fun hl => ?_, fun hl => ?_⟩, fun s port e h h3 ha he hl hrt hok => ?_,
    fun s port e h ha hr hl => ⟨_, exec_ephDisarm h, ?_⟩, fun s port v h => ⟨_, exec_ephArmEpochWrite v h, fun ha => ?_, fun ha => ?_⟩,
    fun s g hg hr => ?_⟩
  · rw [ephArm_of_lead (comp := false) rfl h3 ha hl nofun]
    obtain ⟨hkeep, heph, hst, hrd⟩ := armShown_wakeIdle s (s.targetEpoch (s.rd (ephReg 0 0x24))) false
    exact ⟨hkeep, by rw [heph], by rw [heph], by rw [heph], hst, hrd⟩
  · rw [ephArm_late rfl h3 ha hl]
    exact armLate_spec s
  · obtain ⟨hkeep, heph, hst, hrd⟩ := armShown_wakeIdle s e true
    refine ⟨_, exec_ephArm true h, ?_⟩
    rw [ephArm_of_lead he.symm h3 ha hl fun _ => ⟨hrt, hok⟩]
    exact ⟨hkeep, by rw [heph], by rw [heph]; rfl, hst, hrd, (bit_of_rd (rd_wakeIdle _ _) 1).trans (bit_armShown_comp s _), by rw [heph],
      by rw [heph]⟩
  · rw [ephDisarm_of_lead ha hr hl]
    refine ⟨only_endArm_standby s 3 fun _ h => h, rfl, setStandbyState_state _ 3 (by decide), ?_, rfl, rfl⟩
    rw [rd_setStandbyState_eph _ _ (by decide) (by decide) (by decide)]
    exact rd_endArm_arm s
  · have hw : s.ephArmEpoch v = s.wr (ephReg 0 0x24) v := by simp [State.ephArmEpoch, ha]
    rw [hw]
    exact ⟨only_wr _ _ _ (by simp), State.rd_wr_same _ _ _⟩
  · have hw : s.ephArmEpoch v = s.ephIgnored := by simp [State.ephArmEpoch, Option.isSome_iff_ne_none, ha]
    rw [hw]
    exact ephIgnored_spec s
  · cases hres : s.recheckResult g with
    | none =>
      have hok := (recheckResult_eq_none_iff s g).1 hres
      refine ⟨_, recheckDone_good hg hr hres, ?_, rfl, rfl, fun _ => ⟨?_, rfl⟩, fun hbad => ?_⟩
      · exact only_trans (only_put_eph _ _ _ (by simp)) (only_standbyState _ _ standby_sub_recheckRegs)
      · rw [setStandbyState_mod, setStandbyState_state _ _ (Nat.mod_lt _ (by decide))]
      · exact absurd hok fun ⟨hp, hlen⟩ => hbad.elim (· hp) (· hlen)
    | some r =>
      refine ⟨_, recheckDone_bad hg hr hres, only_recheckFailed s r, ?_, ?_, fun hok => ?_, fun _ => ⟨recheckFailed_state s r, ?_,
        rd_recheckFailed_event s r⟩⟩
      · rw [recheckFailed_eph]
      · rw [recheckFailed_eph]
      · exact absurd ((recheckResult_eq_none_iff s g).2 hok) (by simp [hres])
      · rw [recheckFailed_eph]

end Sys2Proof.Machine
end

section
/-! PROOFS. Time passing within a frame (R31, R57, R155, R294, R420): what the stalls count. -/

namespace Sys2Proof.Machine

theorem mem_stallRegs_die {d : Nat} (h : d < 4) : dieReg d 0x108 ∈ stallRegs ∧ dieReg d 0x508 ∈ stallRegs := by
  constructor <;> exact List.mem_append_left _ (List.mem_flatMap.2 ⟨d, List.mem_range.2 h, by simp⟩)

theorem mem_stallRegs_dir {h : Nat} (hh : h < 8) : dirReg h 0xC ∈ stallRegs :=
  List.mem_append_right _ (List.mem_map.2 ⟨h, List.mem_range.2 hh, rfl⟩)

theorem only_elapse (s : State) (n : Nat) : onlyRegs stallRegs s (s.elapse n) := by
  refine only_trans (only_each _ (fun d hd t => ?_) s) (only_each _ (fun h hh t => ?_) _)
  · have hd' := mem_stallRegs_die (List.mem_range.1 hd)
    exact only_trans (only_when _ _ fun _ => only_sat _ _ _ hd'.1) (only_when _ _ fun _ => only_sat _ _ _ hd'.2)
  · exact only_when _ _ fun _ => only_sat _ _ _ (mem_stallRegs_dir (List.mem_range.1 hh))

theorem only_atCycle (s : State) (c : Nat) : only [.time] stallRegs s (s.atCycle c) :=
  only_trans (only_mono (only_elapse s _) (by simp) (fun _ h => h)) (only_put_time _ _ _ (by simp))

theorem atCycle_time (s : State) (c : Nat) : (s.atCycle c).time = { s.time with cycle := max s.time.cycle c } := by
  have ht : (s.elapse (c - s.time.cycle)).time = s.time := (only_elapse s _).1 .time (by simp)
  show { (s.elapse (c - s.time.cycle)).time with cycle := max (s.elapse (c - s.time.cycle)).time.cycle c } = _
  rw [ht]

end Sys2Proof.Machine
end

section
/-! PROOFS. Slots and gates (R57, R310, R313, R315). -/

namespace Sys2Proof.Machine

-- the end of a slot

/-- Buckets gain, and gates run down. -/
def State.slotGained (s : State) : State :=
  { s with sw := { s.sw with
    buckets := s.sw.buckets.map s.bucketGain
    gates := s.sw.gates.map (fun g => if s.gateOn g.die g.e then { g with left := g.left - 1 } else g)
    served := [] } }

/-- A slot has ended: beside the switch cores' part, the slots of ZFL directions count up. -/
def State.slotEnded (s : State) : State :=
  { s.slotGained with link := { s.link with ports := s.link.ports.map (fun p => if p.key.isEmpty then p else { p with txSlots := p.txSlots + 1 }) } }

theorem only_slotEnded (s : State) : only [.sw, .link] [] s s.slotEnded := by
  have hgain : only [.sw, .link] [] s s.slotGained := only_put_sw _ _ _ (by simp)
  exact only_trans hgain (only_put_link _ _ _ (by simp))

/-- `EPH_IDLE_COUNT` and `EPH_SKIP_COUNT` of the dies, which the slot's link entries count in (R95, R112). -/
def slotCountRegs : List Nat := (List.range 4).flatMap (fun d => [ephReg d 0x38, ephReg d 0x3C])

theorem mem_slotCountRegs {d : Nat} (h : d < 4) : ephReg d 0x38 ∈ slotCountRegs ∧ ephReg d 0x3C ∈ slotCountRegs := by
  constructor <;> exact List.mem_flatMap.2 ⟨d, List.mem_range.2 h, by simp⟩

/-- The link entries of a slot count alone, each on the die of its port. -/
theorem only_linkSlot (s : State) (slot : Nat) (h : ∀ x ∈ s.slotEntries s.time.frame slot, (portPlace x.port).1 < 4) :
    onlyRegs slotCountRegs s (s.linkSlot slot) := by
  refine only_each _ (fun x hx t => ?_) s
  obtain ⟨hidle, hskip⟩ := mem_slotCountRegs (h x hx)
  show onlyRegs slotCountRegs t (if t.linkSkipped x then _ else _)
  split
  · exact only_sat _ _ _ hskip
  · exact only_when _ _ fun _ => only_sat _ _ _ hidle

theorem slotTick_of_lt {s : State} {next : Nat} (h : next < s.time.units) : s.slotTick next = s.slotEnded.linkSlot next := by
  simp only [State.slotTick, h, decide_true, State.when_true]
  rfl

/-- The slot number becomes k. -/
def State.inSlot (s : State) (k : Nat) : State := { s with time := { s.time with slot := k } }

theorem exec_slotBoundary {s : State} (hr : s.ready = true) (hs : s.time.slot + 1 < s.time.units) :
    exec .slotBoundary s
      = .next (((s.slotEnded.linkSlot (s.time.slot + 1)).atCycle (225 * (s.time.slot + 1))).inSlot (s.time.slot + 1)) := by
  rw [← slotTick_of_lt hs]
  show Host.Outcome.next (if _ then _ else s) = _
  rw [if_pos (by simp [hr, hs])]
  rfl

/-- What holds once the next slot has begun. -/
theorem slotBoundary_spec {s : State} {k n : Nat} (h : ∀ x ∈ s.slotEntries s.time.frame k, (portPlace x.port).1 < 4) :
    only [.sw, .time, .link] (stallRegs ++ slotCountRegs) s (((s.slotEnded.linkSlot k).atCycle n).inSlot k)
      ∧ (((s.slotEnded.linkSlot k).atCycle n).inSlot k).time.slot = k
      ∧ (((s.slotEnded.linkSlot k).atCycle n).inSlot k).time.frame = s.time.frame
      ∧ (((s.slotEnded.linkSlot k).atCycle n).inSlot k).sw = s.slotEnded.sw := by
  have hend := only_slotEnded s
  have hlink := only_linkSlot s.slotEnded k h
  generalize s.slotEnded.linkSlot k = a at *
  have hcycle := only_atCycle a n
  have htime : (a.atCycle n).time.frame = s.time.frame := by
    rw [atCycle_time, show a.time = s.slotEnded.time from hlink.1 .time (by simp)]
    rfl
  generalize a.atCycle n = u at *
  refine ⟨?_, rfl, htime, (hcycle.1 .sw (by simp)).trans (hlink.1 .sw (by simp))⟩
  exact only_trans (only_mono hend (by simp) (by simp)) (only_trans (only_mono hlink (by simp) (fun _ ho => List.mem_append_right _ ho))
    (only_trans (only_mono hcycle (by simp) (fun _ ho => List.mem_append_left _ ho)) (only_put_time _ _ _ (by simp))))

-- the gate of an egress

theorem gate_place {s : State} {d e : Nat} {g : Gate} (h : s.gate d e = some g) : g.die = d ∧ g.e = e := by
  simpa using List.find?_some h

theorem gate_setGate (s : State) {d e : Nat} {g : Gate} (hd : g.die = d) (he : g.e = e) : (s.setGate g).gate d e = some g := by
  show List.find? _ (g :: _) = _
  rw [List.find?_cons_of_pos (by simp [hd, he])]

theorem gate_of_sw {s t : State} (h : t.sw = s.sw) (d e : Nat) : t.gate d e = s.gate d e := by rw [State.gate, State.gate, h]

/-- The first entry with slots lies at or after the entry from which it is sought. -/
theorem gateFrom_spec {s : State} {d e n i j : Nat} (h : s.gateFrom d e n i = some j) : i ≤ j ∧ 0 < gwSlots (s.gateWord d e j) := by
  induction n generalizing i with
  | zero => cases h
  | succ n ih =>
    rw [State.gateFrom] at h
    split at h
    · rename_i hw
      obtain rfl : i = j := Option.some.inj h
      exact ⟨le_rfl, Nat.pos_of_ne_zero (by simpa using hw)⟩
    · split at h
      · cases h
      · obtain ⟨hle, hpos⟩ := ih h
        exact ⟨by omega, hpos⟩

theorem gateAfter_spec {s : State} {d e i j : Nat} (h : s.gateAfter d e i = some j) : i < j ∧ 0 < gwSlots (s.gateWord d e j) := by
  unfold State.gateAfter at h
  split at h
  · cases h
  · exact gateFrom_spec h

/-- The registers show a gate that runs. -/
theorem gateSync_of_on {s : State} {d e : Nat} {g : Gate} (hg : s.gate d e = some g) (ho : s.gateOn d e = true) :
    s.gateSync d e = s.wrn (egReg d e 0x14) (gwOpen (s.gateWord d e g.entry) + 256 * g.entry) := by
  simp [State.gateSync, hg, ho]

/-- Entry i of the list takes effect for all of its slots. -/
def State.gateAt (s : State) (d e i : Nat) (g : Gate) : Gate := { g with entry := i, left := gwSlots (s.gateWord d e i) }

theorem gateExpiry_of_out {s : State} {d e i : Nat} {g : Gate} (hg : s.gate d e = some g) (ho : s.gateOn d e = true) (hl : g.left = 0)
    (ha : s.gateAfter d e g.entry = some i) :
    s.gateExpiry d e = (s.setGate (s.gateAt d e i g)).wrn (egReg d e 0x14) (gwOpen (s.gateWord d e i) + 256 * i) := by
  obtain ⟨hd, he⟩ := gate_place hg
  have hsync := gateSync_of_on (gate_setGate s (g := s.gateAt d e i g) hd he) ho
  have hexp : s.gateExpiry d e = (s.setGate (s.gateAt d e i g)).gateSync d e := by simp [State.gateExpiry, hg, ho, hl, ha, State.gateAt]
  rw [hexp, hsync]
  rfl

theorem only_setGate (l : List Nat) (s : State) (g : Gate) : only [.sw] l s (s.setGate g) := only_put_sw _ _ _ (by simp)

-- SWITCH

/-- The frame from which a switch of lists is due (R313). -/
def State.switchDue (s : State) : Nat := if s.time.cycle = 0 then s.time.frame + 1 else s.time.frame + 2

/-- The gate of an egress, its list switch asked for. -/
def State.gateAsked (s : State) (d e : Nat) : Gate :=
  { (s.gate d e).getD { die := d, e := e, entry := 0, left := 0, switchFrom := none } with switchFrom := some s.switchDue }

theorem gateAsked_place (s : State) (d e : Nat) : (s.gateAsked d e).die = d ∧ (s.gateAsked d e).e = e := by
  unfold State.gateAsked
  cases h : s.gate d e with
  | none => exact ⟨rfl, rfl⟩
  | some g =>
    obtain ⟨hd, he⟩ := gate_place h
    exact ⟨hd, he⟩

theorem exec_egGateSwitch {s : State} {port d e : Nat} (h : s.accepts port (egReg d e 0x10) = true) (hv : validEgress d e = true) :
    exec (.egGateSwitch port d e) s = .next ((s.setGate (s.gateAsked d e)).set (egReg d e 0x10) 4) := by
  refine congrArg Host.Outcome.next ((regS_accepts h _ _ _).trans ?_)
  rw [if_pos hv]
  rfl

theorem switchDue_spec (s : State) : s.time.frame + 1 ≤ s.switchDue ∧ (s.time.cycle = 0 → s.switchDue = s.time.frame + 1)
    ∧ (s.time.cycle ≠ 0 → s.switchDue = s.time.frame + 2) := by
  unfold State.switchDue
  split <;> simp_all

/-- What holds once the next entry of a gate has taken effect. -/
theorem gateEntryExpiry_spec {s : State} {d e i : Nat} {g : Gate} (hg : s.gate d e = some g) (ho : s.gateOn d e = true) (hl : g.left = 0)
    (ha : s.gateAfter d e g.entry = some i) :
    only [.sw] [egReg d e 0x14] s (s.gateExpiry d e) ∧ (s.gateExpiry d e).gate d e = some (s.gateAt d e i g)
      ∧ (s.gateExpiry d e).rd (egReg d e 0x14) = BitVec.ofNat 32 (gwOpen (s.gateWord d e i) + 256 * i) := by
  obtain ⟨hd, he⟩ := gate_place hg
  rw [gateExpiry_of_out hg ho hl ha]
  exact ⟨only_trans (only_setGate _ _ _) (only_wrn _ _ _ (by simp)), (gate_of_sw (State.wrn_sw _ _ _) d e).trans (gate_setGate s hd he),
    State.rd_wrn_same _ _ _⟩

/-- What holds once a switch of lists has been asked for. -/
theorem gateSwitch_spec (s : State) (d e : Nat) :
    only [.sw] [egReg d e 0x10] s ((s.setGate (s.gateAsked d e)).set (egReg d e 0x10) 4)
      ∧ ((s.setGate (s.gateAsked d e)).set (egReg d e 0x10) 4).rd (egReg d e 0x10) = s.rd (egReg d e 0x10) ||| 4
      ∧ (((s.setGate (s.gateAsked d e)).set (egReg d e 0x10) 4).gate d e).bind (·.switchFrom) = some s.switchDue := by
  obtain ⟨hd, he⟩ := gateAsked_place s d e
  have hgate : ((s.setGate (s.gateAsked d e)).set (egReg d e 0x10) 4).gate d e = some (s.gateAsked d e) :=
    (gate_of_sw (State.set_sw _ _ _) d e).trans (gate_setGate s hd he)
  refine ⟨only_trans (only_setGate _ _ _) (only_set _ _ _ (by simp)), State.rd_set_same _ _ _, ?_⟩
  rw [hgate]
  rfl

/-- Settles O25, by the end of a slot, the next entry of a list and the due frame of a switch. -/
theorem gatesFollowTheirLists : Obligations.GatesFollowTheirLists := by
  unfold Obligations.GatesFollowTheirLists
  refine ⟨fun s hr hs hx => ⟨_, exec_slotBoundary hr hs, ?_⟩, fun s d e i g hg ho hl ha => ?_, fun s port d e h hv => ?_⟩
  · obtain ⟨hkeep, hslot, hframe, hsw⟩ := slotBoundary_spec (n := 225 * (s.time.slot + 1)) hx
    exact ⟨hkeep, hslot, hframe, by rw [hsw]; rfl, by rw [hsw]; rfl, by rw [hsw]; rfl⟩
  · obtain ⟨hlt, hpos⟩ := gateAfter_spec ha
    obtain ⟨hkeep, hgate, hrd⟩ := gateEntryExpiry_spec hg ho hl ha
    exact ⟨_, rfl, hkeep, hlt, hpos, hgate, hrd⟩
  · obtain ⟨hkeep, hrd, hgate⟩ := gateSwitch_spec s d e
    exact ⟨_, exec_egGateSwitch h hv, hkeep, hrd, s.switchDue, hgate, switchDue_spec s⟩

end Sys2Proof.Machine
end

section
/-! PROOFS. An engine entry starts the head of its queue (R94, R131). -/

namespace Sys2Proof.Machine

theorem Status.eq_ok_of_rank {a : Status} (h : Status.ok.rank ≤ a.rank) : a = .ok := by
  cases a <;> first | rfl | exact absurd h (by decide)

theorem Status.rank_le_ok (a : Status) : a.rank ≤ Status.ok.rank := by
  cases a <;> decide

/-- Of two codes one that is not OK is reported (R18). -/
theorem Status.worst_eq_ok {a b : Status} (h : a.worst b = .ok) : a = .ok ∧ b = .ok := by
  unfold Status.worst at h
  split at h
  · rename_i hle
    exact ⟨h, Status.eq_ok_of_rank (h ▸ hle)⟩
  · rename_i hlt
    exact absurd (h ▸ Status.rank_le_ok a) hlt

-- the head of the ring is read

/-- The queue keeps the descriptor that it has read. -/
def State.headKept (s : State) (h : Head) : State := { s with heads := s.heads ++ [h] }

theorem qRead_some {s r : State} {q : Nat} {ue : List Nat} {tf : Bool} {h : Head} (hr : qRead s q ue tf = (r, some h)) :
    r = s ∨ r = s.headKept h := by
  unfold qRead at hr
  dsimp only at hr
  split at hr
  · exact .inl (Prod.ext_iff.1 hr).1.symm
  · split at hr
    · cases (Prod.ext_iff.1 hr).2
    · split at hr
      · cases (Prod.ext_iff.1 hr).2
      · obtain ⟨h1, h2⟩ := Prod.ext_iff.1 hr
        exact .inr (h1.symm.trans (congrArg s.headKept (Option.some.inj h2)))

theorem only_qRead {s r : State} {q : Nat} {ue : List Nat} {tf : Bool} {h : Head} (hr : qRead s q ue tf = (r, some h)) : only [.heads] [] s r := by
  rcases qRead_some hr with rfl | rfl
  · exact only_refl _ _ _
  · exact only_put_heads _ _ _ (by simp)

-- an operation enters

theorem only_inflightSync (ps : List Part) {l : List Nat} (s : State) (d : Nat) (h : dieReg d 0x100 ∈ l) (h' : dieReg d 0x104 ∈ l) :
    only ps l s (inflightSync s d) :=
  only_trans (only_wrn ps s _ h) (only_wrn ps _ _ h')

/-- The queue lets go of the descriptors and doorbells that its issue index has passed. -/
def State.headsPassed (s : State) (q : Nat) (i : BitVec 32) : State :=
  { s with
    heads := s.heads.filter (fun h => h.queue != q || h.index != i.toNat)
    bells := liveBells (i + 1) (s.rd (queueBlock q + 0x20)) q s.bells }

theorem only_headsPassed (s : State) (q : Nat) (i : BitVec 32) : only [.heads, .bells] [] s (s.headsPassed q i) :=
  ⟨fun p hp => by cases p <;> first | rfl | exact absurd (by simp) hp, fun _ _ => rfl⟩

theorem qTake_eq (s : State) (q : Nat) :
    qTake s q = (s.wr (queueBlock q + 0x24) (s.rd (queueBlock q + 0x24) + 1)).headsPassed q (s.rd (queueBlock q + 0x24)) := rfl

theorem only_qTake (s : State) (q : Nat) : only [.heads, .bells] [queueBlock q + 0x24] s (qTake s q) := by
  have hwr : only [.heads, .bells] [queueBlock q + 0x24] s (s.wr (queueBlock q + 0x24) (s.rd (queueBlock q + 0x24) + 1)) :=
    only_wr _ _ _ (List.mem_singleton_self _)
  rw [qTake_eq]
  exact only_trans hwr (only_mono (only_headsPassed _ _ _) (fun _ h => h) (by simp))

theorem rd_qTake_issue (s : State) (q : Nat) : (qTake s q).rd (queueBlock q + 0x24) = s.rd (queueBlock q + 0x24) + 1 := by
  rw [qTake_eq, (only_headsPassed _ _ _).2 _ (by simp), State.rd_wr_same]

/-- The operation as it enters the machine. -/
def State.entered (s : State) (o : Op) : Op :=
  { o with phase := .running, startFrame := s.time.frame, run := {}, got := [], stats := [] }

/-- A new operation is in flight. -/
def State.opAdded (s : State) (o : Op) : State := { s with ops := s.ops ++ [s.entered o], nextOp := s.nextOp + 1 }

theorem only_opAdded (s : State) (o : Op) : only [.ops, .nextOp] [] s (s.opAdded o) :=
  ⟨fun p hp => by cases p <;> first | rfl | exact absurd (by simp) hp, fun _ _ => rfl⟩

theorem enter_new (s : State) (o : Op) : s.enter o true = inflightSync (s.opAdded o) (o.queue / 4096) := rfl

/-- An operation whose number no other has is found under it. -/
theorem op_opAdded {s : State} {o : Op} (ho : o.id = s.nextOp) (hn : s.op s.nextOp = none) : (s.opAdded o).op s.nextOp = some (s.entered o) := by
  have hfind : s.ops.find? (fun p => p.id == s.nextOp) = none := hn
  show (s.ops ++ [s.entered o]).find? (fun p => p.id == s.nextOp) = _
  rw [List.find?_append, hfind]
  simp [State.entered, ho]

theorem op_of_ops {s t : State} (h : t.ops = s.ops) (id : Nat) : t.op id = s.op id := by rw [State.op, State.op, h]

/-- `DIE_INFLIGHT` of the queue's die, `ENG_STATE`, and what a trace record counts. -/
def launchRegs (o : Op) (e : Nat) : List Nat :=
  [engineBlock e + 4, dieReg (o.queue / 4096) 0x100, dieReg (o.queue / 4096) 0x104] ++ traceRegs ++ dirRegs

/-- The operation of engine e is recorded in the engine's history and shown by it. -/
theorem launch_new {s : State} {o : Op} {e : Nat} (he : o.engine = some e) : s.launch o true =
    (((inflightSync (s.opAdded o) (o.queue / 4096)).history o e).wrn (engineBlock e + 4) ((if o.dynamic then 2 else 1) + 2 ^ 16 * o.ctx)).trace 1 e o.ctx 0 := by
  simp only [State.launch, he, enter_new]
  rfl

theorem only_launch_keeps {s : State} {o : Op} {e : Nat} (he : o.engine = some e) :
    only [.mem, .poison, .coh, .out, .health] (launchRegs o e) (s.opAdded o) (s.launch o true) := by
  have htrace : ∀ r ∈ traceRegs ++ dirRegs, r ∈ launchRegs o e := fun r hr => by
    rw [launchRegs, List.append_assoc]
    exact List.mem_append_right _ hr
  rw [launch_new he]
  refine only_trans (only_inflightSync _ _ _ (by simp [launchRegs]) (by simp [launchRegs])) (only_trans (only_put_health _ _ _ (by simp))
    (only_trans (only_wrn _ _ _ (by simp [launchRegs])) (only_trace _ _ _ _ _ (by simp) (by simp) (by simp) (by simp) ?_ ?_ ?_)))
  · exact fun r hr => htrace r (List.mem_append_right _ hr)
  · exact htrace _ (by simp [traceRegs])
  · exact htrace _ (by simp [traceRegs])

-- a run of an open reduction

theorem only_cellSync (ps : List Part) {l : List Nat} (s : State) (d : Nat) (h : dieReg d 0x500 ∈ l) (h' : dieReg d 0x504 ∈ l) :
    only ps l s (s.cellSync d) :=
  only_trans (only_wrn ps s _ h) (only_wrn ps _ _ h')

theorem only_setRed {l : List Nat} (s : State) (r : Stream) (h : dieReg (r.engine / 64) 0x500 ∈ l) (h' : dieReg (r.engine / 64) 0x504 ∈ l) :
    only [.reds] l s (s.setRed r) :=
  only_trans (only_put_reds _ _ _ (by simp)) (only_cellSync _ _ _ h h')

theorem redOf_of_reds {s t : State} (h : t.reds = s.reds) (o : Op) : t.redOf o = s.redOf o := by rw [State.redOf, State.redOf, h]

/-- A stream REDUCE that passes its check runs on the engine of the reduction that it finds open (R219). -/
theorem redOf_engine {s : State} {o : Op} {r : Stream} (hc : s.opCheck o = .ok) (hs : isStream o.desc = true) (hr : s.redOf o = some r) :
    o.engine = some r.engine := by
  obtain ⟨hop, hmode⟩ : dOpcode o.desc = 0x20 ∧ rdMode o.desc = 1 := by simpa [isStream] using hs
  have hown : s.redCheck o o.limit o.dynamic = .ok := by
    have := (Status.worst_eq_ok hc).2
    simpa only [hop] using this
  simp only [State.redCheck, hmode, if_true, hr] at hown
  by_contra hne
  simp [hne] at hown

theorem redStart_of_not_stream {s : State} {o : Op} (h : isStream o.desc = false) : s.redStart o = s := by
  unfold State.redStart
  cases s.redOf o <;> simp [h, State.when]

theorem only_redStart {s : State} {o : Op} {e : Nat} (he : ∀ r, isStream o.desc = true → s.redOf o = some r → r.engine = e) :
    only [.reds] [dieReg (e / 64) 0x500, dieReg (e / 64) 0x504] s (s.redStart o) := by
  unfold State.redStart
  cases hr : s.redOf o with
  | none => exact only_refl _ _ _
  | some r =>
    refine only_when _ _ fun hs => ?_
    have hr' : r.engine = e := he r hs hr
    exact only_setRed _ _ (by simp [hr']) (by simp [hr'])

-- the head of an entry's queue starts

/-- A queue's issue index is none of the registers that a start or the passing of time moves. -/
theorem issue_not_started (q e : Nat) :
    queueBlock q + 0x24 ∉ [engineBlock e + 4, dieReg (q / 4096) 0x100, dieReg (q / 4096) 0x104, dieReg (e / 64) 0x500, dieReg (e / 64) 0x504]
      ++ traceRegs ++ dirRegs ++ stallRegs := by
  simp only [traceRegs, dirRegs, stallRegs, List.mem_append, List.mem_cons, List.mem_flatMap, List.mem_map, List.mem_range, List.not_mem_nil,
    or_false, not_or, not_exists, not_and, queueBlock, engineBlock, dieReg, dirReg, domReg, dieBase]
  refine ⟨⟨⟨by omega, by omega⟩, fun h hh => by omega, by omega⟩, fun d hd => by omega, fun h hh => by omega⟩

/-- The state in which the head of queue q runs as operation o. -/
def State.headRuns (s : State) (q : Nat) (o : Op) : State := ((qTake s q).launch o true).redStart o

theorem startScheduled_runs {s : State} {g : Image} {k q : Nat} {e : EngEntry} {o : Op} (hu : opUnit (dOpcode o.desc) e.unit = true)
    (hc : (qTake s q).opCheck (placeAt o k e) = .ok) (hcost : dispatchCost + switchCost g.eng e + (qTake s q).unitCost o.desc ≤ e.cost) :
    s.startScheduled g k e o true (fun t => qTake t q) = s.headRuns q (placeAt o k e) := by
  have hu' : opUnit (dOpcode (placeAt o k e).desc) e.unit = true := hu
  have hcost' : ¬ e.cost < dispatchCost + switchCost g.eng e + (qTake s q).unitCost (placeAt o k e).desc := Nat.not_lt.2 hcost
  simp [State.startScheduled, hu', hc, hcost', State.headRuns]

theorem entryHead_runs {s r : State} {g : Image} {k : Nat} {e : EngEntry} {ue : List Nat} {tf : Bool} {h : Head} (hops : qOps s e.queue = [])
    (hslot : (dieOps s (e.queue / 4096)).length < 65536) (hne : s.rd (queueBlock e.queue + 0x20) ≠ s.rd (queueBlock e.queue + 0x24))
    (hbell : s.bellOld e.queue = true) (hr : qRead s e.queue ue tf = (r, some h)) (hmet : h.met = true) :
    s.entryHead g k e ue tf = r.startScheduled g k e (r.newOp h false) true (fun t => qTake t e.queue) := by
  simp [State.entryHead, qWaiting, hops, hne, hbell, Nat.not_le.2 hslot, hr, hmet]

theorem entryStart_head {s : State} {g : Image} {k : Nat} {e : EngEntry} {ue : List Nat} {tf : Bool} (hg : s.eph.active = some g)
    (hk : g.eng[k]? = some e) (hf : e.frame = s.time.frame % g.period) (hdue : s.overrunDue e.start = s)
    (hidle : (s.atCycle e.start).engineOp e.engine = none) (hskip : (s.atCycle e.start).entrySkipped e = false)
    (hsus : (s.atCycle e.start).suspect e.ctx = false) :
    s.entryStart k ue tf = (s.atCycle e.start).entryHead g k e ue tf := by
  simp [State.entryStart, hg, hk, hf, hdue, hidle, hskip, hsus]

/-- What a head that starts at an entry keeps. -/
theorem headRuns_spec {s : State} {q e : Nat} {o : Op} (hoq : o.queue = q) (hoe : o.engine = some e)
    (hid : o.id = s.nextOp) (hfree : s.op s.nextOp = none) (hred : isStream o.desc = true → ∀ r, (qTake s q).redOf o = some r → r.engine = e) :
    only [.mem, .poison, .coh, .out, .ops, .nextOp, .heads, .bells, .health, .reds]
        ([queueBlock q + 0x24, engineBlock e + 4, dieReg (q / 4096) 0x100, dieReg (q / 4096) 0x104, dieReg (e / 64) 0x500, dieReg (e / 64) 0x504]
          ++ traceRegs ++ dirRegs) s (s.headRuns q o)
      ∧ (s.headRuns q o).rd (queueBlock q + 0x24) = s.rd (queueBlock q + 0x24) + 1
      ∧ (s.headRuns q o).op s.nextOp = some ((qTake s q).entered o)
      ∧ (isStream o.desc = false → (s.headRuns q o).reds = s.reds) := by
  have htake := only_qTake s q
  have hadd := only_opAdded (qTake s q) o
  have hgo : only [.mem, .poison, .coh, .out, .health] (launchRegs o e) ((qTake s q).opAdded o) ((qTake s q).launch o true) := only_launch_keeps hoe
  have hreds : ((qTake s q).launch o true).reds = (qTake s q).reds := (hgo.1 .reds (by simp)).trans (hadd.1 .reds (by simp))
  have hstart : only [.reds] [dieReg (e / 64) 0x500, dieReg (e / 64) 0x504] ((qTake s q).launch o true) (s.headRuns q o) :=
    only_redStart fun r hs hr => hred hs r ((redOf_of_reds hreds o).symm.trans hr)
  have hnext : (qTake s q).nextOp = s.nextOp := htake.1 .nextOp (by simp)
  have hout : queueBlock q + 0x24 ∉ launchRegs o e ++ [dieReg (e / 64) 0x500, dieReg (e / 64) 0x504] := fun hm =>
    issue_not_started _ _ (by
      simp only [launchRegs, hoq, List.mem_append, List.mem_cons, List.not_mem_nil, or_false] at hm ⊢
      tauto)
  rw [List.mem_append, not_or] at hout
  refine ⟨?_, ?_, ?_, fun hs => ?_⟩
  · refine only_trans (only_mono htake (by simp) (by simp)) (only_trans (only_mono hadd (by simp) (by simp))
      (only_trans (only_mono hgo (by simp) fun i hi => ?_) (only_mono hstart (by simp) (by simp))))
    simp only [launchRegs, hoq, List.mem_append, List.mem_cons, List.not_mem_nil, or_false] at hi ⊢
    tauto
  · rw [hstart.2 _ hout.2, hgo.2 _ hout.1, hadd.2 _ (by simp), rd_qTake_issue]
  · rw [op_of_ops (hstart.1 .ops (by simp)), op_of_ops (hgo.1 .ops (by simp)), ← hnext]
    exact op_opAdded (hid.trans hnext.symm) (by rw [hnext, op_of_ops (htake.1 .ops (by simp)), hfree])
  · rw [State.headRuns, redStart_of_not_stream hs, hreds, htake.1 .reds (by simp)]

/-- R94, R131. At its `START` an entry starts the head of its queue on its engine and window. -/
theorem entryStart_spec {s r : State} {k : Nat} {ue : List Nat} {tf : Bool} {g : Image} {e : EngEntry} {h : Head} (hg : s.eph.active = some g)
    (hk : g.eng[k]? = some e) (hf : e.frame = s.time.frame % g.period) (hdue : s.overrunDue e.start = s)
    (hidle : (s.atCycle e.start).engineOp e.engine = none) (hskip : (s.atCycle e.start).entrySkipped e = false)
    (hsus : (s.atCycle e.start).suspect e.ctx = false) (hops : qOps (s.atCycle e.start) e.queue = [])
    (hslot : (dieOps (s.atCycle e.start) (e.queue / 4096)).length < 65536)
    (hne : (s.atCycle e.start).rd (queueBlock e.queue + 0x20) ≠ (s.atCycle e.start).rd (queueBlock e.queue + 0x24))
    (hbell : (s.atCycle e.start).bellOld e.queue = true) (hr : qRead (s.atCycle e.start) e.queue ue tf = (r, some h)) (hmet : h.met = true)
    (hu : opUnit (dOpcode h.desc) e.unit = true) (hc : (qTake r e.queue).opCheck (placeAt (r.newOp h false) k e) = .ok)
    (hcost : dispatchCost + switchCost g.eng e + (qTake r e.queue).unitCost h.desc ≤ e.cost) :
    s.entryStart k ue tf = r.headRuns e.queue (placeAt (r.newOp h false) k e) := by
  rw [entryStart_head hg hk hf hdue hidle hskip hsus, entryHead_runs hops hslot hne hbell hr hmet, startScheduled_runs hu hc hcost]

theorem exec_entryStart_up {s : State} (hrdy : s.ready = true) (hup : s.pwr.state = 0) (k : Nat) (ue : List Nat) (tf : Bool) :
    exec (.entryStart k ue tf) s = .next (s.entryStart k ue tf) := by
  show Host.Outcome.next (s.when (s.ready && s.pwr.state == 0) (·.entryStart k ue tf)) = _
  rw [hrdy, hup]
  rfl

/-- The first clause of O13. -/
theorem entryStart_starts_head (s s1 r : State) (k : Nat) (ue : List Nat) (tf : Bool) (g : Image) (e : EngEntry) (h : Head) (hrdy : s.ready = true)
    (hup : s.pwr.state = 0) (hg : s.eph.active = some g) (hk : g.eng[k]? = some e) (hf : e.frame = s.time.frame % g.period)
    (hdue : s.overrunDue e.start = s) (hs1 : s1 = s.atCycle e.start) (hidle : s1.engineOp e.engine = none) (hskip : s1.entrySkipped e = false)
    (hsus : s1.suspect e.ctx = false) (hops : qOps s1 e.queue = []) (hslot : (dieOps s1 (e.queue / 4096)).length < 65536)
    (hne : s1.rd (queueBlock e.queue + 0x20) ≠ s1.rd (queueBlock e.queue + 0x24)) (hbell : s1.bellOld e.queue = true)
    (hr : qRead s1 e.queue ue tf = (r, some h)) (hhq : h.queue = e.queue) (hmet : h.met = true)
    (hu : opUnit (dOpcode h.desc) e.unit = true) (hc : (qTake r e.queue).opCheck (placeAt (r.newOp h false) k e) = .ok)
    (hcost : dispatchCost + switchCost g.eng e + (qTake r e.queue).unitCost h.desc ≤ e.cost) (hfree : s.op s.nextOp = none) :
    ∃ t, exec (.entryStart k ue tf) s = .next t
      ∧ t.rd (queueBlock e.queue + 0x24) = s.rd (queueBlock e.queue + 0x24) + 1
      ∧ (t.op s.nextOp).map (fun o => (o.queue, o.desc, o.entry, o.engine, o.scr, o.gran, o.phase, o.dynamic)) =
          some (e.queue, h.desc, some k, some e.engine, e.scrBase, e.scrGran, .running, false)
      ∧ only [.mem, .poison, .coh, .out, .ops, .nextOp, .heads, .bells, .health, .time, .reds]
          ([queueBlock e.queue + 0x24, engineBlock e.engine + 4, dieReg (e.queue / 4096) 0x100, dieReg (e.queue / 4096) 0x104,
            dieReg (e.engine / 64) 0x500, dieReg (e.engine / 64) 0x504] ++ traceRegs ++ dirRegs ++ stallRegs) s t
      ∧ (isStream h.desc = false → t.reds = s.reds) := by
  subst hs1
  have hcyc := only_atCycle s e.start
  have hread := only_qRead hr
  have hnext : r.nextOp = s.nextOp := (hread.1 .nextOp (by simp)).trans (hcyc.1 .nextOp (by simp))
  have hops' : r.ops = s.ops := (hread.1 .ops (by simp)).trans (hcyc.1 .ops (by simp))
  obtain ⟨hkeep, hissue, hop, hreds⟩ := headRuns_spec (s := r) (o := placeAt (r.newOp h false) k e) hhq rfl rfl
    (by rw [op_of_ops hops', hnext, hfree])
    (fun hs w hw => (Option.some.inj (redOf_engine hc hs hw)).symm)
  refine ⟨_, exec_entryStart_up hrdy hup k ue tf, ?_⟩
  rw [entryStart_spec hg hk hf hdue hidle hskip hsus hops hslot hne hbell hr hmet hu hc hcost]
  refine ⟨?_, ?_, ?_, fun hs => ?_⟩
  · have hstall : queueBlock e.queue + 0x24 ∉ stallRegs := fun hm => issue_not_started e.queue e.engine (List.mem_append_right _ hm)
    rw [hissue, hread.2 _ (by simp), hcyc.2 _ hstall]
  · rw [← hnext, hop]
    simp [State.entered, placeAt, State.newOp, hhq]
  · refine only_trans (only_mono hcyc (by simp) fun i hi => List.mem_append_right _ hi) (only_trans (only_mono hread (by simp) (by simp))
      (only_mono hkeep ?_ fun i hi => List.mem_append_left _ hi))
    simp
  · rw [hreds hs, hread.1 .reds (by simp), hcyc.1 .reds (by simp)]

end Sys2Proof.Machine
end

section
/-! PROOFS. What keeps the overrun registers, the Ephemeris, the commands that wait and the numbers of the operations: the writes that a
stopped operation has made, and the records of its stop (R98, R149, R216). -/

namespace Sys2Proof.Machine

/-- `EPH_OVR_COUNT` or `EPH_OVR_LAST` of some die (R112). -/
def overrunReg (o : Nat) : Prop := o % 0x04000000 = 0x02100030 ∨ o % 0x04000000 = 0x02100034

/-- The overrun registers read the same; the Ephemeris, the commands that wait, the contexts' faults and overruns and the numbers of the
operations are the same. -/
structure Spares (s t : State) : Prop where
  eph : t.eph = s.eph
  pending : t.pending = s.pending
  ctx : t.ctx = s.ctx
  ids : t.ops.map (·.id) = s.ops.map (·.id)
  regs : ∀ o, overrunReg o → t.rd o = s.rd o

namespace Spares

theorem refl (s : State) : Spares s s := ⟨rfl, rfl, rfl, rfl, fun _ _ => rfl⟩

theorem trans {s t u : State} (h : Spares s t) (k : Spares t u) : Spares s u :=
  ⟨k.eph.trans h.eph, k.pending.trans h.pending, k.ctx.trans h.ctx, k.ids.trans h.ids, fun o ho => (k.regs o ho).trans (h.regs o ho)⟩

theorem of_only {ps : List Part} {l : List Nat} {s t : State} (h : only ps l s t) (he : Part.eph ∉ ps) (hp : Part.pending ∉ ps)
    (hc : Part.ctx ∉ ps) (ho : Part.ops ∉ ps) (hl : ∀ o ∈ l, ¬ overrunReg o) : Spares s t := by
  have hops : t.ops = s.ops := h.1 .ops ho
  exact ⟨h.1 .eph he, h.1 .pending hp, h.1 .ctx hc, by rw [hops], fun o hr => h.2 o fun hm => hl o hm hr⟩

variable {s t : State}

theorem wr (h : Spares s t) {o : Nat} (v : Word) (ho : ¬ overrunReg o) : Spares s (t.wr o v) :=
  ⟨h.eph, h.pending, h.ctx, h.ids, fun j hj => (State.rd_wr_ne t o j v (fun e => ho (e ▸ hj))).trans (h.regs j hj)⟩

theorem wrn (h : Spares s t) {o : Nat} (n : Nat) (ho : ¬ overrunReg o) : Spares s (t.wrn o n) := h.wr _ ho

theorem wrFld (h : Spares s t) {o : Nat} (a w v : Nat) (ho : ¬ overrunReg o) : Spares s (t.wrFld o a w v) := h.wr _ ho

theorem set (h : Spares s t) {o : Nat} (m : Word) (ho : ¬ overrunReg o) : Spares s (t.set o m) := h.wr _ ho

theorem sat (h : Spares s t) {o : Nat} (n : Nat) (ho : ¬ overrunReg o) : Spares s (t.sat o n) := h.wr _ ho

theorem wrap (h : Spares s t) {o : Nat} (n : Nat) (ho : ¬ overrunReg o) : Spares s (t.wrap o n) := h.wr _ ho

theorem emit (h : Spares s t) (o : Out) : Spares s (t.emit o) := ⟨h.eph, h.pending, h.ctx, h.ids, h.regs⟩

theorem fresh (h : Spares s t) : Spares s t.fresh.2 := ⟨h.eph, h.pending, h.ctx, h.ids, h.regs⟩

theorem progress (h : Spares s t) (u : HUnit) : Spares s (t.progress u) := ⟨h.eph, h.pending, h.ctx, h.ids, h.regs⟩

theorem map_id_setOp (l : List Op) (o : Op) : (l.map (fun p => if p.id == o.id then o else p)).map (·.id) = l.map (·.id) := by
  rw [List.map_map]
  refine List.map_congr_left fun p _ => ?_
  show (if p.id == o.id then o else p).id = p.id
  split
  · rename_i he
    exact (eq_of_beq he).symm
  · rfl

theorem setOp (h : Spares s t) (o : Op) : Spares s (t.setOp o) :=
  ⟨h.eph, h.pending, h.ctx, (map_id_setOp t.ops o).trans h.ids, h.regs⟩

theorem done (h : Spares s t) (o : Op) (st : Status) : Spares s (t.done o st) := h.setOp _

theorem when (h : Spares s t) (c : Bool) {f : State → State} (hf : Spares s (f t)) : Spares s (t.when c f) := by
  cases c
  · exact h
  · exact hf

theorem each {α : Type} (h : Spares s t) (l : List α) {f : α → State → State} (hf : ∀ a ∈ l, ∀ u, Spares s u → Spares s (f a u)) :
    Spares s (t.each l f) := by
  induction l generalizing t with
  | nil => exact h
  | cons a l ih => exact ih (hf a (by simp) t h) fun b hb => hf b (by simp [hb])

/-- A fold that carries a state along. -/
theorem foldl {α β : Type} (π : β → State) (l : List α) {f : β → α → β} (hf : ∀ b, ∀ a ∈ l, Spares s (π b) → Spares s (π (f b a))) (b : β)
    (h : Spares s (π b)) : Spares s (π (l.foldl f b)) := by
  induction l generalizing b with
  | nil => exact h
  | cons a l ih => exact ih (fun c x hx => hf c x (by simp [hx])) _ (hf b a (by simp) h)

-- where no overrun register lies

theorem low {o : Nat} (h : o < 0x02100030) : ¬ overrunReg o := by
  unfold overrunReg
  omega

theorem die {d o : Nat} (h : o < 0x02100030 ∨ 0x02100034 < o ∧ o < 0x04000000) : ¬ overrunReg (dieReg d o) := by
  unfold overrunReg dieReg dieBase
  omega

theorem entryCtx_lt (e : Word) : entryCtx e < 1024 := Nat.mod_lt _ (by decide)

theorem ctxSlice_lt (s : State) (x : Nat) : s.ctxSlice x < 64 := Nat.mod_lt _ (by decide)

theorem queue {q o : Nat} (h : o < 0x1000) : ¬ overrunReg (queueBlock q + o) := by
  unfold overrunReg queueBlock dieBase
  omega

theorem engine {e o : Nat} (h : o < 0x1000) : ¬ overrunReg (engineBlock e + o) := by
  unfold overrunReg engineBlock dieBase
  omega

theorem link {n o : Nat} (h : o < 0x10000) : ¬ overrunReg (linkBlock n + o) := by
  unfold overrunReg linkBlock dieBase
  omega

theorem dirs : ∀ o ∈ dirRegs, ¬ overrunReg o := by
  intro o ho
  simp only [dirRegs, List.mem_append, List.mem_flatMap, List.mem_range, List.mem_cons, List.not_mem_nil, or_false, dirReg, domReg] at ho
  rcases ho with ⟨n, hn, rfl | rfl⟩ | rfl | rfl | rfl
  · exact die (by omega)
  · exact die (by omega)
  · exact low (by omega)
  · exact low (by omega)
  · exact low (by omega)

theorem quota {x o : Nat} (hx : x < 1024) (h : o < 0x20) : ¬ overrunReg (quotaReg x o) := low (by unfold quotaReg; omega)
theorem share {x o : Nat} (hx : x < 64) (h : o < 0x20) : ¬ overrunReg (shareReg x o) := low (by unfold shareReg; omega)
theorem ctxBlock {x o : Nat} (hx : x < 1024) (h : o < 0x20) : ¬ overrunReg (ctxReg x o) := low (by unfold ctxReg; omega)
theorem mirror {x o : Nat} (hx : x < 16) (h : o < 0x10) : ¬ overrunReg (mirrorReg x o) := low (by unfold mirrorReg; omega)

end Spares

end Sys2Proof.Machine
end

section
/-! PROOFS. A write of pool memory keeps the overrun registers (R98, R356, R385, R541). -/

namespace Sys2Proof.Machine

namespace Spares

variable {s t : State}

-- a page is redirected, and a flash unit goes into the write cache (R356, R385)

theorem quotaHit (h : Spares s t) {x : Nat} (hx : x < 1024) (st : Status) : Spares s (t.quotaHit x st) :=
  h.when _ (h.set _ (quota hx (by omega)))

theorem admitTo (h : Spares s t) (g : Page) (tier : Nat) : Spares s (t.admitTo g tier).2 := by
  unfold State.admitTo
  dsimp only
  split
  · exact h.quotaHit (entryCtx_lt _) _
  · exact h

theorem setPage (h : Spares s t) (g : Page) : Spares s (t.setPage g) := ⟨h.eph, h.pending, h.ctx, h.ids, h.regs⟩

theorem locTake (h : Spares s t) (l : Loc) (p : Nat) : Spares s (t.locTake l p) := ⟨h.eph, h.pending, h.ctx, h.ids, h.regs⟩

theorem locGive (h : Spares s t) (l : Loc) (p : Nat) : Spares s (t.locGive l p) := ⟨h.eph, h.pending, h.ctx, h.ids, h.regs⟩

theorem abandonMove (h : Spares s t) (g : Page) : Spares s (t.abandonMove g) := by
  unfold State.abandonMove
  split
  · exact h
  · exact ((h.setPage _).locGive _ _).sat _ (low (by omega))

theorem syncScrub (h : Spares s t) {x : Nat} (hx : x < 1024) : Spares s (t.syncScrub x) :=
  (h.wrn _ (ctxBlock hx (by omega))).wrFld _ _ _ (ctxBlock hx (by omega))

/-- Backing joins those that await scrub. -/
theorem scrubs (h : Spares s t) (r : Scrub) : Spares s { t with tier := { t.tier with scrubs := t.tier.scrubs ++ [r] } } :=
  ⟨h.eph, h.pending, h.ctx, h.ids, h.regs⟩

theorem toScrub (h : Spares s t) (p : Nat) {x : Nat} (hx : x < 1024) (l : Loc) : Spares s (t.toScrub p x l) :=
  have hq := h.scrubs { page := p, ctx := x, tier := l.tier, unit := l.unit, group := l.group, started := false }
  (hq.when _ (hq.wrap _ (low (by omega)))).syncScrub hx

theorem syncUse (h : Spares s t) {xs : List Nat} (hxs : ∀ x ∈ xs, x < 1024) : Spares s (t.syncUse xs) := by
  have hcol : ∀ x ∈ xs, ∀ u, Spares s u → Spares s (u.each [0, 1, 2] fun k v =>
      (v.wrn (quotaReg x (0x0C + 4 * k)) (t.use x k)).wrn (shareReg (t.ctxSlice x) (0x10 + 4 * k)) (t.sliceUse (t.ctxSlice x) k)) := by
    intro x hx u hu
    refine hu.each _ fun k hk v hv => ?_
    have hk3 : k < 3 := by
      simp only [List.mem_cons, List.not_mem_nil, or_false] at hk
      omega
    exact (hv.wrn _ (quota (hxs x hx) (by omega))).wrn _ (share (ctxSlice_lt _ _) (by omega))
  exact ((((h.each xs hcol).wrn _ (low (by omega))).wrn _ (low (by omega))).wrn _ (low (by omega))).wrn _ (low (by omega))

theorem redirect (h : Spares s t) (p : Nat) : Spares s (t.redirect p).1 := by
  unfold State.redirect
  split
  · exact h
  · rename_i g _
    split
    · exact h
    · have ha := h.admitTo g 1
      split
      · rename_i he
        rw [he] at ha
        exact ha
      · rename_i he
        rw [he] at ha
        refine Spares.syncUse (Spares.set (Spares.toScrub (((ha.abandonMove g).locTake _ _).setPage _) _ (entryCtx_lt _) _) _ (low (by omega))) ?_
        simp [entryCtx_lt]

theorem setTray (h : Spares s t) (y : Tray) : Spares s (t.setTray y) := ⟨h.eph, h.pending, h.ctx, h.ids, h.regs⟩

theorem cacheTake (h : Spares s t) (k : Nat × Nat × Nat) : Spares s (t.cacheTake k) := by
  unfold State.cacheTake State.onTray
  split
  · dsimp only
    split
    · exact h.setTray _
    · split
      · exact h
      · exact h.setTray _
  · exact h

theorem takeWrite (h : Spares s t) (a n : Nat) : Spares s (t.takeWrite a n).1 := by
  have hr : ∀ st : Status, Spares s ((pagesOf a n).foldl (fun q p => if q.2 == Status.ok then q.1.redirect p else q) (t, st)).1 := fun st =>
    foldl Prod.fst _ (fun q p _ hq => by
      split
      · exact hq.redirect p
      · exact hq) _ h
  unfold State.takeWrite
  dsimp only
  split
  · exact (hr _).each _ fun k _ u hu => hu.cacheTake k
  · exact hr _

-- the bytes, and what leaves on an expander's port (R35, R449)

theorem store (h : Spares s t) (a : Nat) (d : List Byte) : Spares s (t.store a d) :=
  h.trans (of_only (only_store (ps := storeParts) (l := dirRegs) t a d (by decide) (by decide) (by decide) (by decide) (by decide)
    (fun _ ho => ho)) (by decide) (by decide) (by decide) (by decide) dirs)

theorem expWrite (h : Spares s t) (a n : Nat) : Spares s (t.expWrite a n) := by
  refine h.each _ fun p _ u hu => ?_
  split
  · exact hu.when _ (hu.emit _)
  · exact hu

-- messages on a link port (R454, R457-R461)

theorem setLane (h : Spares s t) (x : Lane2) : Spares s (t.setLane x) := ⟨h.eph, h.pending, h.ctx, h.ids, h.regs⟩

theorem setCredit (h : Spares s t) (l k n : Nat) : Spares s (t.setCredit l k n) := ⟨h.eph, h.pending, h.ctx, h.ids, h.regs⟩

theorem keep (h : Spares s t) (r : Replay) : Spares s (t.keep r) := ⟨h.eph, h.pending, h.ctx, h.ids, h.regs⟩

theorem erased (h : Spares s t) (r : Replay) : Spares s { t with link := { t.link with replay := t.link.replay.erase r } } :=
  ⟨h.eph, h.pending, h.ctx, h.ids, h.regs⟩

theorem queued (h : Spares s t) (r : Replay) : Spares s { t with link := { t.link with replay := t.link.replay ++ [r] } } :=
  ⟨h.eph, h.pending, h.ctx, h.ids, h.regs⟩

theorem awaited (h : Spares s t) (a : Await) : Spares s { t with link := { t.link with awaits := t.link.awaits ++ [a] } } :=
  ⟨h.eph, h.pending, h.ctx, h.ids, h.regs⟩

theorem sendOut (h : Spares s t) (l : Nat) (m : Msg) : Spares s (t.sendOut l m) := h.emit _

theorem leave (h : Spares s t) (r : Replay) : Spares s (t.leave r) := by
  have hout := (h.sendOut r.link r.msg).progress (.link r.link)
  unfold State.leave
  dsimp only
  split
  · exact (hout.setCredit _ _ _).keep _
  · split
    · exact hout.keep _
    · exact (hout.erased r).sat _ (die (by omega))

theorem pump (h : Spares s t) (l : Nat) : Spares s (t.pump l) := by
  refine wrn (foldl Prod.fst _ (fun q r _ hq => ?_) (t, []) h) _ (link (by omega))
  split
  · exact hq
  · split
    · exact hq.leave _
    · exact hq

theorem sendOn (h : Spares s t) (l : Nat) (m : Msg) (ingress : Nat) : Spares s (t.sendOn l m ingress) := by
  unfold State.sendOn
  dsimp only
  split
  · exact h.when _ (h.sendOut _ _)
  · exact ((h.setLane _).queued _).pump _

theorem ask (h : Spares s t) (v ingress : Nat) (m : Msg) (who : Who) : Spares s (t.ask v ingress m who) := by
  have hsend : Spares s (t.sendTo v ingress m) := by
    unfold State.sendTo
    split
    · exact h.sendOn _ _ _
    · exact h
  exact hsend.awaited _

-- mirrors (R541-R543)

theorem mirrorSend (h : Spares s t) (r a n : Nat) (who : Who) (sub : Nat) : Spares s (t.mirrorSend r a n who sub) :=
  h.each _ fun _ _ _ hu => hu.ask _ _ _ _

theorem dirtied (h : Spares s t) (k : Nat × Nat) : Spares s { t with health := { t.health with dirty := t.health.dirty ++ [k] } } :=
  ⟨h.eph, h.pending, h.ctx, h.ids, h.regs⟩

theorem markDirty (h : Spares s t) {r : Nat} (hr : r < 16) (p : Nat) : Spares s (t.markDirty r p) := by
  unfold State.markDirty
  split
  · exact h
  · exact (h.dirtied _).wrap _ (mirror hr (by omega))

theorem mirrorWrite (h : Spares s t) (a n : Nat) (who : Who) : Spares s (t.mirrorWrite a n who) := by
  refine h.each _ fun p _ u hu => ?_
  split
  · exact hu
  · rename_i r hr
    have hr16 : r < 16 := List.mem_range.1 (List.mem_of_find?_eq_some hr)
    dsimp only
    split
    · exact hu.mirrorSend _ _ _ _ _
    · exact hu.markDirty hr16 p
    · split
      · exact hu
      · exact hu.mirrorSend _ _ _ _ _
    · exact hu

theorem saveMem (h : Spares s t) (a : Nat) (d : List Byte) : Spares s (t.saveMem a d).1 := by
  have hw := h.takeWrite a d.length
  unfold State.saveMem
  dsimp only
  split
  · exact ((hw.store a d).expWrite _ _).mirrorWrite _ _ _
  · exact hw

-- lines that a reduce unit takes (R220)

theorem setRed (h : Spares s t) (r : Stream) : Spares s (t.setRed r) := by
  have hreds : Spares s { t with reds := t.reds.map (fun q => if q.ctx == r.ctx && q.redId == r.redId && q.isOpen then r else q) } :=
    ⟨h.eph, h.pending, h.ctx, h.ids, h.regs⟩
  exact (hreds.wrn _ (die (by omega))).wrn _ (die (by omega))

theorem steerTo (h : Spares s t) (r : Stream) (l : List (Nat × List Byte)) (keep : Bool) : Spares s (t.steerTo r l keep) := by
  have hdrop := fun n => h.sat (o := dieReg (r.engine / 64) 0x208) n (die (by omega))
  unfold State.steerTo
  dsimp only
  split
  · exact hdrop _
  · split
    · exact (hdrop _).sat _ (die (by omega))
    · exact (hdrop _).when _ ((hdrop _).setRed _)

theorem steerWrite (h : Spares s t) (x a : Nat) (b : List Byte) (keep : Bool) : Spares s (t.steerWrite x a b keep).1 := by
  unfold State.steerWrite
  split
  · exact h
  · split
    · exact h.sat _ (die (by omega))
    · exact h.each _ fun q _ u hu => hu.steerTo _ _ _

theorem save (h : Spares s t) (x a : Nat) (d : List Byte) : Spares s (t.save x a d).1 := by
  refine foldl Prod.fst _ (fun q p _ hq => ?_) _ (h.steerWrite x a d true)
  split
  · exact hq.saveMem _ _
  · exact hq

end Spares

end Sys2Proof.Machine
end

section
/-! PROOFS. What a stopped operation has done, and the records of its stop, keep the overrun registers (R98, R149, R216). -/

namespace Sys2Proof.Machine

namespace Spares

variable {s t : State}

-- records

theorem evlog (h : Spares s t) (q : Nat) (st : Status) (kind entry index : Nat) : Spares s (t.evlog q st kind entry index) := by
  unfold State.evlog
  dsimp only
  split
  · exact h
  · split
    · exact (h.sat _ (queue (by omega))).set _ (queue (by omega))
    · split
      · exact (h.save _ _ _).wrap _ (queue (by omega))
      · exact (h.sat _ (queue (by omega))).set _ (queue (by omega))

theorem trace (h : Spares s t) (kind source x st : Nat) : Spares s (t.trace kind source x st) := by
  refine h.trans (of_only (only_trace (ps := storeParts) (l := traceRegs ++ dirRegs) t kind source x st (by decide) (by decide) (by decide)
    (by decide) (fun _ ho => List.mem_append_right _ ho) (by simp [traceRegs]) (by simp [traceRegs])) (by decide) (by decide) (by decide) (by decide) ?_)
  intro o ho
  rcases List.mem_append.1 ho with ho | ho
  · simp only [traceRegs, List.mem_cons, List.not_mem_nil, or_false] at ho
    exact low (by omega)
  · exact dirs o ho

theorem atCycle (h : Spares s t) (c : Nat) : Spares s (t.atCycle c) := by
  refine h.trans (of_only (only_atCycle t c) (by decide) (by decide) (by decide) (by decide) fun o ho => ?_)
  simp only [stallRegs, List.mem_append, List.mem_flatMap, List.mem_map, List.mem_cons, List.not_mem_nil, or_false, dirReg] at ho
  rcases ho with ⟨d, _, rfl | rfl⟩ | ⟨n, _, rfl⟩ <;> exact die (by omega)

theorem engineIdle (h : Spares s t) (e : Nat) : Spares s (t.engineIdle e) := by
  unfold State.engineIdle
  dsimp only
  split
  · exact h
  · exact (h.fresh.wrFld _ _ _ (engine (by omega))).wrap _ (engine (by omega))

-- scratch (R165)

theorem setPoison (h : Spares s t) (e : Nat) (l : List Nat) : Spares s (t.setPoison e l) := by
  unfold State.setPoison
  split
  · exact h
  · have hl : Spares s { t with scrPoison := l } := ⟨h.eph, h.pending, h.ctx, h.ids, h.regs⟩
    exact hl.each _ fun k _ u hu => hu.wrn _ (engine (by omega))

theorem scrPut (h : Spares s t) (w : Win) (b : Nat) (d : List Byte) : Spares s (t.scrPut w b d) := by
  refine Spares.setPoison ?_ _ _
  exact ⟨h.eph, h.pending, h.ctx, h.ids, h.regs⟩

theorem scrLanes (h : Spares s t) (w : Win) (first : Nat) (l : List Lane) : Spares s (t.scrLanes w first l) := h.scrPut _ _ _

-- reductions that a stopped REDUCE feeds (R225-R229)

theorem redSync (h : Spares s t) (e : Nat) : Spares s (t.redSync e) := by
  unfold State.redSync
  refine wrn ?_ _ (die (by omega))
  split
  · exact (((h.wrn _ (die (by omega))).wrn _ (die (by omega))).wrn _ (die (by omega))).wrn _ (die (by omega))
  · exact (((h.wr _ (die (by omega))).wr _ (die (by omega))).wr _ (die (by omega))).wr _ (die (by omega))

theorem redClosed (h : Spares s t) (r : Stream) : Spares s (t.redClosed r) := (h.setRed _).redSync _

/-- The first part of an early close: the descriptor ends, and a reduction that is too long is counted. -/
theorem redEnded (h : Spares s t) (r : Stream) (st : Status) :
    Spares s ((((t.redClosed r).redOp r).elim (t.redClosed r) fun o => (t.redClosed r).done o st).when (st == .capacityExhausted)
      (·.sat (dieReg (r.engine / 64) 0x210) 1)) := by
  have hend : Spares s (((t.redClosed r).redOp r).elim (t.redClosed r) fun o => (t.redClosed r).done o st) := by
    cases (t.redClosed r).redOp r
    · exact h.redClosed r
    · exact (h.redClosed r).done _ _
  exact hend.when _ (hend.sat _ (die (by omega)))

theorem redClose (h : Spares s t) (fuel : Nat) (r : Stream) (st : Status) : Spares s (t.redClose fuel r st) := by
  induction fuel generalizing t r with
  | zero =>
    have hend := h.redEnded r st
    unfold State.redClose
    dsimp only
    split
    · exact hend
    · split
      · exact hend
      · exact hend.sendOn _ _ _
  | succ n ih =>
    have hend := h.redEnded r st
    unfold State.redClose
    dsimp only
    split
    · exact hend
    · split
      · split
        · exact hend.sat _ (die (by omega))
        · split
          · exact ih hend _
          · exact hend
      · exact hend.sendOn _ _ _

/-- A good block arrives for an open reduction. -/
theorem partArrive (h : Spares s t) (d x id input group op fmt code : Nat) (b : List Byte) :
    Spares s (t.partArrive d x id input group op fmt code b false) := by
  unfold State.partArrive
  split
  · exact h.sat _ (die (by omega))
  · split
    · exact h
    · split
      · exact h.redClose _ _ _
      · split
        · exact h.redClose _ _ _
        · exact h.setRed _

theorem partSend (h : Spares s t) (o : Op) (group : Nat) (st : Status) (b : List Byte) : Spares s (t.partSend o group st b) := by
  unfold State.partSend
  dsimp only
  split
  · exact h.partArrive _ _ _ _ _ _ _ _ _
  · exact h.sendOn _ _ _

-- what a stopped operation has done

theorem segments (h : Spares s t) (o : Op) (ue : List Nat) (f j : Nat) : Spares s (t.segments o ue f j).1 := by
  induction f generalizing t j with
  | zero => exact h
  | succ f ih =>
    unfold State.segments
    dsimp only
    split
    · exact h
    · split
      · exact h
      · have hlanes := fun l => h.scrLanes o.win 0 l
        split
        · exact ih ((hlanes _).each _ fun b _ u hu => hu.partSend _ _ _ _) _
        · split
          · exact (hlanes _).save _ _ _
          · exact ih ((hlanes _).save _ _ _) _

theorem stopPart (h : Spares s t) (o : Op) : Spares s (t.stopPart o) := by
  unfold State.stopPart
  dsimp only
  split
  · exact h
  · split
    · split
      · exact h
      · exact h.fresh.segments _ _ _ _
    · split
      · exact h
      · exact h.fresh.save _ _ _

end Spares

-- an operation goes back to its queue

/-- An operation as it waits to start again (R133). -/
def Op.back (o : Op) : Op :=
  { o with phase := .restart, engine := none, placed := o.engine.orElse (fun _ => o.placed), run := {}, got := [], stats := [], failIndex := 0,
           decodeFail := false }

/-- What an operation awaits is awaited no more. -/
def State.unawaited (s : State) (id : Nat) : State :=
  { s with link := { s.link with awaits := s.link.awaits.filter (fun a => a.who != Who.op id) } }

theorem op_setOp_of_mem {s : State} {o : Op} (h : o.id ∈ s.ops.map (·.id)) : (s.setOp o).op o.id = some o := by
  obtain ⟨p, hp, hid⟩ := List.mem_map.1 h
  have hmem : o ∈ (s.setOp o).ops := List.mem_map.2 ⟨p, hp, by simp [hid]⟩
  have honly : ∀ q ∈ (s.setOp o).ops, q.id = o.id → q = o := by
    intro q hq he
    obtain ⟨p', _, rfl⟩ := List.mem_map.1 hq
    split at he <;> rename_i hc
    · simp [hc]
    · exact absurd (beq_iff_eq.2 he) hc
  cases hf : (s.setOp o).op o.id with
  | none => exact absurd (beq_self_eq_true o.id) (List.find?_eq_none.1 hf o hmem)
  | some q => rw [honly q (List.mem_of_find?_eq_some hf) (by simpa using List.find?_some hf)]

theorem putBack_onEngine {s : State} {o : Op} {e : Nat} (he : o.engine = some e) :
    s.putBack o = ((((s.stopPart o).unawaited o.id).setOp o.back).trace 3 e o.ctx 0).engineIdle e := by
  unfold State.putBack
  dsimp only
  split
  · rename_i e' he'
    cases he.symm.trans he'
    change ((((s.stopPart o).unawaited o.id).setOp o.back).trace 3 (o.engine.getD o.queue) o.ctx 0).engineIdle e = _
    rw [he, Option.getD_some]
  · rename_i hn
    cases he.symm.trans hn

theorem only_engineIdle (s : State) (e : Nat) : only [.freeCtr] [engineBlock e + 4, engineBlock e + 0x10] s (s.engineIdle e) := by
  unfold State.engineIdle
  dsimp only
  split
  · exact only_refl _ _ _
  · exact only_trans (only_fresh _ s (by simp)) (only_trans (only_wrFld _ s.fresh.2 _ _ _ (by simp)) (only_wrap _ _ _ (by simp)))

theorem ops_trace (s : State) (kind source x st : Nat) : (s.trace kind source x st).ops = s.ops :=
  (only_trace (ps := storeParts) (l := traceRegs ++ dirRegs) s kind source x st (by decide) (by decide) (by decide) (by decide)
    (fun _ ho => List.mem_append_right _ ho) (by simp [traceRegs]) (by simp [traceRegs])).1 .ops (by decide)

/-- R98, R133. An operation that is put back waits to start again, and the overrun registers stay. -/
theorem putBack_spec {s t : State} (h : Spares s t) {o : Op} {e : Nat} (he : o.engine = some e) (hid : o.id ∈ s.ops.map (·.id)) :
    Spares s (t.putBack o) ∧ (t.putBack o).op o.id = some o.back := by
  have hrest : Spares s ((t.stopPart o).unawaited o.id) := by
    have hstop := h.stopPart o
    exact ⟨hstop.eph, hstop.pending, hstop.ctx, hstop.ids, hstop.regs⟩
  rw [putBack_onEngine he]
  refine ⟨((hrest.setOp _).trace _ _ _ _).engineIdle _, ?_⟩
  rw [op_of_ops ((only_engineIdle _ _).1 .ops (by decide)), op_of_ops (ops_trace _ _ _ _ _)]
  exact op_setOp_of_mem (o := o.back) (hrest.ids ▸ hid)

-- the overrun is counted

/-- The overruns in a row of a context. -/
def State.overrunsPut (s : State) (x n : Nat) : State :=
  { s with ctx := { s.ctx with overruns := (x, n) :: s.ctx.overruns.filter (fun p => p.1 != x) } }

theorem only_overrunsPut (s : State) (x n : Nat) : only [.ctx] [] s (s.overrunsPut x n) := only_put_ctx _ s _ (by simp)

/-- `EPH_OVR_COUNT` goes up and `EPH_OVR_LAST` names the entry (R98, R112). -/
def State.overrunShown (s : State) (d k : Nat) : State := (s.sat (ephReg d 0x30) 1).wrn (ephReg d 0x34) k

theorem only_overrunShown (s : State) (d k : Nat) : only [] [ephReg d 0x30, ephReg d 0x34] s (s.overrunShown d k) :=
  only_trans (only_sat _ _ _ (by simp)) (only_wrn _ _ _ (by simp))

theorem overrunShown_count (s : State) (d k : Nat) :
    ((s.overrunShown d k).rd (ephReg d 0x30)).toNat = min 0xFFFFFFFF ((s.rd (ephReg d 0x30)).toNat + 1) := by
  have hne : ephReg d 0x30 ≠ ephReg d 0x34 := by
    unfold ephReg dieReg
    omega
  have hread : (s.overrunShown d k).rd (ephReg d 0x30) = BitVec.ofNat 32 (min 0xFFFFFFFF ((s.rd (ephReg d 0x30)).toNat + 1)) :=
    (State.rd_wr_ne _ _ _ _ hne).trans (State.rd_wr_same _ _ _)
  rw [hread, BitVec.toNat_ofNat]
  omega

theorem overrunShown_last (s : State) (d k : Nat) : (s.overrunShown d k).rd (ephReg d 0x34) = BitVec.ofNat 32 k := by
  rw [State.overrunShown, State.wrn, State.rd_wr_same]

/-- The event bit and the context's overruns in a row (R99, R112). -/
def State.overrunNoted (s : State) (o : Op) (e n : Nat) : State := (s.set (ephReg (e / 64) 0x28) 0x8).overrunsPut o.ctx n

theorem only_overrunNoted (s : State) (o : Op) (e n : Nat) : only [.ctx] [ephReg (e / 64) 0x28] s (s.overrunNoted o e n) :=
  only_trans (only_set _ _ _ (by simp)) (only_mono (only_overrunsPut _ _ _) (by simp) (by simp))

theorem overrunCount_eq (s : State) (k : Nat) (o : Op) : s.overrunCount k o =
    ((((s.overrunShown (o.engine.getD 0 / 64) k).overrunNoted o (o.engine.getD 0)
        ((s.ctx.overruns.find? (fun p => p.1 == o.ctx)).elim 0 (·.2) + 1)).trace 4 (o.engine.getD 0) o.ctx 0).when
      ((s.ctx.overruns.find? (fun p => p.1 == o.ctx)).elim 0 (·.2) + 1 == 4)
      (fun t => (t.fault o.ctx 1).set (ephReg (o.engine.getD 0 / 64) 0x28) 0x10),
    (s.ctx.overruns.find? (fun p => p.1 == o.ctx)).elim 0 (·.2) + 1 == 4) := rfl

/-- An overrun that is not the fourth in a row (R99) is shown on the die of its engine, and recorded. -/
theorem overrunCount_again {s : State} {k e : Nat} {o : Op} (he : o.engine = some e)
    (hn : (s.ctx.overruns.find? (fun p => p.1 == o.ctx)).elim 0 (·.2) ≠ 3) :
    s.overrunCount k o =
      (((s.overrunShown (e / 64) k).overrunNoted o e ((s.ctx.overruns.find? (fun p => p.1 == o.ctx)).elim 0 (·.2) + 1)).trace 4 e o.ctx 0,
        false) := by
  have hfour : ((s.ctx.overruns.find? (fun p => p.1 == o.ctx)).elim 0 (·.2) + 1 == 4) = false := by simpa using hn
  rw [overrunCount_eq, hfour, he, Option.getD_some, State.when_false]

theorem overrunReg_count (d : Nat) : overrunReg (ephReg d 0x30) := by
  unfold overrunReg ephReg dieReg dieBase
  omega

theorem overrunReg_last (d : Nat) : overrunReg (ephReg d 0x34) := by
  unfold overrunReg ephReg dieReg dieBase
  omega

/-- The time that an entry's operation is stopped at, and the record of its overrun in the log of its queue (R98, R149). -/
def State.overrunLogged (s : State) (k : Nat) (o : Op) : State :=
  (s.atCycle (s.deadline k)).evlog o.queue .frameOverrun 2 k o.index

theorem spares_overrunLogged (s : State) (k : Nat) (o : Op) : Spares s (s.overrunLogged k o) :=
  ((Spares.refl s).atCycle _).evlog _ _ _ _ _

/-- The state in which an overrun that is not the fourth in a row is shown, before its trace record. -/
def State.overrunCounted (s : State) (k e : Nat) (o : Op) : State :=
  ((s.overrunLogged k o).overrunShown (e / 64) k).overrunNoted o e ((s.ctx.overruns.find? (fun p => p.1 == o.ctx)).elim 0 (·.2) + 1)

theorem overrunCounted_spec (s : State) (k e : Nat) (o : Op) :
    (s.overrunCounted k e o).eph = s.eph ∧ (s.overrunCounted k e o).pending = s.pending
      ∧ (s.overrunCounted k e o).ops.map (·.id) = s.ops.map (·.id)
      ∧ ((s.overrunCounted k e o).rd (ephReg (e / 64) 0x30)).toNat = min 0xFFFFFFFF ((s.rd (ephReg (e / 64) 0x30)).toNat + 1)
      ∧ (s.overrunCounted k e o).rd (ephReg (e / 64) 0x34) = BitVec.ofNat 32 k := by
  have hlog := spares_overrunLogged s k o
  have hshown := only_overrunShown (s.overrunLogged k o) (e / 64) k
  have hnoted := only_overrunNoted ((s.overrunLogged k o).overrunShown (e / 64) k) o e
    ((s.ctx.overruns.find? (fun p => p.1 == o.ctx)).elim 0 (·.2) + 1)
  have hops : (s.overrunCounted k e o).ops = (s.overrunLogged k o).ops := (hnoted.1 .ops (by simp)).trans (hshown.1 .ops (by simp))
  have hkeep : ∀ a, a < 0x100 → a ≠ 0x28 →
      (s.overrunCounted k e o).rd (ephReg (e / 64) a) = ((s.overrunLogged k o).overrunShown (e / 64) k).rd (ephReg (e / 64) a) := fun a ha hne =>
    hnoted.2 _ fun hm => hne (ephReg_inj _ _ _ _ ha (by decide) (List.mem_singleton.1 hm)).2
  refine ⟨?_, ?_, by rw [hops, hlog.ids], ?_, ?_⟩
  · exact (hnoted.1 .eph (by simp)).trans ((hshown.1 .eph (by simp)).trans hlog.eph)
  · exact (hnoted.1 .pending (by simp)).trans ((hshown.1 .pending (by simp)).trans hlog.pending)
  · rw [hkeep _ (by decide) (by decide), overrunShown_count, hlog.regs _ (overrunReg_count _)]
  · rw [hkeep _ (by decide) (by decide), overrunShown_last]

theorem frameOverrun_again {s : State} {k e : Nat} {o : Op} (ho : s.ops.find? (fun p => p.entry == some k && p.onEngine) = some o)
    (he : o.engine = some e) (hn : (s.ctx.overruns.find? (fun p => p.1 == o.ctx)).elim 0 (·.2) ≠ 3) :
    s.frameOverrun k = ((s.overrunCounted k e o).trace 4 e o.ctx 0).putBack o := by
  have hctx : (s.overrunLogged k o).ctx = s.ctx := (spares_overrunLogged s k o).ctx
  have hcount := overrunCount_again (s := s.overrunLogged k o) (k := k) he (by rw [hctx]; exact hn)
  rw [hctx] at hcount
  unfold State.frameOverrun
  split
  · rename_i hnone
    cases ho.symm.trans hnone
  · rename_i p hp
    cases ho.symm.trans hp
    change (if !((s.overrunLogged k o).overrunCount k o).2 then (((s.overrunLogged k o).overrunCount k o).1).putBack o else _) = _
    rw [hcount]
    rfl

/-- The second clause of O13: a stopped operation waits to start again, and the overrun is counted (R98). -/
theorem frameOverrun_stops (s : State) (k e : Nat) (o : Op) (ho : s.ops.find? (fun p => p.entry == some k && p.onEngine) = some o)
    (he : o.engine = some e) (hn : (s.ctx.overruns.find? (fun p => p.1 == o.ctx)).elim 0 (·.2) ≠ 3) (hid : s.op o.id = some o) :
    ∃ t, exec (.frameOverrun k) s = .next t
      ∧ (t.op o.id).map (fun p => (p.phase, p.engine, p.desc)) = some (.restart, none, o.desc)
      ∧ (t.rd (ephReg (e / 64) 0x30)).toNat = min 0xFFFFFFFF ((s.rd (ephReg (e / 64) 0x30)).toNat + 1)
      ∧ t.rd (ephReg (e / 64) 0x34) = BitVec.ofNat 32 k ∧ t.eph = s.eph ∧ t.pending = s.pending := by
  have hmem : o.id ∈ s.ops.map (·.id) := List.mem_map.2 ⟨o, List.mem_of_find?_eq_some hid, rfl⟩
  obtain ⟨heph, hpend, hids, hcount, hlast⟩ := overrunCounted_spec s k e o
  obtain ⟨hback, hop⟩ := putBack_spec ((Spares.refl (s.overrunCounted k e o)).trace 4 e o.ctx 0) he (hids ▸ hmem)
  refine ⟨_, rfl, ?_⟩
  rw [frameOverrun_again ho he hn]
  refine ⟨by rw [hop]; rfl, ?_, ?_, hback.eph.trans heph, hback.pending.trans hpend⟩
  · rw [hback.regs _ (overrunReg_count _), hcount]
  · rw [hback.regs _ (overrunReg_last _), hlast]

/-- Settles O13: the head that starts by `entryStart_starts_head`, and the overrun by following what a stop writes. -/
theorem entriesStartAndStopTheirOperation : Obligations.EntriesStartAndStopTheirOperation := by
  refine ⟨?_, fun s k e o ho he _ hn hid => frameOverrun_stops s k e o ho he hn hid⟩
  intro s s1 r k ue tf g e h hrdy hup hg hk hf hdue hs1 hidle hskip hsus hops hslot hne hbell hr hhq hmet _ _ hu hc hcost hfree
  exact entryStart_starts_head s s1 r k ue tf g e h hrdy hup hg hk hf hdue hs1 hidle hskip hsus hops hslot hne hbell hr hhq hmet hu hc hcost hfree

end Sys2Proof.Machine
end

section
/-! PROOFS. Where the registers of queues and counters lie in the aperture (R29, R40, R41), and counts that saturate (R9). -/

namespace Sys2Proof.Machine

theorem place_queue {q k : Nat} (hq : q < 16384) (hk : k < 0x1000) (h4 : k % 4 = 0) : place (queueBlock q + k) = .queue q k := by
  have hw : (queueBlock q + k) / 4 * 4 = queueBlock q + k := by unfold queueBlock dieBase; omega
  have hd : (queueBlock q + k) / 0x04000000 - 1 = q / 4096 := by unfold queueBlock dieBase; omega
  have ho : (queueBlock q + k) % 0x04000000 = 0x01000000 + q % 4096 * 0x1000 + k := by unfold queueBlock dieBase; omega
  have hlow : ¬ queueBlock q + k < 0x01000000 := by unfold queueBlock dieBase; omega
  have hin : ¬ (queueBlock q + k < 0x04000000 ∨ 0x14000000 ≤ queueBlock q + k) := by unfold queueBlock dieBase; omega
  simp only [place, hw, hd, ho, hlow, Bool.or_eq_true, decide_eq_true_eq, hin, if_false]
  rw [if_neg (by omega), if_pos (by omega)]
  congr 1 <;> omega

theorem place_counter {c k : Nat} (hc : c < 65536) (hk : k < 0x40) (h4 : k % 4 = 0) : place (counterBlock c + k) = .counter c k := by
  have hw : (counterBlock c + k) / 4 * 4 = counterBlock c + k := by unfold counterBlock dieBase; omega
  have hd : (counterBlock c + k) / 0x04000000 - 1 = c / 16384 := by unfold counterBlock dieBase; omega
  have ho : (counterBlock c + k) % 0x04000000 = 0x02000000 + c % 16384 * 0x40 + k := by unfold counterBlock dieBase; omega
  have hlow : ¬ counterBlock c + k < 0x01000000 := by unfold counterBlock dieBase; omega
  have hin : ¬ (counterBlock c + k < 0x04000000 ∨ 0x14000000 ≤ counterBlock c + k) := by unfold counterBlock dieBase; omega
  simp only [place, hw, hd, ho, hlow, Bool.or_eq_true, decide_eq_true_eq, hin, if_false]
  rw [if_neg (by omega), if_neg (by omega), if_pos (by omega)]
  congr 1 <;> omega

theorem regInfo_queue {q k : Nat} (hq : q < 16384) (hk : k < 0x1000) (h4 : k % 4 = 0) : regInfo (queueBlock q + k) = queueInfo k := by
  rw [regInfo, place_queue hq hk h4]

theorem regInfo_counter {c k : Nat} (hc : c < 65536) (hk : k < 0x40) (h4 : k % 4 = 0) : regInfo (counterBlock c + k) = counterInfo k := by
  rw [regInfo, place_counter hc hk h4]

/-- Every register of a queue is served alike. -/
theorem accepts_queue {s : State} {port q j k : Nat} (hq : q < 16384) (hj : j < 0x1000) (hj4 : j % 4 = 0) (hk : k < 0x1000) (hk4 : k % 4 = 0)
    (h : s.accepts port (queueBlock q + j) = true) : s.accepts port (queueBlock q + k) = true := by
  have hreach : s.reach (queueBlock q + k) = s.reach (queueBlock q + j) := by
    rw [State.reach, State.reach, place_queue hq hk hk4, place_queue hq hj hj4]
  rwa [State.accepts, hreach]

/-- A write of a register by an accepted command goes to the block of its offset (R40, R486). -/
theorem exec_registerWrite {s : State} {port off : Nat} (v : Word) (h : s.accepts port off = true) :
    exec (.registerWrite port off v) s = .next (s.mmio port off v) := by
  simp only [State.accepts, State.serves, State.ready, Bool.and_eq_true, beq_iff_eq, bne_iff_ne] at h
  obtain ⟨⟨⟨hready, hpower⟩, hreach⟩, howner⟩ := h
  show Host.Outcome.next (s.served _ _) = _
  simp [State.served, State.ready, hready, hpower, hreach, howner]

theorem useRegs_low : ∀ o ∈ useRegs, o < 0x01000000 := by
  intro o ho
  simp only [useRegs, quotaReg, shareReg, List.mem_append, List.mem_flatMap, List.mem_range, List.mem_cons, List.not_mem_nil, or_false] at ho
  omega

theorem queueReg_notMem_useRegs (q k : Nat) : queueBlock q + k ∉ useRegs := fun h => by
  have hlow := useRegs_low _ h
  unfold queueBlock dieBase at hlow
  omega

theorem counterBlock_notMem {l : List Nat} (h : ∀ o ∈ l, o < 0x01000000) (c : Nat) : counterBlock c ∉ l := fun hm => by
  have hlow := h _ hm
  unfold counterBlock dieBase at hlow
  omega

theorem counterReg_notMem {l : List Nat} (h : ∀ o ∈ l, o < 0x01000000) (c k : Nat) : counterBlock c + k ∉ l := fun hm => by
  have hlow := h _ hm
  unfold counterBlock dieBase at hlow
  omega

theorem queueReg_notMem_stallRegs {q k : Nat} (hk : k < 0x1000) : queueBlock q + k ∉ stallRegs := by
  simp only [stallRegs, List.mem_append, List.mem_flatMap, List.mem_map, List.mem_range, List.mem_cons, List.not_mem_nil, or_false, not_or,
    not_exists, not_and, queueBlock, dieReg, dirReg, dieBase]
  exact ⟨fun d hd => by omega, fun h hh => by omega⟩

/-- What a count reads after it went up (R9). -/
theorem rd_sat_toNat (s : State) (o n : Nat) : ((s.sat o n).rd o).toNat = min 0xFFFFFFFF ((s.rd o).toNat + n) := by
  rw [State.rd_sat_same, BitVec.toNat_ofNat]
  omega

/-- The fields of a mask take the value's. -/
theorem masked_write_and (c v m : Word) : ((c &&& ~~~m) ||| (v &&& m)) &&& m = v &&& m := by
  have hrest : ~~~m &&& m = 0#32 := BitVec.not_and_self m
  rw [BitVec.and_or_distrib_right, BitVec.and_assoc, BitVec.and_assoc, hrest, BitVec.and_self, BitVec.and_zero, BitVec.zero_or]

/-- A write by an owner port of a register whose stored fields are all RW-S (R11). -/
theorem rd_plain_rws {s : State} {port off : Nat} {m : Word} (h : s.owner port = true) (hi : regInfo off = { rws := m }) (v : Word) :
    (s.plainWrite port off v).rd off = (s.rd off &&& ~~~m) ||| (v &&& m) := by
  rw [rd_plain h, hi]
  simp

end Sys2Proof.Machine
end

section
/-! PROOFS. Doorbells (R122, R131). -/

namespace Sys2Proof.Machine

theorem qState_of_rd {s t : State} {q : Nat} (h : t.rd (queueBlock q + 0x18) = s.rd (queueBlock q + 0x18)) : qState t q = qState s q :=
  fld_of_rd h 0 3

theorem qState_qSetState (s : State) (q : Nat) {v : Nat} (hv : v < 8) : qState (qSetState s q v) q = v := by
  rw [qState, State.fld, qSetState, State.rd_wrn_same, BitVec.toNat_ofNat, nbits]
  omega

theorem only_qErr (ps : List Part) (s : State) (q : Nat) (m : Word) : only ps [queueBlock q + 0x1C] s (qErr s q m) := only_set _ _ _ (by simp)

theorem rd_qErr (s : State) (q : Nat) (m : Word) : (qErr s q m).rd (queueBlock q + 0x1C) = s.rd (queueBlock q + 0x1C) ||| m := State.rd_set_same _ _ _

theorem only_qWake (l : List Nat) (s : State) (q : Nat) : only [.pwr] l s (qWake s q) :=
  only_when _ _ fun _ => only_wakeIdle _ _ (by simp)

theorem exec_doorbell {s : State} {port q : Nat} (v : Word) (cycle : Nat) (h : s.accepts port (queueBlock q + 0x40) = true) :
    exec (.doorbell port q v cycle) s = .next (qDoorbell (s.atCycle cycle) q v) :=
  congrArg Host.Outcome.next (reg_accepts h _ _)

theorem bellOk_iff (head tail v : Word) (ring : Nat) :
    bellOk head tail v ring = true ↔ (tail - head).toNat ≤ (v - head).toNat ∧ (v - head).toNat ≤ 2 ^ ring := by
  simp only [bellOk, Bool.and_eq_true, decide_eq_true_eq, BitVec.le_def]

/-- A doorbell of a queue that stands in ERROR or FENCED counts alone. -/
theorem qDoorbell_closed {s : State} {q : Nat} (h : qState s q = 3 ∨ qState s q = 4) (v : Word) :
    qDoorbell s q v = s.sat (queueBlock q + 0x38) 1 :=
  if_pos (by simpa using h)

/-- The range of R122 for a doorbell of queue q. -/
def bellFits (s : State) (q : Nat) (v : Word) : Prop :=
  (s.rd (queueBlock q + 0x20) - s.rd (queueBlock q + 0x28)).toNat ≤ (v - s.rd (queueBlock q + 0x28)).toNat
    ∧ (v - s.rd (queueBlock q + 0x28)).toNat ≤ 2 ^ s.fld (queueBlock q + 4) 8 5

theorem bellFits_iff (s : State) (q : Nat) (v : Word) : bellFits s q v ↔
    bellOk (s.rd (queueBlock q + 0x28)) (s.rd (queueBlock q + 0x20)) v (s.fld (queueBlock q + 4) 8 5) = true := (bellOk_iff _ _ _ _).symm

theorem bellFits_of_rd {s t : State} {q : Nat} (h : ∀ k < 0x1000, t.rd (queueBlock q + k) = s.rd (queueBlock q + k)) (v : Word) :
    bellFits t q v ↔ bellFits s q v := by
  unfold bellFits
  rw [h _ (by decide), h _ (by decide), fld_of_rd (h 4 (by decide))]

/-- The doorbells that cover a descriptor not started, with this one (R131). -/
def State.bellRung (s : State) (q : Nat) (v : Word) : State :=
  { s with bells := liveBells (s.rd (queueBlock q + 0x24)) v q (s.bells ++ [{ queue := q, tail := v.toNat, time := s.now }]) }

theorem qDoorbell_open {s : State} {q : Nat} (h3 : qState s q ≠ 3) (h4 : qState s q ≠ 4) (v : Word) : qDoorbell s q v =
    if bellOk (s.rd (queueBlock q + 0x28)) (s.rd (queueBlock q + 0x20)) v (s.fld (queueBlock q + 4) 8 5) then
      if v == s.rd (queueBlock q + 0x20) then s else qWake ((s.bellRung q v).wr (queueBlock q + 0x20) v) q
    else qErr (s.sat (queueBlock q + 0x38) 1) q 1 :=
  if_neg (by simp [h3, h4])

/-- A doorbell in range moves the tail; one equal to it changes nothing. -/
theorem qDoorbell_fits {s : State} {q : Nat} {v : Word} (h3 : qState s q ≠ 3) (h4 : qState s q ≠ 4) (h : bellFits s q v) :
    only [.bells, .pwr] [queueBlock q + 0x20] s (qDoorbell s q v) ∧ (qDoorbell s q v).rd (queueBlock q + 0x20) = v
      ∧ (v = s.rd (queueBlock q + 0x20) → qDoorbell s q v = s) := by
  rw [qDoorbell_open h3 h4, if_pos ((bellFits_iff s q v).1 h)]
  by_cases hv : v = s.rd (queueBlock q + 0x20)
  · rw [if_pos (by simpa using hv)]
    exact ⟨only_refl _ _ _, hv.symm, fun _ => rfl⟩
  · rw [if_neg (by simpa using hv)]
    have hrung : only [.bells, .pwr] [queueBlock q + 0x20] s (s.bellRung q v) := only_put_bells _ _ _ (by simp)
    have hwake := only_qWake [] ((s.bellRung q v).wr (queueBlock q + 0x20) v) q
    refine ⟨only_trans hrung (only_trans (only_wr _ _ _ (by simp)) (only_mono hwake (by simp) (by simp))), ?_, fun he => absurd he hv⟩
    rw [hwake.2 _ (by simp), State.rd_wr_same]

/-- A doorbell out of range is discarded, latched and counted. -/
theorem qDoorbell_range {s : State} {q : Nat} {v : Word} (h3 : qState s q ≠ 3) (h4 : qState s q ≠ 4) (h : ¬ bellFits s q v) :
    only [] [queueBlock q + 0x1C, queueBlock q + 0x38] s (qDoorbell s q v)
      ∧ (qDoorbell s q v).rd (queueBlock q + 0x1C) = s.rd (queueBlock q + 0x1C) ||| 1
      ∧ ((qDoorbell s q v).rd (queueBlock q + 0x38)).toNat = min 0xFFFFFFFF ((s.rd (queueBlock q + 0x38)).toNat + 1) := by
  rw [qDoorbell_open h3 h4, if_neg fun hb => h ((bellFits_iff s q v).2 hb)]
  have herr := only_qErr [] (s.sat (queueBlock q + 0x38) 1) q 1
  refine ⟨only_trans (only_sat _ _ _ (by simp)) (only_mono herr (by simp) (by simp)), ?_, ?_⟩
  · rw [rd_qErr, State.rd_sat_ne _ _ _ _ (by omega)]
  · rw [herr.2 _ (by simp), rd_sat_toNat]

/-- Settles O6, by the cases of a doorbell, once the instant of its arrival is there. -/
theorem doorbellsMoveTheTail : Obligations.DoorbellsMoveTheTail := by
  intro s port q v cycle h _
  have hcyc := only_atCycle s cycle
  have hrd : ∀ k < 0x1000, (s.atCycle cycle).rd (queueBlock q + k) = s.rd (queueBlock q + k) := fun k hk =>
    hcyc.2 _ (queueReg_notMem_stallRegs hk)
  have hst : qState (s.atCycle cycle) q = qState s q := qState_of_rd (hrd _ (by decide))
  rw [← hst]
  have hfits := bellFits_of_rd hrd v
  have hthen : ∀ {ps : List Part} {l : List Nat} {t : State}, only ps l (s.atCycle cycle) t → only (.time :: ps) (stallRegs ++ l) s t := fun k =>
    only_trans (only_mono hcyc (by simp) fun o ho => List.mem_append_left _ ho)
      (only_mono k (fun p hp => List.mem_cons_of_mem _ hp) fun o ho => List.mem_append_right _ ho)
  refine ⟨fun h3 h4 hlo hhi => ?_, fun h3 h4 hout => ?_, fun hclosed => ?_⟩
  · obtain ⟨hkeep, htail, hsame⟩ := qDoorbell_fits h3 h4 (hfits.2 ⟨hlo, hhi⟩)
    refine ⟨_, exec_doorbell v cycle h, hthen hkeep, htail, fun he => ?_⟩
    rw [hsame (he.trans (hrd _ (by decide)).symm)]
    exact hcyc
  · obtain ⟨hkeep, herr, hcount⟩ := qDoorbell_range h3 h4 (fun hf => hout (hfits.1 hf))
    exact ⟨_, exec_doorbell v cycle h, hthen hkeep, herr.trans (by rw [hrd _ (by decide)]), hcount.trans (by rw [hrd _ (by decide)])⟩
  · refine ⟨_, exec_doorbell v cycle h, ?_⟩
    rw [qDoorbell_closed hclosed]
    exact ⟨hthen (only_sat _ _ _ (by simp)), by rw [rd_sat_toNat, hrd _ (by decide)]⟩

end Sys2Proof.Machine
end

section
/-! PROOFS. Pages of a ring start towards the stack tier (R128): what the choice of a place and the start of a move leave alone. -/

namespace Sys2Proof.Machine

theorem only_setPage (l : List Nat) (s : State) (g : Page) : only [.tier] l s (s.setPage g) := only_put_tier _ _ _ (by simp)

theorem only_locTake (l : List Nat) (s : State) (k : Loc) (p : Nat) : only [.tier] l s (s.locTake k p) := only_put_tier _ _ _ (by simp)

theorem only_locGive (l : List Nat) (s : State) (k : Loc) (p : Nat) : only [.tier] l s (s.locGive k p) := only_put_tier _ _ _ (by simp)

theorem only_startMove (l : List Nat) (s : State) (g : Page) (k : Loc) : only [.tier] l s (s.startMove g k) :=
  only_trans (only_locTake l s k g.page) (only_setPage l _ _)

theorem only_abandonMove (s : State) (g : Page) : only [.tier] useRegs s (s.abandonMove g) := by
  unfold State.abandonMove
  split
  · exact only_refl _ _ _
  · exact only_trans (only_setPage _ _ _) (only_trans (only_locGive _ _ _ _) (only_sat _ _ _ (by simp [useRegs])))

theorem only_syncUse_one {x : Nat} (h : x < 1024) (s : State) : only [.tier] useRegs s (s.syncUse [x]) :=
  only_mono (only_syncUse (by simpa using h) s) (by simp) fun _ ho => ho

theorem only_qRingHold (s : State) (q : Nat) (v : Word) : only [.tier] useRegs s (qRingHold s q v) := by
  unfold qRingHold
  refine only_trans (only_each _ (fun p _ t => ?_) s) (only_syncUse_one (Nat.mod_lt _ (by decide)) _)
  cases t.page p with
  | none => exact only_refl _ _ _
  | some g =>
    dsimp only
    split
    · exact only_trans (only_abandonMove _ _) (only_startMove _ _ _ _)
    · exact only_setPage _ _ _

theorem only_qRingFollow (s : State) (q : Nat) : only [.tier] useRegs s (qRingFollow s q) :=
  only_when _ _ fun _ => only_qRingHold _ _ _

/-- A queue that is not in scheduled mode holds no ring page. -/
theorem qRingFollow_of_dynamic {s : State} {q : Nat} (h : s.bit (queueBlock q + 4) 1 = false) : qRingFollow s q = s := by
  have hmoves : qRingMoves s q (s.rd (queueBlock q + 4)) = [] := if_neg (by rw [← State.bit, h]; decide)
  rw [qRingFollow, hmoves]
  rfl

end Sys2Proof.Machine
end

section
/-! PROOFS. `Q_CFG` and `ENABLE` (R117-R121). -/

namespace Sys2Proof.Machine

/-- A write of v changes a field of `Q_CFG` besides `ENABLE`. -/
def qCfgChanges (s : State) (q : Nat) (v : Word) : Bool := ((v ^^^ s.rd (queueBlock q + 4)) &&& qCfgMask) != 0

/-- The queue's state discards a write of v to `Q_CFG` (R120). -/
def qCfgLocked (s : State) (q : Nat) (v : Word) : Bool := qState s q == 3 || (qCfgChanges s q v && qState s q != 0 && qState s q != 4)

/-- The fields are stored, and ring pages that have to be held start towards the stack tier (R128). -/
def qCfgStored (s : State) (q : Nat) (v : Word) : State :=
  if qCfgChanges s q v then (qRingHold s q v).wr (queueBlock q + 4) ((v &&& qCfgMask) ||| (s.rd (queueBlock q + 4) &&& 1)) else s

theorem qCfg_eq (s : State) (q : Nat) (v : Word) : qCfg s q v =
    if qCfgLocked s q v || qCfgBad v then qErr s q ((if qCfgLocked s q v then 2 else 0) ||| (if qCfgBad v then 4 else 0))
    else if qCfgChanges s q v && !qRingFits s q v then qErr s q 4
    else if v.getLsbD 0 then qEnable (qCfgStored s q v) q else qDisable (qCfgStored s q v) q := rfl

theorem qCfgChanges_iff (s : State) (q : Nat) (v : Word) : qCfgChanges s q v = true ↔ (v ^^^ s.rd (queueBlock q + 4)) &&& qCfgMask ≠ 0 := bne_iff_ne

theorem qCfgLocked_iff (s : State) (q : Nat) (v : Word) : qCfgLocked s q v = true ↔
    qState s q = 3 ∨ (qState s q ≠ 0 ∧ qState s q ≠ 4 ∧ (v ^^^ s.rd (queueBlock q + 4)) &&& qCfgMask ≠ 0) := by
  rw [← qCfgChanges_iff]
  simp only [qCfgLocked, Bool.or_eq_true, Bool.and_eq_true, beq_iff_eq, bne_iff_ne]
  tauto

theorem qCfgLocked_of_settable {s : State} {q : Nat} (h : qState s q = 0 ∨ qState s q = 4) (v : Word) : qCfgLocked s q v = false := by
  rcases h with h | h <;> simp [qCfgLocked, h]

theorem exec_qCfgWrite {s : State} {port q : Nat} (v : Word) (h : s.accepts port (queueBlock q + 4) = true) :
    exec (.qCfgWrite port q v) s = .next (qCfg s q v) :=
  congrArg Host.Outcome.next (regS_accepts h _ _ _)

theorem exec_queueEnable {s : State} {port q : Nat} (h : s.accepts port (queueBlock q + 4) = true) :
    exec (.queueEnable port q) s = .next (qEnable s q) :=
  congrArg Host.Outcome.next (regS_accepts h _ _ _)

theorem exec_queueDisable {s : State} {port q : Nat} (h : s.accepts port (queueBlock q + 4) = true) :
    exec (.queueDisable port q) s = .next (if qState s q = 3 then qErr s q 2 else qDisable s q) :=
  congrArg Host.Outcome.next (regS_accepts h _ _ _)

/-- A Q_CFG value that changes no field agrees with the register on them. -/
theorem and_mask_of_xor {a b m : Word} (h : (a ^^^ b) &&& m = 0) : b &&& m = a &&& m := by
  ext i hi
  have hbit : ((a ^^^ b) &&& m)[i] = false := by simp [h]
  simp only [BitVec.getElem_and, BitVec.getElem_xor] at hbit ⊢
  grind

theorem only_qCfgStored (s : State) (q : Nat) (v : Word) : only [.tier] ([queueBlock q + 4] ++ useRegs) s (qCfgStored s q v) := by
  unfold qCfgStored
  split
  · exact only_trans (only_mono (only_qRingHold s q v) (fun _ hp => hp) fun _ ho => List.mem_append_right _ ho) (only_wr _ _ _ (by simp))
  · exact only_refl _ _ _

theorem rd_qCfgStored (s : State) (q : Nat) (v : Word) : (qCfgStored s q v).rd (queueBlock q + 4) &&& qCfgMask = v &&& qCfgMask := by
  unfold qCfgStored
  split
  · have hfield : qCfgMask &&& qCfgMask = qCfgMask := by decide
    have henable : (1 : Word) &&& qCfgMask = 0#32 := by decide
    rw [State.rd_wr_same, BitVec.and_or_distrib_right, BitVec.and_assoc, BitVec.and_assoc, hfield, henable, BitVec.and_zero, BitVec.or_zero]
  · rename_i hc
    rw [qCfgChanges_iff, not_not] at hc
    exact and_mask_of_xor hc

theorem qState_qCfgStored (s : State) (q : Nat) (v : Word) : qState (qCfgStored s q v) q = qState s q := by
  refine qState_of_rd ((only_qCfgStored s q v).2 _ ?_)
  simp [queueReg_notMem_useRegs]

/-- `ENABLE` written 1 makes a queue RUNNING (R121). -/
theorem qEnable_runs {s : State} {q : Nat} (h : qState s q ≠ 3) :
    only [.pwr] [queueBlock q + 4, queueBlock q + 0x18] s (qEnable s q) ∧ qState (qEnable s q) q = 1
      ∧ (qEnable s q).rd (queueBlock q + 4) = s.rd (queueBlock q + 4) ||| 1 := by
  have hwake := only_qWake [] (qSetState (s.set (queueBlock q + 4) 1) q 1) q
  rw [qEnable, if_neg h]
  refine ⟨only_trans (only_set _ _ _ (by simp)) (only_trans (only_wrn _ _ _ (by simp)) (only_mono hwake (by simp) (by simp))), ?_, ?_⟩
  · rw [qState_of_rd (hwake.2 _ (by simp)), qState_qSetState _ _ (by decide)]
  · rw [hwake.2 _ (by simp), qSetState, State.rd_wrn_ne _ _ _ _ (by omega), State.rd_set_same]

/-- `ENABLE` written 0 drains a RUNNING queue, or stops it when nothing is in flight (R121). -/
theorem qDisable_running {s : State} {q : Nat} (h : qState s q = 1) :
    only [] [queueBlock q + 4, queueBlock q + 0x18] s (qDisable s q) ∧ qState (qDisable s q) q = (if (qOps s q).isEmpty then 0 else 2)
      ∧ (qDisable s q).rd (queueBlock q + 4) = s.rd (queueBlock q + 4) &&& ~~~1 := by
  rw [qDisable, if_pos h]
  refine ⟨only_trans (only_clr _ _ _ (by simp)) (only_wrn _ _ _ (by simp)), qState_qSetState _ _ (by split <;> decide), ?_⟩
  rw [qSetState, State.rd_wrn_ne _ _ _ _ (by omega), State.rd_clr_same]

theorem qDisable_idle {s : State} {q : Nat} (h : qState s q ≠ 1) : qDisable s q = s := if_neg h

theorem qCfg_refused {s : State} {q : Nat} {v : Word} (h : qCfgLocked s q v = true ∨ qCfgBad v = true) :
    qCfg s q v = qErr s q ((if qCfgLocked s q v then 2 else 0) ||| (if qCfgBad v then 4 else 0)) := by
  rw [qCfg_eq, if_pos (by simpa using h)]

theorem qCfg_unfit {s : State} {q : Nat} {v : Word} (hb : qCfgBad v = false) (hst : qState s q = 0 ∨ qState s q = 4)
    (hc : qCfgChanges s q v = true) (hf : qRingFits s q v = false) : qCfg s q v = qErr s q 4 := by
  rw [qCfg_eq, qCfgLocked_of_settable hst, hb, if_neg (by decide), hc, hf, if_pos (by decide)]

theorem qCfg_stores {s : State} {q : Nat} {v : Word} (hb : qCfgBad v = false) (hst : qState s q = 0 ∨ qState s q = 4)
    (hf : qRingFits s q v = true) :
    qCfg s q v = if v.getLsbD 0 then qEnable (qCfgStored s q v) q else qDisable (qCfgStored s q v) q := by
  rw [qCfg_eq, qCfgLocked_of_settable hst, hb, if_neg (by decide), hf, Bool.not_true, Bool.and_false, if_neg (by decide)]

/-- A write that stores the fields and sets `ENABLE`. -/
theorem qCfg_enables {s : State} {q : Nat} {v : Word} (hb : qCfgBad v = false) (hst : qState s q = 0 ∨ qState s q = 4)
    (hf : qRingFits s q v = true) (hv : v.getLsbD 0 = true) :
    only [.tier, .pwr] ([queueBlock q + 4, queueBlock q + 0x18] ++ useRegs) s (qCfg s q v) ∧ qState (qCfg s q v) q = 1
      ∧ (qCfg s q v).bit (queueBlock q + 4) 0 = true ∧ (qCfg s q v).rd (queueBlock q + 4) &&& qCfgMask = v &&& qCfgMask := by
  have hstored := only_qCfgStored s q v
  have hne : qState (qCfgStored s q v) q ≠ 3 := by rw [qState_qCfgStored]; omega
  obtain ⟨hkeep, hruns, hcfg⟩ := qEnable_runs hne
  have henable : (1 : Word) &&& qCfgMask = 0#32 := by decide
  rw [qCfg_stores hb hst hf, if_pos hv]
  refine ⟨only_trans (only_mono hstored (by simp) ?_) (only_mono hkeep (by simp) fun o ho => List.mem_append_left _ ho), hruns, ?_, ?_⟩
  · intro o ho
    rw [List.mem_append, List.mem_singleton] at ho
    rw [List.mem_append, List.mem_cons]
    exact ho.imp .inl id
  · simp [State.bit, hcfg]
  · rw [hcfg, BitVec.and_or_distrib_right, henable, BitVec.or_zero, rd_qCfgStored]

/-- A write that stores the fields of a queue at rest and leaves it there. -/
theorem qCfg_rests {s : State} {q : Nat} {v : Word} (hb : qCfgBad v = false) (hst : qState s q = 0 ∨ qState s q = 4)
    (hf : qRingFits s q v = true) (hv : v.getLsbD 0 = false) : qCfg s q v = qCfgStored s q v := by
  rw [qCfg_stores hb hst hf, hv, if_neg (by decide)]
  exact qDisable_idle (by rw [qState_qCfgStored]; omega)

/-- Settles O7, by the cases of a write of `Q_CFG` and of `ENABLE`. -/
theorem queuesAreConfiguredAndEnabled : Obligations.QueuesAreConfiguredAndEnabled := by
  refine ⟨fun s port q v locked h _ hlock => ⟨fun hb hst hf hv => ?_, fun hb hst hf hv => ?_, fun hb hst hc hf => ?_, fun hbad => ?_⟩,
    fun s port q h _ => ⟨fun h3 => ?_, fun h1 => ?_, fun h1 h3 => ?_, fun h3 => ?_⟩⟩
  · exact ⟨_, exec_qCfgWrite v h, qCfg_enables hb hst hf hv⟩
  · refine ⟨_, exec_qCfgWrite v h, ?_⟩
    rw [qCfg_rests hb hst hf hv]
    exact ⟨only_qCfgStored s q v, rd_qCfgStored s q v⟩
  · refine ⟨_, exec_qCfgWrite v h, ?_⟩
    rw [qCfg_unfit hb hst ((qCfgChanges_iff s q v).2 hc) hf]
    exact ⟨only_qErr _ _ _ _, rd_qErr _ _ _⟩
  · have hl : qCfgLocked s q v = locked := Bool.eq_iff_iff.2 ((qCfgLocked_iff s q v).trans hlock.symm)
    refine ⟨_, exec_qCfgWrite v h, ?_⟩
    rw [qCfg_refused (by rwa [hl]), hl]
    exact ⟨only_qErr _ _ _ _, rd_qErr _ _ _⟩
  · exact ⟨_, exec_queueEnable h, qEnable_runs h3⟩
  · refine ⟨_, exec_queueDisable h, ?_⟩
    rw [if_neg (by omega)]
    exact qDisable_running h1
  · rw [exec_queueDisable h, if_neg h3, qDisable_idle h1]
  · have henable : qEnable s q = qErr s q 2 := if_pos h3
    have hdisable : (if qState s q = 3 then qErr s q 2 else qDisable s q) = qErr s q 2 := if_pos h3
    intro c hc
    refine ⟨qErr s q 2, ?_, only_qErr _ _ _ _, rd_qErr _ _ _⟩
    simp only [List.mem_cons, List.not_mem_nil, or_false] at hc
    rcases hc with rfl | rfl
    · rw [exec_queueEnable h, henable]
    · rw [exec_queueDisable h, hdisable]

end Sys2Proof.Machine
end

section
/-! PROOFS. The base of a ring (R120, R127, R128). -/

namespace Sys2Proof.Machine

theorem exec_qRingLoWrite {s : State} {port q : Nat} (v : Word) (h : s.accepts port (queueBlock q + 8) = true) :
    exec (.qRingLoWrite port q v) s = .next (qRingLo s port q v) :=
  congrArg Host.Outcome.next (regS_accepts h _ _ _)

/-- A write of `Q_RING_HI` that is stored. -/
def qRingHi (s : State) (port q : Nat) (v : Word) : State := qRingFollow (s.plainWrite port (queueBlock q + 0xC) v) q

theorem exec_ringHiWrite {s : State} {port q : Nat} (v : Word) (hq : q < 16384) (h : s.accepts port (queueBlock q + 0xC) = true) :
    exec (.registerWrite port (queueBlock q + 0xC) v) s = .next (qLocked s q fun t => qRingHi t port q v) := by
  rw [exec_registerWrite v h, State.mmio, place_queue hq (by decide) (by decide)]
  rfl

theorem qLocked_settable {s : State} {q : Nat} (h : qState s q = 0 ∨ qState s q = 4) (f : State → State) : qLocked s q f = f s := if_pos h

theorem qLocked_shut {s : State} {q : Nat} (h0 : qState s q ≠ 0) (h4 : qState s q ≠ 4) (f : State → State) : qLocked s q f = qErr s q 2 :=
  if_neg (by omega)

/-- What has been read from the ring of queue q counts no more (R127). -/
def State.ringLeft (s : State) (q : Nat) : State :=
  { s with
    heads := s.heads.filter (fun h => h.queue != q)
    bells := s.bells.filter (fun r => r.queue != q)
    ops := s.ops.map (fun (o : Op) => if o.queue == q then { o with old := true } else o) }

theorem only_ringLeft (s : State) (q : Nat) : only [.heads, .bells, .ops] [] s (s.ringLeft q) :=
  ⟨fun p hp => by cases p <;> first | rfl | exact absurd (by simp) hp, fun _ _ => rfl⟩

theorem qRebase_eq (s : State) (q : Nat) :
    qRebase s q = (((s.ringLeft q).wr (queueBlock q + 0x20) 0).wr (queueBlock q + 0x24) 0).wr (queueBlock q + 0x28) 0 := rfl

theorem only_qRebase (s : State) (q : Nat) :
    only [.heads, .bells, .ops] [queueBlock q + 0x20, queueBlock q + 0x24, queueBlock q + 0x28] s (qRebase s q) := by
  rw [qRebase_eq]
  exact only_trans (only_mono (only_ringLeft s q) (fun _ h => h) (by simp)) (only_trans (only_wr _ _ _ (by simp))
    (only_trans (only_wr _ _ _ (by simp)) (only_wr _ _ _ (by simp))))

theorem rd_qRebase (s : State) (q : Nat) :
    (qRebase s q).rd (queueBlock q + 0x20) = 0 ∧ (qRebase s q).rd (queueBlock q + 0x24) = 0 ∧ (qRebase s q).rd (queueBlock q + 0x28) = 0 := by
  rw [qRebase_eq]
  simp

theorem nbits_page (x : Word) : x.toNat / 4096 = (x.extractLsb' 12 20).toNat := by
  rw [← nbits_ext, nbits]
  omega

/-- The page of the ring base is that of the value written, whatever the bits below it hold. -/
theorem ringLo_page (c v : Word) : ((c &&& ~~~(0xFFFFF000 : Word)) ||| (v &&& 0xFFFFF000)).toNat / 4096 = v.toNat / 4096 := by
  have hrest : (~~~(0xFFFFF000 : Word)).extractLsb' 12 20 = 0#20 := by decide
  have hfield : (0xFFFFF000 : Word).extractLsb' 12 20 = BitVec.allOnes 20 := by decide
  rw [nbits_page, nbits_page, BitVec.extractLsb'_or, BitVec.extractLsb'_and, BitVec.extractLsb'_and, hrest, hfield, BitVec.and_zero,
    BitVec.zero_or, BitVec.and_allOnes]

/-- Settles O8, by the state of the queue: at rest the base is stored and its indices clear, else the write is discarded. -/
theorem ringBaseWriteClearsTheIndices : Obligations.RingBaseWriteClearsTheIndices := by
  refine ⟨fun s port q v h hq hst => ⟨_, exec_qRingLoWrite v h, ?_⟩, fun s port q v h hq h0 h4 c hc => ?_, fun s port q v hq h hst => ?_⟩
  · have ho := accepts_owner h
    have hplain : only [] [queueBlock q + 8] s (s.plainWrite port (queueBlock q + 8) v) := only_plain _ ho v (by simp)
    have hbase := only_qRebase (s.plainWrite port (queueBlock q + 8) v) q
    have hfollow := only_qRingFollow (qRebase (s.plainWrite port (queueBlock q + 8) v) q) q
    obtain ⟨htail, hissue, hhead⟩ := rd_qRebase (s.plainWrite port (queueBlock q + 8) v) q
    have hrd : ∀ k, (qRingFollow (qRebase (s.plainWrite port (queueBlock q + 8) v) q) q).rd (queueBlock q + k)
        = (qRebase (s.plainWrite port (queueBlock q + 8) v) q).rd (queueBlock q + k) := fun k => hfollow.2 _ (queueReg_notMem_useRegs q k)
    rw [qRingLo, qLocked_settable hst]
    refine ⟨?_, fun hdyn => ?_, ?_, (hrd _).trans htail, (hrd _).trans hissue, (hrd _).trans hhead⟩
    · refine only_trans (only_mono hplain (by simp) (by simp)) (only_trans (only_mono hbase (by simp) ?_)
        (only_mono hfollow (by simp) fun o ho => List.mem_append_right _ ho))
      simp
    · rw [qRingFollow_of_dynamic]
      · exact (hbase.1 .tier (by simp)).trans (hplain.1 .tier (by simp))
      · rw [bit_of_rd (hbase.2 _ (by simp)), bit_of_rd (hplain.2 _ (by simp)), hdyn]
    · rw [hrd, hbase.2 _ (by simp), rd_plain_rws ho (regInfo_queue hq (by decide) (by decide))]
      exact ringLo_page _ _
  · have hhi := accepts_queue hq (by decide) (by decide) (k := 0xC) (by decide) (by decide) h
    refine ⟨qErr s q 2, ?_, only_qErr _ _ _ _, rd_qErr _ _ _⟩
    simp only [List.mem_cons, List.not_mem_nil, or_false] at hc
    rcases hc with rfl | rfl
    · rw [exec_qRingLoWrite v h, qRingLo, qLocked_shut h0 h4]
    · rw [exec_ringHiWrite v hq hhi, qLocked_shut h0 h4]
  · have ho := accepts_owner h
    have hfollow := only_qRingFollow (s.plainWrite port (queueBlock q + 0xC) v) q
    refine ⟨_, exec_ringHiWrite v hq h, ?_⟩
    rw [qLocked_settable hst]
    refine ⟨only_trans (only_plain _ ho v (by simp)) (only_mono hfollow (by simp) fun o ho => List.mem_append_right _ ho), ?_⟩
    rw [qRingHi, hfollow.2 _ (queueReg_notMem_useRegs q _), rd_plain_rws ho (regInfo_queue hq (by decide) (by decide))]
    exact masked_write_and _ _ _

end Sys2Proof.Machine
end

section
/-! PROOFS. Read indices (R150, R321, R516, R547) and counters (R142, R145, R358, R518). -/

namespace Sys2Proof.Machine

/-- A read index moves only within what has been written. -/
theorem readIndex_spec (s : State) (o w : Nat) (v : Word) :
    onlyRegs [o] s (readIndex s o w v)
      ∧ (readIndex s o w v).rd o = if (v - s.rd o).toNat ≤ (s.rd w - s.rd o).toNat then v else s.rd o := by
  refine ⟨only_when _ _ fun _ => only_wr _ _ _ (by simp), ?_⟩
  unfold readIndex
  by_cases h : (v - s.rd o).toNat ≤ (s.rd w - s.rd o).toNat
  · rw [decide_eq_true (BitVec.le_def.2 h), State.when_true, State.rd_wr_same, if_pos h]
  · rw [decide_eq_false (fun k => h (BitVec.le_def.1 k)), State.when_false, if_neg h]

theorem rd64_lt (s : State) (o : Nat) : s.rd64 o < 2 ^ 64 := by
  have hlo := (s.rd o).isLt
  have hhi := (s.rd (o + 4)).isLt
  unfold State.rd64
  omega

/-- A counter has its new value, and waits and the notification have seen it (R145). -/
def State.ctrPut (s : State) (c v : Nat) : State := ((s.wr64 (counterBlock c) (v % 2 ^ 64)).recheck c).notify c

theorem ctrSet_eq (s : State) (c v : Nat) : s.ctrSet c v = (s.ctrPut c v).each ((s.ctrPut c v).streamsOf c) (fun w u => u.wsRelease w) := rfl

/-- What a change of a counter sets off besides weight streams. -/
abbrev ctrRegs (c : Nat) : List Nat := [counterBlock c, counterBlock c + 4, counterBlock c + 0x1C]

theorem only_ctrPut_regs (s : State) (c v : Nat) : only [.heads, .out, .link, .pwr] (ctrRegs c) s (s.ctrPut c v) :=
  only_ctrPut s c v (by simp) (by simp) (by simp) (by simp) fun _ h => h

theorem only_notify_regs (s : State) (c : Nat) : only [.out, .link, .pwr] [counterBlock c + 0x1C] s (s.notify c) :=
  only_notify s c (by simp) (by simp) (by simp) (by simp)

theorem ctrVal_of_only {ps : List Part} {l : List Nat} {s t : State} {c : Nat} (h : only ps l s t) (h0 : counterBlock c ∉ l)
    (h4 : counterBlock c + 4 ∉ l) : t.ctrVal c = s.ctrVal c := rd64_of_rd (h.2 _ h0) (h.2 _ h4)

theorem ctrVal_ctrPut (s : State) (c v : Nat) : (s.ctrPut c v).ctrVal c = v % 2 ^ 64 := by
  have hnotify := only_notify_regs ((s.wr64 (counterBlock c) (v % 2 ^ 64)).recheck c) c
  have hwait := only_recheck (ps := [.heads]) [] (s.wr64 (counterBlock c) (v % 2 ^ 64)) c (by simp)
  rw [State.ctrPut, ctrVal_of_only hnotify (by simp) (by simp), ctrVal_of_only hwait (by simp) (by simp)]
  exact rd64_wr64 (Nat.mod_lt _ (by decide))

theorem streamsOf_of_same {s t : State} (ht : t.tier = s.tier) (hf : t.force = s.force) (c : Nat) : t.streamsOf c = s.streamsOf c := by
  simp only [State.streamsOf, State.ctr, ht, hf]

theorem streamsOf_ctrPut (s : State) (c v : Nat) : (s.ctrPut c v).streamsOf c = s.streamsOf c :=
  streamsOf_of_same ((only_ctrPut_regs s c v).1 .tier (by simp)) ((only_ctrPut_regs s c v).1 .force (by simp)) c

/-- Stage copies that a stream lets go of are given back, and what its context holds is counted (R358, R342). -/
theorem only_wsRelease {w : WStream} (h : w.ctx < 1024) (s : State) : only [.tier] useRegs s (s.wsRelease w) :=
  only_trans (only_each _ (fun _ _ _ => only_put_tier _ _ _ (by simp)) s) (only_trans (only_put_tier _ _ _ (by simp)) (only_syncUse_one h _))

theorem only_ctrSet_released {s : State} {c : Nat} (h : s.streamsBound c) (v : Nat) : only [.tier] useRegs (s.ctrPut c v) (s.ctrSet c v) := by
  rw [ctrSet_eq, streamsOf_ctrPut]
  exact only_each _ (fun w hw t => only_wsRelease (h w hw) t) _

theorem only_ctrSet_streams {s : State} {c : Nat} (h : s.streamsBound c) (v : Nat) :
    only [.heads, .out, .link, .pwr, .tier] (ctrRegs c ++ useRegs) s (s.ctrSet c v) :=
  only_trans (only_mono (only_ctrPut_regs s c v) (by simp) fun o ho => List.mem_append_left _ ho)
    (only_mono (only_ctrSet_released h v) (by simp) fun o ho => List.mem_append_right _ ho)

theorem ctrVal_ctrSet {s : State} {c : Nat} (h : s.streamsBound c) (v : Nat) : (s.ctrSet c v).ctrVal c = v % 2 ^ 64 := by
  rw [ctrVal_of_only (only_ctrSet_released h v) (counterBlock_notMem useRegs_low c) (counterReg_notMem useRegs_low c 4), ctrVal_ctrPut]

theorem tier_ctrSet {s : State} {c : Nat} (h : s.streamsOf c = []) (v : Nat) : (s.ctrSet c v).tier = s.tier := by
  rw [ctrSet_eq, streamsOf_ctrPut, h, State.each_nil]
  exact (only_ctrPut_regs s c v).1 .tier (by simp)

/-- A step boundary that an add may mark (R518). -/
theorem only_stepCheck (s : State) (c : Nat) : only [] stepRegs s (s.stepCheck c) :=
  only_when _ _ fun _ => only_stepMark _ _ fun _ ho =>
    List.mem_flatMap.2 ⟨_, List.mem_range.2 (Nat.mod_lt _ (by decide)), ho⟩

theorem stepRegs_low : ∀ o ∈ stepRegs, o < 0x01000000 := by
  intro o ho
  simp only [stepRegs, healthReg, List.mem_flatMap, List.mem_range, List.mem_cons, List.not_mem_nil, or_false] at ho
  omega

theorem only_ctrAdd_marked (s : State) (c n : Nat) : only [] stepRegs (s.ctrSet c (s.ctrVal c + n)) (s.ctrAdd c n) :=
  only_when _ _ fun _ => only_stepCheck _ c

/-- What an add to a counter leaves alone (R142, R145, R358, R518). -/
theorem only_ctrAdd_streams {s : State} {c : Nat} (h : s.streamsBound c) (n : Nat) :
    only [.heads, .out, .link, .pwr, .tier] (addRegs c ++ useRegs) s (s.ctrAdd c n) := by
  refine only_trans (only_mono (only_ctrSet_streams h _) (fun _ hp => hp) ?_) (only_mono (only_ctrAdd_marked s c n) (by simp) ?_) <;> intro o ho
  · rw [List.mem_append] at ho ⊢
    exact ho.imp_left (List.mem_append_left _)
  · exact List.mem_append_left _ (List.mem_append_right _ ho)

theorem ctrVal_ctrAdd {s : State} {c : Nat} (h : s.streamsBound c) (n : Nat) : (s.ctrAdd c n).ctrVal c = (s.ctrVal c + n) % 2 ^ 64 := by
  rw [ctrVal_of_only (only_ctrAdd_marked s c n) (counterBlock_notMem stepRegs_low c) (counterReg_notMem stepRegs_low c 4), ctrVal_ctrSet h]

theorem tier_ctrAdd {s : State} {c : Nat} (h : s.streamsOf c = []) (n : Nat) : (s.ctrAdd c n).tier = s.tier :=
  ((only_ctrAdd_marked s c n).1 .tier (by simp)).trans (tier_ctrSet h _)

theorem halfPut_lt (h : Half) {old : Nat} (ho : old < 2 ^ 64) (v : Word64) : halfPut h old v < 2 ^ 64 := by
  have hv := v.isLt
  cases h <;> simp only [halfPut] <;> omega

theorem exec_cValueWrite {s : State} {port c : Nat} (half : Half) (v : Word64) (h : s.accepts port (counterBlock c) = true) :
    exec (.cValueWrite port c half v) s = .next (s.ctrSet c (halfPut half (s.ctrVal c) v)) :=
  congrArg Host.Outcome.next (reg_accepts h _ _)

theorem exec_cAddWrite {s : State} {port c : Nat} (half : Half) (v : Word64) (h : s.accepts port (counterBlock c + 8) = true) :
    exec (.cAddWrite port c half v) s = .next (s.ctrAdd c (halfAmount half v)) :=
  congrArg Host.Outcome.next (reg_accepts h _ _)

/-- What holds after a write of a counter, or of a half of it. -/
theorem cValue_spec {s : State} {c : Nat} (h : s.streamsBound c) (half : Half) (v : Word64) :
    only [.heads, .out, .link, .pwr, .tier] (ctrRegs c ++ useRegs) s (s.ctrSet c (halfPut half (s.ctrVal c) v))
      ∧ (s.ctrSet c (halfPut half (s.ctrVal c) v)).ctrVal c = halfPut half (s.ctrVal c) v :=
  ⟨only_ctrSet_streams h _, (ctrVal_ctrSet h _).trans (Nat.mod_eq_of_lt (halfPut_lt half (rd64_lt s _) v))⟩

/-- Settles O9: a read index by `readIndex_spec`, a counter by what a new value sets off. -/
theorem readIndicesAndCountersAreWrittenInBounds : Obligations.ReadIndicesAndCountersAreWrittenInBounds := by
  refine ⟨⟨fun s port q v h => ?_, fun s port d v h => ?_, fun s port v h => ?_, fun s port v h => ?_⟩,
    fun s port c v h _ hb => ⟨?_, ?_, ?_⟩, fun s port c half v h _ hb => ?_⟩
  · exact ⟨_, congrArg Host.Outcome.next (reg_accepts h _ _), readIndex_spec _ _ _ _⟩
  · exact ⟨_, congrArg Host.Outcome.next (reg_accepts h _ _), readIndex_spec _ _ _ _⟩
  · exact ⟨_, congrArg Host.Outcome.next (reg_accepts h _ _), readIndex_spec _ _ _ _⟩
  · exact ⟨_, congrArg Host.Outcome.next (reg_accepts h _ _), readIndex_spec _ _ _ _⟩
  · exact ⟨_, exec_cValueWrite .lo v h, cValue_spec hb .lo v⟩
  · exact ⟨_, exec_cValueWrite .hi v h, cValue_spec hb .hi v⟩
  · obtain ⟨hkeep, hval⟩ := cValue_spec hb .both v
    exact ⟨_, exec_cValueWrite .both v h, hkeep, hval, fun hn => tier_ctrSet hn _⟩
  · refine ⟨_, exec_cAddWrite half v h, only_ctrAdd_streams hb _, fun hn => tier_ctrAdd hn _, (ctrVal_ctrAdd hb _).trans ?_⟩
    cases half <;> rfl

end Sys2Proof.Machine
end

section
/-! PROOFS. Bindings (R141, R143) and notifications (R146, R147). -/

namespace Sys2Proof.Machine

theorem exec_cBindWrite {s : State} {port c : Nat} (v : Word) (h : s.accepts port (counterBlock c + 0x10) = true) :
    exec (.cBindWrite port c v) s = .next (s.cBind port c v) :=
  congrArg Host.Outcome.next (regS_accepts h _ _ _)

theorem exec_cFailClrWrite {s : State} {port c : Nat} (v : Word) (h : s.accepts port (counterBlock c + 0x18) = true) :
    exec (.cFailClrWrite port c v) s = .next (s.wr (counterBlock c + 0x14) 0) :=
  congrArg Host.Outcome.next (reg_accepts h _ _)

theorem exec_cNotifyCfgWrite {s : State} {port c : Nat} (v : Word) (h : s.accepts port (counterBlock c + 0x1C) = true) :
    exec (.cNotifyCfgWrite port c v) s = .next ((s.plainWrite port (counterBlock c + 0x1C) v).notify c) :=
  congrArg Host.Outcome.next (regS_accepts h _ _ _)

theorem exec_cNotifyValueWrite {s : State} {port c : Nat} (half : Half) (v : Word64) (h : s.accepts port (counterBlock c + 0x20) = true) :
    exec (.cNotifyValueWrite port c half v) s =
      .next ((s.wr64 (counterBlock c + 0x20) (halfPut half (s.rd64 (counterBlock c + 0x20)) v)).notify c) :=
  congrArg Host.Outcome.next (reg_accepts h _ _)

theorem cBind_stored {s : State} {port c : Nat} {v : Word}
    (h : v.getLsbD 31 = false ∨ (s.boundElsewhere c (v &&& 0x80FFFFFF) = false ∧ s.defined (nbits v.toNat 0 10) = true
      ∧ s.sliceDie (s.ctxSlice (nbits v.toNat 0 10)) (c / 16384) = true)) :
    s.cBind port c v = s.plainWrite port (counterBlock c + 0x10) v := by
  refine if_neg ?_
  rcases h with h | ⟨h1, h2, h3⟩
  · rw [h, Bool.false_and]
    decide
  · rw [h1, h2, h3]
    simp

theorem cBind_refused {s : State} {port c : Nat} {v : Word} (hv : v.getLsbD 31 = true)
    (h : s.boundElsewhere c (v &&& 0x80FFFFFF) = true ∨ s.defined (nbits v.toNat 0 10) = false
      ∨ s.sliceDie (s.ctxSlice (nbits v.toNat 0 10)) (c / 16384) = false) :
    s.cBind port c v = s.pviol port := by
  refine if_pos ?_
  rw [hv]
  rcases h with h | h | h <;> rw [h] <;> simp

-- the notification check

/-- The notification of counter c is armed and its condition holds. -/
def State.notifyDue (s : State) (c : Nat) : Prop := s.bit (counterBlock c + 0x1C) 0 = true ∧ s.rd64 (counterBlock c + 0x20) ≤ s.ctrVal c

/-- `ARM` clears and `FIRED` is set. -/
def State.firedOnce (s : State) (c : Nat) : State := s.wr (counterBlock c + 0x1C) ((s.rd (counterBlock c + 0x1C) &&& ~~~1) ||| 2)

theorem notify_of_due {s : State} {c : Nat} (h : s.notifyDue c) : s.notify c =
    ((s.firedOnce c).msix (s.fld (counterBlock c + 0x1C) 8 6) (s.fld (counterBlock c + 0x1C) 16 11)).when ((s.firedOnce c).pwr.state == 2)
      (fun t => { t with pwr := { t.pwr with wake := true } }) := by
  refine if_pos ?_
  rw [Bool.and_eq_true, decide_eq_true_eq]
  exact h

theorem notify_of_not_due {s : State} {c : Nat} (h : ¬ s.notifyDue c) : s.notify c = s := by
  refine if_neg fun k => h ?_
  rwa [Bool.and_eq_true, decide_eq_true_eq] at k

/-- A message to a vector of a host port goes the way of R147. -/
theorem told_msix (s : State) (port vector : Nat) : s.told (s.msix port vector) port vector := by
  unfold State.msix
  refine ⟨fun hdown => ?_, fun hup hfree => ?_, fun hup hmask => ?_⟩
  · rw [if_pos (by simp [hdown])]
    exact ⟨rfl, rfl⟩
  · rw [if_neg (by simp [hup]), if_neg (by simpa using hfree)]
    exact ⟨rfl, rfl⟩
  · rw [if_neg (by simp [hup]), if_pos (by simpa using hmask)]
    exact ⟨rfl, List.mem_cons_self, rfl⟩

theorem told_congr {s r t u : State} {port vector : Nat} (h : s.told t port vector) (hup : r.hostUp port = s.hostUp port) (hout : r.out = s.out)
    (hlink : r.link = s.link) (tout : u.out = t.out) (tlink : u.link = t.link) : r.told u port vector := by
  unfold State.told at h ⊢
  rwa [hup, hout, hlink, tout, tlink]

theorem hostUp_of_counterReg {s t : State} {c k : Nat} {ps : List Part} (h : only ps [counterBlock c + k] s t) (hk : k < 0x40) (port : Nat) :
    t.hostUp port = s.hostUp port := by
  refine hostUp_of_rd (h.2 _ fun hm => ?_)
  rw [List.mem_singleton] at hm
  unfold hostBlock counterBlock dieBase at hm
  omega

/-- A field above `FIRED` is not touched by firing. -/
theorem nbits_fired (r : Word) {lo w : Nat} (h1 : (~~~(1 : Word)).extractLsb' lo w = BitVec.allOnes w) (h2 : (2 : Word).extractLsb' lo w = 0#w) :
    nbits ((r &&& ~~~1) ||| 2).toNat lo w = nbits r.toNat lo w := by
  rw [nbits_ext, nbits_ext, BitVec.extractLsb'_or, BitVec.extractLsb'_and, h1, h2, BitVec.and_allOnes, BitVec.or_zero]

/-- A due notification fires: the bits, and the message (R147). -/
theorem notify_fires {s : State} {c : Nat} (h : s.notifyDue c) :
    (s.notify c).rd (counterBlock c + 0x1C) = (s.rd (counterBlock c + 0x1C) &&& ~~~1) ||| 2
      ∧ s.told (s.notify c) (s.fld (counterBlock c + 0x1C) 8 6) (s.fld (counterBlock c + 0x1C) 16 11) := by
  have hfire : only [] [counterBlock c + 0x1C] s (s.firedOnce c) := only_wr _ _ _ (by simp)
  have hsend := only_msix (ps := [.out, .link]) [] (s.firedOnce c) (s.fld (counterBlock c + 0x1C) 8 6) (s.fld (counterBlock c + 0x1C) 16 11)
    (by simp) (by simp)
  have htold := told_msix (s.firedOnce c) (s.fld (counterBlock c + 0x1C) 8 6) (s.fld (counterBlock c + 0x1C) 16 11)
  rw [notify_of_due h]
  generalize (s.firedOnce c).msix _ _ = u at hsend htold ⊢
  have hwake : only [.pwr] [] u (u.when ((s.firedOnce c).pwr.state == 2) fun t => { t with pwr := { t.pwr with wake := true } }) :=
    only_when _ _ fun _ => only_put_pwr _ _ _ (by simp)
  refine ⟨?_, told_congr htold (hostUp_of_counterReg hfire (by decide) _).symm (hfire.1 .out (by simp)).symm (hfire.1 .link (by simp)).symm
    (hwake.1 .out (by simp)) (hwake.1 .link (by simp))⟩
  rw [hwake.2 _ (by simp), hsend.2 _ (by simp), State.firedOnce, State.rd_wr_same]

/-- `ARM` and `FIRED` of a due notification, and its fields. -/
theorem notify_fires_fields {s : State} {c : Nat} (h : s.notifyDue c) :
    (s.notify c).bit (counterBlock c + 0x1C) 0 = false ∧ (s.notify c).bit (counterBlock c + 0x1C) 1 = true
      ∧ (s.notify c).fld (counterBlock c + 0x1C) 8 6 = s.fld (counterBlock c + 0x1C) 8 6
      ∧ (s.notify c).fld (counterBlock c + 0x1C) 16 11 = s.fld (counterBlock c + 0x1C) 16 11 := by
  obtain ⟨hrd, -⟩ := notify_fires h
  refine ⟨?_, ?_, ?_, ?_⟩
  · simp [State.bit, hrd]
  · simp [State.bit, hrd]
  · rw [State.fld, hrd]
    exact nbits_fired _ (by decide) (by decide)
  · rw [State.fld, hrd]
    exact nbits_fired _ (by decide) (by decide)

/-- The fields of the notification, whether it fires or not. -/
theorem notify_fields (s : State) (c : Nat) :
    (s.notify c).fld (counterBlock c + 0x1C) 8 6 = s.fld (counterBlock c + 0x1C) 8 6
      ∧ (s.notify c).fld (counterBlock c + 0x1C) 16 11 = s.fld (counterBlock c + 0x1C) 16 11 := by
  by_cases h : s.notifyDue c
  · exact (notify_fires_fields h).2.2
  · rw [notify_of_not_due h]
    exact ⟨rfl, rfl⟩

-- a write of C_NOTIFY_CFG

/-- Stored bits take the value's, whatever the write clears besides (R11). -/
theorem nbits_codeWrite (c v st m : Word) {lo w : Nat} (h : lo + w < 32) (hst : st.extractLsb' lo w = BitVec.allOnes w) :
    nbits ((c &&& ~~~(st ||| m)) ||| (v &&& st)).toNat lo w = nbits v.toNat lo w := by
  rw [nbits_ext, nbits_ext, BitVec.extractLsb'_or, BitVec.extractLsb'_and, BitVec.extractLsb'_and, BitVec.extractLsb'_not_of_lt h,
    BitVec.extractLsb'_or, hst]
  simp

theorem rd_notifyCfg_plain {s : State} {port c : Nat} (ho : s.owner port = true) (hc : c < 65536) (v : Word) :
    (s.plainWrite port (counterBlock c + 0x1C) v).rd (counterBlock c + 0x1C) =
      (s.rd (counterBlock c + 0x1C) &&& ~~~((0x07FF3F01 : Word) ||| (v &&& 2))) ||| (v &&& 0x07FF3F01) := by
  have hstored : (0x07FF0001 : Word) ||| 0x3F00 = 0x07FF3F01 := by decide
  rw [rd_plain ho, regInfo_counter hc (by decide) (by decide)]
  simp only [counterInfo, hstored]

/-- The bits and fields that a write of `C_NOTIFY_CFG` stores (R146). -/
theorem notifyCfg_plain {s : State} {port c : Nat} (ho : s.owner port = true) (hc : c < 65536) (v : Word) :
    (s.plainWrite port (counterBlock c + 0x1C) v).bit (counterBlock c + 0x1C) 0 = v.getLsbD 0
      ∧ (s.plainWrite port (counterBlock c + 0x1C) v).bit (counterBlock c + 0x1C) 1 = (s.bit (counterBlock c + 0x1C) 1 && !v.getLsbD 1)
      ∧ (s.plainWrite port (counterBlock c + 0x1C) v).fld (counterBlock c + 0x1C) 8 6 = nbits v.toNat 8 6
      ∧ (s.plainWrite port (counterBlock c + 0x1C) v).fld (counterBlock c + 0x1C) 16 11 = nbits v.toNat 16 11 := by
  have hrd := rd_notifyCfg_plain ho hc v
  refine ⟨?_, ?_, ?_, ?_⟩
  · rw [State.bit, hrd]
    simp
  · rw [State.bit, State.bit, hrd]
    simp
  · rw [State.fld, hrd]
    exact nbits_codeWrite _ _ _ _ (by decide) (by decide)
  · rw [State.fld, hrd]
    exact nbits_codeWrite _ _ _ _ (by decide) (by decide)

/-- Neither value nor threshold of counter c moves with its notification register. -/
theorem notifyDue_of_only {ps : List Part} {s t : State} {c : Nat} (h : only ps [counterBlock c + 0x1C] s t) :
    t.notifyDue c ↔ t.bit (counterBlock c + 0x1C) 0 = true ∧ s.rd64 (counterBlock c + 0x20) ≤ s.ctrVal c := by
  rw [State.notifyDue, ctrVal_of_only h (by simp) (by simp), rd64_of_rd (h.2 _ (by simp)) (h.2 _ (by simp))]

/-- What holds after a write of `C_NOTIFY_CFG`. -/
theorem cNotifyCfg_spec {s : State} {port c : Nat} (ho : s.owner port = true) (hc : c < 65536) (v : Word) {t : State}
    (ht : t = (s.plainWrite port (counterBlock c + 0x1C) v).notify c) :
    only [.out, .link, .pwr] [counterBlock c + 0x1C] s t
      ∧ t.fld (counterBlock c + 0x1C) 8 6 = nbits v.toNat 8 6 ∧ t.fld (counterBlock c + 0x1C) 16 11 = nbits v.toNat 16 11
      ∧ (v.getLsbD 0 = true → s.rd64 (counterBlock c + 0x20) ≤ s.ctrVal c →
          t.bit (counterBlock c + 0x1C) 0 = false ∧ t.bit (counterBlock c + 0x1C) 1 = true
            ∧ s.told t (nbits v.toNat 8 6) (nbits v.toNat 16 11))
      ∧ (v.getLsbD 0 = false ∨ s.ctrVal c < s.rd64 (counterBlock c + 0x20) →
          t.bit (counterBlock c + 0x1C) 0 = v.getLsbD 0 ∧ t.out = s.out ∧ t.link = s.link
            ∧ t.bit (counterBlock c + 0x1C) 1 = (s.bit (counterBlock c + 0x1C) 1 && !v.getLsbD 1)) := by
  have hplain : only [] [counterBlock c + 0x1C] s (s.plainWrite port (counterBlock c + 0x1C) v) := only_plain _ ho v (by simp)
  obtain ⟨harm, hfired, hport, hvector⟩ := notifyCfg_plain ho hc v
  have hdue := notifyDue_of_only hplain
  generalize s.plainWrite port (counterBlock c + 0x1C) v = u at hplain harm hfired hport hvector hdue ht
  rw [harm] at hdue
  obtain ⟨hport', hvector'⟩ := notify_fields u c
  subst ht
  refine ⟨only_trans (only_mono hplain (by simp) fun _ h => h) (only_notify_regs u c), hport'.trans hport, hvector'.trans hvector,
    fun hv hle => ?_, fun hno => ?_⟩
  · have hd := hdue.2 ⟨hv, hle⟩
    obtain ⟨hbit0, hbit1, -⟩ := notify_fires_fields hd
    obtain ⟨-, htold⟩ := notify_fires hd
    rw [hport, hvector] at htold
    exact ⟨hbit0, hbit1, told_congr htold (hostUp_of_counterReg hplain (by decide) _).symm (hplain.1 .out (by simp)).symm
      (hplain.1 .link (by simp)).symm rfl rfl⟩
  · have hnot : ¬ u.notifyDue c := fun hd => by
      obtain ⟨hv, hle⟩ := hdue.1 hd
      rcases hno with h | h
      · exact absurd (h.symm.trans hv) (by decide)
      · omega
    rw [notify_of_not_due hnot]
    exact ⟨harm, hplain.1 .out (by simp), hplain.1 .link (by simp), hfired⟩

-- a write of C_NOTIFY_VALUE

/-- What holds once the threshold has a new value. -/
theorem notifyValue_spec {s t : State} {c n : Nat} (hn : n < 2 ^ 64) (ht : t = (s.wr64 (counterBlock c + 0x20) n).notify c) :
    only [.out, .link, .pwr] [counterBlock c + 0x1C, counterBlock c + 0x20, counterBlock c + 0x24] s t
      ∧ t.rd64 (counterBlock c + 0x20) = n
      ∧ (s.bit (counterBlock c + 0x1C) 0 = true → n ≤ s.ctrVal c →
          t.bit (counterBlock c + 0x1C) 0 = false ∧ t.bit (counterBlock c + 0x1C) 1 = true
            ∧ s.told t (s.fld (counterBlock c + 0x1C) 8 6) (s.fld (counterBlock c + 0x1C) 16 11))
      ∧ (s.bit (counterBlock c + 0x1C) 0 = false ∨ s.ctrVal c < n →
          t.out = s.out ∧ t.link = s.link ∧ t.rd (counterBlock c + 0x1C) = s.rd (counterBlock c + 0x1C)) := by
  have hput : only [] [counterBlock c + 0x20, counterBlock c + 0x24] s (s.wr64 (counterBlock c + 0x20) n) := only_wr64 _ _ _ (by simp) (by simp)
  have hvalue : (s.wr64 (counterBlock c + 0x20) n).rd64 (counterBlock c + 0x20) = n := rd64_wr64 hn
  generalize s.wr64 (counterBlock c + 0x20) n = u at hput hvalue ht
  have hcfg : u.rd (counterBlock c + 0x1C) = s.rd (counterBlock c + 0x1C) := hput.2 _ (by simp)
  have hup : ∀ port, u.hostUp port = s.hostUp port := fun port => hostUp_of_rd (hput.2 _ (by
    simp only [List.mem_cons, List.not_mem_nil, or_false, hostBlock, counterBlock, dieBase]
    omega))
  have hnotify := only_notify_regs u c
  have hdue : u.notifyDue c ↔ s.bit (counterBlock c + 0x1C) 0 = true ∧ n ≤ s.ctrVal c := by
    rw [State.notifyDue, bit_of_rd hcfg, hvalue, ctrVal_of_only hput (by simp) (by simp)]
  subst ht
  refine ⟨only_trans (only_mono hput (by simp) (by simp)) (only_mono hnotify (fun _ h => h) (by simp)), ?_, fun h0 hle => ?_, fun hno => ?_⟩
  · rw [rd64_of_rd (hnotify.2 _ (by simp)) (hnotify.2 _ (by simp)), hvalue]
  · have hd := hdue.2 ⟨h0, hle⟩
    obtain ⟨hbit0, hbit1, -⟩ := notify_fires_fields hd
    obtain ⟨-, htold⟩ := notify_fires hd
    rw [fld_of_rd hcfg, fld_of_rd hcfg] at htold
    exact ⟨hbit0, hbit1, told_congr htold (hup _).symm (hput.1 .out (by simp)).symm (hput.1 .link (by simp)).symm rfl rfl⟩
  · have hnot : ¬ u.notifyDue c := fun hd => by
      obtain ⟨hv, hle⟩ := hdue.1 hd
      rcases hno with h | h
      · exact absurd (h.symm.trans hv) (by decide)
      · omega
    rw [notify_of_not_due hnot]
    exact ⟨hput.1 .out (by simp), hput.1 .link (by simp), hcfg⟩

/-- Settles O10, by the checks of a binding and by what a due notification does. -/
theorem bindingsAreCheckedAndNotificationsFireOnce : Obligations.BindingsAreCheckedAndNotificationsFireOnce := by
  refine ⟨⟨fun s port c v h => ⟨fun hok hc => ⟨_, exec_cBindWrite v h, ?_⟩, fun hv hbad => ⟨_, exec_cBindWrite v h, ?_⟩⟩, fun s port c v h => ?_⟩,
    fun s port c v h hc => ?_, fun s port c half v h _ => ⟨_, exec_cNotifyValueWrite half v h, ?_⟩⟩
  · have ho := accepts_owner h
    have hplain : only [] [counterBlock c + 0x10] s (s.plainWrite port (counterBlock c + 0x10) v) := only_plain _ ho v (by simp)
    rw [cBind_stored hok]
    refine ⟨hplain, hplain.1 .force (by simp), ?_⟩
    rw [rd_plain_rws ho (regInfo_counter hc (by decide) (by decide))]
    exact masked_write_and _ _ _
  · rw [cBind_refused hv hbad]
    exact ⟨only_pviol _ _ (by simp), rd_sat_toNat _ _ _⟩
  · exact ⟨_, exec_cFailClrWrite v h, only_wr _ _ _ (by simp), State.rd_wr_same _ _ _⟩
  · exact ⟨_, exec_cNotifyCfgWrite v h, cNotifyCfg_spec (accepts_owner h) hc v rfl⟩
  · obtain ⟨hkeep, hvalue, hfire, hquiet⟩ := notifyValue_spec (s := s) (c := c) (halfPut_lt half (rd64_lt s (counterBlock c + 0x20)) v) rfl
    generalize (s.wr64 _ _).notify c = t at hkeep hvalue hfire hquiet ⊢
    rw [← hvalue] at hfire hquiet
    refine ⟨hkeep, hvalue.trans ?_, hfire, hquiet⟩
    cases half <;> rfl

end Sys2Proof.Machine
end

section
/-! PROOFS. A write of pool memory that is stored whole (R35, R220, R355, R356, R385, R418, R541). -/

namespace Sys2Proof.Machine

-- bytes of memory

theorem sget_putBytes (m : List Host.Cell) (a : Nat) (d : List Byte) (x : Nat) : sget (fun _ => 0) (putBytes m a d) x =
    if a ≤ x ∧ x < a + d.length then d.getD (x - a) 0 else sget (fun _ => 0) m x := by
  induction d generalizing m a with
  | nil => rw [if_neg (by simp)]; rfl
  | cons b d ih =>
    rw [putBytes, ih, List.length_cons]
    by_cases hx : x = a
    · subst hx
      rw [if_neg (by omega), if_pos (by omega), sget_sset_same, Nat.sub_self, List.getD_cons_zero]
    · rw [sget_sset_ne _ _ _ _ hx]
      by_cases hin : a + 1 ≤ x ∧ x < a + 1 + d.length
      · rw [if_pos hin, if_pos (by omega), show x - a = (x - (a + 1)) + 1 by omega, List.getD_cons_succ]
      · rw [if_neg hin, if_neg (by omega)]

-- who holds data newer than memory (R415, R423)

/-- A cache, data on its way to a service core, and data on its way back, that are newer than memory. -/
def CacheLine.holdsNewer (l : Nat) (c : CacheLine) : Bool := c.line == l && (c.st == .m || c.st == .o)
def Flight.holdsNewer (l : Nat) (f : Flight) : Bool := f.line == l && f.state == 3 && f.data.isSome
def backNewer (l : Nat) (e : Nat × Nat × Option (List Byte)) : Bool := e.2.1 == l && e.2.2.isSome

theorem newer_eq_none_iff (s : State) (l : Nat) : s.newer l = none ↔
    s.coh.caches.find? (CacheLine.holdsNewer l) = none ∧ s.coh.flight.find? (Flight.holdsNewer l) = none
      ∧ s.coh.evicting.find? (backNewer l) = none := by
  show (match s.coh.caches.find? (CacheLine.holdsNewer l) with
    | some c => some c.data
    | none => match s.coh.flight.find? (Flight.holdsNewer l) with
      | some f => f.data
      | none => (s.coh.evicting.find? (backNewer l)).elim none (·.2.2)) = none ↔ _
  cases hc : s.coh.caches.find? (CacheLine.holdsNewer l) with
  | some c => simp
  | none =>
    cases hf : s.coh.flight.find? (Flight.holdsNewer l) with
    | some f =>
      have hdata := List.find?_some hf
      simp only [Flight.holdsNewer, Bool.and_eq_true, Option.isSome_iff_ne_none] at hdata
      simp [hdata.2]
    | none =>
      cases he : s.coh.evicting.find? (backNewer l) with
      | some e =>
        have hdata := List.find?_some he
        simp only [backNewer, Bool.and_eq_true, Option.isSome_iff_ne_none] at hdata
        simp [hdata.2]
      | none => simp

/-- No data newer than memory come up where caches and data on their way only go. -/
theorem settled_of_fewer {s t : State} (h : s.settled) (hc : ∀ c ∈ t.coh.caches, c ∈ s.coh.caches)
    (hf : ∀ f ∈ t.coh.flight, ∃ g ∈ s.coh.flight, ∀ l, f.holdsNewer l = g.holdsNewer l)
    (he : ∀ e ∈ t.coh.evicting, ∀ l, backNewer l e = true → e ∈ s.coh.evicting) : t.settled := by
  intro l
  obtain ⟨hcache, hflight, hback⟩ := (newer_eq_none_iff s l).1 (h l)
  rw [List.find?_eq_none] at hcache hflight hback
  refine (newer_eq_none_iff t l).2 ⟨List.find?_eq_none.2 fun c hm => hcache c (hc c hm), List.find?_eq_none.2 fun f hm => ?_,
    List.find?_eq_none.2 fun e hm hn => hback e (he e hm l hn) hn⟩
  obtain ⟨g, hg, hfg⟩ := hf f hm
  rw [hfg]
  exact hflight g hg

theorem byte_of_settled {s : State} (h : s.settled) (x : Nat) : s.byte x = sget (fun _ => 0) s.mem x := by
  rw [State.byte, h]

theorem settled_of_coh {s t : State} (h : t.coh = s.coh) (hs : s.settled) : t.settled := fun l => by
  have hl := hs l
  rw [newer_eq_none_iff] at hl ⊢
  rwa [h]

theorem byte_of_same {s t : State} (hc : t.coh = s.coh) (hm : t.mem = s.mem) (x : Nat) : t.byte x = s.byte x := by
  simp only [State.byte, State.newer, hc, hm]

theorem dropCopies_coh (s : State) (a : Nat) (d : List Byte) :
    (∀ c ∈ (s.dropCopies a d).coh.caches, c ∈ s.coh.caches) ∧ (s.dropCopies a d).coh.flight = s.coh.flight
      ∧ (s.dropCopies a d).coh.evicting = s.coh.evicting := by
  simp only [State.dropCopies]
  split
  · rw [show ∀ t : State, t.dirSync.coh = t.coh from fun t => (only_dirSync (ps := []) t fun _ h => h).1 .coh (by simp)]
    exact ⟨fun c hc => (List.mem_filter.1 hc).1, rfl, rfl⟩
  · exact ⟨fun _ hc => hc, rfl, rfl⟩

/-- Data on the way to a service core take the written bytes, and stay there. -/
theorem settled_write {s : State} (h : s.settled) (a : Nat) (d : List Byte) : (s.write a d).settled := by
  obtain ⟨hcache, hflight, hback⟩ := dropCopies_coh s a d
  refine settled_of_fewer h (fun c hc => hcache c hc) (fun f hf => ?_) fun e he l hn => ?_
  · obtain ⟨g, hg, rfl⟩ := List.mem_map.1 hf
    refine ⟨g, hflight ▸ hg, fun l => ?_⟩
    split
    · simp [Flight.holdsNewer]
    · rfl
  · obtain ⟨g, hg, rfl⟩ := List.mem_map.1 he
    split at hn
    · simp [backNewer] at hn
    · rename_i hout
      rw [if_neg hout]
      exact hback ▸ hg

theorem byte_write {s : State} (h : s.settled) (a : Nat) (d : List Byte) (x : Nat) :
    (s.write a d).byte x = if a ≤ x ∧ x < a + d.length then d.getD (x - a) 0 else s.byte x := by
  have hmem : (s.dropCopies a d).mem = s.mem := (only_dropCopies (ps := [.coh, .out]) s a d (by simp) (by simp) fun _ h => h).1 .mem (by simp)
  rw [byte_of_settled (settled_write h a d), byte_of_settled h, ← hmem]
  exact sget_putBytes _ _ _ _

theorem flushLine_of_settled {s : State} (h : s.settled) (k : Nat) : s.flushLine k = s := by
  rw [State.flushLine, h]

theorem each_id {α : Type} {l : List α} {f : α → State → State} {s : State} (h : ∀ a ∈ l, f a s = s) : s.each l f = s := by
  induction l with
  | nil => rfl
  | cons a l ih =>
    rw [State.each_cons, h a (by simp)]
    exact ih fun b hb => h b (by simp [hb])

theorem store_of_settled {s : State} (h : s.settled) (a : Nat) {d : List Byte} (hd : d ≠ []) : s.store a d = (s.write a d).mark a d.length := by
  have hempty : ¬ d.isEmpty = true := by simpa using hd
  rw [State.store, if_neg hempty]
  dsimp only
  rw [each_id fun k _ => flushLine_of_settled h k]

theorem byte_mark (s : State) (a n x : Nat) : (s.mark a n).byte x = s.byte x := rfl

theorem byte_store {s : State} (h : s.settled) (a : Nat) (d : List Byte) (x : Nat) :
    (s.store a d).byte x = if a ≤ x ∧ x < a + d.length then d.getD (x - a) 0 else s.byte x := by
  by_cases hd : d = []
  · subst hd
    rw [if_neg (by simp)]
    rfl
  · rw [store_of_settled h a hd, byte_mark, byte_write h]

-- the write is let in

theorem foldl_worst_ok {l : List Nat} {f : Nat → Status} (h : ∀ p ∈ l, f p = .ok) : l.foldl (fun st p => st.worst (f p)) Status.ok = .ok := by
  induction l with
  | nil => rfl
  | cons p l ih =>
    rw [List.foldl_cons, h p (by simp)]
    exact ih fun q hq => h q (by simp [hq])

/-- What a plain span says of each of its pages. -/
theorem plainSpan_page {s : State} {a n p : Nat} (h : s.plainSpan a n = true) (hp : p ∈ pagesOf a n) :
    s.mirrorOf p = none ∧ s.lostCheck p = .ok ∧ ∀ g, s.page p = some g → (s.chunkUnits g.loc g.page).all s.takesWrites = true := by
  have hpage := List.all_eq_true.1 h p hp
  rw [Bool.and_eq_true, Bool.and_eq_true, Option.isNone_iff_eq_none, beq_iff_eq] at hpage
  obtain ⟨⟨hmirror, hlost⟩, hunits⟩ := hpage
  refine ⟨hmirror, hlost, fun g hg => ?_⟩
  rw [hg] at hunits
  exact hunits

theorem lostSpan_plain {s : State} {a n : Nat} (h : s.plainSpan a n = true) : s.lostSpan a n = .ok :=
  foldl_worst_ok fun _ hp => (plainSpan_page h hp).2.1

theorem onReadOnly_of_takes {s : State} {g : Page} (h : (s.chunkUnits g.loc g.page).all s.takesWrites = true) : s.onReadOnly g = false := by
  have hunit : ∀ u ∈ s.chunkUnits g.loc g.page, (decide (0x40 ≤ u) && s.trayState (u - 0x40) == 2) = false := by
    intro u hu
    have htakes := List.all_eq_true.1 h u hu
    simp only [State.takesWrites, Bool.and_eq_true, Bool.or_eq_true, decide_eq_true_eq, bne_iff_ne] at htakes
    obtain ⟨-, hlow | hstate⟩ := htakes
    · simp [hlow]
    · simp [hstate]
  simp only [State.onReadOnly, Bool.and_eq_false_iff]
  exact .inr (List.any_eq_false.2 fun u hu => by simp [hunit u hu])

theorem redirect_of_takes {s : State} {p : Nat} (h : ∀ g, s.page p = some g → (s.chunkUnits g.loc g.page).all s.takesWrites = true) :
    s.redirect p = (s, .ok) := by
  unfold State.redirect
  split
  · rfl
  · rename_i g hg
    rw [onReadOnly_of_takes (h g hg)]
    rfl

/-- Units on flash trays are taken into the write cache (R385). -/
def State.cached (s : State) (a n : Nat) : State := s.each (s.flashUnits a n) fun k u => u.cacheTake k

theorem only_setTray (l : List Nat) (s : State) (t : Tray) : only [.flash] l s (s.setTray t) := only_put_flash _ _ _ (by simp)

theorem only_cacheTake (s : State) (k : Nat × Nat × Nat) : only [.flash] [] s (s.cacheTake k) := by
  unfold State.cacheTake State.onTray
  split
  · dsimp only
    split
    · exact only_setTray _ _ _
    · split
      · exact only_refl _ _ _
      · exact only_setTray _ _ _
  · exact only_refl _ _ _

theorem only_cached (s : State) (a n : Nat) : only [.flash] [] s (s.cached a n) := only_each _ (fun k _ t => only_cacheTake t k) s

theorem takeWrite_plain {s : State} {a n : Nat} (h : s.plainSpan a n = true) : s.takeWrite a n = (s.cached a n, .ok) := by
  have hstay : ∀ l : List Nat, (∀ p ∈ l, p ∈ pagesOf a n) →
      l.foldl (fun (q : State × Status) p => if q.2 == Status.ok then q.1.redirect p else q) (s, .ok) = (s, .ok) := by
    intro l hl
    induction l with
    | nil => rfl
    | cons p l ih =>
      rw [List.foldl_cons, if_pos (by rfl), redirect_of_takes (plainSpan_page h (hl p (by simp))).2.2]
      exact ih fun q hq => hl q (by simp [hq])
  have hlost : (pagesOf a n).foldl (fun st p => st.worst (s.lostCheck p)) Status.ok = .ok := lostSpan_plain h
  unfold State.takeWrite
  dsimp only
  rw [hlost, hstay _ fun _ hp => hp]
  rfl

-- the bytes are stored, and nothing else leaves

theorem only_expWrite (s : State) (a n : Nat) : only [.out] [] s (s.expWrite a n) := by
  refine only_each _ (fun p _ t => ?_) s
  split
  · exact only_when _ _ fun _ => only_emit _ _ _ (by simp)
  · exact only_refl _ _ _

/-- The whole of a plain write. -/
def State.savedPlain (s : State) (a : Nat) (d : List Byte) : State := ((s.cached a d.length).store a d).expWrite a d.length

theorem only_savedPlain (s : State) (a : Nat) (d : List Byte) : only storeParts dirRegs s (s.savedPlain a d) := by
  have hstore : only storeParts dirRegs (s.cached a d.length) ((s.cached a d.length).store a d) :=
    only_store _ a d (by decide) (by decide) (by decide) (by decide) (by decide) fun _ h => h
  exact only_trans (only_mono (only_cached s a d.length) (by simp [storeParts]) (by simp)) (only_trans hstore
    (only_mono (only_expWrite _ a d.length) (by simp [storeParts]) (by simp)))

theorem byte_savedPlain {s : State} (h : s.settled) (a : Nat) (d : List Byte) (x : Nat) :
    (s.savedPlain a d).byte x = if a ≤ x ∧ x < a + d.length then d.getD (x - a) 0 else s.byte x := by
  have hcached := only_cached s a d.length
  have hin : (s.cached a d.length).settled := settled_of_coh (hcached.1 .coh (by simp)) h
  have hexp := only_expWrite ((s.cached a d.length).store a d) a d.length
  rw [State.savedPlain, byte_of_same (hexp.1 .coh (by simp)) (hexp.1 .mem (by simp)), byte_store hin,
    byte_of_same (hcached.1 .coh (by simp)) (hcached.1 .mem (by simp))]

/-- The registers of the directory lie in the blocks of the dies or of the domains. -/
theorem dirRegs_place {o : Nat} (h : o ∈ dirRegs) : o < 0x500 ∨ 0x04000000 ≤ o := by
  rcases List.mem_append.1 h with hslice | hdom
  · obtain ⟨k, -, hk⟩ := List.mem_flatMap.1 hslice
    simp only [dirReg, dieReg, dieBase, List.mem_cons, List.not_mem_nil, or_false] at hk
    omega
  · simp only [domReg, List.mem_cons, List.not_mem_nil, or_false] at hdom
    omega

theorem mirrorReg_notMem_dirRegs {r o : Nat} (hr : r < 16) (ho : o < 0x10) : mirrorReg r o ∉ dirRegs := fun h => by
  have hplace := dirRegs_place h
  unfold mirrorReg at hplace
  omega

/-- Only the registers of the regions say which region holds a page. -/
theorem mirrorOf_of_rd {s t : State} (h : ∀ r < 16, ∀ o < 0x10, t.rd (mirrorReg r o) = s.rd (mirrorReg r o)) (p : Nat) :
    t.mirrorOf p = s.mirrorOf p := by
  refine List.find?_congr fun r hr => ?_
  have hregion := h r (List.mem_range.1 hr)
  simp only [State.mirrorValid, State.bit, hregion 0 (by decide), hregion 4 (by decide), hregion 8 (by decide)]

/-- A write of a page that no region mirrors goes to no partner (R541). -/
theorem mirrorWrite_none {s : State} {a n : Nat} (who : Who) (h : ∀ p ∈ pagesOf a n, s.mirrorOf p = none) : s.mirrorWrite a n who = s :=
  each_id fun p hp => by rw [h p hp]

theorem saveMem_plain {s : State} {a : Nat} {d : List Byte} (h : s.plainSpan a d.length = true) : s.saveMem a d = (s.savedPlain a d, .ok) := by
  have hmirror : ∀ p ∈ pagesOf a d.length, (s.savedPlain a d).mirrorOf p = none := fun p hp => by
    rw [mirrorOf_of_rd fun r hr o ho => (only_savedPlain s a d).2 _ (mirrorReg_notMem_dirRegs hr ho)]
    exact (plainSpan_page h hp).1
  unfold State.saveMem
  rw [takeWrite_plain h]
  exact congrArg (·, Status.ok) (mirrorWrite_none _ hmirror)

/-- A write of context x that no reduction takes and that its pages take is stored whole. -/
theorem save_plain {s : State} {x a n : Nat} {d : List Byte} (hn : d.length = n) (h : s.plainFor x a n) : s.save x a d = (s.savedPlain a d, .ok) := by
  subst hn
  obtain ⟨hspan, hsteer⟩ := h
  have hwhole : s.steerWrite x a d true = (s, [(a, d)]) := by
    unfold State.steerWrite
    rw [hsteer]
  unfold State.save
  rw [hwhole]
  exact saveMem_plain hspan

end Sys2Proof.Machine
end

section
/-! PROOFS. Generic operations (R138, R139, R144, R416). -/

namespace Sys2Proof.Machine

-- an operation runs, and its work ends

theorem coherent_of_quiet {s : State} (h : s.quiet) (r : Reader) (f : State → State) : s.coherent r f = f s := by
  obtain ⟨howned, hinvals, hcurs⟩ := h
  rw [State.coherent, howned, hinvals, hcurs]
  rfl

theorem onOp_of_runs {s : State} {id code : Nat} {o : Op} (h : s.runsOp id o code) (f : State → Op → State) :
    s.onOp id (· == code) f = (f s o).stepped o := by
  obtain ⟨hop, hphase, hcode, hhalted, hquiet⟩ := h
  simp only [State.onOp, hop, hphase, hcode, hhalted, coherent_of_quiet hquiet]
  simp

theorem only_stepped (l : List Nat) (s : State) (o : Op) : only [.sec] l s (s.stepped o) := by
  unfold State.stepped
  split
  · split
    · exact only_put_sec _ _ _ (by simp)
    · exact only_refl _ _ _
  · exact only_refl _ _ _

/-- The work of an operation of s ends in u, which has the operations of s: its status stands, and nothing else changes any more. -/
theorem done_ends {s u : State} {id : Nat} {o : Op} {ps : List Part} {l : List Nat} (ho : s.op id = some o) (h : only ps l s u) (hops : Part.ops ∉ ps)
    (st : Status) : only (ps ++ [.ops, .sec]) l s ((u.done o st).stepped o) ∧ ((u.done o st).stepped o).ended id st := by
  have hlast := only_stepped l (u.done o st) o
  refine ⟨only_trans (only_mono h (fun _ hp => List.mem_append_left _ hp) fun _ hl => hl)
    (only_trans (only_done l u o st (by simp)) (only_mono hlast (by simp) fun _ hl => hl)), ?_⟩
  have hid : o.id = id := by simpa using List.find?_some ho
  have hmem : o.id ∈ u.ops.map (·.id) := by
    rw [h.1 .ops hops]
    exact List.mem_map_of_mem (List.mem_of_find?_eq_some ho)
  have hset : (u.done o st).op o.id = some { o with phase := .executed st } := op_setOp_of_mem (o := { o with phase := .executed st }) hmem
  rw [State.ended, op_of_ops (hlast.1 .ops (by simp)), ← hid, hset]
  rfl

theorem done_ends_at_once {s : State} {id : Nat} {o : Op} (ho : s.op id = some o) (st : Status) :
    only [.ops, .sec] [] s ((s.done o st).stepped o) ∧ ((s.done o st).stepped o).ended id st :=
  done_ends ho (only_refl [] [] s) (by simp) st

theorem finish_ok (s : State) (o : Op) (a : Nat) : s.finish o .ok a = s.done o .ok := rfl

-- what each row does

theorem exec_nop {s : State} {id : Nat} {o : Op} (h : s.runsOp id o 0x00) : exec (.nop id) s = .next ((s.done o .ok).stepped o) :=
  congrArg Host.Outcome.next (onOp_of_runs h _)

theorem exec_counterOp {s : State} {id : Nat} {o : Op} (h : s.runsOp id o 0x03) : exec (.counterOp id) s = .next ((s.counterRun o).stepped o) :=
  congrArg Host.Outcome.next (onOp_of_runs h _)

theorem exec_fill {s : State} {id : Nat} {o : Op} (h : s.runsOp id o 0x02) : exec (.fill id) s = .next ((s.fillRun o).stepped o) :=
  congrArg Host.Outcome.next (onOp_of_runs h _)

theorem exec_copy {s : State} {id : Nat} {o : Op} (h : s.runsOp id o 0x01) (ue : List Nat) :
    exec (.copy id ue) s = .next ((s.copyRun o ue).stepped o) :=
  congrArg Host.Outcome.next (onOp_of_runs h _)

-- COUNTER_OP

theorem counterRun_adds {s : State} {o : Op} {c : Nat} (hc : s.ctr o.ctx (ctrTarget o.desc) = some c) (h : ctrOp o.desc = 0) :
    s.counterRun o = (s.ctrAdd c (ctrOperand o.desc)).done o .ok := by
  simp [State.counterRun, State.counterCheck, hc, h]

theorem counterRun_sets {s : State} {o : Op} {c : Nat} (hc : s.ctr o.ctx (ctrTarget o.desc) = some c) (h : ctrOp o.desc = 1) :
    s.counterRun o = (s.ctrSet c (ctrOperand o.desc)).done o .ok := by
  simp [State.counterRun, State.counterCheck, hc, h]

theorem counterRun_refused {s : State} {o : Op} (h : s.ctr o.ctx (ctrTarget o.desc) = none ∨ 1 < ctrOp o.desc) :
    s.counterRun o = s.done o .permission := by
  cases hc : s.ctr o.ctx (ctrTarget o.desc) with
  | none => simp [State.counterRun, State.counterCheck, hc]
  | some c =>
    have hop : 1 < ctrOp o.desc := h.resolve_left (by simp [hc])
    simp [State.counterRun, State.counterCheck, hc, hop]

theorem ctrOperand_lt (d : BitVec 512) : ctrOperand d < 2 ^ 64 := (d.extractLsb' (8 * 24) (8 * 8)).isLt

theorem ctrVal_done (s : State) (o o' : Op) (st : Status) (c : Nat) : ((s.done o st).stepped o').ctrVal c = s.ctrVal c :=
  ctrVal_of_only (only_trans (only_done (ps := [.ops, .sec]) [] s o st (by simp)) (only_mono (only_stepped [] _ o') (by simp) fun _ h => h))
    (by simp) (by simp)

theorem tier_done (s : State) (o o' : Op) (st : Status) : ((s.done o st).stepped o').tier = s.tier :=
  ((only_stepped [] (s.done o st) o').1 .tier (by simp)).trans ((only_done (ps := [.ops]) [] s o st (by simp)).1 .tier (by simp))

/-- The target is changed as the code says, and the operation ends. -/
theorem counterOp_ends {s u : State} {id c : Nat} {o : Op} (ho : s.op id = some o)
    (h : only [.heads, .out, .link, .pwr, .tier] (addRegs c ++ useRegs) s u) (htier : s.streamsOf c = [] → u.tier = s.tier) :
    only [.ops, .sec, .heads, .out, .link, .pwr, .tier] (addRegs c ++ useRegs) s ((u.done o .ok).stepped o)
      ∧ ((u.done o .ok).stepped o).ended id .ok
      ∧ (s.streamsOf c = [] → ((u.done o .ok).stepped o).tier = s.tier) := by
  obtain ⟨honly, hend⟩ := done_ends ho h (by simp) .ok
  exact ⟨only_mono honly (by simp) fun _ hl => hl, hend, fun hno => (tier_done u o o .ok).trans (htier hno)⟩

-- FILL

theorem fillRun_refused {s : State} {o : Op} (h : s.fillCheck o.ctx o.desc ≠ .ok) : s.fillRun o = s.done o (s.fillCheck o.ctx o.desc) :=
  if_pos (by simpa using h)

theorem length_patternBytes (v n : Nat) : (patternBytes v n).length = n := by simp [patternBytes]

theorem getD_patternBytes {n k : Nat} (h : k < n) (v : Nat) : (patternBytes v n).getD k 0 = BitVec.ofNat 8 (nbits v (8 * (k % 8)) 8) := by
  simp [patternBytes, List.getD_eq_getElem?_getD, h]

theorem fillRun_fills {s : State} {o : Op} (hc : s.fillCheck o.ctx o.desc = .ok) (hhere : s.isAway (fillDst o.desc) (fillLen o.desc) = false)
    (hp : s.plainFor o.ctx (fillDst o.desc) (fillLen o.desc)) :
    s.fillRun o = (s.savedPlain (fillDst o.desc) (patternBytes (fillPattern o.desc) (fillLen o.desc))).done o .ok := by
  have hsave := save_plain (length_patternBytes (fillPattern o.desc) _) hp
  simp only [State.fillRun, hc, hhere, hsave, finish_ok]
  rfl

-- COPY

theorem copyRun_refused {s : State} {o : Op} (ue : List Nat) (h : s.copyCheck o.ctx o.desc ≠ .ok) :
    s.copyRun o ue = s.done o (s.copyCheck o.ctx o.desc) :=
  if_pos (by simpa using h)

theorem length_bytes (s : State) (a n : Nat) : (s.bytes a n).length = n := by simp [State.bytes]

theorem getD_bytes (s : State) {n k : Nat} (h : k < n) (a : Nat) : (s.bytes a n).getD k 0 = s.byte (a + k) := by
  simp [State.bytes, List.getD_eq_getElem?_getD, h]

/-- What a read leaves in the tier's records of a page: that it was used. -/
theorem page_mark (s : State) (a n p : Nat) :
    (s.mark a n).page p = (s.page p).map fun g => if (pagesOf a n).contains g.page then { g with marked := true } else g := by
  unfold State.page State.mark
  dsimp only
  rw [List.find?_map]
  congr 2
  funext g
  dsimp only [Function.comp]
  split <;> rfl

theorem lostCheck_mark (s : State) (a n p : Nat) : (s.mark a n).lostCheck p = s.lostCheck p := by
  have hgone : (s.mark a n).tier.gone = s.tier.gone := rfl
  have hstage : (s.mark a n).stageCopy p = s.stageCopy p := rfl
  rw [State.lostCheck, State.lostCheck, State.pageNow, State.pageNow, page_mark, hgone, hstage]
  cases s.tier.gone.find? (fun g => g.page == p) with
  | some g => rfl
  | none =>
    cases s.page p with
    | none => rfl
    | some g =>
      simp only [Option.orElse, Option.map_some]
      split <;> rfl

theorem rd_mark (s : State) (a n o : Nat) : (s.mark a n).rd o = s.rd o := rfl

theorem takesWrites_mark (s : State) (a n : Nat) : (s.mark a n).takesWrites = s.takesWrites := by
  funext u
  simp only [State.takesWrites, State.trayState, State.fld, rd_mark]

theorem chunkUnits_mark (s : State) (a n : Nat) (k : Loc) (p : Nat) : (s.mark a n).chunkUnits k p = s.chunkUnits k p := rfl

/-- A page that was used lies where it lay. -/
theorem place_marked (g : Page) (c : Prop) [Decidable c] :
    (if c then { g with marked := true } else g).loc = g.loc ∧ (if c then { g with marked := true } else g).page = g.page := by
  split <;> exact ⟨rfl, rfl⟩

theorem unitsTake_mark (s : State) (a n p : Nat) :
    ((s.mark a n).page p).all (fun g => ((s.mark a n).chunkUnits g.loc g.page).all (s.mark a n).takesWrites)
      = (s.page p).all fun g => (s.chunkUnits g.loc g.page).all s.takesWrites := by
  simp only [page_mark, Option.all_map, chunkUnits_mark, takesWrites_mark, place_marked]

theorem plainSpan_mark (s : State) (b m a n : Nat) : (s.mark b m).plainSpan a n = s.plainSpan a n := by
  have hmirror : ∀ p, (s.mark b m).mirrorOf p = s.mirrorOf p := mirrorOf_of_rd fun _ _ _ _ => rd_mark s b m _
  simp only [State.plainSpan, lostCheck_mark, unitsTake_mark, hmirror]

theorem plainFor_mark {s : State} {x a n : Nat} (h : s.plainFor x a n) (b m : Nat) : (s.mark b m).plainFor x a n :=
  ⟨(plainSpan_mark s b m a n).trans h.1, h.2⟩

theorem copyRun_copies {s : State} {o : Op} {ue : List Nat} (hc : s.copyCheck o.ctx o.desc = .ok)
    (hsrc : s.isAway (copySrc o.desc) (copyLen o.desc) = false) (hdst : s.isAway (copyDst o.desc) (copyLen o.desc) = false)
    (hread : s.readCheck ue (copySrc o.desc) (copyLen o.desc) = .ok) (hp : s.plainFor o.ctx (copyDst o.desc) (copyLen o.desc)) :
    s.copyRun o ue = ((s.mark (copySrc o.desc) (copyLen o.desc)).savedPlain (copyDst o.desc) (s.bytes (copySrc o.desc) (copyLen o.desc))).done o .ok := by
  have hlost := lostSpan_plain hp.1
  have hsave := save_plain (length_bytes s (copySrc o.desc) _) (plainFor_mark hp (copySrc o.desc) (copyLen o.desc))
  simp only [State.copyRun, hc, hsrc, hdst, hread, hlost, hsave, finish_ok]
  rfl

-- the obligation

/-- The bytes are stored, and the operation ends. -/
theorem write_ends {s u : State} {id : Nat} {o : Op} (ho : s.op id = some o) (hu : only [.tier] [] s u) (hset : s.settled) (a : Nat) (d : List Byte) :
    only (storeParts ++ [.ops, .sec]) dirRegs s (((u.savedPlain a d).done o .ok).stepped o)
      ∧ (((u.savedPlain a d).done o .ok).stepped o).ended id .ok
      ∧ ∀ x, (((u.savedPlain a d).done o .ok).stepped o).byte x = if a ≤ x ∧ x < a + d.length then d.getD (x - a) 0 else s.byte x := by
  have hcoh : u.coh = s.coh := hu.1 .coh (by simp)
  have hsaved := only_trans (only_mono hu (by simp [storeParts]) (by simp)) (only_savedPlain u a d)
  obtain ⟨honly, hend⟩ := done_ends ho hsaved (by simp [storeParts]) .ok
  refine ⟨honly, hend, fun x => ?_⟩
  have hlast : only [.ops, .sec] [] (u.savedPlain a d) (((u.savedPlain a d).done o .ok).stepped o) :=
    only_trans (only_done _ _ _ _ (by simp)) (only_mono (only_stepped [] _ o) (by simp) (by simp))
  rw [byte_of_same (hlast.1 .coh (by simp)) (hlast.1 .mem (by simp)), byte_savedPlain (settled_of_coh hcoh hset),
    byte_of_same hcoh (hu.1 .mem (by simp))]

/-- Settles O11: a row's own work is one of a few changes, after each of which the operation ends; what is stored whole is read back byte by
byte. -/
theorem genericOperationsHaveTheirEffect : Obligations.GenericOperationsHaveTheirEffect := by
  refine ⟨⟨fun s id o h => ⟨_, exec_nop h, done_ends_at_once h.1 _⟩, fun s id c o h hc hle hb => ⟨_, exec_counterOp h, ?_⟩,
    fun s id o h hbad => ⟨_, exec_counterOp h, ?_⟩⟩, fun s id o h hc hhere hp hset => ⟨_, exec_fill h, ?_⟩,
    fun s id o ue h hc hsrc hdst hread hp hset => ⟨_, exec_copy h ue, ?_⟩, fun s id o h hc => ⟨_, exec_fill h, ?_⟩,
    fun s id o ue h hc => ⟨_, exec_copy h ue, ?_⟩⟩
  · by_cases hadd : ctrOp o.desc = 0
    · rw [counterRun_adds hc hadd, if_pos hadd]
      obtain ⟨honly, hend, htier⟩ := counterOp_ends h.1 (only_ctrAdd_streams hb _) fun hno => tier_ctrAdd hno _
      exact ⟨honly, hend, htier, (ctrVal_done _ _ _ _ _).trans (ctrVal_ctrAdd hb _)⟩
    · rw [counterRun_sets hc (by omega), if_neg hadd]
      have hset : only [.heads, .out, .link, .pwr, .tier] (addRegs c ++ useRegs) s (s.ctrSet c (ctrOperand o.desc)) :=
        only_mono (only_ctrSet_streams hb _) (fun _ hp => hp) fun x hx => by
          simp only [addRegs, List.mem_append] at hx ⊢
          tauto
      obtain ⟨honly, hend, htier⟩ := counterOp_ends h.1 hset fun hno => tier_ctrSet hno _
      exact ⟨honly, hend, htier, (ctrVal_done _ _ _ _ _).trans ((ctrVal_ctrSet hb _).trans (Nat.mod_eq_of_lt (ctrOperand_lt _)))⟩
  · rw [counterRun_refused hbad]
    exact done_ends_at_once h.1 _
  · rw [fillRun_fills hc hhere hp]
    obtain ⟨honly, hend, hbyte⟩ := write_ends h.1 (only_refl _ _ s) hset (fillDst o.desc) (patternBytes (fillPattern o.desc) (fillLen o.desc))
    refine ⟨honly, hend, fun a => (hbyte a).trans ?_⟩
    rw [length_patternBytes]
    split
    · exact getD_patternBytes (by omega) _
    · rfl
  · rw [copyRun_copies hc hsrc hdst hread hp]
    obtain ⟨honly, hend, hbyte⟩ := write_ends h.1 (only_mark [] s (copySrc o.desc) (copyLen o.desc) (by simp)) hset (copyDst o.desc)
      (s.bytes (copySrc o.desc) (copyLen o.desc))
    refine ⟨honly, hend, fun a => (hbyte a).trans ?_⟩
    rw [length_bytes]
    split
    · exact getD_bytes s (by omega) _
    · rfl
  · rw [fillRun_refused hc]
    exact done_ends_at_once h.1 _
  · rw [copyRun_refused ue hc]
    exact done_ends_at_once h.1 _

end Sys2Proof.Machine
end

section
/-! PROOFS. A completion whose counts turn its queue's event log on (R144, R150, R541). -/

namespace Sys2Proof.Machine

/-- An operation whose work has ended, and whose context waits for nothing, completes (R144). -/
theorem exec_operationComplete {s : State} {id : Nat} {o : Op} {st : Status} (hop : s.op id = some o) (hphase : o.phase = .executed st)
    (hctx : s.ctxState o.ctx ≠ 3) (hmirror : s.mirrorBusy o.ctx = false) (hawaits : s.opAwaits id = false) (hcache : s.cacheBusy o.ctx = false)
    (hinval : s.invalBusy o.ctx = false) : exec (.operationComplete id) s = .next (s.complete o st) := by
  have hid : o.id = id := by simpa using List.find?_some hop
  have hlive : ¬ (s.ctxState o.ctx == 3) = true := by simpa using hctx
  have hbusy : ¬ (s.mirrorBusy o.ctx || s.opAwaits id || s.cacheBusy o.ctx || s.invalBusy o.ctx) = true := by
    simp [hmirror, hawaits, hcache, hinval]
  show execOperationComplete id s = _
  simp only [execOperationComplete, hop, hphase, hid, if_neg hlive, if_neg hbusy]

/-- Registers of a module past its start: context 1 is LIVE at generation 1, counter 2 is its handle 7, queue 3 is its own and keeps no event log,
and mirror region 0 is valid, DEGRADED, and holds page 0. -/
def countedRegs : List (Nat × Word) :=
  [(0x10, 0x3333), (hostBlock 0, 0x2002), (ctxReg 1 0, 1), (ctxReg 1 4, 1), (counterBlock 2 + 0x10, bindWord 1 7), (queueBlock 3, 1),
    (sliceReg 0 0 0x10, 1), (sliceReg 0 0 0x18, 0x01000F01), (mirrorReg 0 8, 0x300)]

/-- A NOP of queue 3 that names handle 7 has ended with PERMISSION; one of its counts is made in `Q_CFG` of the queue, at bit 29 of LOG. -/
def countedOp : Op :=
  { id := 5, queue := 3, index := 0, ctx := 1, gen := 1, desc := BitVec.ofNat 512 7 <<< 16, dynamic := true, phase := .executed .permission,
    stats := [(queueBlock 3 + 4, 2 ^ 29)] }

/-- It waits for its completion, and its context may write page 0. -/
def countedState : State :=
  let s : State := countedRegs.foldl (fun t p => t.wrf p.1 p.2) { State.reset with pwr := { PwrS.reset with phase := .ready } }
  { s with tier := { s.tier with rights := [(0, 1)] }, ops := [countedOp] }

/-- What O12 asks for of an operation that completes. -/
theorem counted_ready :
    countedState.op 5 = some countedOp ∧ countedState.ctxState countedOp.ctx ≠ 3 ∧ countedState.mirrorBusy countedOp.ctx = false
      ∧ countedState.opAwaits 5 = false ∧ countedState.cacheBusy countedOp.ctx = false ∧ countedState.invalBusy countedOp.ctx = false
      ∧ countedState.ctr countedOp.ctx (dDone countedOp.desc) = some 2 ∧ countedState.streamsBound 2
      ∧ countedState.logPlain countedOp.queue := by decide +kernel

theorem counted_stats : ∀ p ∈ countedOp.stats, p.1 ≠ counterBlock 2 ∧ p.1 ≠ counterBlock 2 + 4 := by decide +kernel

/-- The record that the count turned on marks page 0 dirty in its region, of which none was dirty. -/
theorem counted_dirties :
    countedState.rd (mirrorReg 0 0xC) = 0 ∧ (countedState.complete countedOp .permission).rd (mirrorReg 0 0xC) = 1 := by decide +kernel

/-- The dirty count of a mirror region is no register that O12 lists. -/
theorem dirtyReg_notMem_completion : mirrorReg 0 0xC ∉ (countedOp.stats.map (·.1) ++ [counterBlock 2 + 0x14] ++ addRegs 2 ++ useRegs
    ++ evlogRegs countedOp.queue ++ dirRegs ++ traceRegs ++ [queueBlock countedOp.queue + 0x18, queueBlock countedOp.queue + 0x28,
      dieReg (countedOp.queue / 4096) 0x100, dieReg (countedOp.queue / 4096) 0x104]
    ++ (countedOp.engine.orElse (fun _ => countedOp.placed)).elim [] (fun e => [4, 8, 0xC, 0x10, 0x18, 0x20].map (engineBlock e + ·))) := by
  decide +kernel

/-- Refutes O12: its third clause judges the event log on the state before the completion and lets a count of the operation be made in any
register but the counter's own. One made in `Q_CFG` turns the log on; the record of the failed operation then goes to a page in a DEGRADED
mirror region, and the region's dirty count, which the clause says stays, goes from 0 to 1. -/
theorem not_headsStartAndCompletionsCount : ¬ Obligations.HeadsStartAndCompletionsCount := by
  unfold Obligations.HeadsStartAndCompletionsCount
  rintro ⟨-, hcomplete⟩
  obtain ⟨hop, hctx, hmirror, hawaits, hcache, hinval, hctr, hstreams, hlog⟩ := counted_ready
  obtain ⟨t, hexec, -, -, -, honly⟩ := hcomplete countedState 5 2 countedOp .permission hop rfl hctx hmirror hawaits hcache hinval hctr hstreams hlog
    counted_stats (by decide) rfl
  obtain rfl : countedState.complete countedOp .permission = t :=
    Host.Outcome.next.inj ((exec_operationComplete hop rfl hctx hmirror hawaits hcache hinval).symm.trans hexec)
  have hsame := honly.2 _ dirtyReg_notMem_completion
  rw [counted_dirties.1, counted_dirties.2] at hsame
  exact absurd hsame (by decide)

end Sys2Proof.Machine
end

section
/-! PROOFS. Numbers of bytes and elements packed into them (R8, R169). -/

namespace Sys2Proof.Machine

/-- A field of a field. -/
theorem nbits_nbits (n a : Nat) {w b u : Nat} (h : b + u ≤ w) : nbits (nbits n a w) b u = nbits n (a + b) u := by
  have hsplit : 2 ^ w = 2 ^ b * 2 ^ (w - b) := by rw [← pow_add, Nat.add_sub_cancel' (by omega)]
  have hdvd : 2 ^ u ∣ 2 ^ (w - b) := pow_dvd_pow 2 (by omega)
  rw [nbits, nbits, nbits, hsplit, Nat.mod_mul_right_div_self, Nat.mod_mod_of_dvd _ hdvd, Nat.div_div_eq_div_mul, ← pow_add]

theorem leNat_drop (l : List Byte) (a : Nat) : leNat l / 2 ^ (8 * a) = leNat (l.drop a) := by
  induction a generalizing l with
  | zero => simp
  | succ a ih =>
    cases l with
    | nil => simp [leNat]
    | cons b l =>
      have hb := b.isLt
      rw [List.drop_succ_cons, ← ih, leNat, Nat.mul_add, Nat.add_comm (8 * a), pow_add, ← Nat.div_div_eq_div_mul]
      congr 1
      omega

theorem leNat_take (l : List Byte) (n : Nat) : leNat l % 2 ^ (8 * n) = leNat (l.take n) := by
  induction n generalizing l with
  | zero => simp [leNat, Nat.mod_one]
  | succ n ih =>
    cases l with
    | nil => simp [leNat]
    | cons b l =>
      have hb := b.isLt
      have hdiv : (b.toNat + 256 * leNat l) / 2 ^ (8 * 1) = leNat l := by omega
      rw [List.take_succ_cons, leNat, leNat, ← ih, Nat.mul_add, Nat.add_comm (8 * n), pow_add, Nat.mod_mul, hdiv]
      omega

/-- Whole bytes of a little-endian number are those bytes of the list. -/
theorem nbits_leNat (l : List Byte) (a n : Nat) : nbits (leNat l) (8 * a) (8 * n) = leNat ((l.drop a).take n) := by
  rw [nbits, leNat_drop, leNat_take]

@[simp] theorem length_leBytes (n v : Nat) : (leBytes n v).length = n := by
  induction n generalizing v with
  | zero => rfl
  | succ n ih => simp [leBytes, ih]

theorem getD_leBytes {n j : Nat} (h : j < n) (v : Nat) : (leBytes n v).getD j 0 = BitVec.ofNat 8 (nbits v (8 * j) 8) := by
  induction n generalizing v j with
  | zero => omega
  | succ n ih =>
    cases j with
    | zero =>
      rw [leBytes, List.getD_cons_zero]
      exact BitVec.eq_of_toNat_eq (by simp [nbits])
    | succ j =>
      rw [leBytes, List.getD_cons_succ, ih (by omega), nbits, nbits, Nat.mul_add, Nat.add_comm (8 * j), pow_add, ← Nat.div_div_eq_div_mul]
      rfl

/-- An element of a packed row is the code that was packed. -/
theorem elemAt_pack (w : Nat) {l : List Nat} {r : Nat} (h : r < l.length) : elemAt (pack w l) w r = l[r] % 2 ^ w := by
  induction l generalizing r with
  | nil => exact absurd h (by simp)
  | cons c l ih =>
    have hpos : 0 < 2 ^ w := Nat.two_pow_pos w
    cases r with
    | zero => simp [elemAt, nbits, pack]
    | succ r =>
      have hc : c % 2 ^ w < 2 ^ w := Nat.mod_lt _ hpos
      rw [List.getElem_cons_succ, ← ih (by simpa using h), elemAt, elemAt, nbits, nbits, pack, Nat.add_mul, Nat.one_mul, Nat.add_comm (r * w),
        pow_add, ← Nat.div_div_eq_div_mul, Nat.add_mul_div_left _ _ hpos, Nat.div_eq_of_lt hc, Nat.zero_add]

/-- Byte k of element r of a packed row, its elements of n bytes. -/
theorem nbits_pack (n : Nat) {l : List Nat} {r k : Nat} (hr : r < l.length) (hk : k < n) :
    nbits (pack (8 * n) l) (8 * (n * r + k)) 8 = nbits l[r] (8 * k) 8 := by
  have helem : nbits (pack (8 * n) l) (r * (8 * n)) (8 * n) = nbits l[r] 0 (8 * n) := by
    rw [← elemAt, elemAt_pack _ hr, nbits, pow_zero, Nat.div_one]
  rw [show 8 * (n * r + k) = r * (8 * n) + 8 * k by ring, ← nbits_nbits _ _ (by omega : 8 * k + 8 ≤ 8 * n), helem, nbits_nbits _ _ (by omega),
    Nat.zero_add]

end Sys2Proof.Machine
end

section
/-! PROOFS. Scratch windows: what a write of one leaves and what it reads after (R161, R165). -/

namespace Sys2Proof.Machine

/-- No two bytes of a window have one key. -/
theorem key_inj {w : Win} {a b : Nat} (he : w.engine < 256) (h : w.key a = w.key b) : a = b := by
  simp only [Win.key, scrKey] at h
  split at h <;> split at h <;> omega

/-- Scratch memory m with the bytes of d written into the window from byte b on. -/
def Win.put (w : Win) (m : List (Nat × Byte)) (b : Nat) (d : List Byte) : List (Nat × Byte) :=
  ((List.range d.length).zip d).foldl (fun m p => sset (fun _ => (0 : Byte)) m (w.key (b + p.1)) p.2) m

theorem put_concat (w : Win) (m : List (Nat × Byte)) (b : Nat) (d : List Byte) (v : Byte) :
    w.put m b (d ++ [v]) = sset (fun _ => 0) (w.put m b d) (w.key (b + d.length)) v := by
  rw [Win.put, List.length_append, List.length_singleton, List.range_succ, List.zip_append (by simp), List.foldl_append]
  rfl

theorem sget_put_other {w : Win} {b y : Nat} {d : List Byte} (h : ∀ x, b ≤ x → x < b + d.length → y ≠ w.key x) (m : List (Nat × Byte)) :
    sget (fun _ => (0 : Byte)) (w.put m b d) y = sget (fun _ => 0) m y := by
  induction d using List.reverseRecOn with
  | nil => rfl
  | append_singleton d v ih =>
    rw [List.length_append, List.length_singleton] at h
    rw [put_concat, sget_sset_ne _ _ _ _ (h _ (by omega) (by omega))]
    exact ih fun x hb hx => h x hb (by omega)

theorem sget_put_key {w : Win} {b k : Nat} {d : List Byte} (he : w.engine < 256) (hk : k < d.length) (m : List (Nat × Byte)) :
    sget (fun _ => (0 : Byte)) (w.put m b d) (w.key (b + k)) = d.getD k 0 := by
  induction d using List.reverseRecOn with
  | nil => exact absurd hk (by simp)
  | append_singleton d v ih =>
    rw [List.length_append, List.length_singleton] at hk
    rw [put_concat]
    by_cases hlast : k = d.length
    · subst hlast
      rw [sget_sset_same]
      simp
    · have hne : w.key (b + k) ≠ w.key (b + d.length) := fun h => hlast (Nat.add_left_cancel (key_inj he h))
      rw [sget_sset_ne _ _ _ _ hne, ih (by omega), List.getD_append _ _ _ _ (by omega)]

/-- Scratch memory m with n rows of `len` bytes each written one after the other, from byte b of the window on. -/
def Win.putRows (w : Win) (m : List (Nat × Byte)) (b len : Nat) (row : Nat → List Byte) (n : Nat) : List (Nat × Byte) :=
  (List.range n).foldl (fun m r => w.put m (b + r * len) (row r)) m

theorem putRows_succ (w : Win) (m : List (Nat × Byte)) (b len : Nat) (row : Nat → List Byte) (n : Nat) :
    w.putRows m b len row (n + 1) = w.put (w.putRows m b len row n) (b + n * len) (row n) := by
  rw [Win.putRows, List.range_succ, List.foldl_append]
  rfl

section
variable {w : Win} {b len n : Nat} {row : Nat → List Byte} (hlen : ∀ r, (row r).length = len)
include hlen

theorem sget_putRows_other {y : Nat} (h : ∀ x, b ≤ x → x < b + n * len → y ≠ w.key x) (m : List (Nat × Byte)) :
    sget (fun _ => (0 : Byte)) (w.putRows m b len row n) y = sget (fun _ => 0) m y := by
  induction n with
  | zero => rfl
  | succ n ih =>
    rw [Nat.succ_mul] at h
    rw [putRows_succ, sget_put_other fun x hb hx => h x (by omega) (by rw [hlen] at hx; omega)]
    exact ih fun x hb hx => h x hb (by omega)

theorem sget_putRows_key (he : w.engine < 256) {r k : Nat} (hr : r < n) (hk : k < len)
    (m : List (Nat × Byte)) : sget (fun _ => (0 : Byte)) (w.putRows m b len row n) (w.key (b + r * len + k)) = (row r).getD k 0 := by
  induction n with
  | zero => omega
  | succ n ih =>
    rw [putRows_succ]
    by_cases hlast : r = n
    · subst hlast
      exact sget_put_key he (by rwa [hlen]) _
    · have hbefore : (r + 1) * len ≤ n * len := Nat.mul_le_mul_right _ (by omega)
      rw [Nat.succ_mul] at hbefore
      rw [sget_put_other fun x hb hx h => ?_]
      · exact ih (by omega)
      · have hsame := key_inj he h
        omega

end

theorem win_engine_lt {o : Op} (h : o.engine.all (· < 256) = true) : o.win.engine < 256 := by
  cases he : o.engine with
  | none => simp [Op.win, he]
  | some e => simpa [Op.win, he] using h

-- the operations of the model

/-- `ENG_SCR_POISON` of the engines of engine e's core (R195). -/
abbrev poisonRegs (e : Nat) : List Nat := [0, 1, 2, 3].map fun k => engineBlock (e / 4 * 4 + k) + 0x24

theorem only_setPoison {l : List Nat} (s : State) (e : Nat) (k : List Nat) (hl : ∀ o ∈ poisonRegs e, o ∈ l) :
    only [.scrPoison] l s (s.setPoison e k) := by
  unfold State.setPoison
  split
  · exact only_refl _ _ _
  · refine only_trans (only_put_scrPoison _ s _ (by simp)) (only_each _ (fun i hi t => only_wrn _ t _ (hl _ ?_)) _)
    simp only [List.mem_cons, List.not_mem_nil, or_false] at hi
    rcases hi with rfl | rfl | rfl | rfl <;> simp

theorem only_winPoison (s : State) (o : Op) (l : List Nat) : only [.scrPoison] (progressRegs o) s (s.setPoison o.win.engine l) :=
  only_setPoison s _ l fun _ h => List.mem_append_right _ h

theorem only_scrPut (s : State) (o : Op) (b : Nat) (d : List Byte) : only [.scr, .scrPoison] (progressRegs o) s (s.scrPut o.win b d) :=
  only_trans (only_put_scr _ s _ (by simp)) (only_mono (only_winPoison _ o _) (by simp) fun _ h => h)

theorem only_scrPutNat (s : State) (o : Op) (line lines v : Nat) : only [.scr, .scrPoison] (progressRegs o) s (s.scrPutNat o.win line lines v) :=
  only_scrPut s o _ _

theorem setPoison_scr (s : State) (e : Nat) (l : List Nat) : (s.setPoison e l).scr = s.scr :=
  (only_setPoison s e l fun _ h => h).1 .scr (by simp)

@[simp] theorem scrPut_scr (s : State) (w : Win) (b : Nat) (d : List Byte) : (s.scrPut w b d).scr = w.put s.scr b d := setPoison_scr _ _ _

@[simp] theorem scrPutNat_scr (s : State) (w : Win) (line lines v : Nat) :
    (s.scrPutNat w line lines v).scr = w.put s.scr (64 * line) (leBytes (64 * lines) v) := scrPut_scr _ _ _ _

/-- What the storage of a window shows in a step changes what is known bad, and no byte (R165). -/
theorem only_scrIn (s : State) (o : Op) (x : ScrIn) : only [.scrPoison] (progressRegs o) s (s.scrIn o.win x) := by
  have hue : only [.scrPoison] (progressRegs o) s (s.scrUe o.win x.bad) := by
    unfold State.scrUe
    split
    · exact only_refl _ _ _
    · exact only_trans (only_winPoison s o _) (only_set _ _ _ (by simp [progressRegs, Op.win]))
  refine only_trans hue (only_when _ _ fun _ => only_trans (only_sat _ _ _ ?_) (only_set _ _ _ ?_)) <;> simp [progressRegs, Op.win]

theorem length_scrBytes (s : State) (w : Win) (b n : Nat) : (s.scrBytes w b n).length = n := by simp [State.scrBytes]

theorem getD_scrBytes (s : State) (w : Win) {n k : Nat} (h : k < n) (b : Nat) : (s.scrBytes w b n).getD k 0 = s.scrByte w (b + k) := by
  simp [State.scrBytes, State.scrByte, List.getD_eq_getElem?_getD, h]

theorem scrBytes_of_scr {s t : State} (h : t.scr = s.scr) : t.scrBytes = s.scrBytes := by
  funext w b n
  rw [State.scrBytes, State.scrBytes, h]

theorem scrNat_of_scr {s t : State} (h : t.scr = s.scr) : t.scrNat = s.scrNat := by
  funext w line n
  rw [State.scrNat, State.scrNat, scrBytes_of_scr h]

theorem scrBytes_slice (s : State) (w : Win) (b : Nat) {a n m : Nat} (h : a + n ≤ m) :
    ((s.scrBytes w b m).drop a).take n = s.scrBytes w (b + a) n := by
  refine List.ext_getElem (by simp [length_scrBytes]; omega) fun k _ _ => ?_
  simp [State.scrBytes, Nat.add_assoc]

/-- Whole bytes of lines read as one number. -/
theorem nbits_scrNat (s : State) (w : Win) (line : Nat) {a n m : Nat} (h : a + n ≤ m) :
    nbits (s.scrNat w line m) (8 * a) (8 * n) = leNat (s.scrBytes w (64 * line + a) n) := by
  rw [State.scrNat, nbits_leNat, scrBytes_slice s w _ h]

/-- One byte of lines read as one number. -/
theorem nbits_scrNat_byte (s : State) (w : Win) (line : Nat) {a m : Nat} (h : a < m) :
    BitVec.ofNat 8 (nbits (s.scrNat w line m) (8 * a) 8) = s.scrByte w (64 * line + a) := by
  have hone := nbits_scrNat s w line (a := a) (n := 1) (m := m) (by omega)
  rw [Nat.mul_one] at hone
  rw [hone]
  simp [State.scrBytes, State.scrByte, leNat]

end Sys2Proof.Machine
end

section
/-! PROOFS. One instruction of an array program that runs one by one (R182-R188, R193, R195). -/

namespace Sys2Proof.Machine

-- an operation replaced

/-- Operation `id` of a state with the operations of s, replaced by p. -/
theorem op_setOp_stepped {s u : State} {id : Nat} {o p : Op} (ho : s.op id = some o) (hops : u.ops = s.ops) (hp : p.id = o.id) :
    ((u.setOp p).stepped o).op id = some p := by
  have hid : o.id = id := by simpa using List.find?_some ho
  have hmem : p.id ∈ u.ops.map (·.id) := by
    rw [hops, hp]
    exact List.mem_map_of_mem (List.mem_of_find?_eq_some ho)
  rw [op_of_ops ((only_stepped [] (u.setOp p) o).1 .ops (by simp)), ← hid, ← hp]
  exact op_setOp_of_mem hmem

theorem only_setOp_stepped (u : State) (o p : Op) : only [.ops, .sec] [] u ((u.setOp p).stepped o) :=
  only_trans (only_setOp _ _ _ (by simp)) (only_mono (only_stepped [] _ o) (by simp) (by simp))

-- accumulator tiles

theorem tile_setTile_same (o : Op) (a : Nat) (t : Tile) : (o.setTile a t).tile a = some t := by
  unfold Op.setTile Op.tile
  split <;> rfl

theorem accOf_cases (i : Nat) : accOf i = 0 ∨ accOf i = 1 := by
  unfold accOf nbits
  omega

theorem tile_setTile_other (o : Op) (i : Nat) (t : Tile) : (o.setTile (accOf i) t).tile (1 - accOf i) = o.tile (1 - accOf i) := by
  rcases accOf_cases i with h | h <;> rw [h] <;> rfl

/-- p is o but for its accumulators. -/
def Op.sameProgram (o p : Op) : Prop := p.id = o.id ∧ p.phase = o.phase ∧ p.run.prog = o.run.prog

theorem sameProgram_refl (o : Op) : o.sameProgram o := ⟨rfl, rfl, rfl⟩

theorem sameProgram_setTile (o : Op) (a : Nat) (t : Tile) : o.sameProgram (o.setTile a t) := by
  unfold Op.setTile
  split <;> exact ⟨rfl, rfl, rfl⟩

-- the instruction retires, and the program goes on or ends

/-- The operation with its program counter at `pc`. -/
def Op.atPc (o : Op) (pc : Nat) : Op := { o with run := { o.run with pc := pc } }

theorem tile_atPc (o : Op) (pc a : Nat) : (o.atPc pc).tile a = o.tile a := rfl

/-- The operation after an instruction that went well: stepping, or ended after the last. -/
def Op.afterInstr (o : Op) : Op := if o.run.prog.length ≤ o.run.pc then { o with phase := .executed .ok } else o

theorem progEnd_ok (u : State) (p : Op) (ue : List Nat) : State.progEnd (u, p, .ok) ue = u.setOp p.afterInstr := by
  have hok : ¬ (Status.ok != Status.ok) = true := by decide
  rw [State.progEnd, if_neg hok, Op.afterInstr]
  split <;> rfl

theorem tile_afterInstr (o : Op) (a : Nat) : o.afterInstr.tile a = o.tile a := by
  unfold Op.afterInstr
  split <;> rfl

theorem afterInstr_id (o : Op) : o.afterInstr.id = o.id := by
  unfold Op.afterInstr
  split <;> rfl

theorem progRun_one {s u : State} {o p : Op} {i : BitVec 128} {ue : List Nat} (hi : o.run.prog[o.run.pc]? = some i)
    (h : s.instrRun o i.toNat ue = (u, p, .ok)) : s.progRun o ue 1 = (u, p.atPc (o.run.pc + 1), .ok) := by
  simp only [State.progRun, hi, h]
  rfl

theorem onInstr_ok {s u : State} {id code : Nat} {o p : Op} {i : BitVec 128} {x : ScrIn} {ue : List Nat} (h : s.atInstr id o i code x)
    (hrun : (s.scrIn o.win x).instrRun o i.toNat ue = (u, p, .ok)) :
    s.onInstr id code ue x = (u.setOp (p.atPc (o.run.pc + 1)).afterInstr).stepped o := by
  obtain ⟨hop, hphase, hhalted, hquiet, hi, hcode, -⟩ := h
  simp only [State.onInstr, hop, hphase, hhalted, hi, hcode, coherent_of_quiet hquiet, progRun_one hi hrun, progEnd_ok]
  simp

/-- An instruction that leaves the state u and the accumulators of p: nothing else changes but the program counter, or the end of the program. -/
theorem onInstr_spec {s u : State} {id code : Nat} {o p : Op} {i : BitVec 128} {x : ScrIn} {ue : List Nat} {ps : List Part} {l : List Nat}
    (h : s.atInstr id o i code x) (hrun : (s.scrIn o.win x).instrRun o i.toNat ue = (u, p, .ok)) (hp : o.sameProgram p) (hu : only ps l s u)
    (hops : Part.ops ∉ ps) :
    only (ps ++ [.ops, .sec]) l s (s.onInstr id code ue x) ∧ only [.ops, .sec] [] u (s.onInstr id code ue x)
      ∧ (s.onInstr id code ue x).advanced id o ∧ ∀ a, (s.onInstr id code ue x).tileOf id a = p.tile a := by
  obtain ⟨hid, hphase, hprog⟩ := hp
  have hstep : o.phase = .stepping := h.2.1
  have hlast := only_setOp_stepped u o (p.atPc (o.run.pc + 1)).afterInstr
  have hop : ((u.setOp (p.atPc (o.run.pc + 1)).afterInstr).stepped o).op id = some (p.atPc (o.run.pc + 1)).afterInstr :=
    op_setOp_stepped h.1 (hu.1 .ops hops) ((afterInstr_id _).trans hid)
  rw [onInstr_ok h hrun]
  refine ⟨only_trans (only_mono hu (fun _ => List.mem_append_left _) fun _ hl => hl)
    (only_mono hlast (fun _ => List.mem_append_right _) (by simp)), hlast, ⟨fun hmore => ?_, fun hend => ?_⟩, fun a => ?_⟩
  · have hgoes : ¬ p.run.prog.length ≤ o.run.pc + 1 := by rw [hprog]; omega
    rw [hop, Op.afterInstr, Op.atPc, if_neg hgoes, Option.map_some, hphase, hstep]
  · have hends : p.run.prog.length ≤ o.run.pc + 1 := by rw [hprog]; omega
    rw [State.ended, hop, Op.afterInstr, Op.atPc, if_pos hends, Option.map_some]
  · rw [State.tileOf, hop, Option.bind_some, tile_afterInstr, tile_atPc]

theorem only_retire (s : State) (o : Op) : only [.health] (progressRegs o) s (s.retire o) := by
  unfold State.retire
  split
  · rename_i e he
    exact only_trans (only_wrap _ s 1 (by simp [progressRegs, he])) (only_progress _ _ _ (by simp))
  · exact only_refl _ _ _

theorem retire_scr (s : State) (o : Op) : (s.retire o).scr = s.scr := (only_retire s o).1 .scr (by simp)

/-- What an instruction changes before it retires, and what it changes in all. -/
theorem only_retired {s u : State} {o : Op} {x : ScrIn} {ps : List Part} {l : List Nat} (h : only ps l (s.scrIn o.win x) u) :
    only (ps ++ [.scrPoison, .health]) (l ++ progressRegs o) s (u.retire o) :=
  only_trans (only_mono (only_scrIn s o x) (by simp) fun _ => List.mem_append_right _)
    (only_trans (only_mono h (fun _ => List.mem_append_left _) fun _ => List.mem_append_left _)
      (only_mono (only_retire u o) (by simp) fun _ => List.mem_append_right _))

/-- An instruction that leaves the state u before it retires, and the accumulators of p. -/
theorem onInstr_retired {s u : State} {id code : Nat} {o p : Op} {i : BitVec 128} {x : ScrIn} {ue : List Nat} {ps : List Part}
    (h : s.atInstr id o i code x) (hrun : (s.scrIn o.win x).instrRun o i.toNat ue = (u.retire o, p, .ok)) (hp : o.sameProgram p)
    (hu : only ps (progressRegs o) (s.scrIn o.win x) u) (hops : Part.ops ∉ ps) :
    only (ps ++ [.scrPoison, .health] ++ [.ops, .sec]) (progressRegs o) s (s.onInstr id code ue x) ∧ (s.onInstr id code ue x).advanced id o
      ∧ (∀ a, (s.onInstr id code ue x).tileOf id a = p.tile a) ∧ (s.onInstr id code ue x).scr = u.scr := by
  obtain ⟨honly, hlast, hadv, htile⟩ := onInstr_spec h hrun hp (only_retired hu) (by simp [hops])
  exact ⟨only_mono honly (fun _ hp => hp) (by simp), hadv, htile, (hlast.1 .scr (by simp)).trans (retire_scr u o)⟩

-- what each instruction does, its lines good (R182-R188)

theorem atInstr_good {s : State} {id code : Nat} {o : Op} {i : BitVec 128} {x : ScrIn} (h : s.atInstr id o i code x) :
    uop i.toNat = code ∧ uopEmpty i.toNat = false
      ∧ (readSpans i.toNat).any (fun p => (s.scrIn o.win x).scrBad o.win p.1 p.2) = false := by
  obtain ⟨-, -, -, -, -, hcode, hfull, hgood⟩ := h
  exact ⟨hcode, hfull, hgood⟩

/-- The tile that ACC_IN takes from its lines (R185). -/
def State.accInTile (s : State) (w : Win) (i : Nat) : Tile :=
  { int := nbits i 8 4 == 0xC
    cells := (List.range 1024).map fun c => BitVec.ofNat 32 (nbits (s.scrNat w (nbits i 32 16) 4096) (32 * c) 32) }

section
variable {s : State} {o : Op} {i : Nat} {ue : List Nat} (hfull : uopEmpty i = false)
  (hgood : (readSpans i).any (fun p => s.scrBad o.win p.1 p.2) = false)
include hfull hgood

theorem instrRun_ld (hu : uop i = 0x01) (hread : s.ldRead o.desc i ue = .ok) :
    s.instrRun o i ue = ((s.ldRun o.win o.desc i).retire o, o, .ok) := by
  simp [State.instrRun, hfull, hgood, hu, hread]

theorem instrRun_st {u : State} (hu : uop i = 0x02) (hst : s.stRun o.ctx o.win o.desc i = (u, .ok)) :
    s.instrRun o i ue = (u.retire o, o, .ok) := by
  simp [State.instrRun, hfull, hgood, hu, hst]

theorem instrRun_accIn (hu : uop i = 0x11) :
    s.instrRun o i ue = (s.retire o, o.setTile (accOf i) (s.accInTile o.win i), .ok) := by
  simp [State.instrRun, hfull, hgood, hu, State.accInTile]

theorem instrRun_accOut {a : Tile} (hu : uop i = 0x12) (ha : o.tile (accOf i) = some a) :
    s.instrRun o i ue = ((s.accOutTo o.win i a).retire o, o, .ok) := by
  simp [State.instrRun, hfull, hgood, hu, ha]

theorem instrRun_vop (hu : uop i = 0x20) : s.instrRun o i ue = ((s.vopRun o.win i).retire o, o, .ok) := by
  simp [State.instrRun, hfull, hgood, hu]

theorem instrRun_transpose (hu : uop i = 0x21) : s.instrRun o i ue = ((s.transposeRun o.win i).retire o, o, .ok) := by
  simp [State.instrRun, hfull, hgood, hu]

end

end Sys2Proof.Machine
end

section
/-! PROOFS. The decode of an array program, before its first instruction (R179, R586). -/

namespace Sys2Proof.Machine

/-- A decoded program before its first instruction, with empty accumulators. -/
def Op.decoded (o : Op) (prog : List Nat) : Op :=
  { o with phase := .stepping, run := { o.run with prog := prog.map (BitVec.ofNat 128), pc := 0, acc0 := none, acc1 := none } }

/-- An ARRAY_PROGRAM whose decode failed with `st` at instruction k. -/
def Op.undecoded (o : Op) (st : Status) (k : Nat) : Op := { o with decodeFail := true, failIndex := k, phase := .executed st }

section
variable {s : State} {o : Op} {ue : List Nat} (hcheck : s.apCheck o.ctx o.desc (if o.dynamic then 576 else o.gran) = .ok)
  (hread : s.readCheck ue (apProg o.desc) (16 * apCount o.desc) = .ok)
include hcheck hread

theorem apRun_decoded (hdec : (s.apDecode o.ctx o.desc (apGran o.desc) (s.apFetch o.desc)).1 = .ok) :
    s.apRun o true ue = (s.mark (apProg o.desc) (16 * apCount o.desc)).setOp (o.decoded (s.apFetch o.desc)) := by
  simp [State.apRun, hcheck, hread, hdec, Op.decoded]

theorem apRun_undecoded (stepwise : Bool) (hdec : (s.apDecode o.ctx o.desc (apGran o.desc) (s.apFetch o.desc)).1 ≠ .ok) :
    s.apRun o stepwise ue = (s.mark (apProg o.desc) (16 * apCount o.desc)).setOp
      (o.undecoded (s.apDecode o.ctx o.desc (apGran o.desc) (s.apFetch o.desc)).1
        (s.apDecode o.ctx o.desc (apGran o.desc) (s.apFetch o.desc)).2) := by
  simp [State.apRun, hcheck, hread, hdec, Op.undecoded, State.done]

end

theorem exec_arrayProgram {s : State} {id : Nat} {o : Op} (h : s.runsOp id o 0x10) (stepwise : Bool) (ue : List Nat) :
    exec (.arrayProgram id stepwise ue {}) s = .next ((s.apRun o stepwise ue).stepped o) :=
  congrArg Host.Outcome.next (onOp_of_runs h _)

theorem length_apFetch (s : State) (d : BitVec 512) : (s.apFetch d).length = apCount d := by simp [State.apFetch]

theorem getElem_apFetch (s : State) (d : BitVec 512) {k : Nat} (h : k < apCount d) :
    (s.apFetch d)[k]? = some (leNat (s.bytes (apProg d + 16 * k) 16)) := by
  simp [State.apFetch, h]

/-- After the fetch, the operation is replaced, and nothing else changes but records of use. -/
theorem fetched_replaced {s : State} {id : Nat} {o p : Op} (ho : s.op id = some o) (hp : p.id = o.id) (a n : Nat) :
    only [.ops, .sec, .tier] [] s (((s.mark a n).setOp p).stepped o) ∧ (((s.mark a n).setOp p).stepped o).op id = some p :=
  ⟨only_trans (only_mark [] s a n (by simp)) (only_mono (only_setOp_stepped _ o p) (by simp) (by simp)), op_setOp_stepped ho rfl hp⟩

/-- Settles O14: after the fetch, the decode replaces the operation by one that holds its instructions, or by one that has ended. -/
theorem arrayProgramIsDecodedFirst : Obligations.ArrayProgramIsDecodedFirst := by
  refine ⟨fun s id o ue h hcheck hread hdec => ⟨_, exec_arrayProgram h true ue, ?_⟩,
    fun s id o stepwise ue h hcheck hread hdec => ⟨_, exec_arrayProgram h stepwise ue, ?_⟩⟩
  · rw [apRun_decoded hcheck hread hdec]
    obtain ⟨honly, hop⟩ := fetched_replaced (p := o.decoded (s.apFetch o.desc)) h.1 rfl (apProg o.desc) (16 * apCount o.desc)
    rw [hop]
    refine ⟨honly, rfl, ?_, fun k hk => ?_⟩
    · simp [Op.decoded, length_apFetch]
    · simp [Op.decoded, getElem_apFetch s o.desc hk]
  · rw [apRun_undecoded hcheck hread stepwise hdec]
    generalize s.apDecode o.ctx o.desc (apGran o.desc) (s.apFetch o.desc) = failed
    obtain ⟨honly, hop⟩ := fetched_replaced (p := o.undecoded failed.1 failed.2) h.1 rfl (apProg o.desc) (16 * apCount o.desc)
    rw [State.ended, hop]
    exact ⟨honly, rfl, rfl⟩

end Sys2Proof.Machine
end

section
/-! PROOFS. LD and ST (R182): rows of pool memory and lines of a scratch window. -/

namespace Sys2Proof.Machine

-- LD

theorem only_ldRun (s : State) (o : Op) (d : BitVec 512) (i : Nat) : only [.scr, .scrPoison, .tier] (progressRegs o) s (s.ldRun o.win d i) :=
  List.foldlRecOn (motive := only [.scr, .scrPoison, .tier] (progressRegs o) s) _ _ (only_refl _ _ s) fun u hu r _ =>
    only_trans hu (only_trans (only_mark _ u _ _ (by simp)) (only_mono (only_scrPut _ o _ _) (by simp) fun _ h => h))

theorem ldRun_scr (s : State) (w : Win) (d : BitVec 512) (i : Nat) : (s.ldRun w d i).scr =
    w.putRows s.scr (64 * ldScr i) (64 * ldUnits i) (fun r => s.bytes (ldBase d i + r * ldStride i) (64 * ldUnits i)) (ldRows i) := by
  refine (List.foldl_hom State.scr fun u r => ?_).symm
  rw [scrPut_scr, Nat.mul_add, Nat.mul_left_comm]
  rfl

theorem stageCopy_of_tier {s t : State} (h : t.tier = s.tier) : t.stageCopy = s.stageCopy := by
  funext p
  rw [State.stageCopy, State.stageCopy, h]

theorem page_of_tier {s t : State} (h : t.tier = s.tier) : t.page = s.page := by
  funext p
  rw [State.page, State.page, h]

theorem lostCheck_of_tier {s t : State} (h : t.tier = s.tier) : t.lostCheck = s.lostCheck := by
  funext p
  rw [State.lostCheck, State.lostCheck, State.pageNow, State.pageNow, stageCopy_of_tier h, page_of_tier h, h]

/-- What a read of pool memory meets hangs on the tier's records and on the lines known bad. -/
theorem readCheck_of_same {s t : State} (ht : t.tier = s.tier) (hp : t.poison = s.poison) : t.readCheck = s.readCheck := by
  funext ue a n
  rw [State.readCheck, State.readCheck, State.badLines, State.badLines, lostCheck_of_tier ht, stageCopy_of_tier ht, hp]

theorem ldRead_of_same {s t : State} (ht : t.tier = s.tier) (hp : t.poison = s.poison) (d : BitVec 512) (i : Nat) (ue : List Nat) :
    t.ldRead d i ue = s.ldRead d i ue := by
  rw [State.ldRead, State.ldRead, readCheck_of_same ht hp]

-- what lets a write in (R220, R355, R356, R541)

theorem plainSpan_of_same {s t : State} (ht : t.tier = s.tier) (ha : t.alm = s.alm)
    (hrd : ∀ off, 0x500 ≤ off → off < 0x04000000 → t.rd off = s.rd off) (a n : Nat) : t.plainSpan a n = s.plainSpan a n := by
  have hmirror : ∀ p, t.mirrorOf p = s.mirrorOf p :=
    mirrorOf_of_rd fun r hr o ho => hrd _ (by unfold mirrorReg; omega) (by unfold mirrorReg; omega)
  have hunit : t.chunkUnit = s.chunkUnit := by
    funext k p c
    simp only [State.chunkUnit, State.groupMembers, ha]
  have htakes : t.takesWrites = s.takesWrites := by
    funext u
    by_cases hu : u < 0x100
    · have htray : t.trayState (u - 0x40) = s.trayState (u - 0x40) :=
        fld_of_rd (hrd _ (by unfold trayReg; omega) (by unfold trayReg; omega)) _ _
      simp only [State.takesWrites, htray]
    · simp [State.takesWrites, hu]
  simp only [State.plainSpan, State.chunkUnits, lostCheck_of_tier ht, page_of_tier ht, hmirror, hunit, htakes]

theorem plainFor_of_same {s t : State} {x a n : Nat} (h : s.plainFor x a n) (ht : t.tier = s.tier) (ha : t.alm = s.alm) (hr : t.reds = s.reds)
    (hrd : ∀ off, 0x500 ≤ off → off < 0x04000000 → t.rd off = s.rd off) : t.plainFor x a n := by
  refine ⟨(plainSpan_of_same ht ha hrd a n).trans h.1, ?_⟩
  rw [State.steered, hr]
  exact h.2

theorem settled_savedPlain {s : State} (h : s.settled) (a : Nat) {d : List Byte} (hd : d ≠ []) : (s.savedPlain a d).settled := by
  have hcached : (s.cached a d.length).settled := settled_of_coh ((only_cached s a d.length).1 .coh (by simp)) h
  refine settled_of_coh ((only_expWrite _ a d.length).1 .coh (by simp)) ?_
  rw [store_of_settled hcached a hd]
  exact settled_of_coh rfl (settled_write hcached a d)

/-- The tier's records of a plain write: its pages were used. -/
theorem tier_savedPlain {s : State} (h : s.settled) (a : Nat) {d : List Byte} (hd : d ≠ []) :
    (s.savedPlain a d).tier = (s.mark a d.length).tier := by
  have hcached := only_cached s a d.length
  have hin : (s.cached a d.length).settled := settled_of_coh (hcached.1 .coh (by simp)) h
  have hwrite : ((s.cached a d.length).write a d).tier = s.tier :=
    ((only_write (ps := [.coh, .out, .mem, .poison]) _ a d (by simp) (by simp) (by simp) (by simp) fun _ h => h).1 .tier (by simp)).trans
      (hcached.1 .tier (by simp))
  have hexp : (s.savedPlain a d).tier = ((s.cached a d.length).store a d).tier := (only_expWrite _ a d.length).1 .tier (by simp)
  rw [hexp, store_of_settled hin a hd, State.mark, State.mark]
  dsimp only
  rw [hwrite]

/-- A plain write leaves other plain spans plain. -/
theorem plainFor_savedPlain {s : State} {x a n b : Nat} {d : List Byte} (hs : s.settled) (hd : d ≠ []) (h : s.plainFor x a n) :
    (s.savedPlain b d).plainFor x a n := by
  have hkeep := only_savedPlain s b d
  refine plainFor_of_same (plainFor_mark h b d.length) (tier_savedPlain hs b hd) (hkeep.1 .alm (by decide)) (hkeep.1 .reds (by decide))
    fun off hl hu => hkeep.2 off fun hm => ?_
  have hplace := dirRegs_place hm
  omega

-- rows written one after the other

/-- The state after n plain writes, of the bytes d r at a r. -/
def State.savedRows (s : State) (a : Nat → Nat) (d : Nat → List Byte) : Nat → State
  | 0 => s
  | n + 1 => (s.savedRows a d n).savedPlain (a n) (d n)

theorem only_savedRows (s : State) (a : Nat → Nat) (d : Nat → List Byte) (n : Nat) : only storeParts dirRegs s (s.savedRows a d n) := by
  induction n with
  | zero => exact only_refl _ _ _
  | succ n ih => exact only_trans ih (only_savedPlain _ _ _)

section
variable {s : State} {a : Nat → Nat} {d : Nat → List Byte} {len : Nat} (hs : s.settled) (hpos : 0 < len) (hlen : ∀ r, (d r).length = len)
include hs hpos hlen

theorem settled_savedRows (n : Nat) : (s.savedRows a d n).settled := by
  induction n with
  | zero => exact hs
  | succ n ih => exact settled_savedPlain ih _ (List.ne_nil_of_length_pos (by rw [hlen]; exact hpos))

theorem plainFor_savedRows {x b m : Nat} (h : s.plainFor x b m) (n : Nat) : (s.savedRows a d n).plainFor x b m := by
  induction n with
  | zero => exact h
  | succ n ih =>
    exact plainFor_savedPlain (settled_savedRows hs hpos hlen n) (List.ne_nil_of_length_pos (by rw [hlen]; exact hpos)) ih

theorem byte_savedRows_succ (n y : Nat) : (s.savedRows a d (n + 1)).byte y =
    if a n ≤ y ∧ y < a n + len then (d n).getD (y - a n) 0 else (s.savedRows a d n).byte y := by
  rw [State.savedRows, byte_savedPlain (settled_savedRows hs hpos hlen n), hlen]

theorem byte_savedRows_other {n y : Nat} (h : ∀ r, r < n → ¬ (a r ≤ y ∧ y < a r + len)) : (s.savedRows a d n).byte y = s.byte y := by
  induction n with
  | zero => rfl
  | succ n ih =>
    rw [byte_savedRows_succ hs hpos hlen, if_neg (h n (by omega))]
    exact ih fun r hr => h r (by omega)

/-- A byte holds what the last row over it wrote. -/
theorem byte_savedRows_last {n r k : Nat} (hr : r < n) (hk : k < len)
    (h : ∀ q, r < q → q < n → ¬ (a q ≤ a r + k ∧ a r + k < a q + len)) : (s.savedRows a d n).byte (a r + k) = (d r).getD k 0 := by
  induction n with
  | zero => omega
  | succ n ih =>
    rw [byte_savedRows_succ hs hpos hlen]
    by_cases hlast : r = n
    · subst hlast
      rw [if_pos (by omega), Nat.add_sub_cancel_left]
    · rw [if_neg (h n (by omega) (by omega))]
      exact ih (by omega) fun q hrq hq => h q hrq (by omega)

/-- ST writes its rows one after the other when each is let in. -/
theorem saveRows_plain {x n : Nat} (h : ∀ r, r < n → s.plainFor x (a r) len) :
    (List.range n).foldl (fun (q : State × Status) r => if q.2 != Status.ok then q else q.1.save x (a r) (d r)) (s, .ok)
      = (s.savedRows a d n, .ok) := by
  induction n with
  | zero => rfl
  | succ n ih =>
    rw [List.range_succ, List.foldl_append, ih fun r hr => h r (by omega)]
    exact save_plain (hlen n) (plainFor_savedRows hs hpos hlen (h n (by omega)) n)

end

/-- The rows of an ST in pool memory, and what it writes there. -/
def stRow (d : BitVec 512) (i r : Nat) : Nat := ldBase d i + r * ldStride i
def State.stData (s : State) (w : Win) (i r : Nat) : List Byte := s.scrBytes w (64 * (ldScr i + r * ldUnits i)) (64 * ldUnits i)

theorem length_stData (s : State) (w : Win) (i r : Nat) : (s.stData w i r).length = 64 * ldUnits i := length_scrBytes _ _ _ _

theorem stRun_plain {s : State} {x i : Nat} {d : BitVec 512} (w : Win) (hs : s.settled) (hpos : 0 < 64 * ldUnits i)
    (h : ∀ r, r < ldRows i → s.plainFor x (stRow d i r) (64 * ldUnits i)) :
    s.stRun x w d i = (s.savedRows (stRow d i) (s.stData w i) (ldRows i), .ok) :=
  saveRows_plain hs hpos (length_stData s w i) h

theorem units_pos {i : Nat} (hu : uop i = 0x02) (h : uopEmpty i = false) : 0 < 64 * ldUnits i := by
  simp only [uopEmpty, hu, Bool.or_eq_false_iff, beq_eq_false_iff_ne] at h
  omega

theorem engineBlock_high (e : Nat) : 0x04000000 ≤ engineBlock e := by
  unfold engineBlock dieBase
  omega

theorem progressRegs_high {o : Op} {off : Nat} (h : off ∈ progressRegs o) : 0x04000000 ≤ off := by
  simp only [progressRegs, List.mem_append, List.mem_map] at h
  obtain ⟨k, -, rfl⟩ | ⟨k, -, rfl⟩ := h
  · exact Nat.le_add_right_of_le (engineBlock_high _)
  · exact Nat.le_add_right_of_le (engineBlock_high _)

theorem plainFor_scrIn {s : State} {c a n : Nat} (h : s.plainFor c a n) (o : Op) (x : ScrIn) : (s.scrIn o.win x).plainFor c a n := by
  have hkeep := only_scrIn s o x
  refine plainFor_of_same h (hkeep.1 .tier (by simp)) (hkeep.1 .alm (by simp)) (hkeep.1 .reds (by simp)) fun off _ hu => hkeep.2 off fun hm => ?_
  have hplace := progressRegs_high hm
  omega

-- the obligation

/-- An LD that reads good lines (R182). -/
theorem ld_spec {s : State} {id : Nat} {o : Op} {i : BitVec 128} {ue : List Nat} {x : ScrIn} (h : s.atInstr id o i 0x01 x)
    (hread : s.ldRead o.desc i.toNat ue = .ok) :
    only [.scr, .scrPoison, .ops, .sec, .health, .tier] (progressRegs o) s (s.onInstr id 0x01 ue x) ∧ (s.onInstr id 0x01 ue x).advanced id o
      ∧ (s.onInstr id 0x01 ue x).scr = o.win.putRows s.scr (64 * ldScr i.toNat) (64 * ldUnits i.toNat)
          (fun r => s.bytes (ldBase o.desc i.toNat + r * ldStride i.toNat) (64 * ldUnits i.toNat)) (ldRows i.toNat) := by
  obtain ⟨hcode, hfull, hgood⟩ := atInstr_good h
  have hin := only_scrIn s o x
  have hbytes : (s.scrIn o.win x).bytes = s.bytes := by
    funext a n
    simp only [State.bytes, byte_of_same (hin.1 .coh (by simp)) (hin.1 .mem (by simp))]
  have hrun := instrRun_ld hfull hgood hcode ((ldRead_of_same (hin.1 .tier (by simp)) (hin.1 .poison (by simp)) _ _ ue).trans hread)
  obtain ⟨honly, hadv, -, hscr⟩ := onInstr_retired h hrun (sameProgram_refl o) (only_ldRun _ o o.desc i.toNat) (by simp)
  refine ⟨only_mono honly (by simp) fun _ ho => ho, hadv, ?_⟩
  rw [hscr, ldRun_scr, hin.1 .scr (by simp), hbytes]

/-- An ST whose rows are let in (R182). -/
theorem st_spec {s : State} {id : Nat} {o : Op} {i : BitVec 128} {x : ScrIn} (h : s.atInstr id o i 0x02 x) (hs : s.settled)
    (hplain : ∀ r, r < ldRows i.toNat → s.plainFor o.ctx (stRow o.desc i.toNat r) (64 * ldUnits i.toNat)) :
    only (storeParts ++ [.ops, .sec, .health, .scrPoison]) (dirRegs ++ progressRegs o) s (s.onInstr id 0x02 [] x)
      ∧ (s.onInstr id 0x02 [] x).advanced id o
      ∧ ∀ y, (s.onInstr id 0x02 [] x).byte y
          = ((s.scrIn o.win x).savedRows (stRow o.desc i.toNat) (s.stData o.win i.toNat) (ldRows i.toNat)).byte y := by
  obtain ⟨hcode, hfull, hgood⟩ := atInstr_good h
  have hin := only_scrIn s o x
  have hdata : (s.scrIn o.win x).stData o.win i.toNat = s.stData o.win i.toNat := by
    funext r
    rw [State.stData, State.stData, scrBytes_of_scr (hin.1 .scr (by simp))]
  have hst := stRun_plain o.win (settled_of_coh (hin.1 .coh (by simp)) hs) (units_pos hcode hfull) fun r hr => plainFor_scrIn (hplain r hr) o x
  rw [hdata] at hst
  have hdone := only_retired (only_savedRows (s.scrIn o.win x) (stRow o.desc i.toNat) (s.stData o.win i.toNat) (ldRows i.toNat))
  obtain ⟨honly, hlast, hadv, -⟩ := onInstr_spec h (instrRun_st hfull hgood hcode hst) (sameProgram_refl o) hdone (by decide)
  refine ⟨only_mono honly (by decide) fun _ ho => ho, hadv, fun y => ?_⟩
  have hretire := only_retire ((s.scrIn o.win x).savedRows (stRow o.desc i.toNat) (s.stData o.win i.toNat) (ldRows i.toNat)) o
  rw [byte_of_same (hlast.1 .coh (by simp)) (hlast.1 .mem (by simp)), byte_of_same (hretire.1 .coh (by simp)) (hretire.1 .mem (by simp))]

/-- Settles O15: LD's rows stand one after the other in the window; ST's are plain writes one after the other, the last over a byte holding. -/
theorem ldAndStMoveRowsBetweenPoolAndScratch : Obligations.LdAndStMoveRowsBetweenPoolAndScratch := by
  refine ⟨fun s id o i ue x h he _ hread => ⟨_, rfl, ?_⟩, fun s id o i x h hs hplain => ⟨_, rfl, ?_⟩⟩
  · obtain ⟨honly, hadv, hscr⟩ := ld_spec h hread
    have hlen : ∀ r, (s.bytes (ldBase o.desc i.toNat + r * ldStride i.toNat) (64 * ldUnits i.toNat)).length = 64 * ldUnits i.toNat :=
      fun r => length_bytes _ _ _
    refine ⟨honly, hadv, fun r k hr hk => ?_, fun y hy => ?_⟩
    · rw [State.scrByte, hscr, Nat.mul_add, Nat.mul_left_comm 64 r, sget_putRows_key hlen (win_engine_lt he) hr hk]
      exact getD_bytes s hk _
    · rw [hscr, sget_putRows_other hlen fun b hlo hhi => hy b hlo (by rw [Nat.mul_add, Nat.mul_left_comm]; exact hhi)]
  · obtain ⟨honly, hadv, hbyte⟩ := st_spec h hs hplain
    have hin := only_scrIn s o x
    have hset : (s.scrIn o.win x).settled := settled_of_coh (hin.1 .coh (by simp)) hs
    obtain ⟨hcode, hfull, -⟩ := atInstr_good h
    have hpos := units_pos hcode hfull
    refine ⟨honly, hadv, fun r k hr hk hlast => ?_, fun a ha => ?_⟩
    · refine (hbyte _).trans ((byte_savedRows_last hset hpos (length_stData s o.win i.toNat) hr hk hlast).trans ?_)
      exact getD_scrBytes s o.win hk _
    · exact (hbyte a).trans ((byte_savedRows_other hset hpos (length_stData s o.win i.toNat) ha).trans
        (byte_of_same (hin.1 .coh (by simp)) (hin.1 .mem (by simp)) a))

end Sys2Proof.Machine
end

section
/-! PROOFS. Accumulator moves and vector steps (R185-R187). -/

namespace Sys2Proof.Machine

-- ACC_IN

theorem accInTile_of_scr {s t : State} (h : t.scr = s.scr) (w : Win) (i : Nat) : t.accInTile w i = s.accInTile w i := by
  rw [State.accInTile, State.accInTile, scrNat_of_scr h]

theorem getElem_accInTile (s : State) (w : Win) (i : Nat) {c : Nat} (h : c < 1024) :
    (s.accInTile w i).cells[c]? = some (BitVec.ofNat 32 (leNat (s.scrBytes w (64 * nbits i 32 16 + 4 * c) 4))) := by
  have hword := nbits_scrNat s w (nbits i 32 16) (a := 4 * c) (n := 4) (m := 4096) (by omega)
  rw [← Nat.mul_assoc] at hword
  simp [State.accInTile, h, hword]

-- ACC_OUT

/-- ACC_OUT writes 32 rows, and for an MX format a line of scales with each: what each of these writes keeps, it keeps (R185). -/
theorem accOutTo_keeps {P : State → Prop} {s : State} {w : Win} {i : Nat} (hs : P s)
    (hrow : ∀ r < 32, ∀ v u, P u →
      P (u.scrPutNat w (nbits i 32 16 + r * rowLines (32 * fmtBits (nbits i 8 4))) (rowLines (32 * fmtBits (nbits i 8 4))) v))
    (hscale : fmtIsMx (nbits i 8 4) = true → ∀ r < 32, ∀ v u, P u → P (u.scrPutNat w (nbits i 48 16 + r) 1 v)) (a : Tile) :
    P (s.accOutTo w i a) := by
  refine List.foldlRecOn (motive := P) _ _ hs fun u hu r hr => ?_
  have hlt := List.mem_range.1 hr
  dsimp only
  split
  · rename_i hmx
    exact hscale hmx r hlt _ _ (hrow r hlt _ u hu)
  · exact hrow r hlt _ u hu

theorem only_accOutTo (s : State) (o : Op) (i : Nat) (a : Tile) : only [.scr, .scrPoison] (progressRegs o) s (s.accOutTo o.win i a) :=
  accOutTo_keeps (only_refl _ _ s) (fun _ _ _ u hu => only_trans hu (only_scrPutNat u o _ _ _))
    (fun _ _ _ _ u hu => only_trans hu (only_scrPutNat u o _ _ _)) a

/-- The lines that ACC_OUT writes hang on scratch memory alone. -/
theorem accOutTo_scr {s t : State} (h : t.scr = s.scr) (w : Win) (i : Nat) (a : Tile) : (t.accOutTo w i a).scr = (s.accOutTo w i a).scr := by
  unfold State.accOutTo
  extract_lets
  refine List.foldl_rel (r := fun u v : State => u.scr = v.scr) h fun r _ u v huv => ?_
  extract_lets
  split <;> simp only [scrPutNat_scr, huv]

/-- A byte outside `n` lines is not touched by a write of some of them. -/
theorem sget_scrPutNat_other {u : State} {w : Win} {first n line lines y : Nat}
    (hy : ∀ b, 64 * first ≤ b → b < 64 * (first + n) → y ≠ w.key b) (hlo : first ≤ line) (hhi : line + lines ≤ first + n) (v : Nat) :
    sget (fun _ => (0 : Byte)) (u.scrPutNat w line lines v).scr y = sget (fun _ => 0) u.scr y := by
  rw [scrPutNat_scr, sget_put_other]
  intro x hx hlt
  rw [length_leBytes] at hlt
  exact hy x (by omega) (by omega)

theorem row_within {r n : Nat} (p line : Nat) (h : r < n) : line ≤ line + r * p ∧ line + r * p + p ≤ line + n * p := by
  have hnext : (r + 1) * p ≤ n * p := Nat.mul_le_mul_right p h
  rw [Nat.succ_mul] at hnext
  omega

/-- y is the key of no byte in the lines that instruction i writes. -/
def Win.unwritten (w : Win) (i y : Nat) : Prop := ∀ p ∈ writeSpans i, ∀ b, 64 * p.1 ≤ b → b < 64 * (p.1 + p.2) → y ≠ w.key b

theorem writeSpans_accOut {i : Nat} (hu : uop i = 0x12) : writeSpans i =
    (nbits i 32 16, 32 * rowLines (32 * fmtBits (nbits i 8 4))) :: (if fmtIsMx (nbits i 8 4) then [(nbits i 48 16, 32)] else []) := by
  simp [writeSpans, uopEmpty, hu]

theorem sget_accOutTo_other {s : State} {w : Win} {i y : Nat} (hu : uop i = 0x12) (hy : w.unwritten i y) (a : Tile) :
    sget (fun _ => (0 : Byte)) (s.accOutTo w i a).scr y = sget (fun _ => 0) s.scr y := by
  rw [Win.unwritten, writeSpans_accOut hu] at hy
  refine accOutTo_keeps (P := fun u => sget (fun _ => (0 : Byte)) u.scr y = sget (fun _ => 0) s.scr y) rfl (fun r hr v u hkeep => ?_)
    (fun hmx r hr v u hkeep => ?_) a
  · obtain ⟨hlo, hhi⟩ := row_within (rowLines (32 * fmtBits (nbits i 8 4))) (nbits i 32 16) hr
    exact (sget_scrPutNat_other (hy _ List.mem_cons_self) hlo hhi v).trans hkeep
  · have hscales : (nbits i 48 16, 32) ∈ (if fmtIsMx (nbits i 8 4) then [(nbits i 48 16, 32)] else []) := by simp [hmx]
    exact (sget_scrPutNat_other (hy _ (List.mem_cons_of_mem _ hscales)) (by omega) (by omega) v).trans hkeep

-- VOP

theorem vopRun_scr {s t : State} (h : t.scr = s.scr) (w : Win) (i : Nat) : (t.vopRun w i).scr = (s.vopRun w i).scr := by
  simp only [State.vopRun, scrPutNat_scr, scrNat_of_scr h, h]

theorem sget_vopRun_other {s : State} {w : Win} {i y : Nat} (hu : uop i = 0x20) (hfull : uopEmpty i = false) (hy : w.unwritten i y) :
    sget (fun _ => (0 : Byte)) (s.vopRun w i).scr y = sget (fun _ => 0) s.scr y := by
  have hspan : (nbits i 64 16, rowLines (32 * nbits i 80 16 * fmtBits (nbits i 16 4))) ∈ writeSpans i := by simp [writeSpans, hfull, hu]
  exact sget_scrPutNat_other (hy _ hspan) le_rfl le_rfl _

-- TRANSPOSE

/-- Lines of a row of 32 elements of 2^e bytes. -/
abbrev trLines (i : Nat) : Nat := rowLines (32 * 2 ^ (3 + nbits i 8 2))

theorem elemBits_eq (e : Nat) : 2 ^ (3 + e) = 8 * 2 ^ e := pow_add 2 3 e

theorem trLines_holds (i : Nat) : 32 * 2 ^ nbits i 8 2 ≤ 64 * trLines i := by
  have hpitch := (cdiv_spec (n := 32 * 2 ^ (3 + nbits i 8 2)) (m := 512) (by decide)).1
  rw [trLines, rowLines]
  rw [elemBits_eq] at hpitch ⊢
  omega

/-- A byte of an element of a row lies in the row's lines. -/
theorem element_within {i j k : Nat} (hj : j < 32) (hk : k < 2 ^ nbits i 8 2) : 2 ^ nbits i 8 2 * j + k < 64 * trLines i := by
  have hfits := trLines_holds i
  have hnext : 2 ^ nbits i 8 2 * (j + 1) ≤ 2 ^ nbits i 8 2 * 32 := Nat.mul_le_mul_left _ hj
  rw [Nat.mul_succ] at hnext
  omega

/-- Row c of the destination: element c of every row of the source (R187). -/
def State.trRow (s : State) (w : Win) (i c : Nat) : List Byte :=
  leBytes (64 * trLines i) (pack (2 ^ (3 + nbits i 8 2))
    (((List.range 32).map fun r => s.scrNat w (nbits i 32 16 + r * trLines i) (64 * trLines i)).map
      fun row => elemAt row (2 ^ (3 + nbits i 8 2)) c))

theorem length_trRow (s : State) (w : Win) (i c : Nat) : (s.trRow w i c).length = 64 * trLines i := length_leBytes _ _

theorem trRow_of_scr {s t : State} (h : t.scr = s.scr) (w : Win) (i : Nat) : t.trRow w i = s.trRow w i := by
  funext c
  rw [State.trRow, State.trRow, scrNat_of_scr h]

theorem transposeRun_scr (s : State) (w : Win) (i : Nat) :
    (s.transposeRun w i).scr = w.putRows s.scr (64 * nbits i 48 16) (64 * trLines i) (s.trRow w i) 32 := by
  refine (List.foldl_hom State.scr fun u c => ?_).symm
  rw [scrPutNat_scr, Nat.mul_add, Nat.mul_left_comm]
  rfl

theorem only_transposeRun (s : State) (o : Op) (i : Nat) : only [.scr, .scrPoison] (progressRegs o) s (s.transposeRun o.win i) :=
  List.foldlRecOn (motive := only [.scr, .scrPoison] (progressRegs o) s) _ _ (only_refl _ _ s) fun u hu _ _ =>
    only_trans hu (only_scrPutNat u o _ _ _)

/-- Byte k of element r in row c of the destination is byte k of element c in row r of the source. -/
theorem getD_trRow (s : State) (w : Win) (i : Nat) {r c k : Nat} (hr : r < 32) (hc : c < 32) (hk : k < 2 ^ nbits i 8 2) :
    (s.trRow w i c).getD (2 ^ nbits i 8 2 * r + k) 0 =
      s.scrByte w (64 * (nbits i 32 16 + r * trLines i) + (2 ^ nbits i 8 2 * c + k)) := by
  have hfield : c * (8 * 2 ^ nbits i 8 2) + 8 * k = 8 * (2 ^ nbits i 8 2 * c + k) := by ring
  rw [State.trRow, getD_leBytes (element_within hr hk), elemBits_eq, nbits_pack _ (by simpa using hr) hk, List.getElem_map,
    List.getElem_map, List.getElem_range, elemAt, nbits_nbits _ _ (by omega), hfield, nbits_scrNat_byte s w _ (element_within hc hk)]

theorem writeSpans_transpose {i : Nat} (hu : uop i = 0x21) : writeSpans i = [(nbits i 48 16, 32 * trLines i)] := by
  simp [writeSpans, uopEmpty, hu]

-- the obligation

theorem accIn_spec {s : State} {id : Nat} {o : Op} {i : BitVec 128} {x : ScrIn} (h : s.atInstr id o i 0x11 x) :
    only [.ops, .sec, .health, .scrPoison] (progressRegs o) s (s.onInstr id 0x11 [] x) ∧ (s.onInstr id 0x11 [] x).advanced id o
      ∧ (s.onInstr id 0x11 [] x).tileOf id (1 - accOf i.toNat) = o.tile (1 - accOf i.toNat)
      ∧ (s.onInstr id 0x11 [] x).tileOf id (accOf i.toNat) = some (s.accInTile o.win i.toNat) := by
  obtain ⟨hcode, hfull, hgood⟩ := atInstr_good h
  have hrun := instrRun_accIn (ue := []) hfull hgood hcode
  rw [accInTile_of_scr ((only_scrIn s o x).1 .scr (by simp))] at hrun
  obtain ⟨honly, hadv, htile, -⟩ := onInstr_retired h hrun (sameProgram_setTile o _ _) (only_refl [] _ _) (by simp)
  exact ⟨only_mono honly (by simp) fun _ ho => ho, hadv, (htile _).trans (tile_setTile_other o _ _), (htile _).trans (tile_setTile_same o _ _)⟩

/-- An instruction that only writes lines: u is what it leaves before it retires. -/
theorem writes_spec {s u : State} {id code : Nat} {o : Op} {i : BitVec 128} {x : ScrIn} (h : s.atInstr id o i code x)
    (hrun : (s.scrIn o.win x).instrRun o i.toNat [] = (u.retire o, o, .ok))
    (hu : only [.scr, .scrPoison] (progressRegs o) (s.scrIn o.win x) u) :
    only [.scr, .scrPoison, .ops, .sec, .health] (progressRegs o) s (s.onInstr id code [] x) ∧ (s.onInstr id code [] x).advanced id o
      ∧ (s.onInstr id code [] x).tileOf id 0 = o.tile 0 ∧ (s.onInstr id code [] x).tileOf id 1 = o.tile 1
      ∧ (s.onInstr id code [] x).scr = u.scr := by
  obtain ⟨honly, hadv, htile, hscr⟩ := onInstr_retired h hrun (sameProgram_refl o) hu (by simp)
  exact ⟨only_mono honly (by simp) fun _ ho => ho, hadv, htile 0, htile 1, hscr⟩

/-- Settles O17: each instruction's effect on scratch is told by the lines it puts, and its tiles by the operation it leaves. -/
theorem accumulatorMovesAndVectorStepsWriteTheirLines : Obligations.AccumulatorMovesAndVectorStepsWriteTheirLines := by
  have hscr : ∀ (s : State) (o : Op) (x : ScrIn), (s.scrIn o.win x).scr = s.scr := fun s o x => (only_scrIn s o x).1 .scr (by simp)
  refine ⟨⟨fun s id o i x h => ⟨_, rfl, ?_⟩, fun s id o i a x h ha => ⟨_, rfl, ?_⟩⟩, fun s id o i x h => ⟨_, rfl, ?_⟩,
    fun s id o i x h _ he _ => ⟨_, rfl, ?_⟩⟩
  · obtain ⟨honly, hadv, hother, htile⟩ := accIn_spec h
    refine ⟨honly, hadv, hother, ?_, fun c hc => ?_⟩
    · rw [htile]
      rfl
    · rw [htile]
      exact getElem_accInTile s o.win i.toNat hc
  · obtain ⟨hcode, hfull, hgood⟩ := atInstr_good h
    obtain ⟨honly, hadv, htile0, htile1, hlines⟩ := writes_spec h (instrRun_accOut hfull hgood hcode ha) (only_accOutTo _ o _ a)
    have hto := hlines.trans (accOutTo_scr (hscr s o x) o.win i.toNat a)
    exact ⟨honly, hadv, htile0, htile1, hto, fun y hy => (congrArg (sget _ · y) hto).trans (sget_accOutTo_other hcode hy a)⟩
  · obtain ⟨hcode, hfull, hgood⟩ := atInstr_good h
    obtain ⟨honly, hadv, htile0, htile1, hlines⟩ := writes_spec h (instrRun_vop hfull hgood hcode) (only_scrPutNat _ o _ _ _)
    have hto := hlines.trans (vopRun_scr (hscr s o x) o.win i.toNat)
    exact ⟨honly, hadv, htile0, htile1, hto, fun y hy => (congrArg (sget _ · y) hto).trans (sget_vopRun_other hcode hfull hy)⟩
  · obtain ⟨hcode, hfull, hgood⟩ := atInstr_good h
    obtain ⟨honly, hadv, htile0, htile1, hlines⟩ := writes_spec h (instrRun_transpose hfull hgood hcode) (only_transposeRun _ o _)
    rw [transposeRun_scr, hscr, trRow_of_scr (hscr s o x)] at hlines
    refine ⟨honly, hadv, htile0, htile1, fun r c k hr hc hk => ?_, fun y hy => ?_⟩
    · rw [State.scrByte, hlines, Nat.mul_add, Nat.mul_left_comm 64 c, Nat.add_assoc,
        sget_putRows_key (length_trRow s o.win i.toNat) (win_engine_lt he) hc (element_within hr hk), Nat.add_assoc]
      exact getD_trRow s o.win i.toNat hr hc hk
    · rw [writeSpans_transpose hcode] at hy
      rw [hlines, sget_putRows_other (length_trRow s o.win i.toNat) fun b hlo hhi => hy _ List.mem_cons_self b hlo ?_]
      omega

end Sys2Proof.Machine
end

section
/-! PROOFS. The finishing run of a stream reduction whose steering has not begun (R218, R220, R223). -/

namespace Sys2Proof.Machine

theorem exec_reduceStreamRun {s : State} {id : Nat} {o : Op} (h : s.runsOp id o 0x20) (hs : isStream o.desc = true) (x : ScrIn) :
    exec (.reduceStreamRun id true x) s = .next (((s.scrIn o.win x).redStreamRun o true).stepped o) := by
  show Host.Outcome.next (s.onOp id (· == 0x20) fun t p => if isStream p.desc then (t.scrIn p.win x).redStreamRun p true else t) = _
  rw [onOp_of_runs h, if_pos hs]

/-- A stream REDUCE: OR of two inputs of four INT32, 64 B apart from 0x1000 on, with its result at 0x1000, the place of input 0. -/
def inPlaceDesc : BitVec 512 :=
  ([(128, 0x1000), (192, 0x1000), (256, 64), (288, 4), (320, 2), (352, 0x2CC4), (384, 1), (400, 9), (432, 8)] : List (Nat × Nat)).foldl
    (fun d p => d ||| BitVec.ofNat 512 p.2 <<< p.1) 0x20

/-- It runs on engine 2, in the window from granule 1 on. -/
def inPlaceOp : Op := { id := 5, queue := 3, index := 0, ctx := 1, gen := 1, desc := inPlaceDesc, dynamic := false, engine := some 2, scr := 1, gran := 4 }

/-- Its reduction has both inputs, each lane holds 1, and its steering has not begun. -/
def inPlaceStream : Stream :=
  { ctx := 1, redId := 9, queue := 3, engine := 2, scr := 1, gran := 1, desc := inPlaceDesc, steer := 0,
    lanes := List.replicate 4 { acc := 1, flags := 8, weight := 2 }, receipt := [(0, 0, true), (1, 0, true)], waiting := [], invalid := false }

def inPlaceState : State := { State.reset with ops := [inPlaceOp], reds := [inPlaceStream] }

/-- What the finishing clause of O19 asks for. -/
theorem inPlace_finishes :
    inPlaceState.runsOp 5 inPlaceOp 0x20 ∧ isStream inPlaceOp.desc = true ∧ inPlaceState.redOf inPlaceOp = some inPlaceStream
      ∧ (inPlaceState.scrIn inPlaceOp.win {}).scrBad inPlaceOp.win 0 inPlaceStream.lines = false
      ∧ inPlaceStream.inputsDone = rdCount inPlaceOp.desc ∧ inPlaceStream.maxWeight ≤ 2 ^ 20 ∧ rdForward inPlaceOp.desc = false
      ∧ inPlaceState.plainFor inPlaceOp.ctx (rdDst inPlaceOp.desc) (laneResult inPlaceOp.desc 0 inPlaceStream.lanes).length := by
  decide +kernel

/-- The close that goes before the result turns steering off only at the next boundary: the result's line is taken for a late input. -/
theorem inPlace_result_steered :
    (((inPlaceState.scrIn inPlaceOp.win {}).redStreamRun inPlaceOp true).stepped inPlaceOp).byte (rdDst inPlaceOp.desc) = 0
      ∧ 0 < (laneResult inPlaceOp.desc 0 inPlaceStream.lanes).length ∧ (laneResult inPlaceOp.desc 0 inPlaceStream.lanes).getD 0 0 = 1 := by
  decide +kernel

/-- Refutes O19: its finishing clause judges on the state before the run which lines are steered, and does not ask that the result lies outside
the inputs' range, as the check that opens a reduction does (R217). A reduction that finishes before its steering began is closed first; the
store then meets its range as one of a finished reduction, and counts the result's line as a duplicate instead of storing it (R223). -/
theorem not_streamReductionsTakeSteeredWritesAndFinish : ¬ Obligations.StreamReductionsTakeSteeredWritesAndFinish := by
  unfold Obligations.StreamReductionsTakeSteeredWritesAndFinish
  rintro ⟨⟨-, hruns⟩, -⟩
  obtain ⟨hrun, hstream, hred, hgood, hdone, hweight, hforward, hplain⟩ := inPlace_finishes
  obtain ⟨-, hfinish, -⟩ := hruns inPlaceState 5 2 inPlaceOp inPlaceStream {} hrun hstream rfl hred rfl rfl rfl hgood
  obtain ⟨t, hexec, -, -, hresult, -⟩ := hfinish hdone hweight hforward (fun _ => rfl) hplain
  obtain rfl := Host.Outcome.next.inj ((exec_reduceStreamRun hrun hstream {}).symm.trans hexec)
  obtain ⟨hzero, hlen, hone⟩ := inPlace_result_steered
  have hbyte := hresult 0 hlen
  rw [Nat.add_zero, hzero, hone] at hbyte
  exact absurd hbyte (by decide)

end Sys2Proof.Machine
end

section
/-! PROOFS. Messages that link ports have brought stay where they are while others leave and pool memory is written (R385, R456, R541). -/

namespace Sys2Proof.Machine

/-- No message comes to a port's queue or leaves it. -/
structure SameRx (s t : State) : Prop where
  rx : t.link.rx = s.link.rx

namespace SameRx

variable {s t : State}

theorem refl (s : State) : SameRx s s := ⟨rfl⟩

theorem of_link (h : SameRx s t) {u : State} (k : u.link = t.link) : SameRx s u := ⟨by rw [k, h.rx]⟩

theorem of_only {ps : List Part} {l : List Nat} (h : SameRx s t) {u : State} (k : only ps l t u) (hlink : Part.link ∉ ps) : SameRx s u :=
  h.of_link (k.1 .link hlink)

theorem wrn (h : SameRx s t) (o n : Nat) : SameRx s (t.wrn o n) := h.of_link (State.wrn_link t o n)
theorem wrFld (h : SameRx s t) (o a w v : Nat) : SameRx s (t.wrFld o a w v) := h.of_link (State.wrFld_link t o a w v)
theorem set (h : SameRx s t) (o : Nat) (m : Word) : SameRx s (t.set o m) := h.of_link (State.set_link t o m)
theorem sat (h : SameRx s t) (o n : Nat) : SameRx s (t.sat o n) := h.of_link (State.sat_link t o n)
theorem wrap (h : SameRx s t) (o n : Nat) : SameRx s (t.wrap o n) := h.of_link (State.wrap_link t o n)
theorem emit (h : SameRx s t) (o : Out) : SameRx s (t.emit o) := h.of_link (State.emit_link t o)
theorem progress (h : SameRx s t) (u : HUnit) : SameRx s (t.progress u) := h.of_link rfl
theorem fault (h : SameRx s t) (x r : Nat) : SameRx s (t.fault x r) := h.of_link rfl
theorem setOp (h : SameRx s t) (o : Op) : SameRx s (t.setOp o) := h.of_link rfl
theorem setRed (h : SameRx s t) (r : Stream) : SameRx s (t.setRed r) :=
  h.of_only (only_setRed (l := [dieReg (r.engine / 64) 0x500, dieReg (r.engine / 64) 0x504]) t r (by simp) (by simp)) (by simp)
theorem health (h : SameRx s t) (v : HealthS) : SameRx s { t with health := v } := h.of_link rfl
theorem tier (h : SameRx s t) (v : TierS) : SameRx s { t with tier := v } := h.of_link rfl

theorem when (h : SameRx s t) (c : Bool) {f : State → State} (hf : SameRx s (f t)) : SameRx s (t.when c f) := by
  cases c
  · exact h
  · exact hf

/-- A fold that carries a state along. -/
theorem foldl {α β : Type} (π : β → State) (l : List α) {f : β → α → β} (hf : ∀ b, ∀ a ∈ l, SameRx s (π b) → SameRx s (π (f b a))) (b : β)
    (h : SameRx s (π b)) : SameRx s (π (l.foldl f b)) :=
  List.foldlRecOn (motive := fun b => SameRx s (π b)) l f h fun b hb a ha => hf b a ha hb

theorem each {α : Type} (h : SameRx s t) (l : List α) {f : α → State → State} (hf : ∀ a u, SameRx s u → SameRx s (f a u)) :
    SameRx s (t.each l f) :=
  foldl id l (fun u a _ hu => hf a u hu) t h

-- messages that leave (R454, R457-R461)

theorem setLane (h : SameRx s t) (x : Lane2) : SameRx s (t.setLane x) := ⟨h.rx⟩
theorem setCredit (h : SameRx s t) (l k n : Nat) : SameRx s (t.setCredit l k n) := ⟨h.rx⟩
theorem keep (h : SameRx s t) (r : Replay) : SameRx s (t.keep r) := ⟨h.rx⟩
theorem replay (h : SameRx s t) (l : List Replay) : SameRx s { t with link := { t.link with replay := l } } := ⟨h.rx⟩
theorem awaits (h : SameRx s t) (l : List Await) : SameRx s { t with link := { t.link with awaits := l } } := ⟨h.rx⟩

theorem leave (h : SameRx s t) (r : Replay) : SameRx s (t.leave r) := by
  have hout := (h.emit (.msg r.link r.msg (t.record r.link r.msg))).progress (.link r.link)
  unfold State.leave
  dsimp only
  split
  · exact (hout.setCredit _ _ _).keep _
  · split
    · exact hout.keep _
    · exact (hout.replay _).sat _ _

theorem pump (h : SameRx s t) (l : Nat) : SameRx s (t.pump l) := by
  refine wrn (foldl Prod.fst _ (fun q r _ hq => ?_) (t, []) h) _ _
  split
  · exact hq
  · split
    · exact hq.leave _
    · exact hq

theorem sendOn (h : SameRx s t) (l : Nat) (m : Msg) (ingress : Nat) : SameRx s (t.sendOn l m ingress) := by
  unfold State.sendOn
  dsimp only
  split
  · exact h.when _ (h.emit _)
  · exact ((h.setLane _).replay _).pump _

theorem ask (h : SameRx s t) (v ingress : Nat) (m : Msg) (who : Who) : SameRx s (t.ask v ingress m who) := by
  have hsend : SameRx s (t.sendTo v ingress m) := by
    unfold State.sendTo
    split
    · exact h.sendOn _ _ _
    · exact h
  exact hsend.awaits _

-- pool memory is written (R356, R385, R541-R543)

theorem quotaHit (h : SameRx s t) (x : Nat) (st : Status) : SameRx s (t.quotaHit x st) := h.when _ (h.set _ _)
theorem setPage (h : SameRx s t) (g : Page) : SameRx s (t.setPage g) := h.tier _
theorem locTake (h : SameRx s t) (l : Loc) (p : Nat) : SameRx s (t.locTake l p) := h.tier _
theorem locGive (h : SameRx s t) (l : Loc) (p : Nat) : SameRx s (t.locGive l p) := h.tier _

theorem admitTo (h : SameRx s t) (g : Page) (k : Nat) : SameRx s (t.admitTo g k).2 := by
  unfold State.admitTo
  dsimp only
  split
  · exact h.quotaHit _ _
  · exact h

theorem abandonMove (h : SameRx s t) (g : Page) : SameRx s (t.abandonMove g) := by
  unfold State.abandonMove
  split
  · exact h
  · exact ((h.setPage _).locGive _ _).sat _ _

theorem toScrub (h : SameRx s t) (p x : Nat) (l : Loc) : SameRx s (t.toScrub p x l) :=
  (((h.tier _).when _ ((h.tier _).wrap _ _)).wrn _ _).wrFld _ _ _ _

theorem redirect (h : SameRx s t) (p : Nat) : SameRx s (t.redirect p).1 := by
  unfold State.redirect
  split
  · exact h
  · rename_i g _
    split
    · exact h
    · have ha := h.admitTo g 1
      split
      · rename_i he
        rw [he] at ha
        exact ha
      · rename_i he
        rw [he] at ha
        refine of_only (SameRx.set (((ha.abandonMove g).locTake _ _).setPage _ |>.toScrub _ _ _) _ _) (only_syncUse (xs := [entryCtx g.entry]) ?_ _) (by simp)
        simp [Spares.entryCtx_lt]

theorem takeWrite (h : SameRx s t) (a n : Nat) : SameRx s (t.takeWrite a n).1 := by
  have hr : ∀ st : Status, SameRx s ((pagesOf a n).foldl (fun q p => if q.2 == Status.ok then q.1.redirect p else q) (t, st)).1 := fun st =>
    foldl Prod.fst _ (fun q p _ hq => by
      split
      · exact hq.redirect p
      · exact hq) _ h
  unfold State.takeWrite
  dsimp only
  split
  · exact (hr _).each _ fun k u hu => hu.of_only (only_cacheTake u k) (by simp)
  · exact hr _

theorem mirrorSend (h : SameRx s t) (r a n : Nat) (who : Who) (sub : Nat) : SameRx s (t.mirrorSend r a n who sub) :=
  h.each _ fun _ _ hu => hu.ask _ _ _ _

theorem mirrorWrite (h : SameRx s t) (a n : Nat) (who : Who) : SameRx s (t.mirrorWrite a n who) := by
  refine h.each _ fun p u hu => ?_
  split
  · exact hu
  · dsimp only
    split
    · exact hu.mirrorSend _ _ _ _ _
    · unfold State.markDirty
      split
      · exact hu
      · exact (hu.health _).wrap _ _
    · split
      · exact hu
      · exact hu.mirrorSend _ _ _ _ _
    · exact hu

theorem saveMem (h : SameRx s t) (a : Nat) (d : List Byte) : SameRx s (t.saveMem a d).1 := by
  have hw := h.takeWrite a d.length
  have hstore := hw.of_only (only_store (ps := storeParts) (l := dirRegs) _ a d (by decide) (by decide) (by decide) (by decide) (by decide)
    fun _ ho => ho) (by decide)
  unfold State.saveMem
  dsimp only
  split
  · exact (hstore.of_only (only_expWrite _ a d.length) (by simp)).mirrorWrite _ _ _
  · exact hw

theorem steerTo (h : SameRx s t) (r : Stream) (l : List (Nat × List Byte)) (keep : Bool) : SameRx s (t.steerTo r l keep) := by
  unfold State.steerTo
  dsimp only
  split
  · exact h.sat _ _
  · split
    · exact (h.sat _ _).sat _ _
    · exact (h.sat _ _).when _ ((h.sat _ _).setRed _)

theorem save (h : SameRx s t) (x a : Nat) (d : List Byte) : SameRx s (t.save x a d).1 := by
  have hsteer : SameRx s (t.steerWrite x a d true).1 := by
    unfold State.steerWrite
    split
    · exact h
    · split
      · exact h.sat _ _
      · exact h.each _ fun q u hu => hu.steerTo _ _ _
  refine foldl Prod.fst _ (fun q p _ hq => ?_) _ hsteer
  split
  · exact hq.saveMem _ _
  · exact hq

-- records and faults (R147, R546, R585)

theorem msix (h : SameRx s t) (p v : Nat) : SameRx s (t.msix p v) := by
  unfold State.msix
  split
  · exact h
  · split
    · exact ⟨h.rx⟩
    · exact h.emit _

theorem errLog (h : SameRx s t) (k st so x a d : Nat) : SameRx s (t.errLog k st so x a d) := by
  unfold State.errLog
  split
  · exact h.sat _ _
  · extract_lets slot tag ws u v
    have hv : SameRx s v := (h.each _ fun _ _ hu => hu.wrn _ _).wrap _ _
    split
    · exact hv
    · exact (hv.health _).when _ ((hv.health _).msix _ _)

theorem poisonMet (h : SameRx s t) (a : Nat) : SameRx s (t.poisonMet a) := by
  unfold State.poisonMet
  exact h.when _ ((h.set _ _).sat _ _)

theorem finish (h : SameRx s t) (o : Op) (st : Status) (a : Nat) : SameRx s (t.finish o st a) :=
  (h.setOp _).when _ ((((h.setOp _).errLog _ _ _ _ _ _).poisonMet _).fault _ _)

-- an answer reaches an operation, a host or a mirror (R446, R468, R541)

theorem putAway (h : SameRx s t) (o : Op) (a : Nat) (d : List Byte) : SameRx s (t.putAway o a d).1 := by
  refine foldl Prod.fst _ (fun q p _ hq => ?_) _ h
  dsimp only
  split
  · exact hq
  · split
    · exact hq.save _ _ _
    · exact hq.each _ fun _ _ hu => hu.each _ fun _ _ hv => hv.ask _ _ _ _

theorem remoteWrite (h : SameRx s t) (o : Op) (a : Nat) (d : List Byte) : SameRx s (t.remoteWrite o a d) := by
  have hput := h.putAway o a d
  unfold State.remoteWrite
  dsimp only
  split
  · exact hput.setOp _
  · exact hput.finish _ _ _

theorem copyAway (h : SameRx s t) (o : Op) (ue : List Nat) : SameRx s (t.copyAway o ue) := by
  unfold State.copyAway
  dsimp only
  split
  · exact h.finish _ _ _
  · exact h.remoteWrite _ _ _

theorem opAnswer (h : SameRx s t) (id a : Nat) (st : Status) (d : List Byte) : SameRx s (t.opAnswer id a st d) := by
  unfold State.opAnswer
  split
  · exact h
  · split
    · extract_lets w u
      have hu : SameRx s u := h.setOp w
      split
      · exact hu
      · split
        · exact hu.finish _ _ _
        · exact hu.copyAway _ _
    · exact h

theorem hpFail (h : SameRx s t) (port dpa w : Nat) (st : Status) : SameRx s (t.hpFail port dpa w st) :=
  (((h.wrn _ _).wrn _ _).wrn _ _).sat _ _

theorem hostEnd (h : SameRx s t) (port dpa w kind : Nat) (st : Status) (d : List Byte) (v : Nat) : SameRx s (t.hostEnd port dpa w kind st d v) := by
  unfold State.hostEnd
  extract_lets u o
  have hu : SameRx s u := by
    unfold u
    split
    · exact h
    · exact h.hpFail _ _ _ _
  exact (hu.when _ (hu.emit _)).progress _

theorem fresh (h : SameRx s t) : SameRx s t.fresh.2 := ⟨h.rx⟩

theorem degrade (h : SameRx s t) (r : Nat) : SameRx s (t.degrade r) := by
  unfold State.degrade
  exact h.when _ (((h.wrFld _ _ _ _).set _ _).fresh.errLog _ _ _ _ _ _)

theorem resyncPage (h : SameRx s t) (r p : Nat) : SameRx s (t.resyncPage r p) := by
  unfold State.resyncPage
  split
  · exact h
  · exact (h.health _).when _ ((h.health _).wrn _ _)

theorem answered (h : SameRx s t) (a : Await) (m : Msg) : SameRx s (t.answered a m) := by
  unfold State.answered
  dsimp only
  split
  · exact h.opAnswer _ _ _ _
  · split
    · exact h.awaits _
    · exact h.hostEnd _ _ _ _ _ _ _
  · split
    · split
      · exact h.resyncPage _ _
      · exact h
    · cases t.mirrorOf (a.addr / 2 ^ 21) with
      | none => exact h
      | some r => exact h.degrade r
  · split
    · exact ⟨h.rx⟩
    · exact h
  · exact h

end SameRx

end Sys2Proof.Machine
end

section
/-! PROOFS. Open reductions and their close (R225, R227, R229, R230). -/

namespace Sys2Proof.Machine

theorem openRed_spec {s : State} {x id : Nat} {r : Stream} (h : s.openRed x id = some r) : r.isOpen = true ∧ r.ctx = x ∧ r.redId = id := by
  simpa [and_assoc] using List.find?_some h

theorem reds_setRed (s : State) (r : Stream) :
    (s.setRed r).reds = s.reds.map (fun q => if q.ctx == r.ctx && q.redId == r.redId && q.isOpen then r else q) := by
  rw [State.setRed, State.cellSync, State.wrn_reds, State.wrn_reds]

theorem openRed_setRed_open {s : State} {q r : Stream} (hr : s.openRed q.ctx q.redId = some r) (hq : q.isOpen = true) :
    (s.setRed q).openRed q.ctx q.redId = some q := by
  have hsame : (fun p => p.isOpen && p.ctx == q.ctx && p.redId == q.redId) ∘
      (fun p => if p.ctx == q.ctx && p.redId == q.redId && p.isOpen then q else p) = fun p => p.isOpen && p.ctx == q.ctx && p.redId == q.redId := by
    funext p
    dsimp only [Function.comp]
    split
    · rename_i hp
      simp only [Bool.and_eq_true] at hp
      simp [hp, hq]
    · rfl
  obtain ⟨hopen, hctx, hid⟩ := openRed_spec hr
  rw [State.openRed, reds_setRed, List.find?_map, hsame]
  rw [State.openRed] at hr
  rw [hr, Option.map_some, if_pos (by simp [hopen, hctx, hid])]

theorem openRed_setRed_closed (s : State) {q : Stream} (hq : q.isOpen = false) : (s.setRed q).openRed q.ctx q.redId = none := by
  rw [State.openRed, reds_setRed, List.find?_eq_none]
  intro p hp
  obtain ⟨r, -, rfl⟩ := List.mem_map.1 hp
  split
  · simp [hq]
  · rename_i hr
    simpa [and_assoc, and_comm, and_left_comm] using hr

theorem only_redSync (s : State) (e : Nat) : only [] (redRegs e) s (s.redSync e) := by
  unfold State.redSync
  refine only_trans ?_ (only_wrn _ _ _ (by simp [redRegs]))
  split
  · exact only_trans (only_trans (only_trans (only_wrn _ _ _ (by simp [redRegs])) (only_wrn _ _ _ (by simp [redRegs])))
      (only_wrn _ _ _ (by simp [redRegs]))) (only_wrn _ _ _ (by simp [redRegs]))
  · exact only_trans (only_trans (only_trans (only_wr _ _ _ (by simp [redRegs])) (only_wr _ _ _ (by simp [redRegs])))
      (only_wr _ _ _ (by simp [redRegs]))) (only_wr _ _ _ (by simp [redRegs]))

/-- The first part of an early close: the reduction is closed, its descriptor ends, and one that is too long is counted. -/
def State.redEnds (s : State) (r : Stream) (st : Status) : State :=
  (((s.redClosed r).redOp r).elim (s.redClosed r) fun o => (s.redClosed r).done o st).when (st == .capacityExhausted)
    (·.sat (dieReg (r.engine / 64) 0x210) 1)

theorem only_redEnds (s : State) (r : Stream) (st : Status) :
    only [.ops] [dieReg (r.engine / 64) 0x210] (s.redClosed r) (s.redEnds r st) := by
  refine only_trans ?_ (only_when _ _ fun _ => only_sat _ _ _ (by simp))
  cases (s.redClosed r).redOp r with
  | none => exact only_refl _ _ _
  | some o => exact only_done _ _ _ _ (by simp)

theorem openRed_of_reds {s t : State} (h : t.reds = s.reds) : t.openRed = s.openRed := by
  funext x id
  rw [State.openRed, State.openRed, h]

theorem openRed_redEnds (s : State) (r : Stream) (st : Status) : (s.redEnds r st).openRed r.ctx r.redId = none := by
  rw [openRed_of_reds ((only_redEnds s r st).1 .reds (by simp)), State.redClosed, openRed_of_reds ((only_redSync _ _).1 .reds (by simp))]
  exact openRed_setRed_closed s (q := { r with steer := 2, waiting := [] }) rfl

/-- The close of a reduction that has no parent. -/
theorem redClose_root (s : State) {r : Stream} (h : rdForward r.desc = false) (st : Status) (n : Nat) : s.redClose n r st = s.redEnds r st := by
  unfold State.redClose
  simp only [h]
  rfl

section
variable {s : State} {d x id input group op fmt : Nat} {r : Stream} (b : List Byte)

theorem partArrive_refused (code : Nat) (bad : Bool) (h : s.partRefused x id input group = true) :
    s.partArrive d x id input group op fmt code b bad = s.sat (dieReg d 0x20C) 1 := if_pos h

variable (hr : s.openRed x id = some r) (hfit : s.partRefused x id input group = false) (hop : op = rdOp r.desc) (hfmt : fmt = rdIn r.desc)
include hr hfit hop hfmt

theorem partArrive_waits :
    s.partArrive d x id input group op fmt 0 b false = s.setRed { r with waiting := r.waiting ++ [.part input group op fmt 0 b] } := by
  simp [State.partArrive, hfit, hr, hop, hfmt]

theorem partArrive_poisoned : s.partArrive d x id input group op fmt 0 b true = (s.redClose 64 r .mediaUncorrectable).fault r.ctx 2 := by
  simp [State.partArrive, hfit, hr, hop, hfmt]

end

end Sys2Proof.Machine
end

section
/-! PROOFS. Partial blocks and responses that a link port brings (R225, R227, R446, R456, R480). -/

namespace Sys2Proof.Machine

-- a port serves its oldest message of a kind

/-- Message m of link port l is off the port's queue. -/
def State.rxTaken (s : State) (l : Nat) (m : Msg) : State := { s with link := { s.link with rx := s.link.rx.erase (l, m) } }

theorem only_rxTaken (s : State) (l : Nat) (m : Msg) : only [.link] [] s (s.rxTaken l m) := only_put_link _ _ _ (by simp)

theorem onRx_of_brought {s : State} {l kind : Nat} {m : Msg} (h : s.brought l kind m) (f : State → Msg → State) :
    s.onRx l kind f = f (s.rxTaken l m) m := by
  obtain ⟨hready, hpower, -, hfind⟩ := h
  have hserves : ¬ (!s.ready || s.pwr.state == 2) = true := by simp [hready, hpower]
  rw [State.onRx, if_neg hserves, State.takeRx, hfind]
  rfl

theorem access_of_passes {s : State} {l : Nat} {m : Msg} (h : s.passes l m) (kind : Nat) (f : State → State) : s.access l m kind f = f s := by
  obtain ⟨htag, hepoch⟩ := h
  simp [State.access, htag, hepoch]

-- RED_PARTIAL

theorem exec_redPartial {s : State} {l : Nat} {m : Msg} (hb : s.brought l 0x07 m) (hp : s.passes l m) (bad : Bool) :
    exec (.redPartial l bad) s = .next ((s.rxTaken l m).serveRed l m bad).wakeIdle :=
  congrArg Host.Outcome.next ((onRx_of_brought hb _).trans (access_of_passes (s := s.rxTaken l m) hp 0 _))

/-- The reduction that a RED_PARTIAL names, with its block at the end of what waits. -/
def Stream.withPart (r : Stream) (m : Msg) : Stream :=
  { r with waiting := r.waiting ++ [.part (nbits m.addr 16 12) (nbits m.addr 28 16) (nbits m.addr 44 4) (nbits m.addr 48 4) 0 m.payload] }

section
variable {s : State} {l : Nat} {m : Msg}

theorem serveRed_refused (h : s.partRefused m.ctx (nbits m.addr 0 16) (nbits m.addr 16 12) (nbits m.addr 28 16) = true) (bad : Bool) :
    s.serveRed l m bad = s.sat (dieReg (l / 16) 0x20C) 1 :=
  partArrive_refused _ _ _ h

variable {r : Stream} (hr : s.openRed m.ctx (nbits m.addr 0 16) = some r)
  (hfit : s.partRefused m.ctx (nbits m.addr 0 16) (nbits m.addr 16 12) (nbits m.addr 28 16) = false)
  (hcode : m.sub % 256 = 0) (hop : nbits m.addr 44 4 = rdOp r.desc) (hfmt : nbits m.addr 48 4 = rdIn r.desc)
include hr hfit hcode hop hfmt

theorem serveRed_waits : s.serveRed l m false = s.setRed (r.withPart m) := by
  simp only [State.serveRed, hcode]
  exact partArrive_waits m.payload hr hfit hop hfmt

theorem serveRed_poisoned : s.serveRed l m true = (s.redClose 64 r .mediaUncorrectable).fault r.ctx 2 := by
  simp only [State.serveRed, hcode]
  exact partArrive_poisoned m.payload hr hfit hop hfmt

end

theorem fault_mem_faults (s : State) (x r : Nat) : { ctx := x, gen := s.ctxGen x, reason := r } ∈ (s.fault x r).ctx.faults :=
  List.mem_append_right _ (List.mem_singleton_self _)

section
variable {s : State} {l : Nat} {m : Msg} (hb : s.brought l 0x07 m) (hp : s.passes l m)
include hb hp

theorem redPartial_refused (h : s.partRefused m.ctx (nbits m.addr 0 16) (nbits m.addr 16 12) (nbits m.addr 28 16) = true) (bad : Bool) :
    ∃ t, exec (.redPartial l bad) s = .next t ∧ only [.link, .pwr] [dieReg (l / 16) 0x20C] s t
      ∧ (t.rd (dieReg (l / 16) 0x20C)).toNat = min 0xFFFFFFFF ((s.rd (dieReg (l / 16) 0x20C)).toNat + 1) := by
  refine ⟨_, exec_redPartial hb hp bad, ?_⟩
  rw [serveRed_refused (s := s.rxTaken l m) h]
  have hwake := only_wakeIdle (ps := [.pwr]) [] ((s.rxTaken l m).sat (dieReg (l / 16) 0x20C) 1) (by simp)
  refine ⟨only_trans (only_mono (only_rxTaken s l m) (by simp) (by simp))
    (only_trans (only_sat _ _ _ (by simp)) (only_mono hwake (by simp) (by simp))), ?_⟩
  rw [hwake.2 _ (by simp), rd_sat_toNat]
  rfl

variable {r : Stream} (hr : s.openRed m.ctx (nbits m.addr 0 16) = some r)
  (hfit : s.partRefused m.ctx (nbits m.addr 0 16) (nbits m.addr 16 12) (nbits m.addr 28 16) = false)
  (hcode : m.sub % 256 = 0) (hop : nbits m.addr 44 4 = rdOp r.desc) (hfmt : nbits m.addr 48 4 = rdIn r.desc)
include hr hfit hcode hop hfmt

theorem redPartial_waits :
    ∃ t, exec (.redPartial l false) s = .next t
      ∧ only [.link, .reds, .pwr] [dieReg (r.engine / 64) 0x500, dieReg (r.engine / 64) 0x504] s t ∧ t.link.rx = s.link.rx.erase (l, m)
      ∧ t.openRed m.ctx (nbits m.addr 0 16) = some (r.withPart m) := by
  obtain ⟨hopen, hctx, hid⟩ := openRed_spec hr
  refine ⟨_, exec_redPartial hb hp false, ?_⟩
  rw [serveRed_waits (s := s.rxTaken l m) hr hfit hcode hop hfmt]
  have hset := only_setRed (l := [dieReg (r.engine / 64) 0x500, dieReg (r.engine / 64) 0x504]) (s.rxTaken l m) (r.withPart m)
    (by simp [Stream.withPart]) (by simp [Stream.withPart])
  have hwake := only_wakeIdle (ps := [.pwr]) [] ((s.rxTaken l m).setRed (r.withPart m)) (by simp)
  refine ⟨only_trans (only_mono (only_rxTaken s l m) (by simp) (by simp))
    (only_trans (only_mono hset (by simp) fun _ h => h) (only_mono hwake (by simp) (by simp))), ?_, ?_⟩
  · rw [hwake.1 .link (by simp), hset.1 .link (by simp)]
    rfl
  · rw [← hctx, ← hid] at hr ⊢
    rw [openRed_of_reds (hwake.1 .reds (by simp))]
    exact openRed_setRed_open (s := s.rxTaken l m) (q := r.withPart m) hr hopen

theorem redPartial_poisoned (hroot : rdForward r.desc = false) :
    ∃ t, exec (.redPartial l true) s = .next t ∧ t.openRed m.ctx (nbits m.addr 0 16) = none ∧ ∃ f ∈ t.ctx.faults, f.ctx = m.ctx ∧ f.reason = 2 := by
  obtain ⟨-, hctx, hid⟩ := openRed_spec hr
  refine ⟨_, exec_redPartial hb hp true, ?_⟩
  rw [serveRed_poisoned (s := s.rxTaken l m) hr hfit hcode hop hfmt, redClose_root _ hroot, ← hctx, ← hid]
  have hwake := only_wakeIdle (ps := [.pwr]) [] (((s.rxTaken l m).redEnds r .mediaUncorrectable).fault r.ctx 2) (by simp)
  rw [openRed_of_reds (hwake.1 .reds (by simp)), hwake.1 .ctx (by simp)]
  exact ⟨openRed_redEnds _ r _, _, fault_mem_faults _ _ _, rfl, rfl⟩

end

-- responses

/-- The oldest request that response m on link port l answers. -/
def State.awaitOf (s : State) (l : Nat) (m : Msg) : Option Await :=
  s.link.awaits.find? fun a => a.peer == (if s.ztl l then 0x100 + l else m.src) && (answers m.kind).contains a.kind && a.ctx == m.ctx && a.addr == m.addr

/-- Request a waits no more. -/
def State.awaitEnds (s : State) (a : Await) : State := { s with link := { s.link with awaits := s.link.awaits.erase a } }

theorem only_awaitEnds (s : State) (a : Await) : only [.link] [] s (s.awaitEnds a) := only_put_link _ _ _ (by simp)

theorem exec_response {s : State} {l k : Nat} {c : Sys2Proof.Instr} {m : Msg}
    (hc : (k, c) ∈ [(0x02, Sys2Proof.Instr.rdData l), (0x04, .wrResp l), (0x06, .atomicResp l), (0x21, .tRdData l), (0x23, .tWrResp l), (0x25, .tAtomicResp l)])
    (hb : s.brought l k m) : exec c s = .next ((s.rxTaken l m).response l m) := by
  simp only [List.mem_cons, Prod.mk.injEq, List.not_mem_nil, or_false] at hc
  rcases hc with ⟨rfl, rfl⟩ | ⟨rfl, rfl⟩ | ⟨rfl, rfl⟩ | ⟨rfl, rfl⟩ | ⟨rfl, rfl⟩ | ⟨rfl, rfl⟩ <;>
    exact congrArg Host.Outcome.next (onRx_of_brought hb _)

section
variable {s : State} {l : Nat} {m : Msg} (hpass : s.ztl l = true ∨ (s.tagCheck l m.epoch.toNat m.ctx m.gen).1 = .ok)
include hpass

theorem response_kept : ¬ (!s.ztl l && (s.tagCheck l m.epoch.toNat m.ctx m.gen).1 != .ok) = true := by
  rcases hpass with hztl | hok
  · simp [hztl]
  · simp [hok]

theorem response_unasked (h : s.awaitOf l m = none) : s.response l m = s := by
  rw [State.awaitOf] at h
  simp only [State.response, if_neg (response_kept hpass), h]

theorem response_answers {a : Await} (h : s.awaitOf l m = some a) : s.response l m = (s.awaitEnds a).answered a m := by
  rw [State.awaitOf] at h
  simp only [State.response, if_neg (response_kept hpass), h]
  rfl

end

/-- A request of a tray or of a service core ends with its answer; lines that a tray could not give are known bad. -/
theorem only_answered_unit (s : State) {a : Await} (h : a.who = .tray ∨ a.who = .core 0) (m : Msg) : only [.poison] [] s (s.answered a m) := by
  unfold State.answered
  rcases h with h | h
  · simp only [h]
    split
    · exact only_put_poison _ _ _ (by simp)
    · exact only_refl _ _ _
  · simp only [h]
    exact only_refl _ _ _

/-- The data of a host's read leave on its port, if that is UP. -/
def State.readEnds (s : State) (port : Nat) (d : List Byte) : State :=
  (s.when (s.hostUp port) (·.emit (.memData port d false (s.devLoad port)))).progress (.host port)

theorem only_readEnds (s : State) (port : Nat) (d : List Byte) : only [.out, .health] [] s (s.readEnds port d) :=
  only_trans (only_when _ _ fun _ => only_emit _ _ _ (by simp)) (only_progress _ _ _ (by simp))

theorem out_readEnds {s : State} {port : Nat} (h : s.hostUp port = true) (d : List Byte) :
    (s.readEnds port d).out = .memData port d false (s.devLoad port) :: s.out := by
  rw [State.readEnds, h]
  rfl

theorem answered_read {s : State} {a : Await} {m : Msg} {port dpa w : Nat} (hwho : a.who = .host port dpa w 0)
    (hlast : ∀ b ∈ s.link.awaits, b.who ≠ a.who) (hst : a.st = .ok) (hcode : m.sub % 256 = 0) : s.answered a m = s.readEnds port m.payload := by
  have hnone : (s.link.awaits.any fun b => b.who == Who.host port dpa w 0) = false := by
    rw [← hwho]
    simpa using hlast
  simp only [State.answered, hwho, hnone, hst, hcode]
  rfl

/-- Settles O31: a port's oldest message is taken; a partial block is put to its open reduction, and a response to the request it answers. -/
theorem responsesAndPartialsReachTheirOwner : Obligations.ResponsesAndPartialsReachTheirOwner := by
  refine ⟨fun s l m hb hp => ⟨fun r hr hfit hcode hop hfmt => ⟨redPartial_waits hb hp hr hfit hcode hop hfmt,
    redPartial_poisoned hb hp hr hfit hcode hop hfmt⟩, redPartial_refused hb hp⟩, fun s l k c m hc hb hpass => ⟨fun a ha => ⟨⟨_, exec_response hc hb, ?_⟩,
    fun port dpa w hwho hlast hst hcode => ⟨_, exec_response hc hb, ?_⟩⟩, fun hnone => ⟨_, exec_response hc hb, ?_⟩⟩⟩
  · rw [response_answers (s := s.rxTaken l m) hpass ha]
    refine ⟨((SameRx.refl _).awaits _ |>.answered a m).rx, fun hunit => ?_⟩
    have hanswer := only_answered_unit ((s.rxTaken l m).awaitEnds a) hunit m
    refine ⟨by rw [hanswer.1 .link (by simp)]; rfl, ?_⟩
    exact only_trans (only_mono (only_rxTaken s l m) (by simp) fun _ h => h)
      (only_trans (only_mono (only_awaitEnds _ a) (by simp) fun _ h => h) (only_mono hanswer (by simp) fun _ h => h))
  · rw [response_answers (s := s.rxTaken l m) hpass ha, answered_read (s := (s.rxTaken l m).awaitEnds a) hwho hlast hst hcode]
    have hend := only_readEnds ((s.rxTaken l m).awaitEnds a) port m.payload
    refine ⟨?_, by rw [hend.1 .link (by simp)]; rfl, fun hup => out_readEnds (s := (s.rxTaken l m).awaitEnds a) hup _⟩
    exact only_trans (only_mono (only_rxTaken s l m) (by simp) fun _ h => h)
      (only_trans (only_mono (only_awaitEnds _ a) (by simp) fun _ h => h) (only_mono hend (by simp) fun _ h => h))
  · rw [response_unasked (s := s.rxTaken l m) hpass hnone]
    exact ⟨only_rxTaken s l m, rfl⟩

end Sys2Proof.Machine
end

section
/-! PROOFS. Blocks and failure records on their way to a parent touch no pool memory, no scratch and no page (R225-R229, R458-R461). -/

namespace Sys2Proof.Machine

/-- The parts of the state that a block on its way to a parent can change. -/
def blockParts : List Part := [.reds, .ops, .link, .out, .health]

/-- Registers and the parts named in `blockParts` aside, nothing has changed. -/
structure Sends (s t : State) : Prop where
  same : sameBut blockParts s t

namespace Sends

variable {s t : State}

theorem refl (s : State) : Sends s s := ⟨sameBut_refl _ _⟩

theorem of_only {ps : List Part} {l : List Nat} {u : State} (h : Sends s t) (k : only ps l t u) (hp : ∀ p ∈ ps, p ∈ blockParts) : Sends s u :=
  ⟨sameBut_trans h.same (sameBut_mono k.1 hp)⟩

theorem sat (h : Sends s t) (o n : Nat) : Sends s (t.sat o n) := h.of_only (only_sat [] (l := [o]) t n (by simp)) (by simp)

theorem wrn (h : Sends s t) (o n : Nat) : Sends s (t.wrn o n) := h.of_only (only_wrn [] (l := [o]) t n (by simp)) (by simp)

theorem emit (h : Sends s t) (o : Out) : Sends s (t.emit o) := h.of_only (only_emit (ps := [.out]) [] t o (by simp)) (by simp [blockParts])

theorem progress (h : Sends s t) (u : HUnit) : Sends s (t.progress u) :=
  h.of_only (only_progress (ps := [.health]) [] t u (by simp)) (by simp [blockParts])

theorem putLink (h : Sends s t) (v : LinkS) : Sends s { t with link := v } :=
  h.of_only (only_put_link (ps := [.link]) [] t v (by simp)) (by simp [blockParts])

theorem setRed (h : Sends s t) (r : Stream) : Sends s (t.setRed r) :=
  h.of_only (only_setRed (l := [dieReg (r.engine / 64) 0x500, dieReg (r.engine / 64) 0x504]) t r (by simp) (by simp)) (by simp [blockParts])

theorem redEnds (h : Sends s t) (r : Stream) (st : Status) : Sends s (t.redEnds r st) :=
  ((h.setRed _).of_only (only_redSync _ _) (by simp)).of_only (only_redEnds t r st) (by simp [blockParts])

theorem when (h : Sends s t) (c : Bool) {f : State → State} (hf : Sends s (f t)) : Sends s (t.when c f) := by
  cases c
  · exact h
  · exact hf

-- a message on a link port

theorem leave (h : Sends s t) (r : Replay) : Sends s (t.leave r) := by
  have hout := (h.emit (.msg r.link r.msg (t.record r.link r.msg))).progress (.link r.link)
  unfold State.leave
  dsimp only
  split
  · exact (hout.putLink _).putLink _
  · split
    · exact hout.putLink _
    · exact (hout.putLink _).sat _ _

theorem pump (h : Sends s t) (l : Nat) : Sends s (t.pump l) := by
  refine wrn (List.foldlRecOn (motive := fun q : State × List Nat => Sends s q.1) _ _ h fun q hq r _ => ?_) _ _
  split
  · exact hq
  · split
    · exact hq.leave _
    · exact hq

theorem sendOn (h : Sends s t) (l : Nat) (m : Msg) (ingress : Nat) : Sends s (t.sendOn l m ingress) := by
  unfold State.sendOn
  dsimp only
  split
  · exact h.when _ (h.emit _)
  · exact ((h.putLink _).putLink _).pump _

-- a parent on this module

theorem redClose (h : Sends s t) (fuel : Nat) (r : Stream) (st : Status) : Sends s (t.redClose fuel r st) := by
  induction fuel generalizing t r with
  | zero =>
    have hend := h.redEnds r st
    unfold State.redClose
    dsimp only
    split
    · exact hend
    · split
      · exact hend
      · exact hend.sendOn _ _ _
  | succ n ih =>
    have hend := h.redEnds r st
    unfold State.redClose
    dsimp only
    split
    · exact hend
    · split
      · split
        · exact hend.sat _ _
        · split
          · exact ih hend _
          · exact hend
      · exact hend.sendOn _ _ _

theorem partArrive (h : Sends s t) (d x id input group op fmt code : Nat) (b : List Byte) :
    Sends s (t.partArrive d x id input group op fmt code b false) := by
  unfold State.partArrive
  split
  · exact h.sat _ _
  · split
    · exact h
    · split
      · exact h.redClose _ _ _
      · split
        · exact h.redClose _ _ _
        · exact h.setRed _

theorem partSend (h : Sends s t) (o : Op) (group : Nat) (st : Status) (b : List Byte) : Sends s (t.partSend o group st b) := by
  unfold State.partSend
  dsimp only
  split
  · exact h.partArrive _ _ _ _ _ _ _ _ _
  · exact h.sendOn _ _ _

theorem partSends (h : Sends s t) (o : Op) (l : List (Nat × List Byte)) : Sends s (t.each l fun b u => u.partSend o b.1 .ok b.2) :=
  List.foldlRecOn (motive := Sends s) _ _ h fun _ hu _ _ => hu.partSend o _ _ _

end Sends

end Sys2Proof.Machine
end

section
/-! PROOFS. What the check of a memory-mode REDUCE lets in, and the sizes of its operands and result (R205, R212, R213). -/

namespace Sys2Proof.Machine

-- codes of several conditions (R18)

theorem foldl_worst_eq_ok {α : Type} {l : List α} {f : α → Status} {st : Status} (h : l.foldl (fun a p => a.worst (f p)) st = .ok) : st = .ok := by
  induction l generalizing st with
  | nil => exact h
  | cons p l ih => exact (Status.worst_eq_ok (ih h)).1

theorem Status.all_eq_ok {l : List (Bool × Status)} (h : Status.all l = .ok) : ∀ p ∈ l, p.1 = true → p.2 = .ok := by
  have hfold : ∀ (l : List (Bool × Status)) (st : Status), l.foldl (fun a p => if p.1 then a.worst p.2 else a) st = .ok →
      st = .ok ∧ ∀ p ∈ l, p.1 = true → p.2 = .ok := by
    intro l
    induction l with
    | nil => exact fun st h => ⟨h, by simp⟩
    | cons p l ih =>
      intro st h
      obtain ⟨hst, hrest⟩ := ih _ h
      dsimp only at hst
      by_cases hp : p.1 = true
      · rw [if_pos hp] at hst
        obtain ⟨hold, hnew⟩ := Status.worst_eq_ok hst
        exact ⟨hold, fun q hq _ => by
          rcases List.mem_cons.1 hq with rfl | hq
          · exact hnew
          · exact hrest q hq ‹_›⟩
      · rw [if_neg hp] at hst
        exact ⟨hst, fun q hq hqt => by
          rcases List.mem_cons.1 hq with rfl | hq
          · exact absurd hqt hp
          · exact hrest q hq hqt⟩
  exact (hfold l _ h).2

/-- Of the descriptor of a REDUCE that passes its check in memory mode: operator and formats go together, it has elements, contributions and
granules, and its result shares no byte with a contribution. -/
structure RedFits (d : BitVec 512) : Prop where
  allowed : redAllowed (rdOp d) (rdIn d) (rdOut d) = true
  gran : 0 < rdGran d
  elems : 0 < rdElems d
  count : 0 < rdCount d
  apart : rdForward d = false → ∀ c < rdCount d, overlaps (rdSrc d + c * rdStride d) (rdVB d) (rdDst d) (rdRB d) = false

theorem redFits_of_check {s : State} {x limit : Nat} {d : BitVec 512} (h : s.redMemCheck x d limit = .ok) : RedFits d := by
  have hall : Status.all [(redBad d limit || (rdForward d && !rdLocal d && !s.parentOk x (rdLink d)), .permission),
      (rdElems d == 0 || rdCount d == 0, .zeroLenNoop),
      (!rdForward d && (if rdStride d = 0 && rdCount d != 0 then [rdSrc d] else (List.range (rdCount d)).map (fun c => rdSrc d + c * rdStride d)).any
        (fun a => overlaps a (rdVB d) (rdDst d) (rdRB d)), .addrFault),
      (2 ^ 20 < rdCount d, .capacityExhausted)] = .ok := by
    unfold State.redMemCheck at h
    dsimp only at h
    split at h
    · exact foldl_worst_eq_ok h
    · exact foldl_worst_eq_ok (Status.worst_eq_ok h).1
  have hoff := Status.all_eq_ok hall
  simp only [List.forall_mem_cons, List.not_mem_nil, false_implies, implies_true, and_true] at hoff
  obtain ⟨hbad, hnone, hover, -⟩ := hoff
  have hgood : redBad d limit = false := by
    by_contra hne
    exact absurd (hbad (by rw [eq_true_of_ne_false hne, Bool.true_or])) (by decide)
  simp only [redBad, Bool.or_eq_false_iff, Bool.not_eq_false', beq_eq_false_iff_ne] at hgood
  obtain ⟨⟨⟨⟨⟨⟨-, hallowed⟩, hgran⟩, -⟩, -⟩, -⟩, -⟩ := hgood
  have hsome : rdElems d ≠ 0 ∧ rdCount d ≠ 0 := by
    by_contra hne
    refine absurd (hnone ?_) (by decide)
    rw [Bool.or_eq_true, beq_iff_eq, beq_iff_eq]
    exact Decidable.or_iff_not_not_and_not.2 hne
  refine ⟨hallowed, Nat.pos_of_ne_zero hgran, Nat.pos_of_ne_zero hsome.1, Nat.pos_of_ne_zero hsome.2, fun hroot c hc => ?_⟩
  by_contra hne
  refine absurd (hover ?_) (by decide)
  simp only [hroot, Bool.not_false, Bool.true_and, List.any_eq_true]
  refine ⟨_, ?_, by simpa using hne⟩
  split
  · rename_i hstride
    rw [Bool.and_eq_true, decide_eq_true_eq] at hstride
    simp [hstride.1]
  · exact List.mem_map.2 ⟨c, List.mem_range.2 hc, rfl⟩

-- the check hangs on no scratch

theorem mapCheck_of_same {s t : State} (ht : t.tier = s.tier) (hf : t.force = s.force)
    (hrd : ∀ off, off < 0x04000000 → t.rd off = s.rd off) : t.mapCheck = s.mapCheck := by
  have hjoin : t.joining = s.joining := by
    funext p
    rw [State.joining, State.joining, Bool.eq_iff_iff, List.any_eq_true, List.any_eq_true]
    refine exists_congr fun r => and_congr_right fun hmem => ?_
    have hr := List.mem_range.1 hmem
    simp only [State.bit, State.fld, hrd (mirrorReg r 8) (by unfold mirrorReg; omega), hrd (mirrorReg r 0) (by unfold mirrorReg; omega),
      hrd (mirrorReg r 4) (by unfold mirrorReg; omega)]
  have hpage : t.pageCheck = s.pageCheck := by
    have hrights : t.rights = s.rights := funext fun p => by rw [State.rights, State.rights, ht]
    have hfbit : t.fbit = s.fbit := funext fun o => funext fun i => by rw [State.fbit, State.fbit, State.frd, State.frd, hf]
    have hmember : t.member = s.member := funext fun k => funext fun x => by rw [State.member, State.member, hfbit]
    funext x p w svc
    rw [State.pageCheck, State.pageCheck, hjoin, hrights, hfbit, hmember]
  funext x w a n
  simp only [State.mapCheck, hpage]

/-- No block begins with a register that the use of a scratch window counts in. -/
theorem progressRegs_inside {o : Op} {off : Nat} (h : off ∈ progressRegs o) : off % 0x20 ≠ 0 := by
  simp only [progressRegs, List.mem_append, List.mem_map, List.mem_cons, List.not_mem_nil, or_false] at h
  unfold engineBlock dieBase at h
  rcases h with ⟨k, rfl | rfl | rfl, rfl⟩ | ⟨k, -, rfl⟩ <;> omega

theorem redMemCheck_scrIn (s : State) (o : Op) (y : ScrIn) (x : Nat) (d : BitVec 512) (limit : Nat) :
    (s.scrIn o.win y).redMemCheck x d limit = s.redMemCheck x d limit := by
  have hkeep := only_scrIn s o y
  have hlow : ∀ off, off < 0x04000000 → (s.scrIn o.win y).rd off = s.rd off := fun off hoff => hkeep.2 off fun hm => by
    have := progressRegs_high hm
    omega
  have hmap := mapCheck_of_same (hkeep.1 .tier (by simp)) (hkeep.1 .force (by simp)) hlow
  have hslice : (s.scrIn o.win y).ctxSlice x = s.ctxSlice x :=
    fld_of_rd (hkeep.2 _ fun hm => progressRegs_inside hm (by unfold ctxReg; omega)) _ _
  have hlink : (s.scrIn o.win y).ztl (rdLink d) = s.ztl (rdLink d) := by
    rw [State.ztl, State.ztl, State.bit, State.bit,
      hkeep.2 (linkBlock (rdLink d)) fun hm => progressRegs_inside hm (by unfold linkBlock dieBase; omega)]
  have hversion : (s.scrIn o.win y).version = s.version := fld_of_rd (hlow 0x604 (by decide)) _ _
  have hparent : (s.scrIn o.win y).parentOk x (rdLink d) = s.parentOk x (rdLink d) := by
    have hword : sliceReg s.version (s.ctxSlice x) (4 * (2 + rdLink d / 32)) < 0x04000000 := by
      have hv : s.version < 2 := Nat.mod_lt _ (by decide)
      have hs := Spares.ctxSlice_lt s x
      have hl : rdLink d < 64 := Nat.mod_lt _ (by decide)
      unfold sliceReg
      omega
    rw [State.parentOk, State.parentOk, State.sliceLink, State.sliceLink, State.sliceW, State.sliceW, hslice, hlink, hversion, hlow _ hword]
  rw [State.redMemCheck, State.redMemCheck, hmap, hparent]

-- sizes

/-- Elements of the reduce unit's formats are 1, 2 or 4 bytes, and a lane of k sub-accumulators takes at most 4 bytes of them (R199). -/
theorem redFmt_sizes (op : Nat) {f : Nat} (h : redFmt f = true) :
    (esize f = 1 ∨ esize f = 2 ∨ esize f = 4) ∧ (redK op f = 1 ∨ redK op f = 2 ∨ redK op f = 4) := by
  have hcases : f = 0 ∨ f = 1 ∨ f = 2 ∨ f = 3 ∨ f = 4 ∨ f = 0xA ∨ f = 0xC := by
    simp only [redFmt, Bool.or_eq_true, decide_eq_true_eq, beq_iff_eq] at h
    omega
  rcases hcases with rfl | rfl | rfl | rfl | rfl | rfl | rfl <;> by_cases hop : op = 6 <;> simp [esize, redK, fmtBits, hop]

theorem redAllowed_formats {op f g : Nat} (h : redAllowed op f g = true) : redFmt f = true ∧ redFmt g = true := by
  simp only [redAllowed, Bool.and_eq_true] at h
  obtain ⟨hin, hout⟩ := h
  refine ⟨hin, ?_⟩
  have hsame : ∀ {c : Bool}, (c && g == f) = true → redFmt g = true := fun hg => by
    rw [Bool.and_eq_true, beq_iff_eq] at hg
    exact hg.2 ▸ hin
  have hlow : g ≤ 4 → redFmt g = true := fun hg => by simp [redFmt, hg]
  split at hout
  · split at hout
    · simp only [Bool.or_eq_true, beq_iff_eq] at hout
      rcases hout with (rfl | rfl) | rfl <;> rfl
    · exact hlow (of_decide_eq_true hout)
  · exact hsame (c := true) hout
  · exact hsame (c := true) hout
  · exact hsame hout
  · exact hsame hout
  · exact hsame hout
  · exact hlow (le_trans (of_decide_eq_true hout) (by decide))
  · cases hout

section
variable {d : BitVec 512} (h : RedFits d)
include h

theorem lanes_pos_size : 0 < rdKk d := by
  rcases (redFmt_sizes (rdOp d) (redAllowed_formats h.allowed).1).2 with hk | hk | hk <;> rw [rdKk, hk] <;> decide

/-- A lane of the vector begins before the vector's end. -/
theorem lane_within {a : Nat} (ha : a < rdLanes d) : a * (esize (rdIn d) * rdKk d) ≤ rdVB d := by
  have hbefore : a * rdKk d < rdElems d := by
    by_contra hle
    exact absurd ((cdiv_spec (lanes_pos_size h)).2 a (Nat.le_of_not_lt hle)) (Nat.not_le.2 ha)
  have hround := (cdiv_spec (n := rdElems d * esize (rdIn d)) (m := 64) (by decide)).1
  calc a * (esize (rdIn d) * rdKk d) = a * rdKk d * esize (rdIn d) := by ring
    _ ≤ rdElems d * esize (rdIn d) := Nat.mul_le_mul_right _ hbefore.le
    _ ≤ rdVB d := hround

/-- The elements of whole lanes take no more lines than the vector's (R212). -/
theorem lanes_fit : rdLanes d * rdKk d * esize (rdOut d) ≤ rdRB d := by
  obtain ⟨hin, hout⟩ := redAllowed_formats h.allowed
  have hk := (redFmt_sizes (rdOp d) hin).2
  have hz := (redFmt_sizes (rdOp d) hout).1
  have hlanes := (cdiv_spec (n := rdElems d) (lanes_pos_size h)).2
  have hround := (cdiv_spec (n := rdElems d * esize (rdOut d)) (m := 64) (by decide)).1
  rw [rdRB]
  rw [← rdKk] at hk
  rw [← rdLanes] at hlanes
  generalize cdiv (rdElems d * esize (rdOut d)) 64 = q at hround ⊢
  have hend := hlanes (q * (64 / (rdKk d * esize (rdOut d))))
  rcases hk with hk | hk | hk <;> rcases hz with hz | hz | hz <;> rw [hk, hz] at hend ⊢ <;> rw [hz] at hround <;> omega

end

end Sys2Proof.Machine
end

section
/-! PROOFS. Ranges within ranges that a write is let into, and reads that a plain write leaves good (R220, R355, R356, R428). -/

namespace Sys2Proof.Machine

theorem mem_pagesOf {a n p : Nat} : p ∈ pagesOf a n ↔ n ≠ 0 ∧ a / 2 ^ 21 ≤ p ∧ p ≤ (a + n - 1) / 2 ^ 21 := by
  unfold pagesOf
  split
  · rename_i hn
    simp [hn]
  · rename_i hn
    simp only [List.mem_map, List.mem_range]
    constructor
    · rintro ⟨k, hk, rfl⟩
      omega
    · rintro ⟨-, hlo, hhi⟩
      exact ⟨p - a / 2 ^ 21, by omega, by omega⟩

theorem plainFor_within {s : State} {x a n b m : Nat} (h : s.plainFor x a n) (hlo : a ≤ b) (hhi : b + m ≤ a + n) : s.plainFor x b m := by
  obtain ⟨hspan, hsteer⟩ := h
  refine ⟨List.all_eq_true.2 fun p hp => List.all_eq_true.1 hspan p ?_, ?_⟩
  · obtain ⟨hm, hfirst, hlast⟩ := mem_pagesOf.1 hp
    exact mem_pagesOf.2 ⟨by omega, le_trans (Nat.div_le_div_right hlo) hfirst, le_trans hlast (Nat.div_le_div_right (by omega))⟩
  · rw [State.steered, List.filter_eq_nil_iff] at hsteer ⊢
    intro r hr hover
    refine hsteer r hr ?_
    simp only [overlaps, Bool.and_eq_true, bne_iff_ne, decide_eq_true_eq] at hover ⊢
    obtain ⟨hmine, ⟨⟨hlen, hm⟩, hleft⟩, hright⟩ := hover
    exact ⟨hmine, ⟨⟨hlen, by omega⟩, by omega⟩, by omega⟩

/-- A byte of a range lies outside a range that shares none with it. -/
theorem outside_of_apart {a n b m x : Nat} (h : overlaps a n b m = false) (hlo : a ≤ x) (hhi : x < a + n) : x < b ∨ b + m ≤ x := by
  simp only [overlaps, Bool.and_eq_false_iff, bne_eq_false_iff_eq, decide_eq_false_iff_not] at h
  omega

theorem bytes_of_byte {s t : State} {a n : Nat} (h : ∀ k < n, t.byte (a + k) = s.byte (a + k)) : t.bytes a n = s.bytes a n :=
  List.map_congr_left fun k hk => h k (List.mem_range.1 hk)

theorem readCheck_eq_ok {s : State} {ue : List Nat} {a n : Nat} : s.readCheck ue a n = .ok ↔
    (pagesOf a n).foldl (fun st p => st.worst (s.lostCheck p)) Status.ok = .ok
      ∧ (n != 0 && (s.badLines ue).any fun l => a / 64 ≤ l && l ≤ (a + n - 1) / 64) = false := by
  unfold State.readCheck
  dsimp only
  split
  · rename_i hbad
    rw [hbad]
    exact iff_of_false (fun h => absurd (Status.worst_eq_ok h).2 (by decide)) (by simp)
  · rename_i hbad
    rw [eq_false_of_ne_true hbad]
    simp

theorem poison_savedPlain (s : State) (b : Nat) (d : List Byte) : ∀ l ∈ (s.savedPlain b d).poison, l ∈ s.poison := by
  have hexp : (s.savedPlain b d).poison = ((s.cached b d.length).store b d).poison := (only_expWrite _ b d.length).1 .poison (by simp)
  have hcached : (s.cached b d.length).poison = s.poison := (only_cached s b d.length).1 .poison (by simp)
  rw [hexp, ← hcached]
  generalize s.cached b d.length = u
  intro l hl
  unfold State.store at hl
  split at hl
  · exact hl
  · dsimp only at hl
    have hflush : ∀ ks : List Nat, (u.each ks fun l t => t.flushLine l).poison = u.poison := fun ks =>
      (only_each (ps := [.mem]) (l := []) ks (fun k _ t => only_flushLine [] t k (by simp)) u).1 .poison (by simp)
    rw [← hflush]
    have hdrop : ∀ v : State, (v.dropCopies b d).poison = v.poison := fun v =>
      (only_dropCopies (ps := [.coh, .out]) v b d (by simp) (by simp) fun _ h => h).1 .poison (by simp)
    have hkept := (List.mem_filter.1 hl).1
    rwa [hdrop] at hkept

/-- What could be read before a plain write can be read after it: no page goes, and no line turns bad. -/
theorem readCheck_savedPlain {s : State} (hs : s.settled) {ue : List Nat} {a n b : Nat} {d : List Byte} (hd : d ≠ [])
    (h : s.readCheck ue a n = .ok) : (s.savedPlain b d).readCheck ue a n = .ok := by
  have htier := tier_savedPlain hs b hd
  have hlost : (s.savedPlain b d).lostCheck = s.lostCheck := by
    rw [lostCheck_of_tier htier]
    exact funext fun p => lostCheck_mark s b d.length p
  have hstage : (s.savedPlain b d).stageCopy = s.stageCopy := by
    rw [stageCopy_of_tier htier]
    rfl
  rw [readCheck_eq_ok] at h ⊢
  rw [hlost]
  refine ⟨h.1, ?_⟩
  rw [Bool.and_eq_false_iff, List.any_eq_false] at h ⊢
  refine h.2.imp_right fun hgood l hl => hgood l ?_
  rw [State.badLines, List.mem_append, List.mem_filter, hstage] at hl
  rw [State.badLines, List.mem_append, List.mem_filter]
  exact hl.imp_left fun hp => ⟨poison_savedPlain s b d l hp.1, hp.2⟩

end Sys2Proof.Machine
end

section
/-! PROOFS. The segments of a memory-mode REDUCE (R212-R214). -/

namespace Sys2Proof.Machine

-- the bytes of a result

/-- Elements of the result that lanes a on give; those past the vector's end are zero (R212). -/
def resultElems (d : BitVec 512) (a : Nat) (l : List Lane) : List Nat :=
  (List.range (l.length * rdKk d)).map fun e =>
    if a * rdKk d + e < rdElems d then
      finishSub (rdOp d) (rdIn d) (rdOut d) (rdSat d) (rdPost d)
        (((l.getD (e / rdKk d) { acc := 0, flags := 0, weight := 0 }).subs (rdOp d) (rdIn d)).getD (e % rdKk d) { a := 0, flags := 0 })
    else 0

theorem laneResult_eq (d : BitVec 512) (a : Nat) (l : List Lane) : laneResult d a l =
    (resultElems d a l).flatMap (leBytes (esize (rdOut d)))
      ++ List.replicate (cdiv ((resultElems d a l).flatMap (leBytes (esize (rdOut d)))).length 64 * 64
        - ((resultElems d a l).flatMap (leBytes (esize (rdOut d)))).length) 0 := rfl

theorem length_flatMap_leBytes (n : Nat) (l : List Nat) : (l.flatMap (leBytes n)).length = l.length * n := by
  induction l with
  | nil => simp
  | cons v l ih => rw [List.flatMap_cons, List.length_append, ih, length_leBytes, List.length_cons, Nat.succ_mul, Nat.add_comm]

theorem length_laneResult (d : BitVec 512) (a : Nat) (l : List Lane) :
    (laneResult d a l).length = cdiv (l.length * rdKk d * esize (rdOut d)) 64 * 64 := by
  have hlen : ((resultElems d a l).flatMap (leBytes (esize (rdOut d)))).length = l.length * rdKk d * esize (rdOut d) := by
    rw [length_flatMap_leBytes, resultElems, List.length_map, List.length_range]
  have hround := (cdiv_spec (n := l.length * rdKk d * esize (rdOut d)) (m := 64) (by decide)).1
  rw [laneResult_eq, List.length_append, List.length_replicate, hlen]
  omega

theorem getD_flatMap_leBytes {n : Nat} {l : List Nat} {i k : Nat} (hi : i < l.length) (hk : k < n) :
    (l.flatMap (leBytes n)).getD (n * i + k) 0 = (leBytes n l[i]).getD k 0 := by
  induction l generalizing i with
  | nil => exact absurd hi (by simp)
  | cons v l ih =>
    rw [List.flatMap_cons]
    cases i with
    | zero => rw [Nat.mul_zero, Nat.zero_add, List.getD_append _ _ _ _ (by simpa using hk), List.getElem_cons_zero]
    | succ i =>
      rw [List.getD_append_right _ _ _ _ (by rw [length_leBytes, Nat.mul_succ]; omega), length_leBytes, Nat.mul_succ,
        show n * i + n + k - n = n * i + k by omega, ih (by simpa using hi), List.getElem_cons_succ]

-- the lanes of a segment

/-- Lanes a to a + n - 1 after the first c contributions, all of them good (R214). -/
def State.lanesAfter (s : State) (d : BitVec 512) (a n c : Nat) : List Lane :=
  (List.range c).foldl (fun l i =>
    (l.zip (laneCodes d (s.bytes (rdSrc d + i * rdStride d + a * (esize (rdIn d) * rdKk d))
      (min (n * (esize (rdIn d) * rdKk d)) (rdVB d - a * (esize (rdIn d) * rdKk d)))) a n)).map fun x => x.1.absorb (rdOp d) (rdIn d) x.2)
    (List.replicate n (laneIdentity (rdOp d) (rdIn d)))

theorem lanesAfter_succ (s : State) (d : BitVec 512) (a n c : Nat) : s.lanesAfter d a n (c + 1) =
    ((s.lanesAfter d a n c).zip (laneCodes d (s.bytes (rdSrc d + c * rdStride d + a * (esize (rdIn d) * rdKk d))
      (min (n * (esize (rdIn d) * rdKk d)) (rdVB d - a * (esize (rdIn d) * rdKk d)))) a n)).map fun x => x.1.absorb (rdOp d) (rdIn d) x.2 := by
  rw [State.lanesAfter, List.range_succ, List.foldl_append]
  rfl

theorem length_laneCodes (d : BitVec 512) (b : List Byte) (a n : Nat) : (laneCodes d b a n).length = n := by simp [laneCodes]

theorem length_lanesAfter (s : State) (d : BitVec 512) (a n c : Nat) : (s.lanesAfter d a n c).length = n := by
  induction c with
  | zero => simp [State.lanesAfter]
  | succ c ih => rw [lanesAfter_succ, List.length_map, List.length_zip, ih, length_laneCodes, min_self]

/-- Every part of every contribution reads good. -/
def State.redReads (s : State) (ue : List Nat) (d : BitVec 512) : Prop :=
  ∀ c, c < rdCount d → ∀ a n, a + n ≤ rdVB d → s.readCheck ue (rdSrc d + c * rdStride d + a) n = .ok

/-- The bytes of every contribution are the same. -/
def sameInputs (s t : State) (d : BitVec 512) : Prop :=
  ∀ c, c < rdCount d → ∀ k, k < rdVB d → t.byte (rdSrc d + c * rdStride d + k) = s.byte (rdSrc d + c * rdStride d + k)

theorem lanesAfter_of_inputs {s t : State} {d : BitVec 512} (h : sameInputs s t d) (a n : Nat) {c : Nat} (hc : c ≤ rdCount d) :
    t.lanesAfter d a n c = s.lanesAfter d a n c := by
  induction c with
  | zero => rfl
  | succ c ih =>
    rw [lanesAfter_succ, lanesAfter_succ, ih (by omega), bytes_of_byte fun k hk => ?_]
    rw [Nat.add_assoc]
    exact h c hc _ (by omega)

theorem segment_good {s : State} {d : BitVec 512} {ue : List Nat} (hfits : RedFits d) (hreads : s.redReads ue d) {a : Nat} (ha : a < rdLanes d)
    (n : Nat) : s.segment d ue a n = (s.lanesAfter d a n (rdCount d), .ok, 0) := by
  have hin := lane_within hfits ha
  have hgood : ∀ c < rdCount d, s.readCheck ue (rdSrc d + c * rdStride d + a * (esize (rdIn d) * rdKk d))
      (min (n * (esize (rdIn d) * rdKk d)) (rdVB d - a * (esize (rdIn d) * rdKk d))) = .ok := fun c hc => hreads c hc _ _ (by omega)
  unfold State.segment
  generalize rdCount d = m at hgood ⊢
  induction m with
  | zero => rfl
  | succ m ih =>
    rw [List.range_succ, List.foldl_append, ih fun c hc => hgood c (by omega), lanesAfter_succ, List.foldl_cons, List.foldl_nil]
    dsimp only
    rw [hgood m (by omega)]
    rfl

-- the segments one after the other

/-- First lane of segment j, and its number of lanes. -/
def segFirst (d : BitVec 512) (j : Nat) : Nat := j * (64 * rdGran d)
def segLanes (d : BitVec 512) (j : Nat) : Nat := min (64 * rdGran d) (rdLanes d - segFirst d j)

/-- Where segment j's part of the result begins. -/
def segAt (d : BitVec 512) (j : Nat) : Nat := rdDst d + segFirst d j * rdKk d * esize (rdOut d)

/-- The lanes of segment j after every contribution, and the bytes of its result. -/
def State.segEnd (s : State) (d : BitVec 512) (j : Nat) : List Lane := s.lanesAfter d (segFirst d j) (segLanes d j) (rdCount d)
def State.segResult (s : State) (d : BitVec 512) (j : Nat) : List Byte := laneResult d (segFirst d j) (s.segEnd d j)

theorem segments_end (s : State) (o : Op) (ue : List Nat) (f : Nat) {j : Nat} (h : rdLanes o.desc ≤ segFirst o.desc j) :
    s.segments o ue f j = (s, .ok, 0, j) := by
  cases f with
  | zero => rfl
  | succ f => exact if_pos h

section
variable {s : State} {o : Op} {ue : List Nat} {j : Nat} (hfits : RedFits o.desc) (hreads : s.redReads ue o.desc)
  (hj : segFirst o.desc j < rdLanes o.desc) (f : Nat)
include hfits hreads hj

theorem segments_stores {u : State} (hroot : rdForward o.desc = false)
    (hsave : (s.scrLanes o.win 0 (s.segEnd o.desc j)).save o.ctx (segAt o.desc j) (s.segResult o.desc j) = (u, .ok)) :
    s.segments o ue (f + 1) j = u.segments o ue f (j + 1) := by
  have hmore : ¬ rdLanes o.desc ≤ j * (64 * rdGran o.desc) := Nat.not_le.2 hj
  have hseg := segment_good hfits hreads hj (segLanes o.desc j)
  simp only [segFirst, segLanes] at hseg
  simp only [State.segResult, State.segEnd, segAt, segFirst, segLanes] at hsave
  rw [State.segments]
  simp only [if_neg hmore, hseg, hroot, hsave]
  rfl

theorem segments_sends (hforward : rdForward o.desc = true) : s.segments o ue (f + 1) j =
    ((s.scrLanes o.win 0 (s.segEnd o.desc j)).each (laneBlocks o.desc (segFirst o.desc j) (s.segEnd o.desc j))
      fun b t => t.partSend o b.1 .ok b.2).segments o ue f (j + 1) := by
  have hmore : ¬ rdLanes o.desc ≤ j * (64 * rdGran o.desc) := Nat.not_le.2 hj
  have hseg := segment_good hfits hreads hj (segLanes o.desc j)
  simp only [segFirst, segLanes] at hseg
  simp only [State.segEnd, segFirst, segLanes]
  rw [State.segments]
  simp only [if_neg hmore, hseg, hforward]
  rfl

end

end Sys2Proof.Machine
end

section
/-! PROOFS. A memory-mode REDUCE that stores its result, segment by segment (R212-R216). -/

namespace Sys2Proof.Machine

-- where the parts of the result lie

theorem segFirst_mono (d : BitVec 512) {i j : Nat} (h : i ≤ j) : segFirst d i ≤ segFirst d j := Nat.mul_le_mul_right _ h

theorem length_segResult (s : State) (d : BitVec 512) (j : Nat) :
    (s.segResult d j).length = cdiv (segLanes d j * rdKk d * esize (rdOut d)) 64 * 64 := by
  rw [State.segResult, length_laneResult, State.segEnd, length_lanesAfter]

theorem segLines (d : BitVec 512) (j : Nat) : segFirst d j * rdKk d * esize (rdOut d) = j * rdGran d * rdKk d * esize (rdOut d) * 64 := by
  rw [segFirst]
  ring

/-- A part that is not the last ends where the next begins. -/
theorem segResult_before (s : State) {d : BitVec 512} {i j : Nat} (hij : i < j) (hj : segFirst d j < rdLanes d) :
    segAt d i + (s.segResult d i).length ≤ segAt d j := by
  have hnext : segFirst d i + 64 * rdGran d ≤ segFirst d j := by
    have := segFirst_mono d (i := i + 1) hij
    rwa [segFirst, Nat.succ_mul] at this
  have hfull : segLanes d i = 64 * rdGran d := by
    unfold segLanes
    omega
  have hlen : (s.segResult d i).length = 64 * rdGran d * rdKk d * esize (rdOut d) := by
    have hexact := cdiv_spec (n := 64 * rdGran d * rdKk d * esize (rdOut d)) (m := 64) (by decide)
    have hlines : 64 * rdGran d * rdKk d * esize (rdOut d) = rdGran d * rdKk d * esize (rdOut d) * 64 := by ring
    have hle := hexact.2 (rdGran d * rdKk d * esize (rdOut d)) hlines.le
    rw [length_segResult, hfull]
    have := hexact.1
    omega
  have hmul : (segFirst d i + 64 * rdGran d) * rdKk d * esize (rdOut d) ≤ segFirst d j * rdKk d * esize (rdOut d) :=
    Nat.mul_le_mul_right _ (Nat.mul_le_mul_right _ hnext)
  rw [Nat.add_mul, Nat.add_mul] at hmul
  rw [hlen, segAt, segAt]
  omega

section
variable {d : BitVec 512} (hfits : RedFits d)
include hfits

/-- Every part of the result lies in the result. -/
theorem segResult_within (s : State) {j : Nat} (hj : segFirst d j < rdLanes d) : segAt d j + (s.segResult d j).length ≤ rdDst d + rdRB d := by
  have hall := lanes_fit hfits
  have hlanes : segFirst d j + segLanes d j ≤ rdLanes d := by
    unfold segLanes
    omega
  have hsum : segFirst d j * rdKk d * esize (rdOut d) + segLanes d j * rdKk d * esize (rdOut d) ≤ rdRB d := by
    rw [← Nat.add_mul, ← Nat.add_mul]
    exact le_trans (Nat.mul_le_mul_right _ (Nat.mul_le_mul_right _ hlanes)) hall
  rw [segLines, rdRB] at hsum
  rw [length_segResult, segAt, segLines, rdRB]
  generalize j * rdGran d * rdKk d * esize (rdOut d) = m at hsum ⊢
  generalize cdiv (rdElems d * esize (rdOut d)) 64 = q at hsum ⊢
  have hround := (cdiv_spec (n := segLanes d j * rdKk d * esize (rdOut d)) (m := 64) (by decide)).2 (q - m) (by omega)
  have hpos : m ≤ q := by omega
  omega

theorem segResult_ne_nil (s : State) {j : Nat} (hj : segFirst d j < rdLanes d) : s.segResult d j ≠ [] := by
  have hlanes : 0 < segLanes d j := by
    have := hfits.gran
    unfold segLanes
    omega
  have hout : 0 < esize (rdOut d) := by
    rcases (redFmt_sizes (rdOp d) (redAllowed_formats hfits.allowed).2).1 with h | h | h <;> rw [h] <;> decide
  have hpos : 0 < segLanes d j * rdKk d * esize (rdOut d) := Nat.mul_pos (Nat.mul_pos hlanes (lanes_pos_size hfits)) hout
  have hround := (cdiv_spec (n := segLanes d j * rdKk d * esize (rdOut d)) (m := 64) (by decide)).1
  rw [← List.length_pos_iff_ne_nil, length_segResult]
  omega

end

-- what holds between segments

/-- Of the state u after the first j segments of a REDUCE that began in s: nothing but the result and the window has changed, each of the j parts
of the result is there, and the rest can be read and written as at the beginning. -/
structure State.Reduced (s : State) (o : Op) (ue : List Nat) (j : Nat) (u : State) : Prop where
  frame : only (storeParts ++ [.scr, .scrPoison]) (dirRegs ++ progressRegs o) s u
  settled : u.settled
  plain : u.plainFor o.ctx (rdDst o.desc) (rdRB o.desc)
  reads : u.redReads ue o.desc
  outside : ∀ x, x < rdDst o.desc ∨ rdDst o.desc + rdRB o.desc ≤ x → u.byte x = s.byte x
  inside : ∀ i, i < j → ∀ k, k < (s.segResult o.desc i).length → u.byte (segAt o.desc i + k) = (s.segResult o.desc i).getD k 0

/-- The lanes in the window, and nothing else. -/
theorem only_scrLanes (s : State) (o : Op) (first : Nat) (l : List Lane) : only [.scr, .scrPoison] (progressRegs o) s (s.scrLanes o.win first l) :=
  only_scrPut s o _ _

theorem plainFor_scrLanes {s : State} {c a n : Nat} (h : s.plainFor c a n) (o : Op) (first : Nat) (l : List Lane) :
    (s.scrLanes o.win first l).plainFor c a n := by
  have hkeep := only_scrLanes s o first l
  refine plainFor_of_same h (hkeep.1 .tier (by simp)) (hkeep.1 .alm (by simp)) (hkeep.1 .reds (by simp)) fun off _ hu => hkeep.2 off fun hm => ?_
  have hplace := progressRegs_high hm
  omega

section
variable {s u : State} {o : Op} {ue : List Nat} {j : Nat} (hfits : RedFits o.desc) (hroot : rdForward o.desc = false)
include hfits hroot

theorem State.Reduced.inputs (h : s.Reduced o ue j u) : sameInputs s u o.desc := fun c hc k hk =>
  h.outside _ (outside_of_apart (hfits.apart hroot c hc) (Nat.le_add_right _ _) (by omega))

theorem State.Reduced.segEnd_eq (h : s.Reduced o ue j u) (i : Nat) : u.segEnd o.desc i = s.segEnd o.desc i :=
  lanesAfter_of_inputs (h.inputs hfits hroot) _ _ le_rfl

/-- One more segment. -/
theorem State.Reduced.next (h : s.Reduced o ue j u) (hj : segFirst o.desc j < rdLanes o.desc) :
    ∃ v, (u.scrLanes o.win 0 (u.segEnd o.desc j)).save o.ctx (segAt o.desc j) (u.segResult o.desc j) = (v, .ok) ∧ s.Reduced o ue (j + 1) v := by
  have hres : u.segResult o.desc j = s.segResult o.desc j := by
    rw [State.segResult, h.segEnd_eq hfits hroot]
    rfl
  have hkeep := only_scrLanes u o 0 (u.segEnd o.desc j)
  have hplain := plainFor_scrLanes h.plain o 0 (u.segEnd o.desc j)
  generalize u.scrLanes o.win 0 (u.segEnd o.desc j) = w at hkeep hplain ⊢
  have hw : w.settled := settled_of_coh (hkeep.1 .coh (by simp)) h.settled
  have hbyte : ∀ x, w.byte x = u.byte x := byte_of_same (hkeep.1 .coh (by simp)) (hkeep.1 .mem (by simp))
  have hend := segResult_within hfits s hj
  have hne := segResult_ne_nil hfits s hj
  have hlo : rdDst o.desc ≤ segAt o.desc j := Nat.le_add_right _ _
  have hsaved := only_savedPlain w (segAt o.desc j) (s.segResult o.desc j)
  rw [hres]
  refine ⟨_, save_plain rfl (plainFor_within hplain hlo hend), ⟨?_, settled_savedPlain hw _ hne, plainFor_savedPlain hw hne hplain,
    fun c hc a n ha => ?_, fun x hx => ?_, fun i hi k hk => ?_⟩⟩
  · exact only_trans h.frame (only_trans (only_mono hkeep (by simp) (by simp +contextual))
      (only_mono hsaved (by simp +contextual) (by simp +contextual)))
  · refine readCheck_savedPlain hw hne ?_
    rw [readCheck_of_same (hkeep.1 .tier (by simp)) (hkeep.1 .poison (by simp))]
    exact h.reads c hc a n ha
  · rw [byte_savedPlain hw, if_neg (by omega), hbyte]
    exact h.outside x hx
  · rw [byte_savedPlain hw]
    by_cases hlast : i = j
    · subst hlast
      rw [if_pos (by omega), Nat.add_sub_cancel_left]
    · have hbefore := segResult_before s (i := i) (by omega) hj
      rw [if_neg (by omega), hbyte]
      exact h.inside i (by omega) k hk

theorem segments_reduced (f : Nat) (h : s.Reduced o ue j u) (hf : rdLanes o.desc ≤ segFirst o.desc (j + f)) :
    ∃ t n, u.segments o ue f j = (t, .ok, 0, n) ∧ s.Reduced o ue n t ∧ rdLanes o.desc ≤ segFirst o.desc n := by
  induction f generalizing j u with
  | zero => exact ⟨u, j, rfl, h, hf⟩
  | succ f ih =>
    by_cases hj : segFirst o.desc j < rdLanes o.desc
    · obtain ⟨v, hsave, hv⟩ := h.next hfits hroot hj
      rw [segments_stores hfits h.reads hj f hroot hsave]
      exact ih hv (by rwa [Nat.add_assoc, Nat.add_comm 1])
    · exact ⟨u, j, segments_end u o ue _ (Nat.le_of_not_lt hj), h, Nat.le_of_not_lt hj⟩

end

end Sys2Proof.Machine
end

section
/-! PROOFS. The run of a memory-mode REDUCE, and the values that OR gives (R205, R213, R214). -/

namespace Sys2Proof.Machine

theorem exec_reduce {s : State} {id : Nat} {o : Op} (h : s.runsOp id o 0x20) (hs : isStream o.desc = false) (ue : List Nat) (x : ScrIn) :
    exec (.reduce id ue x) s = .next (((s.scrIn o.win x).redRun o ue x.bad).stepped o) := by
  show Host.Outcome.next (s.onOp id (· == 0x20) fun t p => if isStream p.desc then t else (t.scrIn p.win x).redRun p ue x.bad) = _
  rw [onOp_of_runs h, if_neg (by simp [hs])]

/-- The pages of the contributions, marked (R345). -/
def State.redMarked (s : State) (o : Op) : State :=
  s.each (List.range (if rdStride o.desc = 0 then 1 else rdCount o.desc)) fun c t => t.mark (rdSrc o.desc + c * rdStride o.desc) (rdVB o.desc)

theorem only_redMarked (s : State) (o : Op) : only [.tier] [] s (s.redMarked o) :=
  only_each _ (fun _ _ t => only_mark [] t _ _ (by simp)) s

theorem plainFor_redMarked {s : State} {x a n : Nat} (h : s.plainFor x a n) (o : Op) : (s.redMarked o).plainFor x a n :=
  List.foldlRecOn (motive := fun t : State => t.plainFor x a n) _ _ h fun _ ht _ _ => plainFor_mark ht _ _

theorem readCheck_mark (s : State) (b m : Nat) : (s.mark b m).readCheck = s.readCheck := by
  have hlost : (s.mark b m).lostCheck = s.lostCheck := funext fun p => lostCheck_mark s b m p
  have hbad : (s.mark b m).badLines = s.badLines := rfl
  funext ue a n
  rw [State.readCheck, State.readCheck, hlost, hbad]

theorem readCheck_redMarked (s : State) (o : Op) : (s.redMarked o).readCheck = s.readCheck :=
  List.foldlRecOn (motive := fun t : State => t.readCheck = s.readCheck) _ _ rfl fun t ht _ _ => (readCheck_mark t _ _).trans ht

/-- The run is that of its segments when the check and the accumulators are good (R213, R214). -/
theorem redRun_ok {s t : State} {o : Op} {ue bad : List Nat} {n : Nat} (hc : s.redMemCheck o.ctx o.desc o.limit = .ok)
    (hbad : bad.any (· < min (rdLanes o.desc) (64 * rdGran o.desc)) = false)
    (hseg : (s.redMarked o).segments o ue (redSegments o.desc) 0 = (t, .ok, 0, n)) : s.redRun o ue bad = t.done o .ok := by
  rw [Op.limit] at hc
  rw [State.redMarked] at hseg
  rw [State.redRun]
  simp only [hc, hbad, hseg]
  rfl

theorem lanes_le_segments {d : BitVec 512} (h : RedFits d) : rdLanes d ≤ segFirst d (0 + redSegments d) := by
  rw [Nat.zero_add]
  exact (cdiv_spec (Nat.mul_pos (by decide) h.gran)).1

-- the result in memory

theorem redRun_reduces {s : State} {o : Op} {ue : List Nat} (x : ScrIn) (hfits : RedFits o.desc) (hroot : rdForward o.desc = false) (hs : s.settled)
    (hplain : s.plainFor o.ctx (rdDst o.desc) (rdRB o.desc)) (hreads : s.redReads ue o.desc) :
    ∃ t n, ((s.scrIn o.win x).redMarked o).segments o ue (redSegments o.desc) 0 = (t, .ok, 0, n) ∧ s.Reduced o ue n t
      ∧ rdLanes o.desc ≤ segFirst o.desc n := by
  have hscr := only_scrIn s o x
  have hmark := only_redMarked (s.scrIn o.win x) o
  have hcoh : ((s.scrIn o.win x).redMarked o).coh = s.coh := (hmark.1 .coh (by simp)).trans (hscr.1 .coh (by simp))
  have hmem : ((s.scrIn o.win x).redMarked o).mem = s.mem := (hmark.1 .mem (by simp)).trans (hscr.1 .mem (by simp))
  refine segments_reduced hfits hroot _ ⟨?_, settled_of_coh hcoh hs, plainFor_redMarked (plainFor_scrIn hplain o x) o, fun c hc a n ha => ?_,
    fun y _ => byte_of_same hcoh hmem y, fun i hi => absurd hi (Nat.not_lt_zero i)⟩ (lanes_le_segments hfits)
  · exact only_trans (only_mono hscr (by simp) (by simp +contextual)) (only_mono hmark (by simp [storeParts]) (by simp))
  · rw [readCheck_redMarked, readCheck_of_same (hscr.1 .tier (by simp)) (hscr.1 .poison (by simp))]
    exact hreads c hc a n ha

end Sys2Proof.Machine
end

section
/-! PROOFS. What OR makes of contributions of 32-bit integers (R199, R203, R205, R214). -/

namespace Sys2Proof.Machine

-- numbers of bytes

theorem leNat_lt (b : List Byte) : leNat b < 2 ^ (8 * b.length) := by
  have h := leNat_take b b.length
  rw [List.take_length] at h
  rw [← h]
  exact Nat.mod_lt _ (Nat.two_pow_pos _)

theorem leNat_leBytes (n v : Nat) : leNat (leBytes n v) = v % 2 ^ (8 * n) := by
  induction n generalizing v with
  | zero => simp [leBytes, leNat, Nat.mod_one]
  | succ n ih =>
    rw [leBytes, leNat, ih, BitVec.toNat_ofNat, Nat.mul_succ, Nat.add_comm (8 * n), pow_add, Nat.mod_mul]
    rfl

theorem bytes_eq_of_getD {s : State} {a n : Nat} {b : List Byte} (hb : b.length = n) (h : ∀ k < n, s.byte (a + k) = b.getD k 0) :
    s.bytes a n = b := by
  refine List.ext_getElem (by simp [State.bytes, hb]) fun k _ hk => ?_
  rw [← List.getD_eq_getElem b 0 hk, ← h k (hb ▸ hk)]
  simp [State.bytes]

/-- A number in a part of a range. -/
theorem le_bytes (s : State) {a n b m : Nat} (h : b + m ≤ n) : le (s.bytes a n) b m = leNat (s.bytes (a + b) m) := by
  rw [le]
  congr 1
  refine List.ext_getElem (by simp [State.bytes]; omega) fun k _ _ => ?_
  simp [State.bytes, Nat.add_assoc]

-- one lane

/-- The lane's one sub-accumulator holds v, and has met no NaN. -/
structure Lane.HoldsOr (l : Lane) (v : Nat) : Prop where
  small : v < 2 ^ 32
  acc : l.acc.toNat = v
  noNan : l.flags.toNat.testBit 0 = false

theorem mod_two_pow_of_le {v w : Nat} (hv : v < 2 ^ 32) (hw : 32 ≤ w) : v % 2 ^ w = v :=
  Nat.mod_eq_of_lt (lt_of_lt_of_le hv (Nat.pow_le_pow_right (by decide) hw))

theorem pack_one {v w : Nat} (hv : v < 2 ^ 32) (hw : 32 ≤ w) : pack w [v] = v := by
  rw [pack, pack, Nat.mul_zero, Nat.add_zero, mod_two_pow_of_le hv hw]

theorem holdsOr_laneOf {v f : Nat} (hv : v < 2 ^ 32) (hf : f.testBit 0 = false) (w : Nat) : (laneOf 320 [{ a := v, flags := f }] w).HoldsOr v := by
  refine ⟨hv, ?_, ?_⟩
  · have hwide : 32 ≤ 320 := by decide
    simp only [laneOf, List.map_cons, List.map_nil, BitVec.toNat_ofNat, pack_one hv hwide, mod_two_pow_of_le hv hwide]
  · simp only [laneOf, List.map_cons, List.map_nil, pack, Nat.mul_zero, Nat.add_zero, BitVec.toNat_ofNat, Nat.testBit_mod_two_pow, hf, Bool.and_false]

theorem holdsOr_identity : (laneIdentity 4 0xC).HoldsOr 0 := holdsOr_laneOf (by decide) rfl 0

theorem Lane.HoldsOr.sub {l : Lane} {v : Nat} (h : l.HoldsOr v) : ∃ f, l.sub 320 0 = { a := v, flags := f } ∧ f.testBit 0 = false := by
  obtain ⟨hv, hacc, hnan⟩ := h
  refine ⟨nbits l.flags.toNat 0 5, ?_, ?_⟩
  · rw [Lane.sub, nbits, Nat.mul_zero, pow_zero, Nat.div_one, hacc, mod_two_pow_of_le hv (by decide)]
  · rw [nbits, Nat.testBit_mod_two_pow, pow_zero, Nat.div_one, hnan, Bool.and_false]

theorem Lane.HoldsOr.absorb {l : Lane} {v c : Nat} (h : l.HoldsOr v) (hc : c < 2 ^ 32) : (l.absorb 4 0xC [some c]).HoldsOr (v ||| c) := by
  obtain ⟨f, hsub, hf⟩ := h.sub
  show (laneOf 320 [Sys2Proof.Machine.absorb 4 0xC (l.sub 320 0) c] (weightAdd l.weight 1)).HoldsOr (v ||| c)
  rw [hsub]
  refine holdsOr_laneOf (f := f ||| 0 ||| 8) (Nat.or_lt_two_pow h.small hc) ?_ _
  rw [Nat.testBit_or, Nat.testBit_or, hf]
  rfl

theorem Lane.HoldsOr.finish {l : Lane} {v : Nat} (h : l.HoldsOr v) (sat : Bool) (post : Int) : finishSub 4 0xC 0xC sat post (l.sub 320 0) = v := by
  obtain ⟨f, hsub, hf⟩ := h.sub
  rw [hsub]
  show (if f.testBit 0 then convTo 0xC .nan 1 false false else nbits v 0 32) = v
  rw [hf, if_neg Bool.false_ne_true, nbits, pow_zero, Nat.div_one, Nat.mod_eq_of_lt h.small]

-- a segment

/-- The OR of element e of the first c contributions. -/
def State.orOf (s : State) (d : BitVec 512) (e c : Nat) : Nat :=
  (List.range c).foldl (fun x i => x ||| leNat (s.bytes (rdSrc d + i * rdStride d + 4 * e) 4)) 0

theorem orOf_succ (s : State) (d : BitVec 512) (e c : Nat) :
    s.orOf d e (c + 1) = s.orOf d e c ||| leNat (s.bytes (rdSrc d + c * rdStride d + 4 * e) 4) := by
  rw [State.orOf, List.range_succ, List.foldl_append]
  rfl

section
variable {d : BitVec 512} (hop : rdOp d = 4) (hin : rdIn d = 0xC)
include hop hin

theorem kk_or : rdKk d = 1 := by
  rw [rdKk, hop, hin]
  rfl

theorem lanes_or : rdLanes d = rdElems d := by
  have h := cdiv_spec (n := rdElems d) (m := 1) (by decide)
  rw [rdLanes, kk_or hop hin]
  exact le_antisymm (h.2 _ (by omega)) (by simpa using h.1)

theorem holdsOr_absorb {l : Lane} {v c : Nat} (h : l.HoldsOr v) (hc : c < 2 ^ 32) :
    (l.absorb (rdOp d) (rdIn d) [some c]).HoldsOr (v ||| c) := by
  rw [hop, hin]
  exact h.absorb hc

theorem laneCodes_or (b : List Byte) {a n i : Nat} (hi : i < n) (he : a + i < rdElems d) :
    (laneCodes d b a n)[i]'(by rwa [length_laneCodes]) = [some (le b (4 * i) 4)] := by
  have hsize : esize (rdIn d) = 4 := by rw [hin]; rfl
  simp [laneCodes, kk_or hop hin, hsize, he, Nat.mul_comm]

theorem holdsOr_lanesAfter (s : State) {a n i : Nat} (hi : i < n) (he : a + i < rdElems d) (c : Nat) :
    ((s.lanesAfter d a n c)[i]'(by rwa [length_lanesAfter])).HoldsOr (s.orOf d (a + i) c) := by
  induction c with
  | zero =>
    simp only [State.lanesAfter, List.range_zero, List.foldl_nil, List.getElem_replicate, hop, hin]
    exact holdsOr_identity
  | succ c ih =>
    have hsize : esize (rdIn d) * rdKk d = 4 := by rw [hin, kk_or hop hin]; rfl
    have hvec : rdElems d * 4 ≤ rdVB d := by
      have h := (cdiv_spec (n := rdElems d * esize (rdIn d)) (m := 64) (by decide)).1
      rwa [← rdVB, hin] at h
    have hlow : leNat (s.bytes (rdSrc d + c * rdStride d + 4 * (a + i)) 4) < 2 ^ 32 := by
      simpa [State.bytes] using leNat_lt (s.bytes (rdSrc d + c * rdStride d + 4 * (a + i)) 4)
    have hcode : le (s.bytes (rdSrc d + c * rdStride d + a * (esize (rdIn d) * rdKk d))
        (min (n * (esize (rdIn d) * rdKk d)) (rdVB d - a * (esize (rdIn d) * rdKk d)))) (4 * i) 4
          = leNat (s.bytes (rdSrc d + c * rdStride d + 4 * (a + i)) 4) := by
      rw [hsize, le_bytes s (by omega), Nat.add_assoc _ (a * 4), show a * 4 + 4 * i = 4 * (a + i) by ring]
    simp only [lanesAfter_succ, List.getElem_map, List.getElem_zip, laneCodes_or hop hin _ hi he, hcode, orOf_succ]
    exact holdsOr_absorb hop hin ih hlow

/-- An element of a segment's result. -/
theorem resultElems_or (hout : rdOut d = 0xC) (s : State) {a n i : Nat} (hi : i < n) (he : a + i < rdElems d) (c : Nat)
    (hlen : i < (resultElems d a (s.lanesAfter d a n c)).length) : (resultElems d a (s.lanesAfter d a n c))[i] = s.orOf d (a + i) c := by
  have hlane := holdsOr_lanesAfter hop hin s hi he c
  simp only [resultElems, List.getElem_map, List.getElem_range, kk_or hop hin, Nat.mul_one, Nat.div_one, Nat.mod_one, if_pos he, hop, hin, hout,
    List.getD_eq_getElem _ _ ((length_lanesAfter s d a n c).symm ▸ hi : i < (s.lanesAfter d a n c).length)]
  exact hlane.finish _ _

end

end Sys2Proof.Machine
end

section
/-! PROOFS. Memory-mode REDUCE: its result in memory, its blocks on their way, its failures (R205, R213, R214). -/

namespace Sys2Proof.Machine

-- the elements of an OR

theorem segResult_getD (s : State) {d : BitVec 512} {j i k : Nat} (hi : i < (resultElems d (segFirst d j) (s.segEnd d j)).length)
    (hk : k < esize (rdOut d)) :
    (s.segResult d j).getD (esize (rdOut d) * i + k) 0 = (leBytes (esize (rdOut d)) (resultElems d (segFirst d j) (s.segEnd d j))[i]).getD k 0 := by
  have hin : esize (rdOut d) * i + k < ((resultElems d (segFirst d j) (s.segEnd d j)).flatMap (leBytes (esize (rdOut d)))).length := by
    have hmul := Nat.mul_le_mul_left (esize (rdOut d)) (Nat.succ_le_of_lt hi)
    rw [Nat.mul_succ] at hmul
    rw [length_flatMap_leBytes, Nat.mul_comm _ (esize (rdOut d))]
    omega
  rw [State.segResult, laneResult_eq, List.getD_append _ _ _ _ hin, getD_flatMap_leBytes hi hk]

theorem length_resultElems (d : BitVec 512) (a : Nat) (l : List Lane) : (resultElems d a l).length = l.length * rdKk d := by
  rw [resultElems, List.length_map, List.length_range]

/-- Every lane lies in a segment, which is done once all lanes are. -/
theorem segment_of_lane {d : BitVec 512} (hfits : RedFits d) {e n : Nat} (he : e < rdLanes d) (hn : rdLanes d ≤ segFirst d n) :
    ∃ j i, i < segLanes d j ∧ segFirst d j + i = e ∧ j < n := by
  have hgran := hfits.gran
  have hi : e % (64 * rdGran d) < 64 * rdGran d := Nat.mod_lt _ (by omega)
  have hsplit : segFirst d (e / (64 * rdGran d)) + e % (64 * rdGran d) = e := by rw [segFirst, Nat.mul_comm, Nat.div_add_mod]
  refine ⟨_, _, ?_, hsplit, ?_⟩
  · unfold segLanes
    omega
  · by_contra hle
    have := segFirst_mono d (Nat.le_of_not_lt hle)
    omega

theorem State.Reduced.or_elem {s t : State} {o : Op} {ue : List Nat} {n e : Nat} (hfits : RedFits o.desc) (hop : rdOp o.desc = 4) (hin : rdIn o.desc = 0xC)
    (h : s.Reduced o ue n t) (hn : rdLanes o.desc ≤ segFirst o.desc n) (he : e < rdElems o.desc) :
    leNat (t.bytes (rdDst o.desc + 4 * e) 4) = s.orOf o.desc e (rdCount o.desc) := by
  have hout : rdOut o.desc = 0xC := by
    have hallowed := hfits.allowed
    rw [hop, hin] at hallowed
    exact beq_iff_eq.1 hallowed
  have hsize : esize (rdOut o.desc) = 4 := by rw [hout]; rfl
  obtain ⟨j, i, hlane, rfl, hj⟩ := segment_of_lane hfits (by rwa [lanes_or hop hin]) hn
  have hlen : (s.segEnd o.desc j).length = segLanes o.desc j := length_lanesAfter _ _ _ _ _
  have hmem : i < (resultElems o.desc (segFirst o.desc j) (s.segEnd o.desc j)).length := by
    rwa [length_resultElems, hlen, kk_or hop hin, Nat.mul_one]
  have helem := resultElems_or hop hin hout s hlane he _ hmem
  have hsmall := (holdsOr_lanesAfter hop hin s hlane he (rdCount o.desc)).small
  have hround := (cdiv_spec (n := segLanes o.desc j * rdKk o.desc * esize (rdOut o.desc)) (m := 64) (by decide)).1
  rw [← length_segResult s, kk_or hop hin, hsize] at hround
  have hbytes : t.bytes (rdDst o.desc + 4 * (segFirst o.desc j + i)) 4 = leBytes 4 (s.orOf o.desc (segFirst o.desc j + i) (rdCount o.desc)) := by
    refine bytes_eq_of_getD (length_leBytes _ _) fun k hk => ?_
    have hplace : rdDst o.desc + 4 * (segFirst o.desc j + i) + k = segAt o.desc j + (4 * i + k) := by
      rw [segAt, kk_or hop hin, hsize]
      omega
    have hval := segResult_getD s hmem (k := k) (by omega)
    rw [hsize] at hval
    rw [hplace, h.inside j hj _ (by omega), hval]
    exact congrArg (fun v => (leBytes 4 v).getD k 0) helem
  rw [hbytes, leNat_leBytes, Nat.mod_eq_of_lt hsmall]

-- blocks on their way

/-- A segment's lanes in the window, and its blocks on their way. -/
theorem sameBut_sentSegment (s : State) (o : Op) (l : List Lane) (b : List (Nat × List Byte)) :
    sameBut (blockParts ++ [.scr, .scrPoison]) s ((s.scrLanes o.win 0 l).each b fun b t => t.partSend o b.1 .ok b.2) :=
  sameBut_trans (sameBut_mono (only_scrLanes s o 0 l).1 (by simp))
    (sameBut_mono (Sends.partSends (Sends.refl _) o b).same fun _ hp => List.mem_append_left _ hp)

theorem segments_forward {s : State} {o : Op} {ue : List Nat} {j : Nat} (hfits : RedFits o.desc) (hforward : rdForward o.desc = true) (f : Nat)
    (hreads : s.redReads ue o.desc) (hf : rdLanes o.desc ≤ segFirst o.desc (j + f)) :
    ∃ t n, s.segments o ue f j = (t, .ok, 0, n) ∧ sameBut (blockParts ++ [.scr, .scrPoison]) s t := by
  induction f generalizing s j with
  | zero => exact ⟨s, j, rfl, sameBut_refl _ _⟩
  | succ f ih =>
    by_cases hj : segFirst o.desc j < rdLanes o.desc
    · have hsent := sameBut_sentSegment s o (s.segEnd o.desc j) (laneBlocks o.desc (segFirst o.desc j) (s.segEnd o.desc j))
      rw [segments_sends hfits hreads hj f hforward]
      generalize State.each _ _ _ = u at hsent ⊢
      have hkept : u.redReads ue o.desc := by
        have hread : u.readCheck = s.readCheck := readCheck_of_same (hsent .tier (by simp [blockParts])) (hsent .poison (by simp [blockParts]))
        rwa [State.redReads, hread]
      obtain ⟨t, n, hseg, hrest⟩ := ih (j := j + 1) hkept (by rwa [Nat.add_assoc, Nat.add_comm 1])
      exact ⟨t, n, hseg, sameBut_trans hsent hrest⟩
    · exact ⟨s, j, segments_end s o ue _ (Nat.le_of_not_lt hj), sameBut_refl _ _⟩

-- the three ways a run ends

/-- The work of an operation of s ends in u, where no operation has come or gone since; the operations are those of u with that status. -/
theorem ended_of_ids {s u t : State} {id : Nat} {o : Op} {st : Status} (ho : s.op id = some o) (hids : u.ops.map (·.id) = s.ops.map (·.id))
    (ht : t.ops = (u.done o st).ops) : t.ended id st := by
  have hid : o.id = id := by simpa using List.find?_some ho
  have hmem : o.id ∈ u.ops.map (·.id) := by
    rw [hids]
    exact List.mem_map_of_mem (List.mem_of_find?_eq_some ho)
  have hset : (u.done o st).op o.id = some { o with phase := .executed st } := op_setOp_of_mem (o := { o with phase := .executed st }) hmem
  rw [State.ended, op_of_ops ht, ← hid, hset]
  rfl

section
variable {s : State} {id : Nat} {o : Op} (h : s.runsOp id o 0x20) (hs : isStream o.desc = false)
include h hs

theorem reduce_stores {ue : List Nat} {x : ScrIn} (hc : s.redMemCheck o.ctx o.desc o.limit = .ok)
    (hbad : x.bad.any (· < min (rdLanes o.desc) (64 * rdGran o.desc)) = false) (hreads : s.redReads ue o.desc) (hroot : rdForward o.desc = false)
    (hsettled : s.settled) (hplain : s.plainFor o.ctx (rdDst o.desc) (rdRB o.desc)) :
    ∃ t, exec (.reduce id ue x) s = .next t
      ∧ only (storeParts ++ [.scr, .scrPoison, .ops, .sec]) (dirRegs ++ progressRegs o) s t ∧ t.ended id .ok
      ∧ (∀ a, a < rdDst o.desc ∨ rdDst o.desc + rdRB o.desc ≤ a → t.byte a = s.byte a)
      ∧ (rdOp o.desc = 4 → rdIn o.desc = 0xC → ∀ e, e < rdElems o.desc →
          leNat (t.bytes (rdDst o.desc + 4 * e) 4) = s.orOf o.desc e (rdCount o.desc)) := by
  have hfits := redFits_of_check hc
  obtain ⟨u, n, hseg, hred, hn⟩ := redRun_reduces x hfits hroot hsettled hplain hreads
  have hrun := redRun_ok ((redMemCheck_scrIn s o x _ _ _).trans hc) hbad hseg
  have hlast : ∀ a, ((u.done o .ok).stepped o).byte a = u.byte a := byte_of_same ((only_stepped [] (u.done o .ok) o).1 .coh (by simp))
    ((only_stepped [] (u.done o .ok) o).1 .mem (by simp))
  obtain ⟨honly, hended⟩ := done_ends h.1 hred.frame (by decide) .ok
  refine ⟨_, by rw [exec_reduce h hs, hrun], ?_, hended, fun a ha => (hlast a).trans (hred.outside a ha), fun hop hin e he => ?_⟩
  · rwa [List.append_assoc] at honly
  · rw [bytes_of_byte fun k _ => hlast _]
    exact hred.or_elem hfits hop hin hn he

theorem reduce_forwards {ue : List Nat} {x : ScrIn} (hc : s.redMemCheck o.ctx o.desc o.limit = .ok)
    (hbad : x.bad.any (· < min (rdLanes o.desc) (64 * rdGran o.desc)) = false) (hreads : s.redReads ue o.desc) (hforward : rdForward o.desc = true) :
    ∃ t, exec (.reduce id ue x) s = .next t ∧ t.ended id .ok ∧ t.mem = s.mem ∧ t.poison = s.poison ∧ t.coh = s.coh := by
  have hfits := redFits_of_check hc
  have hscr := only_scrIn s o x
  have hmark := only_redMarked (s.scrIn o.win x) o
  have hkept : ((s.scrIn o.win x).redMarked o).redReads ue o.desc := by
    rwa [State.redReads, readCheck_redMarked, readCheck_of_same (hscr.1 .tier (by simp)) (hscr.1 .poison (by simp))]
  obtain ⟨u, n, hseg, hsent⟩ := segments_forward hfits hforward _ hkept (lanes_le_segments hfits)
  have hrun := redRun_ok ((redMemCheck_scrIn s o x _ _ _).trans hc) hbad hseg
  have hids : u.ops.map (·.id) = s.ops.map (·.id) := by
    have hstart : ((s.scrIn o.win x).redMarked o).ops = s.ops := (hmark.1 .ops (by simp)).trans (hscr.1 .ops (by simp))
    have hall := ((Spares.refl ((s.scrIn o.win x).redMarked o)).segments o ue (redSegments o.desc) 0).ids
    rwa [hseg, hstart] at hall
  have hlast := sameBut_trans (sameBut_mono (only_done (ps := [.ops]) [] u o .ok (by simp)).1 (qs := blockParts ++ [.scr, .scrPoison, .tier, .sec])
    (by simp [blockParts])) (sameBut_mono (only_stepped [] (u.done o .ok) o).1 (by simp))
  have hall := sameBut_trans (sameBut_mono hscr.1 (by simp)) (sameBut_trans (sameBut_mono hmark.1 (by simp))
    (sameBut_trans (sameBut_mono hsent (by simp +contextual [or_imp])) hlast))
  exact ⟨_, by rw [exec_reduce h hs, hrun], ended_of_ids h.1 hids ((only_stepped [] (u.done o .ok) o).1 .ops (by simp)),
    hall .mem (by simp [blockParts]), hall .poison (by simp [blockParts]), hall .coh (by simp [blockParts])⟩

theorem reduce_fails (ue : List Nat) (hc : s.redMemCheck o.ctx o.desc o.limit ≠ .ok) :
    ∃ t, exec (.reduce id ue {}) s = .next t ∧ only [.ops, .sec] [o.dieReg 0x210] s t ∧ t.ended id (s.redMemCheck o.ctx o.desc o.limit) := by
  have hrun : s.redRun o ue [] = (s.done o (s.redMemCheck o.ctx o.desc o.limit)).when
      (s.redMemCheck o.ctx o.desc o.limit == .capacityExhausted) (·.sat (o.dieReg 0x210) 1) := if_pos (bne_iff_ne.2 hc)
  have hexec : exec (.reduce id ue {}) s = .next ((s.redRun o ue []).stepped o) := exec_reduce h hs ue {}
  generalize s.redMemCheck o.ctx o.desc o.limit = st at hrun ⊢
  have hdone := only_done (ps := [.ops]) [] s o st (by simp)
  have hcount := only_when (ps := []) (l := [o.dieReg 0x210]) (s.done o st) (st == .capacityExhausted)
    (f := (·.sat (o.dieReg 0x210) 1)) fun _ => only_sat [] _ 1 (by simp)
  rw [← hrun] at hcount
  have hlast := only_stepped [] (s.redRun o ue []) o
  refine ⟨_, hexec, ?_, ended_of_ids h.1 rfl ((hlast.1 .ops (by simp)).trans (hcount.1 .ops (by simp)))⟩
  exact only_trans (only_mono hdone (by simp) (by simp)) (only_trans (only_mono hcount (by simp) (by simp)) (only_mono hlast (by simp) (by simp)))

end

/-- Settles O18: the result is there after the segments one by one, each read from contributions that the result shares no byte with. -/
theorem reduceWritesItsResultVector : Obligations.ReduceWritesItsResultVector := by
  unfold Obligations.ReduceWritesItsResultVector
  exact ⟨fun s id o ue x h hs hc hbad hreads =>
    ⟨fun hroot hsettled hplain => reduce_stores h hs hc hbad hreads hroot hsettled hplain, reduce_forwards h hs hc hbad hreads⟩,
    fun s id o ue h hs hc => reduce_fails h hs ue hc⟩

end Sys2Proof.Machine
end

section
/-! PROOFS. Pieces of output that an operation writes one after the other, and its end (R100, R144, R345). -/

namespace Sys2Proof.Machine

-- an operation ends, its counts set

/-- The work of an operation of s ends in u, which has the operations of s, with what it counts: its status stands, and nothing else changes any
more. -/
theorem done_counted_ends {s u : State} {id : Nat} {o o' : Op} {ps : List Part} {l : List Nat} (ho : s.op id = some o) (hid : o'.id = o.id)
    (h : only ps l s u) (hops : Part.ops ∉ ps) (st : Status) :
    only (ps ++ [.ops, .sec]) l s ((u.done o' st).stepped o) ∧ ((u.done o' st).stepped o).ended id st := by
  have hlast := only_stepped l (u.done o' st) o
  refine ⟨only_trans (only_mono h (fun _ hp => List.mem_append_left _ hp) fun _ hl => hl)
    (only_trans (only_done l u o' st (by simp)) (only_mono hlast (by simp) fun _ hl => hl)), ?_⟩
  have hown : o'.id = id := hid.trans (by simpa using List.find?_some ho)
  have hmem : o'.id ∈ u.ops.map (·.id) := by
    rw [h.1 .ops hops, hid]
    exact List.mem_map_of_mem (List.mem_of_find?_eq_some ho)
  have hset : (u.done o' st).op o'.id = some { o' with phase := .executed st } := op_setOp_of_mem (o := { o' with phase := .executed st }) hmem
  rw [State.ended, op_of_ops (hlast.1 .ops (by simp)), ← hown, hset]
  rfl

-- reads that mark their pages

/-- Of u after reads in s: pages were marked as used, and no more. -/
structure State.Marks (s u : State) : Prop where
  frame : only [.tier] [] s u
  plain : ∀ {x a n : Nat}, s.plainFor x a n → u.plainFor x a n

theorem State.Marks.refl (s : State) : s.Marks s := ⟨only_refl _ _ _, id⟩

theorem State.Marks.mark {s u : State} (h : s.Marks u) (a n : Nat) : s.Marks (u.mark a n) :=
  ⟨only_trans h.frame (only_mark [] u a n (by simp)), fun hp => plainFor_mark (h.plain hp) a n⟩

theorem State.Marks.each {α : Type} {s u : State} (h : s.Marks u) (l : List α) (a n : α → Nat) :
    s.Marks (u.each l fun i t => t.mark (a i) (n i)) :=
  List.foldlRecOn (motive := fun t => s.Marks t) _ _ h fun _ ht i _ => ht.mark (a i) (n i)

-- pieces

/-- The state after plain writes of the pieces, in their order. -/
def State.savedPieces (s : State) (l : List Piece) : State := l.foldl (fun t p => t.savedPlain p.1 p.2) s

/-- The piece writes the byte at x. -/
def covers (p : Piece) (x : Nat) : Prop := p.1 ≤ x ∧ x < p.1 + p.2.length

/-- The pieces lie in [a, a + n). -/
def piecesIn (a n : Nat) (l : List Piece) : Prop := ∀ p ∈ l, a ≤ p.1 ∧ p.1 + p.2.length ≤ a + n

theorem savedPlain_nil (s : State) (a : Nat) : s.savedPlain a [] = s := rfl

theorem savedPlain_keeps {s : State} (hs : s.settled) (a : Nat) (d : List Byte) :
    (s.savedPlain a d).settled ∧ ∀ {x b n : Nat}, s.plainFor x b n → (s.savedPlain a d).plainFor x b n := by
  by_cases hd : d = []
  · subst hd
    exact ⟨hs, id⟩
  · exact ⟨settled_savedPlain hs a hd, plainFor_savedPlain hs hd⟩

theorem only_savedPieces (s : State) (l : List Piece) : only storeParts dirRegs s (s.savedPieces l) :=
  List.foldlRecOn (motive := fun t => only storeParts dirRegs s t) _ _ (only_refl _ _ _) fun t ht p _ => only_trans ht (only_savedPlain t p.1 p.2)

/-- A byte holds v after the pieces are written when each piece over it writes v there, and it held v before or some piece is over it. -/
theorem byte_savedPieces {s : State} (hs : s.settled) {l : List Piece} {x : Nat} {v : Byte}
    (hall : ∀ p ∈ l, covers p x → p.2.getD (x - p.1) 0 = v) (hsome : s.byte x = v ∨ ∃ p ∈ l, covers p x) : (s.savedPieces l).byte x = v := by
  induction l generalizing s with
  | nil => exact hsome.resolve_right (by simp)
  | cons p l ih =>
    have hbyte := byte_savedPlain hs p.1 p.2 x
    refine ih (savedPlain_keeps hs p.1 p.2).1 (fun q hq => hall q (by simp [hq])) ?_
    by_cases hp : covers p x
    · exact .inl (hbyte.trans ((if_pos hp).trans (hall p (by simp) hp)))
    · rcases hsome with hold | ⟨q, hq, hcovers⟩
      · exact .inl (hbyte.trans ((if_neg hp).trans hold))
      · rcases List.mem_cons.1 hq with rfl | hq
        · exact absurd hcovers hp
        · exact .inr ⟨q, hq, hcovers⟩

/-- Pieces within a range that a write is let into are all written. -/
theorem savePieces_plain {s : State} (hs : s.settled) {x a n : Nat} (hp : s.plainFor x a n) {l : List Piece} (hin : piecesIn a n l) :
    s.savePieces x l = (s.savedPieces l, .ok, l.length) := by
  have hfold : ∀ (l : List Piece) (s : State) (k : Nat), s.settled → s.plainFor x a n → piecesIn a n l →
      l.foldl (fun (q : State × Status × Nat) p =>
        if q.2.1 != .ok then q
        else
          let r := q.1.save x p.1 p.2
          (r.1, r.2, if r.2 == .ok then q.2.2 + 1 else q.2.2)) (s, .ok, k) = (s.savedPieces l, .ok, k + l.length) := by
    intro l
    induction l with
    | nil => exact fun _ _ _ _ _ => rfl
    | cons p l ih =>
      intro s k hs hp hin
      obtain ⟨hlo, hhi⟩ := hin p (by simp)
      have hsave : s.save x p.1 p.2 = (s.savedPlain p.1 p.2, .ok) := save_plain rfl (plainFor_within hp hlo hhi)
      obtain ⟨hsettled, hplain⟩ := savedPlain_keeps hs p.1 p.2
      have hrest := ih (s.savedPlain p.1 p.2) (k + 1) hsettled (hplain hp) fun q hq => hin q (by simp [hq])
      rw [List.foldl_cons, List.length_cons, show k + (l.length + 1) = k + 1 + l.length by omega]
      dsimp only
      rw [hsave]
      exact hrest
  rw [State.savePieces, hfold l s 0 hs hp hin, Nat.zero_add]

-- an operation that writes its pieces and ends

/-- Of t after operation `id` of s has written the pieces and ended: nothing else has changed, and every byte holds what the pieces over it
say. -/
structure State.Wrote (s : State) (id : Nat) (l : List Piece) (t : State) : Prop where
  frame : only (storeParts ++ [.ops, .sec]) dirRegs s t
  ended : t.ended id .ok
  byte : ∀ x v, (∀ p ∈ l, covers p x → p.2.getD (x - p.1) 0 = v) → (s.byte x = v ∨ ∃ p ∈ l, covers p x) → t.byte x = v

theorem endWith_wrote {s u : State} {id a n : Nat} {o : Op} {l : List Piece} (ho : s.op id = some o) (hs : s.settled) (hm : s.Marks u)
    (hp : s.plainFor o.ctx a n) (hin : piecesIn a n l) (stats : Nat → List (Nat × Nat)) : s.Wrote id l ((u.endWith o l stats).stepped o) := by
  have hu : u.settled := settled_of_coh (hm.frame.1 .coh (by simp)) hs
  have hend : u.endWith o l stats = (u.savedPieces l).done { o with stats := stats l.length } .ok := by
    rw [State.endWith, savePieces_plain hu (hm.plain hp) hin]
    rfl
  have hsaved := only_trans (only_mono hm.frame (by simp [storeParts]) (by simp)) (only_savedPieces u l)
  rw [hend]
  obtain ⟨honly, hended⟩ := done_counted_ends (o' := { o with stats := stats l.length }) ho rfl hsaved (by simp [storeParts]) .ok
  refine ⟨honly, hended, fun x v hall hsome => ?_⟩
  have hlast : only [.ops, .sec] [] (u.savedPieces l) (((u.savedPieces l).done { o with stats := stats l.length } .ok).stepped o) :=
    only_trans (only_done _ _ _ _ (by simp)) (only_mono (only_stepped [] _ o) (by simp) (by simp))
  rw [byte_of_same (hlast.1 .coh (by simp)) (hlast.1 .mem (by simp))]
  exact byte_savedPieces hu hall (by rwa [byte_of_same (hm.frame.1 .coh (by simp)) (hm.frame.1 .mem (by simp))])

section
variable {s t : State} {id : Nat} {l : List Piece} (h : s.Wrote id l t)
include h

theorem State.Wrote.outside {a n : Nat} (hin : piecesIn a n l) {x : Nat} (hx : x < a ∨ a + n ≤ x) : t.byte x = s.byte x := by
  refine h.byte x _ (fun p hp hc => ?_) (.inl rfl)
  obtain ⟨hlo, hhi⟩ := hin p hp
  obtain ⟨hfrom, hto⟩ := hc
  omega

/-- A byte that one piece alone writes. -/
theorem State.Wrote.inside {p : Piece} (hp : p ∈ l) {k : Nat} (hk : k < p.2.length) (hone : ∀ q ∈ l, covers q (p.1 + k) → q = p) :
    t.byte (p.1 + k) = p.2.getD k 0 := by
  refine h.byte _ _ (fun q hq hc => ?_) (.inr ⟨p, hp, by omega, by omega⟩)
  rw [hone q hq hc, Nat.add_sub_cancel_left]

/-- Bytes that one piece alone writes. -/
theorem State.Wrote.bytes {p : Piece} (hp : p ∈ l) {b n : Nat} (hn : b + n ≤ p.2.length)
    (hone : ∀ k < n, ∀ q ∈ l, covers q (p.1 + (b + k)) → q = p) : t.bytes (p.1 + b) n = (p.2.drop b).take n := by
  refine bytes_eq_of_getD (by simp; omega) fun k hk => ?_
  rw [Nat.add_assoc, h.inside hp (by omega) (hone k hk)]
  simp [List.getD_eq_getElem?_getD, hk]

end

-- pieces of one size, side by side

theorem mem_indexed {α : Type} {l : List α} {p : Nat × α} : p ∈ indexed l ↔ ∃ h : p.1 < l.length, l[p.1] = p.2 := by
  simp only [indexed, List.mem_iff_getElem, List.length_zip, List.length_range, min_self, List.getElem_zip, List.getElem_range, Prod.ext_iff]
  constructor
  · rintro ⟨i, hi, rfl, hval⟩
    exact ⟨hi, hval⟩
  · rintro ⟨hi, hval⟩
    exact ⟨p.1, hi, rfl, hval⟩

theorem length_indexed {α : Type} (l : List α) : (indexed l).length = l.length := by simp [indexed]

/-- One piece for each of the list, at a stride of z from a on. -/
def rowPieces {α : Type} (a z : Nat) (f : α → List Byte) (l : List α) : List Piece := (indexed l).map fun p => (a + p.1 * z, f p.2)

section
variable {α : Type} {a z : Nat} {f : α → List Byte} {l : List α}

theorem mem_rowPieces {q : Piece} : q ∈ rowPieces a z f l ↔ ∃ (i : Nat) (h : i < l.length), q = (a + i * z, f l[i]) := by
  simp only [rowPieces, List.mem_map, mem_indexed, Prod.exists]
  constructor
  · rintro ⟨i, v, ⟨hi, hv⟩, rfl⟩
    exact ⟨i, hi, by rw [← hv]⟩
  · rintro ⟨i, hi, rfl⟩
    exact ⟨i, _, ⟨hi, rfl⟩, rfl⟩

theorem row_mem_rowPieces {i : Nat} (hi : i < l.length) : (a + i * z, f l[i]) ∈ rowPieces a z f l := mem_rowPieces.2 ⟨i, hi, rfl⟩

variable (hlen : ∀ v ∈ l, (f v).length ≤ z)
include hlen

theorem piecesIn_rowPieces : piecesIn a (l.length * z) (rowPieces a z f l) := fun q hq => by
  obtain ⟨i, hi, rfl⟩ := mem_rowPieces.1 hq
  have hrow := hlen _ (List.getElem_mem hi)
  have hend : (i + 1) * z ≤ l.length * z := Nat.mul_le_mul_right z hi
  rw [Nat.succ_mul] at hend
  exact ⟨Nat.le_add_right _ _, by dsimp only; omega⟩

/-- A byte of row i lies in no other row. -/
theorem rowPieces_apart {i : Nat} (hi : i < l.length) {k : Nat} (hk : k < z) {q : Piece} (hq : q ∈ rowPieces a z f l)
    (hc : covers q (a + i * z + k)) : q = (a + i * z, f l[i]) := by
  obtain ⟨j, hj, rfl⟩ := mem_rowPieces.1 hq
  have hrow := hlen _ (List.getElem_mem hj)
  obtain ⟨hfrom, hto⟩ := hc
  dsimp only at hfrom hto
  have hup : j < i + 1 := lt_of_mul_lt_mul_right (a := z) (by rw [Nat.succ_mul]; omega) (Nat.zero_le _)
  have hdown : i < j + 1 := lt_of_mul_lt_mul_right (a := z) (by rw [Nat.succ_mul]; omega) (Nat.zero_le _)
  obtain rfl : j = i := by omega
  rfl

end

-- codes of a check and of a list (R18, R233)

theorem Status.listed_ok (l : Status) : Status.ok.listed l = .ok := rfl

theorem Status.listed_of_ne {st : Status} (h : st ≠ .zeroLenNoop) (l : Status) : st.listed l = st := if_neg (by simpa using h)

end Sys2Proof.Machine
end

section
/-! PROOFS. GATHER and GATHER_REDUCE (R233, R241, R244-R248). -/

namespace Sys2Proof.Machine

-- numbers of a list

theorem length_nums (s : State) (a z n : Nat) : (s.nums a z n).length = n := by simp [State.nums]

theorem getElem_nums (s : State) {a z n i : Nat} (h : i < (s.nums a z n).length) : (s.nums a z n)[i] = leNat (s.bytes (a + i * z) z) := by
  simp [State.nums]

-- GATHER

theorem exec_gather {s : State} {id : Nat} {o : Op} (h : s.runsOp id o 0x30) (ue : List Nat) :
    exec (.gather id ue) s = .next ((s.gatherRun o ue).stepped o) :=
  congrArg Host.Outcome.next (onOp_of_runs h _)

/-- What index n of a GATHER puts out: a row of the table, or zeros (R241). -/
def State.gatherRow (s : State) (d : BitVec 512) (n : Nat) : List Byte :=
  if gaRows d ≤ n then List.replicate (gaRow d) 0 else s.bytes (gaTable d + n * gaStride d) (gaRow d)

theorem length_gatherRow (s : State) (d : BitVec 512) (n : Nat) : (s.gatherRow d n).length = gaRow d := by
  unfold State.gatherRow
  split
  · exact List.length_replicate
  · exact length_bytes _ _ _

theorem getD_gatherRow (s : State) {d : BitVec 512} {k : Nat} (hk : k < gaRow d) (n : Nat) :
    (s.gatherRow d n).getD k 0 = if gaRows d ≤ n then 0 else s.byte (gaTable d + n * gaStride d + k) := by
  unfold State.gatherRow
  split
  · simp [List.getD_eq_getElem?_getD, hk]
  · exact getD_bytes s hk _

/-- The indices of a GATHER, and its output. -/
def State.gatherIdx (s : State) (d : BitVec 512) : List Nat := s.nums (gaIndex d) (gaIdx d) (gaCount d)
def State.gatherOut (s : State) (d : BitVec 512) : List Piece := rowPieces (gaDst d) (gaRow d) (s.gatherRow d) (s.gatherIdx d)

theorem gatherOut_in (s : State) (d : BitVec 512) : piecesIn (gaDst d) (gaCount d * gaRow d) (s.gatherOut d) := by
  have hin := piecesIn_rowPieces (a := gaDst d) (l := s.gatherIdx d) fun n _ => (length_gatherRow s d n).le
  rwa [State.gatherIdx, length_nums] at hin

section
variable {s : State} {o : Op} {ue : List Nat} (hc : s.gatherCheck o.ctx o.desc o.limit = .ok)
  (hindex : s.readCheck ue (gaIndex o.desc) (gaCount o.desc * gaIdx o.desc) = .ok)
include hc hindex

/-- A GATHER whose table reads good writes all its rows and ends. -/
theorem gatherRun_writes (hl : s.gatherList o.desc = .ok)
    (hrows : ∀ i, i < gaRows o.desc → s.readCheck ue (gaTable o.desc + i * gaStride o.desc) (gaRow o.desc) = .ok) :
    ∃ u stats, s.Marks u ∧ s.gatherRun o ue = u.endWith o (s.gatherOut o.desc) stats := by
  have hgood : (indexed (s.gatherIdx o.desc)).takeWhile (fun p => gaRows o.desc ≤ p.2
      || s.readCheck ue (gaTable o.desc + p.2 * gaStride o.desc) (gaRow o.desc) == .ok) = indexed (s.gatherIdx o.desc) :=
    List.takeWhile_eq_self_iff.2 fun p _ => by
      by_cases hp : gaRows o.desc ≤ p.2
      · simp [hp]
      · simp [hrows p.2 (by omega)]
  have hnone : (s.gatherIdx o.desc)[(indexed (s.gatherIdx o.desc)).length]? = none := by simp [length_indexed]
  refine ⟨_, whenAll (s.gatherOut o.desc).length [(o.dieReg 0x300, ((s.gatherIdx o.desc).filter fun i => gaRows o.desc ≤ i).length)],
    ((State.Marks.refl s).mark (gaIndex o.desc) (gaCount o.desc * gaIdx o.desc)).each
    ((s.gatherIdx o.desc).filter (· < gaRows o.desc)) (fun i => gaTable o.desc + i * gaStride o.desc) fun _ => gaRow o.desc, ?_⟩
  rw [State.gatherIdx] at hgood hnone
  simp only [State.gatherRun, hc, hl, hindex, Status.listed_ok, hgood, hnone]
  rfl

theorem gatherRun_refused (hl : s.gatherList o.desc ≠ .ok) : s.gatherRun o ue = s.done o .addrFault := by
  have hcode : s.gatherList o.desc = .addrFault := by
    unfold State.gatherList at hl ⊢
    split at hl
    · exact if_pos ‹_›
    · exact absurd rfl hl
  simp only [State.gatherRun, hc, hindex, hcode, Status.listed_ok]
  rfl

end

theorem gather_writes {s : State} {id : Nat} {o : Op} {ue : List Nat} (h : s.runsOp id o 0x30) (hc : s.gatherCheck o.ctx o.desc o.limit = .ok)
    (hl : s.gatherList o.desc = .ok) (hindex : s.readCheck ue (gaIndex o.desc) (gaCount o.desc * gaIdx o.desc) = .ok)
    (hrows : ∀ i, i < gaRows o.desc → s.readCheck ue (gaTable o.desc + i * gaStride o.desc) (gaRow o.desc) = .ok) (hs : s.settled)
    (hp : s.plainFor o.ctx (gaDst o.desc) (gaCount o.desc * gaRow o.desc)) :
    ∃ t, exec (.gather id ue) s = .next t ∧ s.Wrote id (s.gatherOut o.desc) t := by
  obtain ⟨u, stats, hmarks, hrun⟩ := gatherRun_writes hc hindex hl hrows
  exact ⟨_, exec_gather h ue, hrun ▸ endWith_wrote h.1 hs hmarks hp (gatherOut_in s o.desc) stats⟩

/-- Byte k of output row i (R241). -/
theorem gather_byte {s t : State} {id : Nat} {d : BitVec 512} (h : s.Wrote id (s.gatherOut d) t) {i k : Nat} (hi : i < gaCount d)
    (hk : k < gaRow d) : t.byte (gaDst d + i * gaRow d + k) =
      (let n := leNat (s.bytes (gaIndex d + i * gaIdx d) (gaIdx d))
       if gaRows d ≤ n then 0 else s.byte (gaTable d + n * gaStride d + k)) := by
  have hidx : i < (s.gatherIdx d).length := (length_nums s _ _ _).symm ▸ hi
  have hbyte := h.inside (row_mem_rowPieces hidx) (by rwa [length_gatherRow]) fun q hq =>
    rowPieces_apart (fun n _ => (length_gatherRow s d n).le) hidx hk hq
  rw [hbyte, getD_gatherRow s hk]
  simp only [State.gatherIdx, getElem_nums]

-- GATHER_REDUCE

theorem exec_gatherReduce {s : State} {id : Nat} {o : Op} (h : s.runsOp id o 0x31) (ue : List Nat) :
    exec (.gatherReduce id ue) s = .next ((s.gatherReduceRun o ue).stepped o) :=
  congrArg Host.Outcome.next (onOp_of_runs h _)

/-- A pooled row fills its place in the output (R245). -/
theorem length_bagRow (d : BitVec 512) (rows : List (List Byte)) : (bagRow d rows).length = grOB d := by
  have hround := (cdiv_spec (n := grElems d * esize (grOut d)) (m := 64) (by decide)).1
  rw [bagRow, List.length_append, List.length_replicate, length_flatMap_leBytes, List.length_map, List.length_range, grOB]
  omega

/-- The table rows that a bag from place p.1 to place p.2 of the index list names (R244). -/
def State.bagOf (s : State) (d : BitVec 512) (p : Nat × Nat) : List Nat :=
  (((s.nums (grBags d + grOffs d) 4 (grCount d)).drop p.1).take (p.2 - p.1)).filter (· < grRows d)

/-- The places of the bags, the bags, and the pooled row of one. -/
def State.bagPlaces (s : State) (d : BitVec 512) : List (Nat × Nat) :=
  (s.nums (grBags d) 4 (grBagCount d + 1)).zip (s.nums (grBags d) 4 (grBagCount d + 1)).tail
def State.bags (s : State) (d : BitVec 512) : List (List Nat) := (s.bagPlaces d).map (s.bagOf d)
def State.pooled (s : State) (d : BitVec 512) (b : List Nat) : List Byte := bagRow d (b.map fun i => s.bytes (grTable d + i * grRow d) (grRow d))
def State.pooledOut (s : State) (d : BitVec 512) : List Piece := rowPieces (grDst d) (grOB d) (s.pooled d) (s.bags d)

theorem length_bags (s : State) (d : BitVec 512) : (s.bags d).length = grBagCount d := by
  simp [State.bags, State.bagPlaces, length_nums]

theorem getElem_bags (s : State) {d : BitVec 512} {b : Nat} (h : b < (s.bags d).length) : (s.bags d)[b] =
    s.bagOf d (leNat (s.bytes (grBags d + 4 * b) 4), leNat (s.bytes (grBags d + 4 * (b + 1)) 4)) := by
  simp [State.bags, State.bagPlaces, getElem_nums, Nat.mul_comm]

theorem pooledOut_in (s : State) (d : BitVec 512) : piecesIn (grDst d) (grBagCount d * grOB d) (s.pooledOut d) := by
  have hin := piecesIn_rowPieces (a := grDst d) (f := s.pooled d) (l := s.bags d) fun b _ => (length_bagRow d _).le
  rwa [length_bags] at hin

section
variable {s : State} {o : Op} {ue : List Nat} (hc : s.gatherReduceCheck o.ctx o.desc o.limit = .ok)
  (hlist : s.readCheck ue (grBags o.desc) (grOffs o.desc + 4 * grCount o.desc) = .ok)
include hc hlist

/-- A GATHER_REDUCE whose table reads good writes all its pooled rows and ends. -/
theorem gatherReduceRun_writes (hl : s.bagList o.desc = .ok)
    (hrows : ∀ i, i < grRows o.desc → s.readCheck ue (grTable o.desc + i * grRow o.desc) (grRow o.desc) = .ok) :
    ∃ u stats, s.Marks u ∧ s.gatherReduceRun o ue = u.endWith o (s.pooledOut o.desc) stats := by
  have hgood : (s.bags o.desc).takeWhile (fun b => b.all fun i => s.readCheck ue (grTable o.desc + i * grRow o.desc) (grRow o.desc) == .ok)
      = s.bags o.desc := List.takeWhile_eq_self_iff.2 fun b hb => List.all_eq_true.2 fun i hi => by
    obtain ⟨p, -, rfl⟩ := List.mem_map.1 hb
    rw [hrows i (of_decide_eq_true (List.mem_filter.1 hi).2)]
    rfl
  have hnone : ((s.bags o.desc).drop (s.bags o.desc).length).head? = none := by simp
  refine ⟨_, whenAll (s.pooledOut o.desc).length [(o.dieReg 0x300,
      ((s.nums (grBags o.desc + grOffs o.desc) 4 (grCount o.desc)).filter fun i => grRows o.desc ≤ i).length)],
    ((State.Marks.refl s).mark (grBags o.desc) (grOffs o.desc + 4 * grCount o.desc)).each
    ((s.nums (grBags o.desc + grOffs o.desc) 4 (grCount o.desc)).filter (· < grRows o.desc)) (fun i => grTable o.desc + i * grRow o.desc)
    fun _ => grRow o.desc, ?_⟩
  delta State.bags State.bagPlaces State.bagOf at hgood hnone
  simp only [State.gatherReduceRun, hc, hl, hlist, Status.listed_ok, hgood, hnone]
  rfl

theorem gatherReduceRun_refused (hl : s.bagList o.desc ≠ .ok) : s.gatherReduceRun o ue = s.done o (s.bagList o.desc) := by
  have hcode : (s.bagList o.desc != .ok) = true := by simpa using hl
  simp only [State.gatherReduceRun, hc, hlist, Status.listed_ok, hcode]
  rfl

end

theorem gatherReduce_writes {s : State} {id : Nat} {o : Op} {ue : List Nat} (h : s.runsOp id o 0x31)
    (hc : s.gatherReduceCheck o.ctx o.desc o.limit = .ok) (hl : s.bagList o.desc = .ok)
    (hlist : s.readCheck ue (grBags o.desc) (grOffs o.desc + 4 * grCount o.desc) = .ok)
    (hrows : ∀ i, i < grRows o.desc → s.readCheck ue (grTable o.desc + i * grRow o.desc) (grRow o.desc) = .ok) (hs : s.settled)
    (hp : s.plainFor o.ctx (grDst o.desc) (grBagCount o.desc * grOB o.desc)) :
    ∃ t, exec (.gatherReduce id ue) s = .next t ∧ s.Wrote id (s.pooledOut o.desc) t := by
  obtain ⟨u, stats, hmarks, hrun⟩ := gatherReduceRun_writes hc hlist hl hrows
  exact ⟨_, exec_gatherReduce h ue, hrun ▸ endWith_wrote h.1 hs hmarks hp (pooledOut_in s o.desc) stats⟩

/-- The pooled row of bag b (R245, R247). -/
theorem gatherReduce_row {s t : State} {id : Nat} {d : BitVec 512} (h : s.Wrote id (s.pooledOut d) t) {b : Nat} (hb : b < grBagCount d) :
    t.bytes (grDst d + b * grOB d) (grOB d) =
      s.pooled d (s.bagOf d (leNat (s.bytes (grBags d + 4 * b) 4), leNat (s.bytes (grBags d + 4 * (b + 1)) 4))) := by
  have hlen : ∀ b, (s.pooled d b).length = grOB d := fun b => length_bagRow d _
  have hbag : b < (s.bags d).length := (length_bags s d).symm ▸ hb
  rw [← getElem_bags s hbag]
  refine bytes_eq_of_getD (hlen _) fun k hk => ?_
  exact h.inside (row_mem_rowPieces hbag) (by rwa [hlen]) fun q hq => rowPieces_apart (fun b _ => (hlen b).le) hbag hk hq

/-- Settles O20: each row is a piece of the output of its own, and the lists that are refused end the operation before any piece. -/
theorem gathersWriteTheRowsTheirListsName : Obligations.GathersWriteTheRowsTheirListsName := by
  unfold Obligations.GathersWriteTheRowsTheirListsName
  refine ⟨⟨fun s id o ue h hc hl hindex hrows hs hp => ?_, fun s id o ue h hc hindex hl => ⟨_, exec_gather h ue, ?_⟩⟩,
    fun s id o ue h hc hl hlist hrows hs hp => ?_, fun s id o ue h hc hlist hl => ⟨_, exec_gatherReduce h ue, ?_⟩⟩
  · obtain ⟨t, hexec, hwrote⟩ := gather_writes h hc hl hindex hrows hs hp
    exact ⟨t, hexec, hwrote.frame, hwrote.ended, fun i k hi hk => gather_byte hwrote hi hk, fun a ha => hwrote.outside (gatherOut_in s o.desc) ha⟩
  · rw [gatherRun_refused hc hindex hl]
    exact done_ends_at_once h.1 _
  · obtain ⟨t, hexec, hwrote⟩ := gatherReduce_writes h hc hl hlist hrows hs hp
    exact ⟨t, hexec, hwrote.frame, hwrote.ended, fun b hb => gatherReduce_row hwrote hb, fun a ha => hwrote.outside (pooledOut_in s o.desc) ha⟩
  · rw [gatherReduceRun_refused hc hlist hl]
    exact done_ends_at_once h.1 _

end Sys2Proof.Machine
end

section
/-! PROOFS. ROW_FILTER (R250-R253). -/

namespace Sys2Proof.Machine

theorem bfld_lt {n : Nat} (b : BitVec n) (lo w : Nat) : bfld b lo w < 2 ^ w := (b.extractLsb' lo w).isLt

theorem cdiv_mono {m n k : Nat} (hk : 0 < k) (h : m ≤ n) : cdiv m k ≤ cdiv n k := (cdiv_spec hk).2 _ (h.trans (cdiv_spec hk).1)

theorem exec_rowFilter {s : State} {id : Nat} {o : Op} (h : s.runsOp id o 0x32) (ue : List Nat) :
    exec (.rowFilter id ue) s = .next ((s.rowFilterRun o ue).stepped o) :=
  congrArg Host.Outcome.next (onOp_of_runs h _)

-- what is written (R253)

/-- The row numbers that go out, and with each its row. -/
def State.rfSentIdx (s : State) (d : BitVec 512) : List Nat := (s.rowHits d).take (rfOmax d)
def State.rfSent (s : State) (d : BitVec 512) : List (Nat × List Byte) :=
  (s.rfSentIdx d).map fun i => (i, s.bytes (rfSrc d + i * rfRow d) (rfRow d))

/-- The header of n sent rows of m that match, the list of row numbers, and the whole output. -/
def rfHead (d : BitVec 512) (n m : Nat) : List Byte :=
  leBytes 4 n ++ leBytes 4 m ++ leBytes 4 (if rfOmax d < m then 1 else 0) ++ List.replicate 52 0
def rfNumbers (rows : List (Nat × List Byte)) : List Byte :=
  rows.flatMap (fun p => leBytes 4 p.1)
    ++ List.replicate (cdiv (rows.flatMap fun p => leBytes 4 p.1).length 64 * 64 - (rows.flatMap fun p => leBytes 4 p.1).length) 0
def State.rfOut (s : State) (d : BitVec 512) : List Piece :=
  (rfDst d, rfHead d (s.rfSentIdx d).length (s.rowHits d).length) :: rfPieces d (s.rfSent d)

theorem rowHits_lt (s : State) {d : BitVec 512} {i : Nat} (h : i ∈ s.rowHits d) : i < rfCount d := List.mem_range.1 (List.mem_filter.1 h).1

theorem length_rowHits (s : State) (d : BitVec 512) : (s.rowHits d).length ≤ rfCount d :=
  (List.length_filter_le _ _).trans_eq List.length_range

theorem length_rfSentIdx (s : State) (d : BitVec 512) : (s.rfSentIdx d).length = min (rfOmax d) (s.rowHits d).length := List.length_take

theorem length_rfSent (s : State) (d : BitVec 512) : (s.rfSent d).length = min (rfOmax d) (s.rowHits d).length :=
  (List.length_map _).trans (length_rfSentIdx s d)

theorem length_row_of_sent (s : State) (d : BitVec 512) : ∀ p ∈ s.rfSent d, p.2.length = rfRow d := fun p hp => by
  obtain ⟨i, -, rfl⟩ := List.mem_map.1 hp
  exact length_bytes _ _ _

theorem getElem_rfSent (s : State) {d : BitVec 512} {j : Nat} (h : j < (s.rfSent d).length) : (s.rfSent d)[j] =
    ((s.rowHits d).getD j 0, s.bytes (rfSrc d + (s.rowHits d).getD j 0 * rfRow d) (rfRow d)) := by
  have hj : j < (s.rowHits d).length := by
    rw [length_rfSent] at h
    omega
  simp [State.rfSent, State.rfSentIdx, hj]

theorem length_rfHead (d : BitVec 512) (n m : Nat) : (rfHead d n m).length = 64 := by simp [rfHead]

theorem flatMap_numbers (rows : List (Nat × List Byte)) : rows.flatMap (fun p => leBytes 4 p.1) = (rows.map (·.1)).flatMap (leBytes 4) :=
  (List.flatMap_map _ _ _).symm

theorem length_rfNumbers (rows : List (Nat × List Byte)) : (rfNumbers rows).length = cdiv (4 * rows.length) 64 * 64 := by
  have hround := (cdiv_spec (n := 4 * rows.length) (m := 64) (by decide)).1
  rw [rfNumbers, List.length_append, List.length_replicate, flatMap_numbers, length_flatMap_leBytes, List.length_map, Nat.mul_comm]
  omega

theorem getD_rfNumbers {rows : List (Nat × List Byte)} {j k : Nat} (hj : j < rows.length) (hk : k < 4) :
    (rfNumbers rows).getD (4 * j + k) 0 = (leBytes 4 rows[j].1).getD k 0 := by
  have hmap : j < (rows.map (·.1)).length := by simpa using hj
  rw [rfNumbers, flatMap_numbers, List.getD_append _ _ _ _ (by rw [length_flatMap_leBytes]; omega), getD_flatMap_leBytes hmap hk, List.getElem_map]

/-- The numbers of the rows that go out fit the list (R253). -/
theorem length_rfNumbers_sent (s : State) {d : BitVec 512} (h : rfMode d = 1 ∨ rfMode d = 2) : (rfNumbers (s.rfSent d)).length ≤ rfList d := by
  rw [length_rfNumbers, length_rfSent, rfList, if_pos (by simpa using h)]
  exact Nat.mul_le_mul_right _ (cdiv_mono (by decide) (by omega))

/-- Of the pieces after the header: the list of row numbers, and the rows, as MODE says. -/
theorem mem_rfPieces {d : BitVec 512} {rows : List (Nat × List Byte)} {q : Piece} : q ∈ rfPieces d rows ↔
    ((rfMode d = 1 ∨ rfMode d = 2) ∧ q = (rfDst d + 64, rfNumbers rows))
      ∨ (rfMode d ≠ 1 ∧ q ∈ rowPieces (rfDst d + 64 + rfList d) (rfRow d) (fun p : Nat × List Byte => p.2) rows) := by
  show q ∈ (if rfMode d = 1 || rfMode d = 2 then [(rfDst d + 64, rfNumbers rows)] else [])
    ++ (if rfMode d = 1 then [] else rowPieces (rfDst d + 64 + rfList d) (rfRow d) (fun p : Nat × List Byte => p.2) rows) ↔ _
  rw [List.mem_append, List.mem_ite_nil_right, List.mem_ite_nil_left, List.mem_singleton, Bool.or_eq_true, decide_eq_true_eq, decide_eq_true_eq]

/-- Where the three parts of the output lie. -/
theorem rfOut_place {s : State} {d : BitVec 512} {q : Piece} (hq : q ∈ s.rfOut d) :
    (q = (rfDst d, rfHead d (s.rfSentIdx d).length (s.rowHits d).length) ∧ q.1 = rfDst d ∧ q.2.length = 64)
      ∨ ((rfMode d = 1 ∨ rfMode d = 2) ∧ q = (rfDst d + 64, rfNumbers (s.rfSent d)) ∧ q.1 = rfDst d + 64 ∧ q.2.length ≤ rfList d)
      ∨ (rfMode d ≠ 1 ∧ q ∈ rowPieces (rfDst d + 64 + rfList d) (rfRow d) (fun p : Nat × List Byte => p.2) (s.rfSent d)
          ∧ rfDst d + 64 + rfList d ≤ q.1 ∧ q.1 + q.2.length ≤ rfDst d + 64 + rfList d + rfOmax d * rfRow d) := by
  have hcount : (s.rfSent d).length ≤ rfOmax d := by
    rw [length_rfSent]
    exact min_le_left _ _
  rcases List.mem_cons.1 hq with rfl | hq
  · exact .inl ⟨rfl, rfl, length_rfHead _ _ _⟩
  · rcases mem_rfPieces.1 hq with ⟨hmode, rfl⟩ | ⟨hmode, hrow⟩
    · exact .inr (.inl ⟨hmode, rfl, rfl, length_rfNumbers_sent s hmode⟩)
    · obtain ⟨hlo, hhi⟩ := piecesIn_rowPieces (fun p hp => (length_row_of_sent s d p hp).le) q hrow
      have hrows : (s.rfSent d).length * rfRow d ≤ rfOmax d * rfRow d := Nat.mul_le_mul_right _ hcount
      exact .inr (.inr ⟨hmode, hrow, hlo, by omega⟩)

theorem rfOut_in (s : State) (d : BitVec 512) : piecesIn (rfDst d) (rfOutBytes d) (s.rfOut d) := fun q hq => by
  unfold rfOutBytes
  rcases rfOut_place hq with ⟨-, hat, hlen⟩ | ⟨-, -, hat, hlen⟩ | ⟨hmode, -, hat, hlen⟩
  · omega
  · omega
  · rw [if_neg hmode]
    omega

/-- A ROW_FILTER whose rows read good writes its output and ends. -/
theorem rowFilterRun_writes {s : State} {o : Op} {ue : List Nat} (hc : s.rowFilterCheck o.ctx o.desc o.limit = .ok)
    (hrows : ∀ i, i < rfCount o.desc → s.readCheck ue (rfSrc o.desc + i * rfRow o.desc) (rfRow o.desc) = .ok) :
    ∃ u stats, s.Marks u ∧ s.rowFilterRun o ue = u.endWith o (s.rfOut o.desc) stats := by
  have hgood : (List.range (rfCount o.desc)).takeWhile (fun i => s.readCheck ue (rfSrc o.desc + i * rfRow o.desc) (rfRow o.desc) == .ok)
      = List.range (rfCount o.desc) := List.takeWhile_eq_self_iff.2 fun i hi => by
    rw [hrows i (List.mem_range.1 hi)]
    rfl
  have hhits : ((List.range (rfCount o.desc)).map fun i => (i, s.bytes (rfSrc o.desc + i * rfRow o.desc) (rfRow o.desc))).filter
      (fun p => rowMatch o.desc p.2) = (s.rowHits o.desc).map fun i => (i, s.bytes (rfSrc o.desc + i * rfRow o.desc) (rfRow o.desc)) :=
    List.filter_map
  refine ⟨_, whenAll (s.rfOut o.desc).length [(o.dieReg 0x304, if rfOmax o.desc < (s.rowHits o.desc).length then 1 else 0)],
    (State.Marks.refl s).mark (rfSrc o.desc) (rfCount o.desc * rfRow o.desc), ?_⟩
  simp only [State.rowFilterRun, hc, hgood, hhits, List.length_range, lt_irrefl, if_false, List.length_map, ← List.map_take]
  rfl

section
variable {s t : State} {id : Nat} {d : BitVec 512} (h : s.Wrote id (s.rfOut d) t)
include h

/-- A number of the header (R253). -/
theorem rowFilter_header {b : Nat} (hb : b + 4 ≤ 64) :
    t.bytes (rfDst d + b) 4 = ((rfHead d (s.rfSentIdx d).length (s.rowHits d).length).drop b).take 4 :=
  h.bytes (p := (rfDst d, rfHead d (s.rfSentIdx d).length (s.rowHits d).length)) (by simp [State.rfOut]) (by rwa [length_rfHead]) fun k hk q hq hc => by
    obtain ⟨hfrom, -⟩ := hc
    dsimp only at hfrom
    rcases rfOut_place hq with ⟨rfl, -, -⟩ | ⟨-, -, hat, -⟩ | ⟨-, -, hat, -⟩
    · rfl
    · omega
    · omega

theorem rowFilter_sent : leNat (t.bytes (rfDst d) 4) = min (rfOmax d) (s.rowHits d).length := by
  have hsmall : rfCount d < 2 ^ 32 := bfld_lt d _ _
  have hhits := length_rowHits s d
  have hword : t.bytes (rfDst d) 4 = leBytes 4 (s.rfSentIdx d).length := by
    rw [← Nat.add_zero (rfDst d), rowFilter_header h (by decide)]
    simp [rfHead]
  rw [hword, leNat_leBytes, length_rfSentIdx]
  exact Nat.mod_eq_of_lt (by omega)

theorem rowFilter_matched : leNat (t.bytes (rfDst d + 4) 4) = (s.rowHits d).length := by
  have hsmall : rfCount d < 2 ^ 32 := bfld_lt d _ _
  have hhits := length_rowHits s d
  have hword : t.bytes (rfDst d + 4) 4 = leBytes 4 (s.rowHits d).length := by
    rw [rowFilter_header h (by decide)]
    simp [rfHead]
  rw [hword, leNat_leBytes]
  exact Nat.mod_eq_of_lt (by omega)

/-- Number j of the list (R253). -/
theorem rowFilter_number (hmode : rfMode d = 1 ∨ rfMode d = 2) {j : Nat} (hj : j < min (rfOmax d) (s.rowHits d).length) :
    leNat (t.bytes (rfDst d + 64 + 4 * j) 4) = (s.rowHits d).getD j 0 := by
  have hsent : j < (s.rfSent d).length := (length_rfSent s d).symm ▸ hj
  have hfits : 4 * (s.rfSent d).length ≤ (rfNumbers (s.rfSent d)).length := by
    rw [length_rfNumbers]
    exact (cdiv_spec (by decide)).1
  have hword : t.bytes (rfDst d + 64 + 4 * j) 4 = leBytes 4 (s.rfSent d)[j].1 := by
    refine bytes_eq_of_getD (length_leBytes _ _) fun k hk => ?_
    rw [← getD_rfNumbers hsent hk, Nat.add_assoc]
    refine h.inside (p := (rfDst d + 64, rfNumbers (s.rfSent d))) (List.mem_cons_of_mem _ (mem_rfPieces.2 (.inl ⟨hmode, rfl⟩)))
      (by dsimp only; omega) fun q hq hc => ?_
    have hlist := length_rfNumbers_sent s hmode
    obtain ⟨hfrom, hto⟩ := hc
    dsimp only at hfrom hto
    rcases rfOut_place hq with ⟨-, hat, hlen⟩ | ⟨-, heq, -, -⟩ | ⟨-, -, hat, -⟩
    · omega
    · exact heq
    · omega
  have hhit := rowHits_lt s (List.getElem_mem (l := s.rowHits d) (n := j) (by omega))
  have hsmall : rfCount d < 2 ^ 32 := bfld_lt d _ _
  rw [hword, leNat_leBytes, getElem_rfSent s hsent, List.getD_eq_getElem _ _ (by omega)]
  exact Nat.mod_eq_of_lt (by omega)

/-- Byte k of row copy j (R253). -/
theorem rowFilter_row (hmode : rfMode d ≠ 1) {j k : Nat} (hj : j < min (rfOmax d) (s.rowHits d).length) (hk : k < rfRow d) :
    t.byte (rfDst d + 64 + rfList d + j * rfRow d + k) = s.byte (rfSrc d + (s.rowHits d).getD j 0 * rfRow d + k) := by
  have hsent : j < (s.rfSent d).length := (length_rfSent s d).symm ▸ hj
  have hlen := length_row_of_sent s d
  have hrow := row_mem_rowPieces (a := rfDst d + 64 + rfList d) (z := rfRow d) (f := fun p : Nat × List Byte => p.2) hsent
  have hbyte := h.inside (List.mem_cons_of_mem _ (mem_rfPieces.2 (.inr ⟨hmode, hrow⟩))) (by rwa [hlen _ (List.getElem_mem hsent)])
    fun q hq hc => by
      have ⟨hfrom, hto⟩ := hc
      dsimp only at hfrom hto
      rcases rfOut_place hq with ⟨-, hat, hlong⟩ | ⟨-, -, hat, hlong⟩ | ⟨-, hmem, -, -⟩
      · omega
      · omega
      · exact rowPieces_apart (fun p hp => (hlen p hp).le) hsent hk hmem hc
  rw [hbyte, getElem_rfSent s hsent]
  exact getD_bytes s hk _

end

end Sys2Proof.Machine
end

section
/-! PROOFS. SCORE_FILTER: how many blocks are sent, and where its output lies (R259-R264). -/

namespace Sys2Proof.Machine

theorem exec_scoreFilter {s : State} {id : Nat} {o : Op} (h : s.runsOp id o 0x33) (ue : List Nat) :
    exec (.scoreFilter id ue) s = .next ((s.scoreFilterRun o ue).stepped o) :=
  congrArg Host.Outcome.next (onOp_of_runs h _)

-- how many blocks are selected (R259, R261, R262)

theorem length_insertBy {α : Type} (le : α → α → Bool) (a : α) (l : List α) : (insertBy le a l).length = l.length + 1 := by
  induction l with
  | nil => rfl
  | cons b l ih =>
    rw [insertBy]
    split
    · rfl
    · rw [List.length_cons, ih, List.length_cons]

theorem length_orderBy {α : Type} (le : α → α → Bool) (l : List α) : (orderBy le l).length = l.length := by
  induction l with
  | nil => rfl
  | cons a l ih => rw [orderBy, List.foldr_cons, length_insertBy, ← orderBy, ih, List.length_cons]

/-- Of n numbers the first a and the last b. -/
theorem length_filter_ends (n a b : Nat) : ((List.range n).filter fun i => decide (i < a) || decide (n ≤ i + b)).length = min n (a + b) := by
  have hpart : ∀ k ≤ n, ((List.range k).filter fun i => decide (i < a) || decide (n ≤ i + b)).length = min k a + (k - max a (n - b)) := by
    intro k hk
    induction k with
    | zero => simp
    | succ k ih =>
      rw [List.range_succ, List.filter_append, List.length_append, ih (by omega), List.filter_singleton]
      by_cases h : k < a ∨ n ≤ k + b
      · rw [show (decide (k < a) || decide (n ≤ k + b)) = true by simpa using h, cond_true, List.length_singleton]
        omega
      · rw [show (decide (k < a) || decide (n ≤ k + b)) = false by simpa using h, cond_false, List.length_nil]
        omega
  rw [hpart n le_rfl]
  omega

/-- The query rows of a SCORE_FILTER, its scored blocks, and those that it sends. -/
def State.sfQueries (s : State) (d : BitVec 512) : List (List Val) :=
  (List.range (sfG d)).map fun g => sfElems d (sfQF d) (s.bytes (sfQuery d + g * sfRow d) (sfRow d))
def State.sfScored (s : State) (d : BitVec 512) : List Scored :=
  (List.range (sfBlocks d)).map fun i => { pos := i, score := s.blockScore d (s.sfQueries d) i }
def State.sfSent (s : State) (d : BitVec 512) : List Scored := sfOrdered d (s.sfScored d)

theorem length_sfScored (s : State) (d : BitVec 512) : (s.sfScored d).length = sfBlocks d := by simp [State.sfScored]

theorem length_forced (s : State) (d : BitVec 512) : ((s.sfScored d).filter fun b => sfIsForced d b.pos).length = sfForced d := by
  rw [State.sfScored, List.filter_map, List.length_map]
  exact length_filter_ends _ _ _

theorem length_free (s : State) (d : BitVec 512) : ((s.sfScored d).filter fun b => !sfIsForced d b.pos).length = sfBlocks d - sfForced d := by
  have hsum := List.length_eq_length_filter_add (l := s.sfScored d) fun b => sfIsForced d b.pos
  rw [length_sfScored, length_forced] at hsum
  omega

theorem length_sfSelect (s : State) (d : BitVec 512) : sfForced d + (sfSelect d (s.sfScored d)).length ≤ sfOutMax d := by
  have hfree : (orderBy rankBefore ((s.sfScored d).filter fun b => !sfIsForced d b.pos)).length = sfBlocks d - sfForced d :=
    (length_orderBy _ _).trans (length_free s d)
  unfold sfSelect sfOutMax
  dsimp only
  generalize orderBy rankBefore _ = free at hfree ⊢
  have hqualify := List.length_filter_le (sfQualifies d) free
  refine Nat.add_le_add_left ?_ _
  split
  · split
    · omega
    · rw [List.length_take]
      omega
  · rw [List.length_take]
    omega

theorem length_sfSent (s : State) (d : BitVec 512) : (s.sfSent d).length = sfForced d + (sfSelect d (s.sfScored d)).length := by
  have hsel : ((s.sfScored d).filter (fun b => sfIsForced d b.pos) ++ sfSelect d (s.sfScored d)).length
      = sfForced d + (sfSelect d (s.sfScored d)).length := by
    rw [List.length_append, length_forced]
  unfold State.sfSent sfOrdered
  dsimp only
  split
  · exact (length_orderBy _ _).trans hsel
  · exact (length_orderBy _ _).trans hsel

theorem sfOutMax_le (d : BitVec 512) : sfOutMax d ≤ sfBlocks d := by
  have hforced : sfForced d ≤ sfBlocks d := min_le_left _ _
  unfold sfOutMax
  dsimp only
  split
  · split <;> omega
  · omega

-- where the output lies (R262)

/-- The copies of key blocks, of value blocks, and of all blocks; the header, and the whole output. -/
def State.sfKeyRows (s : State) (d : BitVec 512) : List Piece :=
  rowPieces (sfDst d + 64 + sfLB d) (sfKB d) (fun b : Scored => s.bytes (s.blockEntry d b.pos).1 (sfKB d)) (s.sfSent d)
def State.sfValRows (s : State) (d : BitVec 512) : List Piece :=
  rowPieces (sfDst d + 64 + sfLB d + sfKeys d) (sfVBY d) (fun b : Scored => s.bytes (s.blockEntry d b.pos).2 (sfVBY d)) (s.sfSent d)
def State.sfCopies (s : State) (d : BitVec 512) : List Piece :=
  (s.sfBlockPieces d (s.sfSent d)).map fun p => (p.2, s.bytes p.1.1 p.1.2)
def State.sfHeader (s : State) (d : BitVec 512) : Piece := (sfHead d (s.sfScored d) (s.sfSent d)).headD (0, [])
def State.sfOut (s : State) (d : BitVec 512) : List Piece := sfHead d (s.sfScored d) (s.sfSent d) ++ s.sfCopies d

theorem sfCopies_eq (s : State) (d : BitVec 512) : s.sfCopies d =
    (if sfCopy d = 1 then s.sfKeyRows d else []) ++ (if sfCopy d = 1 ∨ sfCopy d = 2 then s.sfValRows d else []) := by
  simp only [State.sfCopies, State.sfBlockPieces, Bool.or_eq_true, decide_eq_true_eq, List.map_append]
  congr 1
  · split
    · exact List.map_map
    · rfl
  · split
    · exact List.map_map
    · rfl

theorem sfHeader_at (s : State) (d : BitVec 512) : (s.sfHeader d).1 = sfDst d := rfl

theorem length_sfHeader (s : State) (d : BitVec 512) : (s.sfHeader d).2.length = 64 := by simp [State.sfHeader, sfHead]

theorem take_sfHeader (s : State) (d : BitVec 512) : (s.sfHeader d).2.take 4 = leBytes 4 (s.sfSent d).length := by simp [State.sfHeader, sfHead]

/-- The parts of the output after the header lie in its extent, past the header (R262, R263). -/
theorem sfOut_place {s : State} {d : BitVec 512} {q : Piece} (hq : q ∈ s.sfOut d) :
    q = s.sfHeader d ∨ (sfDst d + 64 ≤ q.1 ∧ q.1 + q.2.length ≤ sfDst d + sfOutBytes d) := by
  have hcount : (s.sfSent d).length ≤ sfOutMax d := (length_sfSent s d).trans_le (length_sfSelect s d)
  unfold sfOutBytes
  rcases List.mem_append.1 hq with hhead | hcopy
  · rcases List.mem_cons.1 hhead with rfl | hlist
    · exact .inl rfl
    · obtain rfl := List.mem_singleton.1 hlist
      have hround := (cdiv_spec (n := 8 * sfOutMax d) (m := 64) (by decide)).1
      refine .inr ⟨le_rfl, ?_⟩
      simp only [List.length_flatMap, List.length_append, length_leBytes, List.map_const', List.sum_replicate, smul_eq_mul]
      rw [← sfLB] at hround
      omega
  · rw [sfCopies_eq, List.mem_append, List.mem_ite_nil_right, List.mem_ite_nil_right] at hcopy
    rcases hcopy with ⟨hmode, hkey⟩ | ⟨hmode, hval⟩
    · have hin := piecesIn_rowPieces (fun b _ => (length_bytes s _ _).le) q hkey
      have hrows : (s.sfSent d).length * sfKB d ≤ sfOutMax d * sfKB d := Nat.mul_le_mul_right _ hcount
      have hplace : sfKeys d = sfOutMax d * sfKB d := if_pos hmode
      exact .inr ⟨by omega, by omega⟩
    · have hin := piecesIn_rowPieces (fun b _ => (length_bytes s _ _).le) q hval
      have hrows : (s.sfSent d).length * sfVBY d ≤ sfOutMax d * sfVBY d := Nat.mul_le_mul_right _ hcount
      have hplace : sfVals d = sfOutMax d * sfVBY d := if_pos (by simpa using hmode)
      exact .inr ⟨by omega, by omega⟩

theorem sfOut_in (s : State) (d : BitVec 512) : piecesIn (sfDst d) (sfOutBytes d) (s.sfOut d) := fun q hq => by
  rcases sfOut_place hq with rfl | ⟨hat, hlen⟩
  · rw [sfHeader_at, length_sfHeader]
    unfold sfOutBytes
    omega
  · omega

-- the run

theorem readAll_ok {s : State} {ue : List Nat} {l : List Span} (h : ∀ p ∈ l, s.readCheck ue p.1 p.2 = .ok) : (s.readAll ue l).1 = .ok :=
  List.foldlRecOn (motive := fun q : Status × Nat => q.1 = .ok) _ _ rfl fun q hq p hp => by
    rw [hq]
    exact h p hp

/-- Where no line is known bad and no page is lost, every read is good. -/
theorem readCheck_clean {s : State} (hpoison : s.poison = []) (hlost : ∀ p, s.lostCheck p = .ok) (a n : Nat) : s.readCheck [] a n = .ok :=
  readCheck_eq_ok.2 ⟨foldl_worst_ok fun p _ => hlost p, by simp [State.badLines, hpoison]⟩

/-- The pages of all that a SCORE_FILTER reads, marked (R345); what it counts (R266). -/
def State.sfMarked (s : State) (d : BitVec 512) : State :=
  (s.each (sfInputs d ++ if sfSummary d then [] else (List.range (sfBlocks d)).map fun i => ((s.blockEntry d i).1, sfKB d))
    fun p t => t.mark p.1 p.2).each (s.sfBlockPieces d (s.sfSent d)) fun p t => t.mark p.1.1 p.1.2
def State.sfCounts (s : State) (o : Op) : List (Nat × Nat) :=
  let q := ((s.sfScored o.desc).filter fun b => !sfIsForced o.desc b.pos && sfQualifies o.desc b).length
  [(o.dieReg 0x304, if sfThr o.desc && sfMax o.desc != 0 && sfMax o.desc < q then 1 else 0),
    (o.dieReg 0x308, ((s.sfScored o.desc).filter Scored.isNan).length), (o.dieReg 0x30C, sfBlocks o.desc),
    (o.dieReg 0x310, (s.sfSent o.desc).length)]

theorem marks_sfMarked (s : State) (d : BitVec 512) : s.Marks (s.sfMarked d) :=
  ((State.Marks.refl s).each _ (fun p : Span => p.1) fun p => p.2).each _ (fun p : Span × Nat => p.1.1) fun p => p.1.2

/-- A SCORE_FILTER whose reads are good writes its output and ends. -/
theorem scoreFilterRun_writes {s : State} {o : Op} (hc : s.scoreFilterCheck o.ctx o.desc o.limit = .ok) (hl : s.blockList o.ctx o.desc = .ok)
    (hread : ∀ a n, s.readCheck [] a n = .ok) :
    s.scoreFilterRun o [] = (s.sfMarked o.desc).endWith o (s.sfOut o.desc) (whenAll (s.sfOut o.desc).length (s.sfCounts o)) := by
  have hall : ∀ l, (s.readAll [] l).1 = .ok := fun l => readAll_ok fun p _ => hread p.1 p.2
  have hgood : ∀ l : List (Span × Nat), l.takeWhile (fun p => s.readCheck [] p.1.1 p.1.2 == .ok) = l := fun l =>
    List.takeWhile_eq_self_iff.2 fun p _ => by
      rw [hread]
      rfl
  have hnone : ∀ l : List (Span × Nat), l[l.length]? = none := fun l => List.getElem?_eq_none le_rfl
  rw [State.scoreFilterRun]
  simp only [hgood]
  simp only [hc, hl, hread, hall, hnone, Status.listed_ok]
  rfl

theorem scoreFilterRun_refused {s : State} {o : Op} (ue : List Nat) (hc : s.scoreFilterCheck o.ctx o.desc o.limit ≠ .ok)
    (hnoop : s.scoreFilterCheck o.ctx o.desc o.limit ≠ .zeroLenNoop) :
    s.scoreFilterRun o ue = s.done o (s.scoreFilterCheck o.ctx o.desc o.limit) := by
  rw [State.scoreFilterRun]
  simp only [Status.listed_of_ne hnoop, bne_iff_ne.2 hc, if_true]

/-- The header's first word is the number of blocks sent (R263). -/
theorem scoreFilter_sent {s t : State} {id : Nat} {d : BitVec 512} (h : s.Wrote id (s.sfOut d) t) :
    leNat (t.bytes (sfDst d) 4) = (s.sfSent d).length := by
  have hmax : (s.sfSent d).length ≤ sfOutMax d := (length_sfSent s d).trans_le (length_sfSelect s d)
  have hblocks := sfOutMax_le d
  have hsmall : sfBlocks d < 2 ^ 16 := bfld_lt d _ _
  have hword : t.bytes (sfDst d) 4 = leBytes 4 (s.sfSent d).length := by
    have hbytes := h.bytes (p := s.sfHeader d) (b := 0) (n := 4) (List.mem_append_left _ List.mem_cons_self) (by rw [length_sfHeader]; decide)
      fun k hk q hq hc => (sfOut_place hq).resolve_right fun ⟨hat, _⟩ => by
        obtain ⟨hfrom, -⟩ := hc
        rw [sfHeader_at] at hfrom
        omega
    rwa [sfHeader_at, Nat.add_zero, List.drop_zero, take_sfHeader] at hbytes
  rw [hword, leNat_leBytes]
  exact Nat.mod_eq_of_lt (by omega)

end Sys2Proof.Machine
end

section
/-! PROOFS. The filters send what matches (R253, R258-R264). -/

namespace Sys2Proof.Machine

theorem rowFilter_writes {s : State} {id : Nat} {o : Op} {ue : List Nat} (h : s.runsOp id o 0x32)
    (hc : s.rowFilterCheck o.ctx o.desc o.limit = .ok)
    (hrows : ∀ i, i < rfCount o.desc → s.readCheck ue (rfSrc o.desc + i * rfRow o.desc) (rfRow o.desc) = .ok) (hs : s.settled)
    (hp : s.plainFor o.ctx (rfDst o.desc) (rfOutBytes o.desc)) :
    ∃ t, exec (.rowFilter id ue) s = .next t ∧ s.Wrote id (s.rfOut o.desc) t := by
  obtain ⟨u, stats, hmarks, hrun⟩ := rowFilterRun_writes hc hrows
  exact ⟨_, exec_rowFilter h ue, hrun ▸ endWith_wrote h.1 hs hmarks hp (rfOut_in s o.desc) stats⟩

theorem scoreFilter_writes {s : State} {id : Nat} {o : Op} (h : s.runsOp id o 0x33) (hc : s.scoreFilterCheck o.ctx o.desc o.limit = .ok)
    (hl : s.blockList o.ctx o.desc = .ok) (hread : ∀ a n, s.readCheck [] a n = .ok) (hs : s.settled)
    (hp : s.plainFor o.ctx (sfDst o.desc) (sfOutBytes o.desc)) :
    ∃ t, exec (.scoreFilter id []) s = .next t ∧ s.Wrote id (s.sfOut o.desc) t :=
  ⟨_, exec_scoreFilter h [], scoreFilterRun_writes hc hl hread ▸ endWith_wrote h.1 hs (marks_sfMarked s o.desc) hp (sfOut_in s o.desc) _⟩

/-- Settles O21: the parts of each output lie side by side, so each reads back as written; the blocks sent are the forced ones and those
selected of the rest. -/
theorem filtersSendWhatMatches : Obligations.FiltersSendWhatMatches := by
  unfold Obligations.FiltersSendWhatMatches
  refine ⟨fun s id o ue h hc hrows hs hp => ?_, fun s id o h hc hl hpoison hlost hs hp => ?_, fun s id o ue h hc hnoop =>
    ⟨_, exec_scoreFilter h ue, ?_⟩⟩
  · obtain ⟨t, hexec, hwrote⟩ := rowFilter_writes h hc hrows hs hp
    exact ⟨t, hexec, hwrote.frame, hwrote.ended, rowFilter_sent hwrote, rowFilter_matched hwrote,
      fun hmode j hj => rowFilter_number hwrote hmode hj, fun hmode j k hj hk => rowFilter_row hwrote hmode hj hk,
      fun a ha => hwrote.outside (rfOut_in s o.desc) ha⟩
  · obtain ⟨t, hexec, hwrote⟩ := scoreFilter_writes h hc hl (readCheck_clean hpoison hlost) hs hp
    refine ⟨t, hexec, hwrote.frame, hwrote.ended, ?_, ?_, fun a ha => hwrote.outside (sfOut_in s o.desc) ha⟩
    · rw [scoreFilter_sent hwrote, length_sfSent]
      exact length_sfSelect s o.desc
    · rw [scoreFilter_sent hwrote, length_sfSent]
      exact Nat.le_add_right _ _
  · rw [scoreFilterRun_refused ue hc hnoop]
    exact done_ends_at_once h.1 _

end Sys2Proof.Machine
end

section
/-! PROOFS. An EXPAND whose run stands past its stream (R278, R281, R282). -/

namespace Sys2Proof.Machine

theorem exec_expand {s : State} {id : Nat} {o : Op} (h : s.runsOp id o 0x41) (ue : List Nat) :
    exec (.expand id ue) s = .next ((s.expandRun o ue).stepped o) :=
  congrArg Host.Outcome.next (onOp_of_runs h _)

/-- EXPAND to memory, without a result line: a stream of 128 B at 0x100 that declares 64 B, for 0x1000. -/
def spentDesc : BitVec 512 :=
  ([(128, 0x100), (192, 0x1000), (256, 128), (288, 64), (368, 4)] : List (Nat × Nat)).foldl (fun d p => d ||| BitVec.ofNat 512 p.2 <<< p.1) 0x41

/-- It runs, and what it has reached is the end of its stream: one block, yielded whole. -/
def spentOp : Op :=
  { id := 5, queue := 3, index := 0, ctx := 1, gen := 1, desc := spentDesc, dynamic := true
    run := { zgc := { pos := 128, block := 1, blocks := 1, raw := 64, yield := 64 } } }

/-- The stream is one good RAW block, of 64 bytes that hold 7; context 1 holds page 0, and nothing stands at 0x1000. -/
def spentState : State :=
  { State.reset with
    mem := putBytes [] 0x100 (zHeader 0 64 64 0 0 false 0 ++ List.replicate 64 7)
    tier := { State.reset.tier with rights := [(0, 1)] }
    ops := [spentOp] }

/-- What the clause of O23 on one good block asks for. -/
theorem spent_oneGoodBlock :
    spentState.runsOp 5 spentOp 0x41 ∧ spentState.expandCheck spentOp.ctx spentOp.desc spentOp.limit = .ok ∧ exSink spentOp.desc = false
      ∧ spentState.plainFor spentOp.ctx (exDst spentOp.desc) (cdiv (exDecl spentOp.desc) 64 * 64) ∧ exResEn spentOp.desc = false
      ∧ spentState.readCheck [] (exSrc spentOp.desc) (exComp spentOp.desc) = .ok ∧ 0 < exDecl spentOp.desc
      ∧ exComp spentOp.desc = 64 + le (spentState.bytes (exSrc spentOp.desc) 64) 6 2
      ∧ le (spentState.bytes (exSrc spentOp.desc) 64) 4 2 = exDecl spentOp.desc
      ∧ (zDecode spentOp.desc 0 0 (spentState.zHead spentOp.desc 0) (spentState.zPay spentOp.desc 0)).st = .ok := by
  decide +kernel

/-- The block yields 64 bytes that hold 7; the run decodes no block and ends OK, and the destination stays as it was. -/
theorem spent_decodes_nothing :
    (zDecode spentOp.desc 0 0 (spentState.zHead spentOp.desc 0) (spentState.zPay spentOp.desc 0)).data = List.replicate 64 7
      ∧ ((spentState.expandRun spentOp []).stepped spentOp).ended 5 .ok
      ∧ ((spentState.expandRun spentOp []).stepped spentOp).bytes (exDst spentOp.desc) (exDecl spentOp.desc) = List.replicate 64 0 := by
  decide +kernel

/-- Refutes O23: its clause on a stream of one good block does not ask that the run begin at the stream's first byte. EXPAND goes on from where
`run.zgc` stands; one that stands at the stream's end closes it and ends OK without the block's bytes. -/
theorem not_expandDecodesBlocks : ¬ Obligations.ExpandDecodesBlocks := by
  unfold Obligations.ExpandDecodesBlocks
  rintro ⟨-, hone, -⟩
  obtain ⟨hrun, hcheck, hsink, hplain, hline, hread, hdecl, hcomp, hraw, hgood⟩ := spent_oneGoodBlock
  obtain ⟨t, hexec, -, -, hbytes⟩ := hone spentState 5 spentOp [] hrun hcheck hsink (fun _ => rfl) hplain hline hread hdecl hcomp hraw hgood
  obtain rfl := Host.Outcome.next.inj ((exec_expand hrun []).symm.trans hexec)
  obtain ⟨hdata, -, hstays⟩ := spent_decodes_nothing
  rw [hdata, hstays] at hbytes
  exact absurd hbytes (by decide)

end Sys2Proof.Machine
end

section
/-! PROOFS. A message enters a switch core (R296, R314-R318): what the policer, the path's buffer and the queue each change. -/

namespace Sys2Proof.Machine

-- the policer

theorem mark3_colour (two aware : Bool) (colour n : Nat) (b : Bucket) : (mark3 two aware colour n b).1 ≤ 2 := by
  simp only [mark3]
  split_ifs <;> simp

/-- A policer leaves the state alone, or takes tokens from one bucket and counts the colour it gives (R315, R316, R325). -/
theorem police_cases (s : State) (d : Nat) (m : SwMsg) : (s.police d m).1 = s ∨ ∃ u c, (u = s ∨ ∃ b, u = s.setBucket b) ∧ c ≤ 2
    ∧ (s.police d m).1 = u.sat (polReg d (nbits (s.frd (tmReg d m.ctx)).toNat 16 12) (0x14 + 4 * c)) 1 := by
  unfold State.police
  extract_lets colour t p cfg r
  split
  · exact .inl rfl
  · refine .inr ⟨_, r.1, ?_, ?_, rfl⟩
    · split
      · exact .inr ⟨_, rfl⟩
      · exact .inl rfl
    · simp only [r]
      split
      · exact mark3_colour _ _ _ _ _
      · exact Nat.zero_le _

/-- The counts of the policer of context x at die d (R325). -/
def State.meterRegs (s : State) (d x : Nat) : List Nat := [0x14, 0x18, 0x1C].map (polReg d (nbits (s.frd (tmReg d x)).toNat 16 12) ·)

theorem mem_meterRegs (s : State) (d x : Nat) {c : Nat} (hc : c ≤ 2) :
    polReg d (nbits (s.frd (tmReg d x)).toNat 16 12) (0x14 + 4 * c) ∈ s.meterRegs d x :=
  List.mem_map_of_mem (f := (polReg d (nbits (s.frd (tmReg d x)).toNat 16 12) ·)) (by simp; omega)

theorem meterRegs_sub_switchRegs {s : State} {d x o : Nat} (h : o ∈ s.meterRegs d x) : o ∈ s.switchRegs d x := List.mem_append_right _ h

/-- The counts of a switch core lie below those of its policers. -/
theorem dieReg_notMem_meterRegs (s : State) (d x : Nat) {k : Nat} (hk : k < 0x620000) : dieReg d k ∉ s.meterRegs d x := by
  simp only [State.meterRegs, polReg, dieReg, List.map_cons, List.map_nil, List.mem_cons, List.not_mem_nil, or_false, not_or]
  omega

theorem only_police (s : State) (d : Nat) (m : SwMsg) : only [.sw] (s.meterRegs d m.ctx) s (s.police d m).1 := by
  obtain h | ⟨u, c, hu, hc, h⟩ := police_cases s d m <;> rw [h]
  · exact only_refl _ _ _
  · refine only_trans ?_ (only_sat _ _ _ ?_)
    · obtain rfl | ⟨b, rfl⟩ := hu
      · exact only_refl _ _ _
      · exact only_put_sw _ _ _ (by simp)
    · exact mem_meterRegs s d m.ctx hc

theorem items_police (s : State) (d : Nat) (m : SwMsg) : (s.police d m).1.sw.items = s.sw.items := by
  obtain h | ⟨u, c, hu, -, h⟩ := police_cases s d m <;> rw [h]
  rw [State.sat_sw]
  obtain rfl | ⟨b, rfl⟩ := hu <;> rfl

-- the path's buffer, and the queue

theorem only_offPath (s : State) (d : Nat) (m : SwMsg) : only [.sw] [] s (s.offPath d m) := by
  unfold State.offPath
  split
  · exact only_refl _ _ _
  · split
    · exact only_put_sw _ _ _ (by simp)
    · exact only_refl _ _ _

theorem items_offPath (s : State) (d : Nat) (m : SwMsg) : (s.offPath d m).sw.items = s.sw.items := by
  unfold State.offPath
  split
  · rfl
  · split <;> rfl

theorem only_enqueue (s : State) (d : Nat) (m : SwMsg) (cut dem : Bool) :
    only [.sw] [dieReg d 0x500, dieReg d 0x504] s (s.enqueue d m cut dem) :=
  only_trans (only_put_sw _ _ _ (by simp)) (only_cellSync _ _ _ (by simp) (by simp))

theorem items_enqueue (s : State) (d : Nat) (m : SwMsg) (cut dem : Bool) :
    ∃ i : QMsg, (s.enqueue d m cut dem).sw.items = s.sw.items ++ [i] ∧ i.die = d ∧ i.sent = 0 ∧ i.demoted = dem ∧ i.cut = cut ∧ i.m = m :=
  ⟨_, rfl, rfl, rfl, rfl, rfl, rfl⟩

-- what becomes of a message

/-- A message as it waits: with its colour, and whole unless its first cell may leave before its last is there (R296, R316). -/
def waitingMsg (m : SwMsg) (cut : Bool) (colour : Nat) : SwMsg := { (if cut then m else { m with arrived := m.cells }) with colour := colour }

theorem waitingMsg_eq (m : SwMsg) (cut : Bool) (colour : Nat) :
    waitingMsg m cut colour = { m with arrived := (waitingMsg m cut colour).arrived, colour := colour } := by cases cut <;> rfl

/-- The message joins its queue, and is counted as cut-through or as store and forward, and as demoted when its policer says so (R318, R321). -/
def State.counted (s : State) (d : Nat) (m : SwMsg) (cut dem demoted : Bool) : State :=
  ((s.enqueue d m cut dem).sat (dieReg d (if cut then 0x50C else 0x510)) 1).when demoted (·.sat (dieReg d 0x51C) 1)

theorem only_counted (s : State) (d : Nat) (m : SwMsg) (cut dem demoted : Bool) :
    only [.sw] ([0x500, 0x504, 0x50C, 0x510, 0x51C].map (dieReg d ·)) s (s.counted d m cut dem demoted) :=
  only_trans (only_mono (only_enqueue s d m cut dem) (by simp) (by simp)) (only_trans (only_sat _ _ _ (by cases cut <;> simp))
    (only_when _ _ fun _ => only_sat _ _ _ (by simp)))

theorem sw_counted (s : State) (d : Nat) (m : SwMsg) (cut dem demoted : Bool) :
    (s.counted d m cut dem demoted).sw = (s.enqueue d m cut dem).sw := by
  cases demoted <;> rfl

theorem rd_counted (s : State) (d : Nat) (m : SwMsg) (cut dem demoted : Bool) :
    ((s.counted d m cut dem demoted).rd (dieReg d (if cut then 0x50C else 0x510))).toNat =
      min 0xFFFFFFFF ((s.rd (dieReg d (if cut then 0x50C else 0x510))).toNat + 1) := by
  have hlast : only [] [dieReg d 0x51C] ((s.enqueue d m cut dem).sat (dieReg d (if cut then 0x50C else 0x510)) 1) (s.counted d m cut dem demoted) :=
    only_when _ _ fun _ => only_sat _ _ _ (by simp)
  rw [hlast.2 _ (by cases cut <;> simp [dieReg]), rd_sat_toNat, (only_enqueue s d m cut dem).2 _ (by cases cut <;> simp [dieReg])]

section
variable {s : State} {d : Nat} {m : SwMsg} {dem : Bool}

theorem exec_messageIngress (m : SwMsg) (hr : s.ready = true) (hu : s.dieUp d = true) : exec (.messageIngress d m) s = .next (s.ingress d m) :=
  congrArg Host.Outcome.next (if_pos (by rw [hr, hu]; rfl))

theorem ingress_dropped (he : s.enters d m = true) (hm : s.unmatched m = false) (hdrop : (s.police d m).2.2.2 = true) :
    s.ingress d m = (s.police d m).1.sat (dieReg d 0x518) 1 := by
  simp [State.ingress, he, hm, hdrop]

theorem ingress_stalled (he : s.enters d m = true) (hm : s.unmatched m = false) (hkeep : (s.police d m).2.2.2 = false)
    (hdem : dem = ((s.police d m).2.2.1 || (ingressDie m.ingress != d && (s.pathHead d m).any (·.2.1))))
    (hroom : s.noRoom d m dem = true) : s.ingress d m = s.stall d m dem := by
  subst hdem
  simp [State.ingress, he, hm, hkeep, hroom]

theorem ingress_queued (he : s.enters d m = true) (hm : s.unmatched m = false) (hkeep : (s.police d m).2.2.2 = false)
    (hdem : dem = ((s.police d m).2.2.1 || (ingressDie m.ingress != d && (s.pathHead d m).any (·.2.1))))
    (hroom : s.noRoom d m dem = false) (hjoin : dem = false → ((s.police d m).1.offPath d m).joins d m = none) :
    ∃ cut, s.ingress d m =
      ((s.police d m).1.offPath d m).counted d (waitingMsg m cut (s.police d m).2.1) cut dem (s.police d m).2.2.1 := by
  have hnone : (if dem then none else ((s.police d m).1.offPath d m).joins d m) = none := by
    cases dem
    · exact hjoin rfl
    · rfl
  refine ⟨((s.police d m).1.offPath d m).cutThrough d m (s.police d m).2.1 dem, ?_⟩
  unfold State.ingress
  simp only [hm, State.when_false, he, hkeep, ← hdem, hroom, hnone, Bool.not_true, Bool.false_eq_true, if_false]
  rfl

/-- What its policer drops waits nowhere (R318). -/
theorem dropped_spec (he : s.enters d m = true) (hm : s.unmatched m = false) (hdrop : (s.police d m).2.2.2 = true) :
    only [.sw] (s.switchRegs d m.ctx) s (s.ingress d m) ∧ (s.ingress d m).sw.items = s.sw.items
      ∧ ((s.ingress d m).rd (dieReg d 0x518)).toNat = min 0xFFFFFFFF ((s.rd (dieReg d 0x518)).toNat + 1) := by
  have hpol := only_police s d m
  rw [ingress_dropped he hm hdrop]
  refine ⟨only_trans (only_mono hpol (fun _ hp => hp) fun _ => meterRegs_sub_switchRegs) (only_sat _ _ _ (by simp [State.switchRegs])),
    by rw [State.sat_sw, items_police], ?_⟩
  rw [rd_sat_toNat, hpol.2 _ (dieReg_notMem_meterRegs s d m.ctx (by decide))]

/-- What finds no room is held back at its ingress (R294). -/
theorem stalled_spec (he : s.enters d m = true) (hm : s.unmatched m = false) (hkeep : (s.police d m).2.2.2 = false)
    (hdem : dem = ((s.police d m).2.2.1 || (ingressDie m.ingress != d && (s.pathHead d m).any (·.2.1))))
    (hroom : s.noRoom d m dem = true) :
    only [.sw] [] s (s.ingress d m) ∧ (s.ingress d m).sw.items = s.sw.items ∧ (d, m, dem) ∈ (s.ingress d m).sw.stalled := by
  rw [ingress_stalled he hm hkeep hdem hroom]
  exact ⟨only_put_sw _ _ _ (by simp), rfl, List.mem_cons_self⟩

/-- What finds room and joins no other waits at its egress (R296, R316, R318). -/
theorem queued_spec (he : s.enters d m = true) (hm : s.unmatched m = false) (hkeep : (s.police d m).2.2.2 = false)
    (hdem : dem = ((s.police d m).2.2.1 || (ingressDie m.ingress != d && (s.pathHead d m).any (·.2.1))))
    (hroom : s.noRoom d m dem = false) (hjoin : dem = false → ((s.police d m).1.offPath d m).joins d m = none) :
    ∃ i : QMsg, only [.sw] (s.switchRegs d m.ctx) s (s.ingress d m) ∧ (s.ingress d m).sw.items = s.sw.items ++ [i]
      ∧ i.die = d ∧ i.sent = 0 ∧ i.demoted = dem ∧ i.m = { m with arrived := i.m.arrived, colour := (s.police d m).2.1 }
      ∧ (i.cut = false → i.m.arrived = m.cells)
      ∧ ((s.ingress d m).rd (dieReg d (if i.cut then 0x50C else 0x510))).toNat =
          min 0xFFFFFFFF ((s.rd (dieReg d (if i.cut then 0x50C else 0x510))).toNat + 1) := by
  obtain ⟨cut, hin⟩ := ingress_queued he hm hkeep hdem hroom hjoin
  obtain ⟨i, hitems, hdie, hsent, hidem, hcut, him⟩ :=
    items_enqueue ((s.police d m).1.offPath d m) d (waitingMsg m cut (s.police d m).2.1) cut dem
  have hmet : only [.sw] (s.meterRegs d m.ctx) s ((s.police d m).1.offPath d m) :=
    only_trans (only_police s d m) (only_mono (only_offPath _ d m) (fun _ hp => hp) (by simp))
  rw [hin]
  refine ⟨i, ?_, ?_, hdie, hsent, hidem, ?_, ?_, ?_⟩
  · exact only_trans (only_mono hmet (fun _ hp => hp) fun _ => meterRegs_sub_switchRegs)
      (only_mono (only_counted _ _ _ _ _ _) (fun _ hp => hp) (by simp [State.switchRegs]))
  · rw [sw_counted, hitems, items_offPath, items_police]
  · rw [him]
    exact waitingMsg_eq _ _ _
  · intro hno
    rw [him, ← hcut, hno]
    rfl
  · rw [hcut, rd_counted, hmet.2 _ (dieReg_notMem_meterRegs s d m.ctx (by cases cut <;> decide))]

end

end Sys2Proof.Machine
end

section
/-! PROOFS. A position of an egress (R297, R303, R311): one cell leaves, or the position stays idle, or a message ends with a stomp. -/

namespace Sys2Proof.Machine

/-- From s to t one thing is put at a position of egress e of die d. -/
structure State.Puts (s : State) (d e : Nat) (t : State) : Prop where
  out : ∃ c : Out, t.out = c :: s.out ∧ c.atPosition d e = true
  served : t.sw.served = s.sw.served
  frame : only [.sw, .out, .health] [dieReg d 0x500, dieReg d 0x504, dieReg d 0x514] s t

section
variable {s t : State} {d e : Nat} {i : QMsg}

theorem mem_at : i ∈ s.at d e ↔ i ∈ s.sw.items ∧ i.die = d ∧ i.m.egress = e := by simp [State.at]

-- what is put, and the counts that follow it

/-- Of the switch core anything may change before but what the positions count. -/
theorem puts_emit {u : State} {c : Out} (hf : only [.sw] [] s u) (hs : u.sw.served = s.sw.served) (hc : c.atPosition d e = true) :
    s.Puts d e (u.emit c) :=
  ⟨⟨c, congrArg (c :: ·) (hf.1 .out (by simp)), hc⟩, hs, only_trans (only_mono hf (by simp) (by simp)) (only_emit _ _ _ (by simp))⟩

theorem puts_idle (s : State) (d e : Nat) : s.Puts d e (s.emit (.idleCell d e)) := puts_emit (only_refl _ _ _) rfl (by simp [Out.atPosition])

theorem State.Puts.of_sw {v : SwS} (h : State.Puts { s with sw := v } d e t) (hv : v.served = s.sw.served) : s.Puts d e t :=
  ⟨h.out, h.served.trans hv, only_trans (only_put_sw _ s v (by simp)) h.frame⟩

/-- Counts alone follow: of a unit's progress (R522), of stomps, of the cells in use (R321). -/
theorem State.Puts.count {u : State} (h : s.Puts d e t) (hf : only [.health] [dieReg d 0x500, dieReg d 0x504, dieReg d 0x514] t u) :
    s.Puts d e u := by
  obtain ⟨⟨c, hout, hc⟩, hserved, hframe⟩ := h
  exact ⟨⟨c, (hf.1 .out (by simp)).trans hout, hc⟩, (congrArg SwS.served (hf.1 .sw (by simp))).trans hserved,
    only_trans hframe (only_mono hf (by simp) (fun _ ho => ho))⟩

theorem State.Puts.progress (h : s.Puts d e t) (x : HUnit) : s.Puts d e (t.progress x) := h.count (only_progress _ _ _ (by simp))

theorem State.Puts.unstall (h : s.Puts d e t) : s.Puts d e (t.unstall d) :=
  ⟨h.out, h.served, only_trans h.frame (only_put_sw _ _ _ (by simp))⟩

/-- The cells in use are counted, and stalls end where room has come (R294, R321). -/
theorem State.Puts.settled (h : s.Puts d e t) : s.Puts d e ((t.cellSync d).unstall d) :=
  (h.count (only_cellSync _ _ _ (by simp) (by simp))).unstall

theorem puts_sendCell (hd : i.die = d) (he : i.m.egress = e) : s.Puts d e (s.sendCell i) := by
  subst hd he
  unfold State.sendCell
  extract_lets d e x s1 j crosses _ s2 s3 s4
  have h1 : only [.sw] [] s s1 ∧ s1.sw.served = s.sw.served := by
    simp only [s1]
    split
    · exact ⟨only_put_sw _ _ _ (by simp), rfl⟩
    · exact ⟨only_refl _ _ _, rfl⟩
  have h2 : only [.sw] [] s s2 ∧ s2.sw.served = s.sw.served := by
    simp only [s2]
    split
    · exact ⟨only_trans h1.1 (only_put_sw _ _ _ (by simp)), h1.2⟩
    · exact ⟨only_trans h1.1 (only_put_sw _ _ _ (by simp)), h1.2⟩
  have h3 : s.Puts d e s3 := (puts_emit h2.1 h2.2 (by simp [Out.atPosition])).progress _
  have h4 : s.Puts d e s4 := by
    simp only [s4]
    split_ifs
    · exact h3.progress _
    · exact h3.progress _
    · exact h3
  exact h4.settled

/-- A message in transmission sends its next cell, or ends with a stomp when that is not there (R297). -/
theorem puts_continueTx (hd : i.die = d) (he : i.m.egress = e) (r : Bool) : s.Puts d e (s.continueTx i r) := by
  unfold State.continueTx
  split
  · subst hd he
    have hstomp := puts_emit (s := s) (d := i.die) (e := i.m.egress) (c := .stomp i.die i.m.egress)
      (only_put_sw [] s { s.sw with items := s.sw.items.filter (fun k => k.id != i.id) } (by simp)) rfl (by simp [Out.atPosition])
    exact (hstomp.count (only_sat _ _ _ (by simp))).settled
  · exact puts_sendCell hd he

-- what is chosen waits at the egress

/-- A choice that keeps what it has or takes the next one takes it from the list. -/
theorem mem_of_foldl_choice {l : List QMsg} {f : Option QMsg → QMsg → Option QMsg} (hf : ∀ b k, f b k = b ∨ f b k = some k)
    (h : l.foldl f none = some i) : i ∈ l := by
  refine List.foldlRecOn (motive := fun b => ∀ k, b = some k → k ∈ l) l f (by simp) (fun b hb a ha k hk => ?_) i h
  obtain hkeep | htake := hf b a
  · exact hb k (hkeep ▸ hk)
  · exact Option.some.inj (htake ▸ hk) ▸ ha

theorem mem_of_cohHead {l : List QMsg} (h : cohHead l = some i) : i ∈ l := by
  refine List.mem_of_mem_filter (mem_of_foldl_choice (fun b k => ?_) h)
  cases b with
  | none => exact .inr rfl
  | some j => by_cases hj : j.m.coh < k.m.coh <;> simp [hj]

theorem mem_of_leafHeads {l : List QMsg} (h : i ∈ leafHeads l) : i ∈ l := by
  obtain h | h := List.mem_append.1 h
  · exact mem_of_cohHead (Option.mem_toList.1 h)
  · exact List.mem_of_mem_filter (List.mem_of_mem_filter h)

theorem mem_of_fairPick {l : List QMsg} (h : fairPick l = some i) : i ∈ l := by
  refine mem_of_foldl_choice (fun b k => ?_) h
  cases b with
  | none => exact .inr rfl
  | some j => by_cases hj : fairBefore k j <;> simp [hj]

theorem mem_of_nadirPick {l : List QMsg} {last : Option Nat} (h : nadirPick l last = some i) : i ∈ l := by
  unfold nadirPick at h
  extract_lets heads least at h
  have hheads : ∀ {k}, k ∈ heads → k ∈ l := fun hk => List.mem_of_mem_filter (List.mem_of_mem_filter hk)
  have hleast : ∀ {m : List QMsg} {k}, least m = some k → k ∈ m := fun hk => by
    refine mem_of_foldl_choice (fun b k => ?_) hk
    cases b with
    | none => exact .inr rfl
    | some j => by_cases hj : k.m.ctx < j.m.ctx <;> simp [hj]
  cases last with
  | none => exact hheads (hleast h)
  | some c =>
    cases hafter : least (heads.filter (fun k => c < k.m.ctx)) with
    | none => exact hheads (hleast (by simpa [hafter] using h))
    | some k =>
      obtain rfl : k = i := by simpa [hafter] using h
      exact hheads (List.mem_of_mem_filter (hleast hafter))

-- a position

theorem puts_dynamicPosition (s : State) (d e : Nat) (r : Bool) : s.Puts d e (s.dynamicPosition d e r) := by
  have hat : ∀ {k}, k ∈ s.at d e → k.die = d ∧ k.m.egress = e := fun hk => (mem_at.1 hk).2
  unfold State.dynamicPosition
  extract_lets l ok
  split
  next k hk =>
    obtain ⟨hd, he⟩ := hat (List.mem_of_find?_eq_some hk)
    exact puts_continueTx hd he r
  split
  next k hk =>
    obtain ⟨hd, he⟩ := hat (mem_of_leafHeads (List.mem_of_mem_filter (mem_of_fairPick hk)))
    exact (puts_sendCell hd he).of_sw rfl
  split
  next k hk =>
    obtain ⟨hd, he⟩ := hat (List.mem_of_mem_filter (mem_of_nadirPick hk))
    exact (puts_sendCell hd he).of_sw rfl
  exact puts_idle s d e

/-- A message found at the egress goes on there. -/
theorem puts_found {q : QMsg → Bool} (h : (s.at d e).find? q = some i) (r : Bool) : s.Puts d e (s.continueTx i r) := by
  obtain ⟨-, hd, he⟩ := mem_at.1 (List.mem_of_find?_eq_some h)
  exact puts_continueTx hd he r

theorem puts_fill (s : State) (d e : Nat) (pos : Position) (r : Bool) : s.Puts d e (s.fill d e pos r) := by
  cases pos with
  | control =>
    simp only [State.fill]
    split
    next hk => exact puts_found hk r
    · exact puts_idle s d e
  | zenith flow =>
    simp only [State.fill]
    split
    next hk => exact puts_found hk r
    · exact puts_dynamicPosition s d e r
  | free =>
    simp only [State.fill]
    split
    next hk => exact puts_found hk r
    · exact puts_dynamicPosition s d e r

theorem nadirPick_nil (last : Option Nat) : nadirPick [] last = none := by cases last <;> rfl

theorem fill_empty (h : s.at d e = []) (pos : Position) (r : Bool) : s.fill d e pos r = s.emit (.idleCell d e) := by
  have hdyn : s.dynamicPosition d e r = s.emit (.idleCell d e) := by
    simp [State.dynamicPosition, h, leafHeads, cohHead, fairPick, nadirPick_nil]
  cases pos <;> simp [State.fill, h, hdyn]

theorem usedPositions_usePosition (s : State) (d e : Nat) : (s.usePosition d e).usedPositions d e = s.usedPositions d e + 1 := by
  simp [State.usePosition, State.usedPositions]

theorem usedPositions_of_served (h : t.sw.served = s.sw.served) : t.usedPositions d e = s.usedPositions d e := by
  rw [State.usedPositions, h, ← State.usedPositions]

theorem exec_egressPosition (r : Bool) (hr : s.ready = true) (hu : s.dieUp d = true) (he : validEgress d e = true) :
    exec (.egressPosition d e r) s = .next (s.position d e r) :=
  congrArg Host.Outcome.next (if_pos (by rw [hr, hu, he]; rfl))

theorem position_left (r : Bool) (h : s.usedPositions d e < s.egressRate d e) :
    s.position d e r = (s.fill d e (s.nextPosition d e) r).usePosition d e := if_pos h

theorem position_spent (r : Bool) (h : s.egressRate d e ≤ s.usedPositions d e) : s.position d e r = s := if_neg (Nat.not_lt.2 h)

/-- A position that the slot has left carries one thing, and is used up. -/
theorem position_spec (r : Bool) (h : s.usedPositions d e < s.egressRate d e) :
    (∃ c : Out, (s.position d e r).out = c :: s.out ∧ c.atPosition d e = true)
      ∧ (s.position d e r).usedPositions d e = s.usedPositions d e + 1
      ∧ only [.sw, .out, .health] [dieReg d 0x500, dieReg d 0x504, dieReg d 0x514] s (s.position d e r) := by
  obtain ⟨hout, hserved, hframe⟩ := puts_fill s d e (s.nextPosition d e) r
  rw [position_left r h]
  exact ⟨hout, by rw [usedPositions_usePosition, usedPositions_of_served hserved], only_trans hframe (only_put_sw _ _ _ (by simp))⟩

theorem position_empty (r : Bool) (h : s.usedPositions d e < s.egressRate d e) (he : s.at d e = []) :
    s.position d e r = (s.emit (.idleCell d e)).usePosition d e := by
  rw [position_left r h, fill_empty he]

end

end Sys2Proof.Machine
end

section
/-! PROOFS. Messages and cells of a switch core: what enters, what leaves, and the credits that go back (R293, R294, R296, R303, R454). -/

namespace Sys2Proof.Machine

section
variable {s : State} {l c n : Nat}

/-- What CREDIT_RETURN does: the far end of link port l holds n credits more. -/
def State.credited (s : State) (l c n : Nat) : State :=
  (s.setGiven l (creditStream c) (s.givenOf l (creditStream c) + n)).emit (.credit l (creditStream c) n)

theorem givenOf_credited (s : State) (l c n : Nat) :
    (s.credited l c n).givenOf l (creditStream c) = s.givenOf l (creditStream c) + n := by
  simp [State.credited, State.givenOf, State.setGiven]

theorem exec_creditReturn (hr : s.ready = true) (hup : s.fld (linkBlock l) 0 3 = 2) (hn : n ≠ 0)
    (hheld : ∀ p ∈ s.sw.stalled, ¬ (p.2.1.ingress = 0x40 + l ∧ swKind p.2.1 = creditStream c))
    (hmax : s.givenOf l (creditStream c) + n ≤ s.creditMax) : exec (.creditReturn l c n) s = .next (s.credited l c n) :=
  congrArg Host.Outcome.next (if_pos (by simpa [hr, hup, hn, hmax] using hheld))

theorem exec_creditReturn_held {p : Nat × SwMsg × Bool} (hp : p ∈ s.sw.stalled) (hin : p.2.1.ingress = 0x40 + l)
    (hk : swKind p.2.1 = creditStream c) : exec (.creditReturn l c n) s = .next s := by
  have hany : s.sw.stalled.any (fun p => p.2.1.ingress == 0x40 + l && swKind p.2.1 == creditStream c) = true :=
    List.any_eq_true.2 ⟨p, hp, by simp [hin, hk]⟩
  exact congrArg Host.Outcome.next (if_neg (by simp [hany]))

end

/-- Settles O24, by what becomes of a message at its ingress, what a position puts, and when credits go back. -/
theorem messagesQueueAndPositionsCarryOneCell : Obligations.MessagesQueueAndPositionsCarryOneCell := by
  unfold Obligations.MessagesQueueAndPositionsCarryOneCell
  refine ⟨fun s d m dem hr hu he hm hdem => ?_, fun s d e r hr hu he => ?_, fun s l c n hr hup hn =>
    ⟨fun hheld hmax => ?_, fun p hp hin hk => ?_⟩⟩
  · have hexec := exec_messageIngress m hr hu
    refine ⟨fun hkeep hroom hjoin => ?_, fun hdrop => ?_, fun hkeep hroom => ?_⟩
    · obtain ⟨i, hi⟩ := queued_spec he hm hkeep hdem hroom hjoin
      exact ⟨_, i, hexec, hi⟩
    · exact ⟨_, hexec, dropped_spec he hm hdrop⟩
    · exact ⟨_, hexec, stalled_spec he hm hkeep hdem hroom⟩
  · have hexec := exec_egressPosition r hr hu he
    refine ⟨fun hleft => ⟨?_, fun hempty => ?_⟩, fun hspent => ?_⟩
    · obtain ⟨⟨c, hout, hc⟩, hused, hframe⟩ := position_spec r hleft
      exact ⟨_, c, hexec, hout, hc, hused, hframe⟩
    · rw [hexec, position_empty r hleft hempty]
      exact ⟨_, rfl, only_trans (only_emit _ _ _ (by simp)) (only_put_sw _ _ _ (by simp)), rfl, rfl⟩
    · rw [hexec, position_spent r hspent]
  · exact ⟨_, exec_creditReturn hr hup hn hheld hmax, only_trans (only_put_link _ _ _ (by simp)) (only_emit _ _ _ (by simp)), rfl,
      givenOf_credited s l c n⟩
  · exact exec_creditReturn_held hp hin hk

end Sys2Proof.Machine
end
